-- ==== Sys2Proof/Word.lean ====
section
/-! DEFINITION. The words the manual treats as bits: bytes, 32-bit register words, 64-bit quantities. -/

namespace Sys2Proof

/-- One byte of a packet, a frame, a record or a Leaf (R7). -/
abbrev Byte := BitVec 8

/-- One 32-bit register access (R12). -/
abbrev Word := BitVec 32

/-- A 64-bit quantity, such as a position count, a host address or a serial. -/
abbrev DWord := BitVec 64

/-- The largest value of a saturating 32-bit counter. -/
def maxU32 : Nat := 0xFFFFFFFF

end Sys2Proof
end

