-- ==== Sys2Proof/Syntax.lean ====
section
/-!
DEFINITION. The commands of the NL8640 as a block: one constructor of `Instr` per row of
spec/opcode_table.json, with the operands that reach the device from outside (host memory read results,
sensor samples, levels at balls, outcomes of analog or physical processes).
-/

namespace Sys2Proof

/-- Where a command packet comes from (R155, R161): the command rings and the two SPI ports. -/
inductive Source where
  | ring (n : Fin 4)
  | mgmt
  | sup
  deriving DecidableEq, Repr

/-- The two SPI targets (R119). -/
inductive SpiPort where
  | mgmt
  | sup
  deriving DecidableEq, Repr

/-- The paths of register access (R12, R126): BAR0, the management port and the supervisor port. The last is the
PCIe configuration space, which holds the MSI-X function mask of R114 and nothing else in this model. -/
inductive Path where
  | bar0
  | mgmt
  | sup
  | config
  deriving DecidableEq, Repr

/-- The rings in host memory (R106, R113). -/
inductive RingId where
  | cmd (n : Fin 4)
  | ingest (n : Fin 8)
  | event
  deriving DecidableEq, Repr

/-- How a read of host memory ends (R109, R145): the bytes, or a failed completion. -/
inductive Fetch where
  | ok (bytes : List Byte)
  | unsupported
  | abort
  | poison
  deriving DecidableEq, Repr

/-- A command packet as the Kettle sees it when it starts (R140): header fields, and the parameter bytes, `params`
at index k being packet byte 16 + k (R173). `indirect` says that they came through a pointer block (R142), whose 48 packet
bytes 16..63 are then `block`;
`signed` that the packet came in a SUBMIT_SIGNED frame that passed its checks (R131, R133); `reads` are the further host memory reads an opcode makes (the static images of R383, in field order). -/
structure Cmd where
  src : Source
  flags : Byte
  tag : BitVec 16
  deadline : Word
  seq : Word
  params : List Byte
  indirect : Bool
  block : List Byte
  signed : Bool
  reads : List Fetch
  deriving DecidableEq, Repr

/-- What MSIX_UNMASK unmasks (R114). -/
inductive MsixTarget where
  | vector (v : Fin 64)
  | function
  deriving DecidableEq, Repr

/-- The level found on a strap in the sampling window of R548. -/
inductive StrapLevel where
  | low
  | high
  | changing
  deriving DecidableEq, Repr

/-- What training finds on a channel (R475): capacity, ranks, width and density. -/
structure Geometry where
  gib : Nat
  ranks : Nat
  x16 : Bool
  density : Fin 3
  deriving DecidableEq, Repr

/-- A codec lane (R236). -/
inductive LaneId where
  | dec (n : Fin 16)
  | enc (n : Fin 12)
  deriving DecidableEq, Repr

/-- What happens to an attempt besides its data (R246): nothing, or a guard failure on a fetch after so many raw bytes
have been written. A lane fault is a command of its own. -/
inductive AttemptUpset where
  | none
  | guardFail (written : Nat)
  deriving DecidableEq, Repr

/-- How an encode lane's band ends (R256, R257): the whole band has been encoded (`upset`: an error of the lane itself, which
its built-in decoder sees), or a bit has fallen at the body limit when only this part of the band had been read. -/
inductive EncodeEnd where
  | whole (upset : Bool)
  | early (part : List Byte)
  deriving DecidableEq, Repr

/-- What a failed guard word covers (R478). -/
inductive GuardTarget where
  | leafCopy (job : Word) (key : Word) (channel : Fin 2)
  | indexCopy (job : Word) (key : Word)
  | recipeCopy (slot : Fin 32) (otherGood : Bool)
  | other (otherGood : Bool)
  deriving DecidableEq, Repr

/-- Which half of R443 declares a chopper fault. -/
inductive ChopperCause where
  | noFeedback
  | noFall
  deriving DecidableEq, Repr

/-- The two errors an ALERT_n pulse reports (R494), and how the replay ends: `third` says that the failed command
has now failed its third replay, and `retrain` whether the training of R495 then passes. -/
structure Alert where
  parity : Bool
  third : Bool
  retrain : Bool
  deriving DecidableEq, Repr

/-- The local table copies of a station over one facet (R303): no parity error, a table reloaded from the other channel's copy of
the recipe, or both copies failing their guard. -/
inductive TableCheck where
  | intact | reloaded | lost
  deriving DecidableEq, Repr

/-- What PARKED_COMMAND_RESUME brings to the command that waits (R157): one constructor per kind of hardware
completion. -/
inductive Resume where
  /-- The bytes each head memory answered, none for a head that did not acknowledge (R323). -/
  | headMemories (mems : List (Option (List Byte)))
  /-- A capping move or a spit has ended (R345). -/
  | headDone
  /-- The measurements of a station calibration have ended (R198). -/
  | calibrated
  /-- A codec run has come to its end or to the end of its destination (R258..R261): the source buffer as the lane read it;
  on an encode lane also how many source bytes it has read since the start, the bits pending in it (R258), and whether its
  built-in decoder saw an error of the lane itself (R256). -/
  | codec (source : List Byte) (reached : Nat) (pending : Nat) (upset : Bool)
  /-- What reads back at the tightened reference after a burn (R534): first the row, then for each spare row tried that
  row and its REDIRECT entry. A place that the list does not reach reads back as intended. -/
  | burned (readBack : List (BitVec 72))
  /-- The entropy source's health test result and its draw (R211). -/
  | entropy (healthy : Bool) (key : BitVec 256)
  /-- The march test of the retired Steep slots has ended: bit 6 × station + slot for each slot that fails (R281). -/
  | march (fails : BitVec 36)
  /-- Signature verification has ended (R133, R184). -/
  | verified
  deriving DecidableEq, Repr

/-- One command of the block. -/
inductive Instr where
  /-- NOP (R177). -/
  | nop (c : Cmd)
  /-- ECHO (R178). -/
  | echo (c : Cmd)
  /-- GET_INFO (R178). -/
  | getInfo (c : Cmd)
  /-- GET_STATUS (R178). -/
  | getStatus (c : Cmd)
  /-- SET_MODE (R44, R178). -/
  | setMode (c : Cmd)
  /-- SET_WAKE_BUDGET (R49, R178). -/
  | setWakeBudget (c : Cmd)
  /-- SET_EVENT_ROUTE (R180). -/
  | setEventRoute (c : Cmd)
  /-- LOAD_RECIPE (R184). -/
  | loadRecipe (c : Cmd)
  /-- QUERY_RECIPE (R184). -/
  | queryRecipe (c : Cmd)
  /-- ACTIVATE_RECIPES (R185). -/
  | activateRecipes (c : Cmd)
  /-- OPEN_JOB (R189, R191). -/
  | openJob (c : Cmd)
  /-- ADMIT_SHEET (R384). -/
  | admitSheet (c : Cmd)
  /-- COMMIT_SHEET (R229). -/
  | commitSheet (c : Cmd)
  /-- CANCEL_SHEET (R191). -/
  | cancelSheet (c : Cmd)
  /-- CLOSE_JOB (R189). -/
  | closeJob (c : Cmd)
  /-- QUERY_SHEET (R190). -/
  | querySheet (c : Cmd)
  /-- EVICT_LEAVES (R231). -/
  | evictLeaves (c : Cmd)
  /-- AXIS_HOME (R419). -/
  | axisHome (c : Cmd)
  /-- AXIS_MOVE (R418). -/
  | axisMove (c : Cmd)
  /-- AXIS_GROUP_MOVE (R420). -/
  | axisGroupMove (c : Cmd)
  /-- AXIS_STOP (R417). -/
  | axisStop (c : Cmd)
  /-- AXIS_QUERY (R193). -/
  | axisQuery (c : Cmd)
  /-- MOTOR_START (R437). -/
  | motorStart (c : Cmd)
  /-- MOTOR_STOP (R437). -/
  | motorStop (c : Cmd)
  /-- MOTOR_SET_SPEED (R193). -/
  | motorSetSpeed (c : Cmd)
  /-- MOTOR_QUERY (R193). -/
  | motorQuery (c : Cmd)
  /-- LOOP_SET (R452). -/
  | loopSet (c : Cmd)
  /-- LOOP_SETPOINT (R458). -/
  | loopSetpoint (c : Cmd)
  /-- LOOP_MODE (R462). -/
  | loopMode (c : Cmd)
  /-- LOOP_QUERY (R196). -/
  | loopQuery (c : Cmd)
  /-- HEAD_SCAN (R323). -/
  | headScan (c : Cmd)
  /-- HEAD_MAINTAIN (R345). -/
  | headMaintain (c : Cmd)
  /-- HEAD_MARK_DEAD (R333). -/
  | headMarkDead (c : Cmd)
  /-- STATION_CALIBRATE (R198). -/
  | stationCalibrate (c : Cmd)
  /-- STATION_LOCK (R312). -/
  | stationLock (c : Cmd)
  /-- STATION_QUERY (R198). -/
  | stationQuery (c : Cmd)
  /-- DRAM_TRAIN (R482). -/
  | dramTrain (c : Cmd)
  /-- DRAM_SET_RATE (R484). -/
  | dramSetRate (c : Cmd)
  /-- DRAM_QUERY (R200). -/
  | dramQuery (c : Cmd)
  /-- FAULT_READ (R202). -/
  | faultRead (c : Cmd)
  /-- FAULT_CLEAR (R511). -/
  | faultClear (c : Cmd)
  /-- FAULT_SET_SEVERITY (R512). -/
  | faultSetSeverity (c : Cmd)
  /-- FAULT_INJECT (R519). -/
  | faultInject (c : Cmd)
  /-- FUSE_READ (R204). -/
  | fuseRead (c : Cmd)
  /-- FUSE_SHADOW (R535). -/
  | fuseShadow (c : Cmd)
  /-- FUSE_BURN (R534). -/
  | fuseBurn (c : Cmd)
  /-- FUSE_LOCK_REGION (R536). -/
  | fuseLockRegion (c : Cmd)
  /-- JOURNAL_READ (R369). -/
  | journalRead (c : Cmd)
  /-- JOURNAL_SEAL (R363). -/
  | journalSeal (c : Cmd)
  /-- JOURNAL_COLLECTED (R366). -/
  | journalCollected (c : Cmd)
  /-- SERIAL_QUERY (R206). -/
  | serialQuery (c : Cmd)
  /-- SERIAL_ANCHOR (R356). -/
  | serialAnchor (c : Cmd)
  /-- CODEC_RUN (R263). -/
  | codecRun (c : Cmd)
  /-- PROVISION (R211). -/
  | provision (c : Cmd)
  /- The frame operand of an SPI command is every byte on MOSI over the frame's full length: those under the answer are
  what the master sends then. -/
  /-- WRITE_REG (R120): a management frame. -/
  | writeReg (frame : List Byte)
  /-- READ_REG (R120): the bytes the master sends. -/
  | readReg (port : SpiPort) (frame : List Byte)
  /-- READ_STATUS (R122). -/
  | readStatus (port : SpiPort) (frame : List Byte)
  /-- SUBMIT (R123). -/
  | submit (port : SpiPort) (frame : List Byte)
  /-- FETCH_REPLY (R123). -/
  | fetchReply (port : SpiPort) (frame : List Byte)
  /-- READ_JBUF (R369). -/
  | readJbuf (frame : List Byte)
  /-- SUBMIT_SIGNED (R133). -/
  | submitSigned (frame : List Byte)
  /-- SIGNATURE_VERIFIED (R133). -/
  | signatureVerified
  /-- SPI_REPLY_TIMEOUT (R124): for the queued packet with that tag. -/
  | spiReplyTimeout (port : SpiPort) (tag : BitVec 16)
  /-- RING_ENABLE (R110): a write of CFG with EN set. -/
  | ringEnable (r : RingId) (cfg : Word)
  /-- RING_DISABLE (R110): a write of CFG with EN clear. -/
  | ringDisable (r : RingId) (cfg : Word)
  /-- RING_DRAINED (R110). -/
  | ringDrained (r : RingId)
  /-- RING_DOORBELL (R109). -/
  | ringDoorbell (r : RingId) (tail : BitVec 16)
  /-- REPLY_RING_CONSUME (R109). -/
  | replyRingConsume (r : RingId) (rtail : BitVec 16)
  /-- EVENT_RING_CONSUME (R113). -/
  | eventRingConsume (ctail : BitVec 16)
  /-- BAR2_WINDOW_SELECT (R115). -/
  | bar2WindowSelect (value : Word)
  /-- MSIX_UNMASK (R114). -/
  | msixUnmask (t : MsixTarget)
  /-- REGISTER_WRITE (R8). -/
  | registerWrite (path : Path) (offset : BitVec 16) (value : Word)
  /-- LOW_WORD_READ (R12). -/
  | lowWordRead (path : Path) (offset : BitVec 16)
  /-- MOT_BUS_PEAK_READ (R449). -/
  | motBusPeakRead (path : Path)
  /-- TMP_PEAK_READ (R544). -/
  | tmpPeakRead (path : Path)
  /-- BAR2_READ (R117): offset in the window, byte count, and whether a burst of it fails its guard. -/
  | bar2Read (offset : BitVec 28) (len : Nat) (guardFails : Bool)
  /-- BAR2_WRITE (R116). -/
  | bar2Write (offset : BitVec 28) (data : List Byte)
  /-- RING_ENTRY_FETCHED (R156). -/
  | ringEntryFetched (ring : Fin 4) (r : Fetch)
  /-- PACKET_START (R157); `reads` as in `Cmd`. -/
  | packetStart (reads : List Fetch)
  /-- INDIRECT_BLOCK_FETCHED (R145). -/
  | indirectBlockFetched (r : Fetch) (reads : List Fetch)
  /-- PARKED_COMMAND_RESUME (R157): the k-th parked command. -/
  | parkedCommandResume (k : Nat) (d : Resume)
  /-- PACKET_DEADLINE_EXPIRY (R164). -/
  | packetDeadlineExpiry (src : Source) (tag : BitVec 16)
  /-- REPLY_COALESCE_EXPIRY (R111). -/
  | replyCoalesceExpiry (r : RingId)
  /-- KETTLE_LOCKSTEP_MISMATCH (R167): with the outcome of the self-test of step 3. -/
  | kettleLockstepMismatch (selfTest : Bool)
  /-- KETTLE_WATCHDOG_EXPIRY (R167). -/
  | kettleWatchdogExpiry (selfTest : Bool)
  /-- PERST_N_ASSERT (R61). -/
  | perstNAssert
  /-- HOT_RESET (R102). -/
  | hotReset
  /-- FUNCTION_LEVEL_RESET (R102). -/
  | functionLevelReset
  /-- D3HOT_TO_D0 (R102). -/
  | d3hotToD0
  /-- LINK_UP (R501). -/
  | linkUp
  /-- POWER_ON_RESET (R553): REFCLK_XO sensed low or not (R71). -/
  | powerOnReset (xoLow : Bool)
  /-- RST_N_ASSERT (R552). -/
  | rstNAssert
  /-- RESET_RELEASE (R55): the straps, and PWRFAIL_N low in the first SCLK cycle of BOOT (R65). -/
  | resetRelease (compat : StrapLevel) (sris : StrapLevel) (pwrfailLow : Bool)
  /-- ROOT_PLL_LOCK (R55). -/
  | rootPllLock
  /-- ROOT_PLL_LOCK_TIMEOUT (R56): with reference loss declared or not. -/
  | rootPllLockTimeout (refLost : Bool)
  /-- FUSE_SENSE (R537): the bits of each row (0..271) that read 0 at the tightened reference. -/
  | fuseSense (weak : List (Nat × BitVec 72))
  /-- ROM_SELF_CHECK (R55, R57). -/
  | romSelfCheck (pass : Bool)
  /-- DRAM_BOOT_TRAINING (R58): what each channel trains as; none is a failure. -/
  | dramBootTraining (ch0 : Option Geometry) (ch1 : Option Geometry)
  /-- JOURNAL_SCAN (R354): the capacity that SFDP confirms in bytes, none when it does not (R137), and the
  unreadable sectors. -/
  | journalScan (capacity : Option Nat) (unreadable : List Nat)
  /-- PWRFAIL_N_ASSERT (R62). -/
  | pwrfailNAssert
  /-- READY_IDLE_TIMEOUT (R48). -/
  | readyIdleTimeout
  /-- STANDBY_DEPTH_ENTRY (R50). -/
  | standbyDepthEntry
  /-- WAKE_COMPLETE (R51): the measured wake time in ms. -/
  | wakeComplete (ms : Nat)
  /-- CLK_REF_LOSS (R75). -/
  | clkRefLoss
  /-- CLK_ROOT_UNLOCK (R75). -/
  | clkRootUnlock
  /-- PXS_LOCK (R83). -/
  | pxsLock (s : Fin 6)
  /-- PXS_UNLOCK (R83). -/
  | pxsUnlock (s : Fin 6)
  /-- VCO_BAND_CHANGE (R82). -/
  | vcoBandChange (s : Fin 6)
  /-- ENCODER_EDGE (R90): the levels of both channels of encoder n after the edge. -/
  | encoderEdge (n : Fin 4) (a : Bool) (b : Bool)
  /-- ENCODER_TIMEOUT (R92). -/
  | encoderTimeout
  /-- INGEST_DESCRIPTOR_FETCHED (R218). -/
  | ingestDescriptorFetched (ring : Fin 8) (r : Fetch)
  /-- INGEST_START (R219). -/
  | ingestStart
  /-- INGEST_DEADLINE_EXPIRY (R218). -/
  | ingestDeadlineExpiry (ring : Fin 8) (tag : BitVec 16)
  /-- INGEST_SOURCE_READ_DONE (R220). -/
  | ingestSourceReadDone (ring : Fin 8) (tag : BitVec 16) (r : Fetch)
  /-- LEAF_ENTRY (R227). -/
  | leafEntry (ring : Fin 8) (tag : BitVec 16)
  /-- ENCODE_BAND_END (R256). -/
  | encodeBandEnd (lane : Fin 12) (e : EncodeEnd)
  /-- CADDY_REPAIR_COMPLETE (R233): whether every read of the good copy passed its guard. -/
  | caddyRepairComplete (job : Word) (key : Word) (good : Bool)
  /-- GUARD_FAILURE (R478): what read the burst, its mapped address, its 64 data bytes and guard word as read (R477), and whether
  the health scan read it (R480). -/
  | guardFailure (t : GuardTarget) (addr : DWord) (data : List Byte) (check : DWord) (scan : Bool)
  /-- LANE_KAT_END (R265): the raw CRC-32C that the test's decode gave, and whether the encode verified. -/
  | laneKatEnd (lane : LaneId) (crc : Word) (verified : Bool)
  /-- LANE_PERIODIC_TEST_DUE (R265). -/
  | lanePeriodicTestDue (lane : LaneId)
  /-- LANE_LOCKUP (R267). -/
  | laneLockup (lane : LaneId)
  /-- LANE_PARITY_ERROR (R267). -/
  | laneParityError (lane : LaneId)
  /-- DECODE_ASSIGN (R276). -/
  | decodeAssign
  /-- DECODE_ATTEMPT_REPORT (R278). -/
  | decodeAttemptReport (lane : Fin 16) (u : AttemptUpset)
  /-- VERIFY_DEADLINE (R274): the comparator of station s. -/
  | verifyDeadline (s : Fin 6)
  /-- BAND_FIRST_LINE (R274). -/
  | bandFirstLine (s : Fin 6)
  /-- BAND_DONE (R274). -/
  | bandDone (s : Fin 6)
  /-- SLOT_READ_ERROR (R280): the word read from the slot being exposed, its data and its check bits (R271). -/
  | slotReadError (s : Fin 6) (word : Nat) (data : BitVec 64) (check : Byte)
  /-- BDS_EDGE (R313): the measured time since the previous BDS in ps. -/
  | bdsEdge (s : Fin 6) (periodPs : Nat)
  /-- BDE_EDGE (R85): the measured time since the BDS in ps, and what the parity of the local tables showed in the facet (R303). -/
  | bdeEdge (s : Fin 6) (scanPs : Nat) (tables : TableCheck)
  /-- BDS_WINDOW_EXPIRY (R295). -/
  | bdsWindowExpiry (s : Fin 6)
  /-- BDE_WINDOW_EXPIRY (R295). -/
  | bdeWindowExpiry (s : Fin 6)
  /-- DELAY_LINE_CAL_DUE (R305). -/
  | delayLineCalDue (s : Fin 6)
  /-- DELAY_LINE_CAL_COMPLETE (R304): the measured tap delay of each of the 32 lines in fs. -/
  | delayLineCalComplete (s : Fin 6) (tapFs : List Nat)
  /-- APC_SAMPLE (R309): the ADC code of the monitor. -/
  | apcSample (s : Fin 6) (code : BitVec 12)
  /-- SPIN_TIMEOUT (R312). -/
  | spinTimeout (s : Fin 6)
  /-- SEARCH_TIMEOUT (R312). -/
  | searchTimeout (s : Fin 6)
  /-- LASER_INTERLOCK (R311). -/
  | laserInterlock (s : Fin 6)
  /-- FIRE_INSTANT (R331). -/
  | fireInstant (h : Fin 8)
  /-- STROBE_CUT (R334, R335): the measured high time, and the time between the last two rising edges, each in 10 ns. -/
  | strobeCut (h : Fin 8) (high spacing : Nat)
  /-- MARK_LINE_FETCH (R329): which copies of the next line are good. -/
  | markLineFetch (h : Fin 8) (good0 : Bool) (good1 : Bool)
  /-- HEAD_TEMP_SAMPLE (R342). -/
  | headTempSample (h : Fin 8) (code : BitVec 12)
  /-- DUTY_WINDOW_TICK (R337). -/
  | dutyWindowTick
  /-- HEAD_CAP_MOVE_DONE (R345). -/
  | headCapMoveDone (h : Fin 8)
  /-- MARK_RENDER (R377): for the sheet of that ledger index. -/
  | markRender (idx : Fin 512)
  /-- RECORD_PROGRAM_COMPLETE (R362): whether the read-back matches. -/
  | recordProgramComplete (readBackOk : Bool)
  /-- SEAL_AGE_EXPIRY (R363). -/
  | sealAgeExpiry
  /-- SEAL_SIGNED (R364). -/
  | sealSigned
  /-- SECTOR_ERASE_COMPLETE (R367). -/
  | sectorEraseComplete (sector : Nat)
  /-- SHEET_PICK (R389). -/
  | sheetPick
  /-- PICK_WAIT_EXPIRY (R388). -/
  | pickWaitExpiry
  /-- PICK_PAUSE_EXPIRY (R390). -/
  | pickPauseExpiry
  /-- HEAD_WAIT_EXPIRY (R390). -/
  | headWaitExpiry
  /-- PAPER_SENSOR_EDGE (R400): debounced, `paper` true for a leading edge. -/
  | paperSensorEdge (k : Fin 32) (paper : Bool)
  /-- DESKEW_DEADLINE (R422). -/
  | deskewDeadline
  /-- SENSOR_WINDOW_EXPIRY (R400). -/
  | sensorWindowExpiry (k : Fin 32)
  /-- ROUTE_DECISION (R393). -/
  | routeDecision
  /-- MAIN_DRIVE_TOLERANCE_EXPIRY (R401). -/
  | mainDriveToleranceExpiry
  /-- AXIS_PWM_PERIOD (R409): the levels of SSD A and B at the edges of the axis's modulator clock in the period, oldest
  first. -/
  | axisPwmPeriod (a : Fin 16) (bitsA bitsB : List Bool)
  /-- AXIS_TARGET_REACHED (R418). -/
  | axisTargetReached (a : Fin 16)
  /-- AXIS_AT_REST (R417). -/
  | axisAtRest (a : Fin 16)
  /-- AXIS_IDLE_DELAY_EXPIRY (R410). -/
  | axisIdleDelayExpiry (a : Fin 16)
  /-- HOME_SENSOR_EDGE (R419). -/
  | homeSensorEdge (a : Fin 16) (active : Bool)
  /-- GEAR_LOCK (R421). -/
  | gearLock (a : Fin 16)
  /-- MOTOR_ZERO_CROSSING (R431): the phase and the direction seen, the samples between which it lies [ns since the crossing
  before it], and the time since the last commutation [ns]. -/
  | motorZeroCrossing (m : Fin 10) (phase : Fin 3) (rising : Bool) (prev last since : Nat)
  /-- MOTOR_COMMUTATION (R432). -/
  | motorCommutation (m : Fin 10)
  /-- MOTOR_PWM_PERIOD (R435): the levels of MSD A and B at the edges of the channel's modulator clock in the period, oldest
  first. -/
  | motorPwmPeriod (m : Fin 10) (bitsU bitsV : List Bool)
  /-- CATCH_WINDOW_EXPIRY (R438). -/
  | catchWindowExpiry (m : Fin 10)
  /-- ALIGN_TIME_EXPIRY (R439). -/
  | alignTimeExpiry (m : Fin 10)
  /-- RAMP_TIMEOUT (R437). -/
  | rampTimeout (m : Fin 10)
  /-- AT_SPEED_DWELL (R437). -/
  | atSpeedDwell (m : Fin 10)
  /-- LOSS_OF_SYNCHRONISM (R440). -/
  | lossOfSynchronism (m : Fin 10)
  /-- LOS_RESTART_DELAY (R437). -/
  | losRestartDelay (m : Fin 10)
  /-- COAST_STOP_TIMEOUT (R437). -/
  | coastStopTimeout (m : Fin 10)
  /-- BUS_SAMPLE (R441): the 12-bit conversion, and the level at BRK_FB. -/
  | busSample (code : BitVec 12) (brkFb : Bool)
  /-- BUS_UNDERVOLTAGE_EXPIRY (R441). -/
  | busUndervoltageExpiry
  /-- CHOPPER_FEEDBACK_TIMEOUT (R443). -/
  | chopperFeedbackTimeout (c : ChopperCause)
  /-- SPDCMD_UPDATE (R445): input of M8 (0) or M9 (1), its value as a fraction of full scale in 1/65,536. -/
  | spdcmdUpdate (n : Fin 2) (fraction : Nat)
  /-- SPDCMD_DROPOUT (R446). -/
  | spdcmdDropout (n : Fin 2)
  /-- LOOP_FRAME (R455): the conversions of AIN0..63, and the slots whose evaluation does not finish. -/
  | loopFrame (ain : List (BitVec 12)) (late : List (Fin 160))
  /-- MAINS_ZC_EDGE (R465): the half-cycle that the edge ends in µs. -/
  | mainsZcEdge (halfUs : Nat)
  /-- MAINS_LOSS_TIMEOUT (R465). -/
  | mainsLossTimeout
  /-- HV_OK_TIMEOUT (R466). -/
  | hvOkTimeout
  /-- REFRESH_DUE (R491): and whether a Class A or B request waits. -/
  | refreshDue (c : Fin 2) (waiting : Bool)
  /-- DRAM_TEMP_SAMPLE (R492): the code at the channel's sensor input. -/
  | dramTempSample (c : Fin 2) (code : BitVec 12)
  /-- DRAM_ALERT (R494). -/
  | dramAlert (c : Fin 2) (a : Alert)
  /-- SELF_REFRESH_IDLE (R490). -/
  | selfRefreshIdle (c : Fin 2)
  /-- ZQ_CAL_DUE (R485). -/
  | zqCalDue (c : Fin 2)
  /-- DRAM_TRAIN_STEP_END (R483). -/
  | dramTrainStepEnd (ok : Bool)
  /-- DRAM_FILL_BLOCK (R479). -/
  | dramFillBlock
  /-- HEALTH_SCAN_PASS_END (R480). -/
  | healthScanPassEnd
  /-- FAULT_RAISE (R505): a detection from a detector that has no row of its own, or the oldest one on its way. -/
  | faultRaise (ext : Option (Fin 256 × Word))
  /-- EVENT_COALESCE_EXPIRY (R515). -/
  | eventCoalesceExpiry (source : Fin 256)
  /-- INTERRUPTION_EXPIRY (R521). -/
  | interruptionExpiry
  /-- INJECT_RAISE_TICK (R519). -/
  | injectRaiseTick
  /-- FLT_INJECT (R520). -/
  | fltInject
  /-- ALIVE_TICK (R513). -/
  | aliveTick
  /-- DIE_TEMP_SAMPLE (R541): the raw diode code, or none for an open or a short. -/
  | dieTempSample (code : Option (BitVec 16))
  /-- FUSE_RESENSE (R539): the reads of each row that differ from those behind the latched value. -/
  | fuseResense (differs : List (Fin 256))
  /-- VDDIO_BANK_LOSS (R554): bank A..H as 0..7. -/
  | vddioBankLoss (bank : Fin 8)
  /-- VDDIO_BANK_RETURN (R554). -/
  | vddioBankReturn (bank : Fin 8)
  /-- PERST_N_DEASSERT (R555). -/
  | perstNDeassert
  /-- D0_TO_D3HOT (R102). -/
  | d0ToD3hot
  /-- ASPM_L1_ENTRY (R101). -/
  | aspmL1Entry
  /-- TEST_ACCESS_PORT_TCK_EDGE (R556): the levels at TMS, TDI and TRST_N. -/
  | testAccessPortTckEdge (tms : Bool) (tdi : Bool) (trstN : Bool)
  deriving DecidableEq, Repr

end Sys2Proof
end

