-- ==== Sys2Proof/Config.lean ====
section
/-!
DEFINITION. What an implementation fixes, and the free values: constants without a body, which nothing in Lean can
evaluate. A free value is drawn by applying one of the functions to `State.free`, the model's count of draws
(log 6).
-/

namespace Sys2Proof.Config

/-- The entropy source's draw for the supervisor nonce (R134): log 6. -/
opaque freeNonce : Nat → BitVec 128

/-- The level a strap that changes in its sampling window is taken at (R548): log 6. -/
opaque freeStrap : Nat → Bool

/-- Byte k of a BAR2 read (R115): the spec does not give the placement of data in mapped DRAM: log 5. -/
opaque freeBar2 : Nat → Nat → Byte

/-- The Leaf, by its place among those stored, and the burst of its image that lie at a burst address of the mapped DRAM: the
spec does not give the placement: log 5. -/
opaque leafAt : Nat → List (Word × Word) → Option (Nat × Nat)

/-- A duty of the next PWM period whose regulator the spec leaves to the implementation (R409, R435), in 1/65,536:
log 27. -/
opaque freeDuty : Nat → Nat

/-- The bytes that a program cut off by a reset leaves in the slot being programmed (R66): log 24. -/
opaque freeFlash : Nat → Nat → Byte

/-- The count of stale slot writes (log 40), the angle of a back-EMF of zero (log 53), the words that an interrupted PROVISION has
burned (log 68), the training step that failed (log 70), a process speed that no recipe gives (log 73), how far a broken
thermistor reads above its limit (log 74) and how far a stopped CODEC_RUN has come (log 83): numbers that the spec does not
state. -/
opaque freeWord : Nat → Word

/-- Byte k of an output buffer whose contents the spec calls undefined, under CHECK and DECODE (R151): log 6. -/
opaque freeByte : Nat → Nat → Byte

/-- SHA-256 of the mask ROM (R178), byte 0 lowest: fixed by the implementation: log 33. -/
opaque romHash : BitVec 256

/-- The ROM release number (R178): fixed by the implementation: log 33. -/
opaque romRelease : Word

/-- The number that DRC_TRAIN and the TRAIN register give a training step (R483, R498): the spec numbers none; a function
of the kind and the place of the step in it: log 65. -/
opaque trainStep : Nat → Nat → BitVec 8

/-- The value a linearisation table gives for an ADC code that is no entry of it (R470): the spec gives sixteen pairs
and no rule between or beyond them; a function of the table's bytes and the code: log 36. -/
opaque freeLinear : List Byte → Nat → Int

/-- The direction in which the next PWM period drives a stepper coil (R409): log 27. -/
opaque freeSense : Nat → Bool

/-- The bits that a failed burn leaves set at the normal reference although they do not read back at the tightened one
(R534): log 67. -/
opaque freeFuse : Nat → BitVec 72

/-- The 15-bit hash of three bytes that heads an encode lane's chains (R251): the spec does not give it; R255 leaves it to
the die revision: log 83. -/
opaque matchHash : Byte → Byte → Byte → BitVec 15

/-- The code lengths that an encode lane builds from symbol counts under a limit (R254): the spec gives the limit and not the
construction: log 83. -/
opaque codeLengths : Nat → List Nat → List Nat

/-- The constant in ROM that a known-answer test's raw CRC is compared with, and those for the body CRC of a lane that may
make dynamic blocks and of one that may not (R265): the spec gives neither the items nor the constants: log 104. -/
opaque katRaw : Word
opaque katBody : Bool → Word

/-- One cycle of a head pacer's tracking loop (R331): from its position [1/256 count], its velocity and the counter's position
[1/256 count] to the next position and velocity. The spec gives what the loop achieves and not its gains: log 108. -/
opaque trackStep : Nat → Int → Nat → Nat × Int

/-- The 8-bit check of a slot word (R271): the spec gives what it detects and not the code: log 106. -/
opaque slotCheck : BitVec 64 → Byte

/-- The code-length symbols, each with its repeat value, that an encode lane chooses for a list of lengths (R254): log 83. -/
opaque lengthRuns : List Nat → List (Nat × Nat)

end Sys2Proof.Config
end

