-- ==== Sys2Proof/Machine/Bytes.lean ====
section
/-!
DEFINITION. Reading and writing multi-byte fields of byte lists (little-endian throughout, R7), and the plain
number helpers that every unit uses.
-/

namespace Sys2Proof.Machine

/-- Byte k of a list as a number; 0 beyond its end. -/
def u8 (l : List Byte) (k : Nat) : Nat := (l.getD k 0).toNat

/-- The n-byte little-endian field at offset k (R7). -/
def leAt (l : List Byte) (k : Nat) : Nat → Nat
  | 0 => 0
  | n + 1 => u8 l k + 256 * leAt l (k + 1) n

/-- The u16, u32 and u64 fields at an offset (R7). -/
def u16 (l : List Byte) (k : Nat) : Nat := leAt l k 2
def u32 (l : List Byte) (k : Nat) : Nat := leAt l k 4
def u64 (l : List Byte) (k : Nat) : Nat := leAt l k 8

/-- The n-byte little-endian encoding of a number (R7). -/
def leBytes : Nat → Nat → List Byte
  | 0, _ => []
  | n + 1, v => BitVec.ofNat 8 v :: leBytes n (v / 256)

/-- The n-byte big-endian encoding, for the octet strings of FIPS 180-4 and FIPS 186-4. -/
def beBytes (n v : Nat) : List Byte := (leBytes n v).reverse

/-- The number of a big-endian octet string. -/
def beNat (l : List Byte) : Nat := l.foldl (fun a b => 256 * a + b.toNat) 0

/-- n bytes from offset k, zero beyond the end. -/
def bytesAt (l : List Byte) (k : Nat) : Nat → List Byte
  | 0 => []
  | n + 1 => l.getD k 0 :: bytesAt l (k + 1) n

/-- n bytes of 0x00. -/
def zeros (n : Nat) : List Byte := List.replicate n 0

/-- Whether the n bytes from offset k are all 0 (R13). -/
def zeroAt (l : List Byte) (k n : Nat) : Bool := (bytesAt l k n).all (· == 0)

/-- A list cut or zero-filled to n bytes. -/
def padTo (n : Nat) (l : List Byte) : List Byte := bytesAt l 0 n

/-- Bit k of a number. -/
def bitOf (n k : Nat) : Bool := n.testBit k

/-- Bits [k + w - 1 : k] of a number. -/
def fieldOf (n k w : Nat) : Nat := n / 2 ^ k % 2 ^ w

/-- The number 1 of a true flag. -/
def bit (b : Bool) : Nat := if b then 1 else 0

/-- Addition that saturates at 2^w - 1. -/
def satAdd (w a b : Nat) : Nat := min (2 ^ w - 1) (a + b)

/-- The next value of a 32-bit counter that saturates. -/
def inc32 (a : Nat) : Nat := satAdd 32 a 1

/-- The next value of a 32-bit counter that wraps. -/
def wrap32 (a : Nat) : Nat := (a + 1) % 2 ^ 32

/-- A w-bit field read as two's complement. -/
def signedOf (w n : Nat) : Int := if n % 2 ^ w < 2 ^ (w - 1) then (n % 2 ^ w : Int) else (n % 2 ^ w : Int) - 2 ^ w

/-- The w-bit two's complement field of a number. -/
def fieldInt (w : Nat) (i : Int) : Nat := (i % (2 ^ w : Int)).toNat

/-- A signed u8, i16 and i32 field of a byte list. -/
def i8 (l : List Byte) (k : Nat) : Int := signedOf 8 (u8 l k)
def i16 (l : List Byte) (k : Nat) : Int := signedOf 16 (u16 l k)
def i32 (l : List Byte) (k : Nat) : Int := signedOf 32 (u32 l k)

/-- A number held to a range. -/
def clampI (lo hi x : Int) : Int := if x < lo then lo else if hi < x then hi else x

/-- Apply a function to one entry of a vector. -/
def updF {α : Type} {n : Nat} (v : Vector α n) (i : Fin n) (f : α → α) : Vector α n := v.set i.1 (f v[i.1]) i.2

/-- Apply a function to the entry of that number, when there is one. -/
def updN {α : Type} {n : Nat} (v : Vector α n) (i : Nat) (f : α → α) : Vector α n :=
  if h : i < n then v.set i (f v[i]) h else v

/-- The entry of that number of a vector, with a value for a number beyond it. -/
def getN {α : Type} {n : Nat} (v : Vector α n) (i : Nat) (d : α) : α := if h : i < n then v[i] else d

/-- Replace the first entry of a list that satisfies a condition. -/
def updFirst {α : Type} (p : α → Bool) (f : α → α) : List α → List α
  | [] => []
  | x :: xs => if p x then f x :: xs else x :: updFirst p f xs

/-- Apply a function to entry k of a list. -/
def updAt {α : Type} (f : α → α) : Nat → List α → List α
  | _, [] => []
  | 0, x :: xs => f x :: xs
  | k + 1, x :: xs => x :: updAt f k xs

/-- Apply a function n times. -/
def iter {α : Type} (f : α → α) : Nat → α → α
  | 0, a => a
  | n + 1, a => iter f n (f a)

end Sys2Proof.Machine
end

