-- ==== Sys2Proof/Machine/Crc.lean ====
section
/-!
DEFINITION. The two cyclic redundancy checks: CRC-32C of R212 and the CRC-8 of SPI frames (R120).
-/

namespace Sys2Proof.Machine

/-- One bit of the reflected CRC-32C division (R212). -/
def crc32cBit (c : Word) : Word := if c.getLsbD 0 then (c >>> 1) ^^^ 0x82F63B78#32 else c >>> 1

/-- One byte of CRC-32C. -/
def crc32cByte (c : Word) (b : Byte) : Word := iter crc32cBit 8 (c ^^^ b.setWidth 32)

/-- CRC-32C (R212). -/
def crc32c (l : List Byte) : Word := l.foldl crc32cByte 0xFFFFFFFF#32 ^^^ 0xFFFFFFFF#32

/-- One bit of the CRC-8 with polynomial 0x07 (R120), most significant bit first. -/
def crc8Bit (c : Byte) : Byte := if c.getLsbD 7 then (c <<< 1) ^^^ 0x07#8 else c <<< 1

/-- The CRC-8 of an SPI frame (R120): polynomial 0x07, initial value 0x00. -/
def crc8 (l : List Byte) : Byte := l.foldl (fun c b => iter crc8Bit 8 (c ^^^ b)) 0

end Sys2Proof.Machine
end

