-- ==== Sys2Proof/Machine/Sha256.lean ====
section
/-!
DEFINITION. SHA-256 (FIPS 180-4) and HMAC-SHA-256, which the spec names and does not define: log 32.
-/

namespace Sys2Proof.Machine

/-- The round constants of FIPS 180-4. -/
def shaK : List Word :=
   [0x428A2F98, 0x71374491, 0xB5C0FBCF, 0xE9B5DBA5, 0x3956C25B, 0x59F111F1, 0x923F82A4, 0xAB1C5ED5] ++
   [0xD807AA98, 0x12835B01, 0x243185BE, 0x550C7DC3, 0x72BE5D74, 0x80DEB1FE, 0x9BDC06A7, 0xC19BF174] ++
   [0xE49B69C1, 0xEFBE4786, 0x0FC19DC6, 0x240CA1CC, 0x2DE92C6F, 0x4A7484AA, 0x5CB0A9DC, 0x76F988DA] ++
   [0x983E5152, 0xA831C66D, 0xB00327C8, 0xBF597FC7, 0xC6E00BF3, 0xD5A79147, 0x06CA6351, 0x14292967] ++
   [0x27B70A85, 0x2E1B2138, 0x4D2C6DFC, 0x53380D13, 0x650A7354, 0x766A0ABB, 0x81C2C92E, 0x92722C85] ++
   [0xA2BFE8A1, 0xA81A664B, 0xC24B8B70, 0xC76C51A3, 0xD192E819, 0xD6990624, 0xF40E3585, 0x106AA070] ++
   [0x19A4C116, 0x1E376C08, 0x2748774C, 0x34B0BCB5, 0x391C0CB3, 0x4ED8AA4A, 0x5B9CCA4F, 0x682E6FF3] ++
   [0x748F82EE, 0x78A5636F, 0x84C87814, 0x8CC70208, 0x90BEFFFA, 0xA4506CEB, 0xBEF9A3F7, 0xC67178F2]

/-- The initial hash value of FIPS 180-4. -/
def shaInit : List Word :=
   [0x6A09E667, 0xBB67AE85, 0x3C6EF372, 0xA54FF53A, 0x510E527F, 0x9B05688C, 0x1F83D9AB, 0x5BE0CD19]

/-- The message schedule, newest word first, extended by one word. -/
def shaExtend (w : List Word) : List Word :=
  let w15 := w.getD 14 0
  let w2 := w.getD 1 0
  let s0 := w15.rotateRight 7 ^^^ w15.rotateRight 18 ^^^ (w15 >>> 3)
  let s1 := w2.rotateRight 17 ^^^ w2.rotateRight 19 ^^^ (w2 >>> 10)
  (w.getD 15 0 + s0 + w.getD 6 0 + s1) :: w

/-- One round on the eight working variables. -/
def shaRound (v : List Word) (kw : Word × Word) : List Word :=
  match v with
  | [a, b, c, d, e, f, g, h] =>
    let t1 := h + (e.rotateRight 6 ^^^ e.rotateRight 11 ^^^ e.rotateRight 25) + ((e &&& f) ^^^ (~~~e &&& g)) + kw.1 + kw.2
    let t2 := (a.rotateRight 2 ^^^ a.rotateRight 13 ^^^ a.rotateRight 22) + ((a &&& b) ^^^ (a &&& c) ^^^ (b &&& c))
    [t1 + t2, a, b, c, d + t1, e, f, g]
  | v => v

/-- The sixteen big-endian words of a 64-byte block. -/
def shaWords (l : List Byte) : List Word :=
  (List.range 16).map fun i => BitVec.ofNat 32 (beNat (bytesAt l (4 * i) 4))

/-- One block. -/
def shaBlock (h : List Word) (l : List Byte) : List Word :=
  let w := (iter shaExtend 48 (shaWords l).reverse).reverse
  List.zipWith (· + ·) h ((shaK.zip w).foldl shaRound h)

/-- n blocks of a padded message. -/
def shaBlocks : Nat → List Byte → List Word → List Word
  | 0, _, h => h
  | n + 1, l, h => shaBlocks n (l.drop 64) (shaBlock h l)

/-- SHA-256 as its 32 bytes. -/
def sha256 (l : List Byte) : List Byte :=
  let n := l.length
  let fill := (119 - n % 64) % 64
  let m := l ++ [0x80] ++ zeros fill ++ beBytes 8 (8 * n)
  ((shaBlocks (m.length / 64) m shaInit).map fun w => beBytes 4 w.toNat).flatten

/-- SHA-256 as a number whose byte 0 is the first byte of the digest (R7's order of a byte field). -/
def sha256Bits (l : List Byte) : BitVec 256 := BitVec.ofNat 256 (leAt (sha256 l) 0 32)

/-- The 32 bytes of a digest held as a number. -/
def hashBytes (h : BitVec 256) : List Byte := leBytes 32 h.toNat

/-- HMAC-SHA-256 (FIPS 198-1) under a key of at most 64 bytes. -/
def hmac256 (key msg : List Byte) : List Byte :=
  let k := padTo 64 key
  sha256 (k.map (· ^^^ 0x5C) ++ sha256 (k.map (· ^^^ 0x36) ++ msg))

end Sys2Proof.Machine
end

