-- ==== Sys2Proof/Machine/P256.lean ====
section
/-!
DEFINITION. ECDSA over P-256 (FIPS 186-4) with the deterministic nonce of RFC 6979, which the spec names and does
not define (R133, R181, R211, R364): log 32.
-/

namespace Sys2Proof.Machine

/-- The field prime, the group order, the coefficient b and the base point of P-256. -/
def p256P : Nat := 0xFFFFFFFF00000001000000000000000000000000FFFFFFFFFFFFFFFFFFFFFFFF
def p256N : Nat := 0xFFFFFFFF00000000FFFFFFFFFFFFFFFFBCE6FAADA7179E84F3B9CAC2FC632551
def p256B : Nat := 0x5AC635D8AA3A93E7B3EBBD55769886BC651D06B0CC53B0F63BCE3C3E27D2604B
def p256Gx : Nat := 0x6B17D1F2E12C4247F8BCE6E563A440F277037D812DEB33A0F4A13945D898C296
def p256Gy : Nat := 0x4FE342E2FE1A7F9B8EE7EB4A7C0F9E162BCE33576B315ECECBB6406837BF51F5

/-- Power modulo m, by n squarings from the top bit of the exponent. -/
def powMod (m b e : Nat) : Nat → Nat
  | 0 => 1 % m
  | n + 1 =>
    let h := powMod m b (e / 2) n
    if e % 2 = 1 then h * h % m * b % m else h * h % m

/-- Inverse modulo a 256-bit prime. -/
def invMod (m a : Nat) : Nat := powMod m a (m - 2) 256

/-- A point of the curve; none is the point at infinity. -/
abbrev EcPoint := Option (Nat × Nat)

/-- Whether the coordinates lie in the field and on the curve. -/
def onCurve (x y : Nat) : Bool :=
  decide (x < p256P) && decide (y < p256P) && (y * y) % p256P == (x * x * x + (p256P - 3) * x + p256B) % p256P

/-- Addition of two points. -/
def ecAdd (a b : EcPoint) : EcPoint :=
  match a, b with
  | none, b => b
  | a, none => a
  | some (x1, y1), some (x2, y2) =>
    if x1 = x2 ∧ (y1 + y2) % p256P = 0 then none
    else
      let l := if x1 = x2 then (3 * x1 * x1 + (p256P - 3)) * invMod p256P (2 * y1) % p256P
               else (y2 + p256P - y1) * invMod p256P (x2 + p256P - x1) % p256P
      let x3 := (l * l + 2 * p256P - x1 - x2) % p256P
      some (x3, (l * (x1 + p256P - x3) + p256P - y1) % p256P)

/-- k times a point, over the n low bits of k. -/
def ecMul (pt : EcPoint) (k : Nat) : Nat → EcPoint
  | 0 => none
  | n + 1 =>
    let h := ecMul pt (k / 2) n
    let d := ecAdd h h
    if k % 2 = 1 then ecAdd d pt else d

/-- The public key of a private key, x then y, 32 bytes each. -/
def ecPublic (d : Nat) : List Byte :=
  match ecMul (some (p256Gx, p256Gy)) d 256 with
  | none => zeros 64
  | some (x, y) => beBytes 32 x ++ beBytes 32 y

/-- Signature verification over a 32-byte digest: key x then y, signature r then s. -/
def ecdsaVerify (key sig digest : List Byte) : Bool :=
  let x := beNat (bytesAt key 0 32)
  let y := beNat (bytesAt key 32 32)
  let r := beNat (bytesAt sig 0 32)
  let s := beNat (bytesAt sig 32 32)
  let z := beNat digest
  if onCurve x y && decide (0 < r) && decide (r < p256N) && decide (0 < s) && decide (s < p256N) then
    let w := invMod p256N s
    match ecAdd (ecMul (some (p256Gx, p256Gy)) (z * w % p256N) 256) (ecMul (some (x, y)) (r * w % p256N) 256) with
    | none => false
    | some (vx, _) => vx % p256N == r
  else false

/-- The candidate loop of RFC 6979 section 3.2 h, with the signature of the first candidate that gives one. -/
def ecdsaTry (d z : Nat) : Nat → List Byte → List Byte → List Byte
  | 0, _, _ => zeros 64
  | fuel + 1, k, v =>
    let v := hmac256 k v
    let c := beNat v
    let again := hmac256 k (v ++ [0x00])
    if 0 < c ∧ c < p256N then
      match ecMul (some (p256Gx, p256Gy)) c 256 with
      | none => ecdsaTry d z fuel again (hmac256 again v)
      | some (x, _) =>
        let r := x % p256N
        let s := invMod p256N c * (z + r * d) % p256N
        if r = 0 ∨ s = 0 then ecdsaTry d z fuel again (hmac256 again v) else beBytes 32 r ++ beBytes 32 s
    else ecdsaTry d z fuel again (hmac256 again v)

/-- The deterministic signature of a 32-byte digest under a private key (R364). -/
def ecdsaSign (d : Nat) (digest : List Byte) : List Byte :=
  let z := beNat digest
  let x := beBytes 32 d ++ beBytes 32 (z % p256N)
  let v := List.replicate 32 (0x01 : Byte)
  let k := hmac256 (zeros 32) (v ++ [0x00] ++ x)
  let v := hmac256 k v
  let k := hmac256 k (v ++ [0x01] ++ x)
  ecdsaTry d z 8 k (hmac256 k v)

end Sys2Proof.Machine
end

