-- ==== Sys2Proof/Machine/Parts.lean ====
section
/-!
DEFINITION. The parts that State is made of, unit by unit. Each field's docstring reads
width | rule | value after reset | meaning; the field's default IS its value after reset.
-/

namespace Sys2Proof.Machine

/-! ## Modes, power and start-up (R41..R70) -/

/-- The device modes, encoded as HIF_MODE.MODE (R41). -/
inductive Mode where
  | reset | boot | standby | ready | print | runout | halt | service
  deriving DecidableEq, Repr

/-- A wake in progress (R51, R52): the depth it starts from and the learned bin of zone Z0 at its start. -/
structure Wake where
  fromDepth : Nat
  bin : Nat
  deriving DecidableEq, Repr

/-- Mode register fields, standby depths, boot and straps. -/
structure Sys where
  /-- 4 | R41 | 0x0 RESET (0x1 BOOT from RST) | current mode -/
  mode : Mode := .reset
  /-- 3 | R41, R55 | 0x0 | boot stage in progress; 7 once BOOT has ended -/
  bootStage : Nat := 0
  /-- 3 | R41 | 0x0 | standby depth in force, 0 outside STANDBY -/
  depth : Nat := 0
  /-- 3 | R50 | DESIGN CHOICE 0, log 8 | depth selected and not yet entered; 0 none -/
  depthTarget : Nat := 0
  /-- 1 | R41, R60 | 0 | SVC_LOCK -/
  svcLock : Bool := false
  /-- 1 | R41, R398 | 0 | HELD -/
  held : Bool := false
  /-- 1 | R41 | 0 | PWRLOSS as latched at this boot -/
  pwrLoss : Bool := false
  /-- 1 | R62 step 5 | DESIGN CHOICE 0, log 9 | PWRLOSS in always-on storage, for the next boot; survives reset -/
  pwrLossLatch : Bool := false
  /-- 1 | R41 | 0 | LC_SRC -/
  lcSrc : Bool := false
  /-- 8 | R41 | 0x00 | LAST_CAUSE -/
  lastCause : Byte := 0
  /-- 1 | R43, R57, R58, R75, R170, R64 | 0 | HALT is left only by reset -/
  haltUntilReset : Bool := false
  /-- 1 | R62 | 0 | PWRFAIL_N has passed its filter; power-loss handling has begun -/
  pwrFail : Bool := false
  /-- 32 | R49 | 0xFFFF_FFFF | wake budget [ms] -/
  wakeBudget : Nat := 0xFFFFFFFF
  /-- 16 | R48 | 0 | READY idle timeout [s] -/
  idleTimeout : Nat := 0
  /-- 8 x ms | R51 | DESIGN CHOICE none, log 8 | last measured wakes from W1, newest first -/
  wakes1 : List Nat := []
  /-- 8 x ms | R51 | DESIGN CHOICE none, log 8 | last measured wakes from W2, newest first -/
  wakes2 : List Nat := []
  /-- 8 x ms | R51 | DESIGN CHOICE none, log 8 | last measured wakes from W3, newest first -/
  wakes3 : List Nat := []
  /-- 16 bins | R52 | empty | learned fuser heat-up time [ms] per 16 degC of zone Z0 -/
  bins : Vector (Option Nat) 16 := Vector.replicate 16 none
  /-- - | R43, R53 | none | wake from STANDBY in progress -/
  wake : Option Wake := none
  /-- 6 | table of R48..R53 | DESIGN CHOICE 0, log 8 | polygon motors that depth W3 has stopped, which a wake restarts -/
  polygonsStopped : BitVec 6 := 0
  /-- 1 | R38, R548 | DESIGN CHOICE 0, log 10 | COMPAT_SEL as sampled at RST -/
  compatStrap : Bool := false
  /-- 1 | R39, R105 | 0 | effective compatibility setting -/
  compat : Bool := false
  /-- 1 | R100, R105 | 0 | PCIE_SRIS as sampled at RST -/
  sris : Bool := false
  /-- 1 | R55 | 0 | boot stage 2 complete: BAR0 and the ports answer, UP set -/
  up : Bool := false
  /-- 1 | R552 | 1 | every output high-impedance; cleared at the end of boot stage 1 -/
  hiZ : Bool := true
  deriving DecidableEq, Repr

/-- States of the IEEE 1149.1 test access port controller (R556). -/
inductive Tap where
  | testLogicReset | runTestIdle
  | selectDr | captureDr | shiftDr | exit1Dr | pauseDr | exit2Dr | updateDr
  | selectIr | captureIr | shiftIr | exit1Ir | pauseIr | exit2Ir | updateIr
  deriving DecidableEq, Repr

/-- Levels at balls and the test port. -/
structure Pins where
  /-- 8 x 1 | R554 | 0 | bank A..H supply below 1.7 V -/
  bankLost : Vector Bool 8 := Vector.replicate 8 false
  /-- 1 | R513 | 0 | ALIVE toggling -/
  aliveRun : Bool := false
  /-- XCLK | R513 | 0 | cycle of the last tick, at which a high phase of ALIVE begins -/
  aliveAt : Nat := 0
  /-- 1 | R75 | 0 | the clock monitor has stopped ALIVE -/
  aliveStopped : Bool := false
  /-- 1 | R466, R472 | 0 | HV_OK level -/
  hvOk : Bool := false
  /-- 1 | R466 | DESIGN CHOICE 0, log 11 | HVEN was forced low by an HV_OK fault and waits for a slot to leave off -/
  hvBlocked : Bool := false
  /-- 1 | R466 | DESIGN CHOICE 0, log 11 | FAULT_CLEAR of CTL_HV has returned OK since that fault -/
  hvCleared : Bool := false
  /-- 4 | R556 | PRESUMED Test-Logic-Reset (IEEE 1149.1), log 12 | test access port controller -/
  tap : Tap := .testLogicReset
  /-- 1 | R556 | DESIGN CHOICE low, log 12 | level of TDO when driven -/
  tdo : Bool := false
  /-- 1 | R526, R556 | 0 | KEY read locked at boot sense: the port is dead, TDO high-impedance -/
  tapDead : Bool := false
  deriving DecidableEq, Repr

/-! ## Clocks (R71..R98) -/

/-- One pixel synthesizer, as PXS_CFG, PXS_CTRL, PXS_SEED and PXS_TRIM report it (R95, R96). -/
structure Synth where
  /-- 24 | R95 | 0 | FRAC -/
  frac : Nat := 0
  /-- 9 | R95, R96 | 0 | INT -/
  int : Nat := 0
  /-- 1 | R96 | 0 | EN -/
  en : Bool := false
  /-- 7 | R96 | 0 | output divider (8..64); 0 while stopped -/
  div : Nat := 0
  /-- 5 | R96, R81 | 0 | BAND -/
  band : Nat := 0
  /-- 3 | R96, R81 | 0 | COLUMN -/
  column : Nat := 0
  /-- 8 | R81 | DESIGN CHOICE 0, log 13 | capacitor code loaded -/
  cap : Nat := 0
  /-- 1 | R96, R82 | 0 | CHANGE_DUE -/
  changeDue : Bool := false
  /-- 1 | R96, R84 | 0 | TRIM_CLAMP -/
  trimClamp : Bool := false
  /-- 32 | R80, R96 | 0x1D0F_5A3B | PXS_SEED -/
  seed : Nat := 0x1D0F5A3B
  /-- 16 signed | R96 | 0 | trim in force -/
  trim : Int := 0
  /-- 4 | R96 | 0 | facet index of the trim in force -/
  trimFacet : Nat := 0
  /-- 1 | R94, R83 | 0 | locked -/
  locked : Bool := false
  /-- 32 | R80 | DESIGN CHOICE 0, log 100 | dither LFSR, loaded from the seed at each start -/
  lfsr : Word := 0
  /-- 3 x 24 | R80 | DESIGN CHOICE 0, log 100 | accumulators of the MASH modulator -/
  mash : Nat × Nat × Nat := (0, 0, 0)
  /-- 3 x 1 | R80 | DESIGN CHOICE 0, log 100 | delayed carries: of the second stage, and of the third twice -/
  carries : Nat × Nat × Nat := (0, 0, 0)
  /-- 4 signed | R80 | DESIGN CHOICE 0, log 100 | the modulator's output in the present reference cycle -/
  modOut : Int := 0
  deriving DecidableEq, Repr

/-- One CKOUT as CKO_CFG reports it (R97). -/
structure ClockOut where
  /-- 4 | R97 | 0 | SRC -/
  src : Nat := 0
  /-- 8 | R97 | 0 | DIV, divider minus 1 -/
  div : Nat := 0
  /-- 2 | R97 | 0 | FMT -/
  fmt : Nat := 0
  /-- 2 | R97 | 0 | DRIVE -/
  drive : Nat := 0
  deriving DecidableEq, Repr

/-- What the process-position counter runs on (R94 PPC_SRC). -/
inductive PpcSource where
  | enc0 | fallbackEncoder | m6 | frozen
  deriving DecidableEq, Repr

/-- Clock root, synthesizers and the process-position counter. -/
structure Clk where
  /-- 1 | R94 | 0 | ROOT_LOCK -/
  rootLock : Bool := false
  /-- 1 | R56, R75 | 0 | the root PLL has locked once since RST -/
  everLocked : Bool := false
  /-- 1 | R94 | 0 | REF_OK -/
  refOk : Bool := false
  /-- 1 | R94, R71 | 0 | REF_MODE: CMOS -/
  cmos : Bool := false
  /-- 1 | R94, R75 | 0 | SCLK root-derived -/
  sclkRoot : Bool := false
  /-- 1 | R75 | 0 | SCLK runs from the monitor oscillator -/
  sclkMonitor : Bool := false
  /-- 1 | R78 | 0 | FCLK runs from REFCLK (W4) -/
  fclkRef : Bool := false
  /-- 6 | R95, R96 | each as Synth | pixel synthesizers -/
  px : Vector Synth 6 := Vector.replicate 6 {}
  /-- 4 | R97 | each as ClockOut | clock outputs -/
  cko : Vector ClockOut 4 := Vector.replicate 4 {}
  /-- 96 | R89, R90 | 0 | accumulator: the process-position counter in its upper 64 bits, 32 fraction bits -/
  acc : Nat := 0
  /-- 96 | R90 | 0 | accumulator exact for the last edge, which interpolation builds on -/
  accEdge : Nat := 0
  /-- 8 x XCLK | R90, R92 | none | last edge intervals, newest first -/
  intervals : List Nat := []
  /-- 64 | R90 | DESIGN CHOICE 0, log 14 | XCLK cycle of the last edge -/
  lastEdge : Nat := 0
  /-- 32 | R91 | 0 | backlash register [edges] -/
  backlash : Nat := 0
  /-- 4 x 2 | R90 | DESIGN CHOICE low, log 14 | channel levels last seen at ENC0..3 (A, B) -/
  encLevels : Vector (Bool × Bool) 4 := Vector.replicate 4 (false, false)
  /-- 2 | R94 | ENC0 | PPC_SRC -/
  ppcSrc : PpcSource := .enc0
  /-- 1 | R571 | 0 | fallback disqualified -/
  fbDisqualified : Bool := false
  /-- 72 | R331 | 0 | position that the head pacers track [1/256 count] -/
  trackPos : Nat := 0
  /-- 32 signed | R331 | 0 | velocity that they track -/
  trackVel : Int := 0
  /-- 16 | R98 | 0x0100 | BACK_LIMIT [edges] -/
  backLimit : Nat := 0x0100
  /-- 3 | R98 | 0 | fallback -/
  fallback : Nat := 0
  /-- 64 | R98 | 0 | PPC_INC, 32.32 -/
  inc : Nat := 0
  /-- 64 | R187 | DESIGN CHOICE 0, log 14 | fallback increment, 32.32 -/
  fbInc : Nat := 0
  deriving DecidableEq, Repr

/-! ## Host interface (R99..R118) -/

/-- A command or ingest ring (R106). -/
structure Ring where
  /-- 64 | R106 | 0 | entry ring address, bits 5:0 zero -/
  base : DWord := 0
  /-- 4 | R106 | 0x4 | LOG2_N -/
  log2n : Nat := 4
  /-- 1 | R106 | 0 | EN -/
  en : Bool := false
  /-- 1 | R106 | 1 | DRAINED -/
  drained : Bool := true
  /-- 6 | R106 | 0 | VECTOR -/
  vector : Fin 64 := 0
  /-- 8 | R106 | 0 | COAL [us] -/
  coal : Nat := 0
  /-- 16 | R106 | 0 | TAIL -/
  tail : BitVec 16 := 0
  /-- 16 | R106 | 0 | HEAD -/
  head : BitVec 16 := 0
  /-- 3 | R106 | 0 | ERR with ERR_CODE; 0 when not stopped -/
  err : Nat := 0
  /-- 64 | R106 | 0 | reply ring address, bits 4:0 zero -/
  rbase : DWord := 0
  /-- 16 | R106 | 0 | RHEAD -/
  rhead : BitVec 16 := 0
  /-- 16 | R106 | 0 | RTAIL -/
  rtail : BitVec 16 := 0
  /-- 64 | R106 | 0 | write-back address, bits 1:0 zero; 0 disables -/
  wb : DWord := 0
  /-- 16 | R108, R110 | 0 | fetched entries that await their reply -/
  awaiting : Nat := 0
  /-- 1 | R111 | 0 | an unsignalled reply waits for COAL -/
  unsignalled : Bool := false
  deriving DecidableEq, Repr

/-- The event ring (R113). -/
structure EventRing where
  /-- 64 | R106, R113 | 0 | ring address -/
  base : DWord := 0
  /-- 4 | R113 | DESIGN CHOICE 6 (the least of its range), log 15 | LOG2_N -/
  log2n : Nat := 6
  /-- 1 | R106 | 0 | EN -/
  en : Bool := false
  /-- 6 | R106 | 0 | VECTOR -/
  vector : Fin 64 := 0
  /-- 8 | R106, R113 | 0 | COAL, no effect -/
  coal : Nat := 0
  /-- 16 | R106 | 0 | HEAD -/
  head : BitVec 16 := 0
  /-- 64 | R106 | 0 | write-back address -/
  wb : DWord := 0
  /-- 16 | R113 | 0 | CTAIL -/
  ctail : BitVec 16 := 0
  /-- 32 | R113 | 0 | LOST, saturating -/
  lost : Nat := 0
  /-- 1 | R113 | 0 | the next entry written carries the lost flag -/
  lostFlag : Bool := false
  deriving DecidableEq, Repr

/-- One MSI-X table entry (R114; masked after reset as PCIe Base 4.0 defines: PRESUMED, log 16). -/
structure MsixEntry where
  /-- 64 | R114 | PRESUMED 0 (PCIe), log 16 | message address -/
  addr : DWord := 0
  /-- 32 | R114 | PRESUMED 0 (PCIe), log 16 | message data -/
  data : Word := 0
  /-- 1 | R114 | PRESUMED 1 (PCIe), log 16 | vector masked -/
  masked : Bool := true
  deriving DecidableEq, Repr

/-- The state of the PCIe link (R101, R102, R501). -/
inductive Link where
  /-- PERST_N low, or RESET: the endpoint is held in reset. -/
  | held
  /-- Training. -/
  | training
  /-- Data Link Layer up, in L0. -/
  | up
  /-- Up, in ASPM L1 or L1.2. -/
  | l1 (sub : Bool)
  deriving DecidableEq, Repr

/-- The endpoint, its rings and its status. -/
structure Hif where
  /-- 4 | R106 | each as Ring | command rings -/
  cr : Vector Ring 4 := Vector.replicate 4 {}
  /-- 8 | R106 | each as Ring | ingest rings -/
  ig : Vector Ring 8 := Vector.replicate 8 {}
  /-- - | R113 | as EventRing | event ring -/
  ev : EventRing := {}
  /-- 1 | R105 | 0 | BAR2_HIT -/
  bar2Hit : Bool := false
  /-- 1 | R105 | 0 | BAR2_WRITE -/
  bar2Write : Bool := false
  /-- 1 | R105 | 0 | RING_ERR -/
  ringErr : Bool := false
  /-- 8 | R105 | 0 | HIF_BAR2_SEL.WINDOW -/
  bar2Window : Nat := 0
  /-- 1 | R105 | 0 | HIF_BAR2_SEL.EN -/
  bar2En : Bool := false
  /-- 64 | R114 | each as MsixEntry | MSI-X table -/
  msix : Vector MsixEntry 64 := Vector.replicate 64 {}
  /-- 64 | R114 | PRESUMED 0 (PCIe), log 16 | PBA pending bits -/
  pba : BitVec 64 := 0
  /-- 1 | R114 | PRESUMED 0 (PCIe), log 16 | function mask -/
  funcMask : Bool := false
  /-- 64 | R99 | PRESUMED 0 (PCIe), log 16 | base address of BAR0, a multiple of 16 KiB -/
  bar0Base : DWord := 0
  /-- 64 | R99 | PRESUMED 0 (PCIe), log 16 | base address of BAR2, a multiple of 256 MiB -/
  bar2Base : DWord := 0
  /-- 3 | R99 | PRESUMED 0 (PCIe), log 16 | Max Payload Size: 128 bytes times a power of two, at most 512 -/
  maxPayload : Nat := 0
  /-- 3 | R99 | PRESUMED 2 (PCIe), log 16 | Max Read Request Size: 128 bytes times a power of two, at most 4,096 -/
  maxRead : Nat := 2
  /-- 2 | R99, R102 | held (R555) | link state -/
  link : Link := .held
  /-- 1 | R102 | 0 | function in D3hot -/
  d3hot : Bool := false
  /-- 1 | R555 | DESIGN CHOICE low, log 17 | PERST_N level last seen: true when low -/
  perstLow : Bool := true
  /-- 2 | R112 | 0 | command ring whose turn is next -/
  turn : Nat := 0
  /-- 64 | R12, R126 | DESIGN CHOICE nothing captured, log 18 | capture latch of BAR0: offset and value of a high word -/
  capBar0 : Option (Nat × Word) := none
  /-- 64 | R12, R126 | DESIGN CHOICE nothing captured, log 18 | capture latch of the management port: offset and value of a high word -/
  capMgmt : Option (Nat × Word) := none
  /-- 64 | R12, R126 | DESIGN CHOICE nothing captured, log 18 | capture latch of the supervisor port: offset and value of a high word -/
  capSup : Option (Nat × Word) := none
  /-- - | R126 | empty | offsets that the management port has written in the present cycle -/
  mgmtNow : List Nat := []
  /-- 8 | R524, R525 | 0x00 | FLT_SEL of BAR0 -/
  fltSelBar0 : Fin 256 := 0
  /-- 8 | R524, R525 | 0x00 | FLT_SEL of the management port -/
  fltSelMgmt : Fin 256 := 0
  deriving DecidableEq, Repr

/-! ## Commands and replies (R140..R171) -/

/-- The statuses of R151, with R225 using the same codes. -/
inductive Status where
  | ok | accepted | partially
  | badOpcode | badParam | length | state | denied | busy | timeout | fenced | stillPresent | noResource | signature
  | noshrink | check | decode
  deriving DecidableEq, Repr

/-- A reply (R148). -/
structure Reply where
  tag : BitVec 16
  status : Status
  dup : Bool := false
  restart : Bool := false
  late : Bool := false
  detail : Word := 0
  seq : Word := 0
  w0 : Word := 0
  w1 : Word := 0
  w2 : Word := 0
  w3 : Word := 0
  w4 : Word := 0
  deriving DecidableEq, Repr

/-- What becomes of the reply of a packet in progress: delivered, and stored for duplicates when its sequence is not 0;
delivered alone, since a later sequence of its source has taken the store (R161); or discarded, since an endpoint reset has
made it void (R103). -/
inductive Fate where
  | live | stale | void
  deriving DecidableEq, Repr

/-- Where an accepted packet stands that has not started (R155, R156): in one of the intake's 16 places, at its SPI port until
there is one, or at the supervisor port until its signature has been verified (R133). -/
inductive Place where
  | held | port | verifying
  deriving DecidableEq, Repr

/-- An accepted packet that has not started, or one started and waiting for its indirect block (R145, R155): its 64 bytes, its
opcode byte, its fields, and the pointer block when INDIRECT is set. `late` marks a started run-to-end packet whose deadline
has expired (R165). -/
structure Packet where
  raw : List Byte
  op : Byte
  cmd : Cmd
  addr : DWord
  blockLen : Nat
  place : Place
  fate : Fate
  late : Bool
  deriving DecidableEq, Repr

/-- What a parked command waits for (R157). -/
inductive Wait where
  /-- a hardware completion brought by PARKED_COMMAND_RESUME -/
  | hardware
  /-- the journal record of that ticket becoming durable (R176) -/
  | record (ticket : Nat)
  /-- the journal record of that ticket being formed, once the staging buffer has room (R362): a command whose hardware has
  ended already -/
  | formed (ticket : Nat)
  /-- room in the staging buffer for the records of its commit step, which waits for it (R362) -/
  | room
  /-- its turn to read the journal flash between record programs (R139, R369): JOURNAL_READ with the records it has delivered
  and those it delivers in all -/
  | read (done total : Nat)
  deriving DecidableEq, Repr

/-- A parked command (R157), with the reply it will give when it waits for a record, and whether its deadline has
expired (R165). -/
structure Parked where
  op : Byte
  cmd : Cmd
  wait : Wait
  reply : Option Reply
  late : Bool
  fate : Fate
  deriving DecidableEq, Repr

/-- The last non-zero sequence of a source and the reply to it, none while it is in progress (R161). -/
structure DupEntry where
  seq : Word
  reply : Option Reply
  deriving DecidableEq, Repr

/-- The Kettle and the hardware around it. -/
structure Kettle where
  /-- 16 packets, and those at the SPI ports | R155, R156 | empty | accepted packets that have not started, in acceptance order -/
  intake : List Packet := []
  /-- 2 | R155 | 0 | the intake's turn: 0 the supervisor port, 1 the management port, 2 the command rings -/
  turn : Nat := 0
  /-- packets | R145 | empty | started packets that wait for their indirect block, oldest first -/
  fetching : List Packet := []
  /-- 8 commands | R157, R158 | empty | parked commands, oldest first -/
  parked : List Parked := []
  /-- 4 | R161 | none | duplicate store of the command rings -/
  dupRing : Vector (Option DupEntry) 4 := Vector.replicate 4 none
  /-- - | R161 | none | duplicate store of the management port -/
  dupMgmt : Option DupEntry := none
  /-- - | R161 | none | duplicate store of the supervisor port -/
  dupSup : Option DupEntry := none
  /-- XCLK | R170 | empty | times of the restarts of the last 10 s, newest first -/
  restarts : List Nat := []
  /-- 1 | R57, R170 | 0 | the Kettle is out of service until reset -/
  dead : Bool := false
  deriving DecidableEq, Repr

/-- A packet queued on an SPI port that awaits its reply (R123): its tag and sequence, its REPLY flag, without which no
timeout runs for it (R150), and whether its timeout has passed (R124). -/
structure Queued where
  tag : BitVec 16
  seq : Word
  reply : Bool
  timed : Bool
  deriving DecidableEq, Repr

/-- A signed frame whose signature waits for verification (R133): packet, key and signature bytes, and the nonce that was
current when its verification started. -/
structure SignedFrame where
  packet : List Byte
  key : List Byte
  sig : List Byte
  nonce : BitVec 128
  deriving DecidableEq, Repr

/-- An SPI target (R119..R134). -/
structure Spi where
  /-- 4 | R123 | empty | packets awaiting their reply -/
  queue : List Queued := []
  /-- - | R123 | empty | completed replies, oldest first -/
  replies : List Reply := []
  /-- 1 | R122 | 0 | QUEUE_FULL -/
  queueFull : Bool := false
  /-- 1 | R122 | 0 | FRAME_ERR -/
  frameErr : Bool := false
  /-- 1 | R122 | 0 | CRC_ERR -/
  crcErr : Bool := false
  /-- 14 | R124, R127 | 1000 | MGT_CFG.TIMEOUT [ms]; 1000 on the supervisor port -/
  timeout : Nat := 1000
  /-- 128 | R130, R134 | random (free value) | current nonce; supervisor port only -/
  nonce : BitVec 128 := 0
  /-- 1 | R133 | empty | signed frames in verification; supervisor port only -/
  signed : List SignedFrame := []
  /-- 4096 bytes | R131, R369 | DESIGN CHOICE empty, log 19 | journal buffer; supervisor port only -/
  jbuf : List Byte := []
  /-- 6 | R380 | 0 | records in the journal buffer -/
  jbufCount : Nat := 0
  deriving DecidableEq, Repr

/-- What leaves the device at its ports, in order: posted writes and messages over PCIe (R111), register and BAR2
read completions, the answer of an SPI frame, a strobed head cycle with the drop of each physical slot (R319, R332), a
laser-driver frame (R310), and the pulses of a facet of a sheet on each beam, in sixteenths of a pixel after BDS, with the
trim of the pixel clock in force (R293, R298). -/
inductive Out where
  | write (addr : DWord) (bytes : List Byte)
  | msix (vector : Fin 64)
  | readWord (path : Path) (value : Word)
  | bar2 (bytes : List Byte) (poisoned : Bool)
  | miso (port : SpiPort) (bytes : List Byte)
  /-- a fire cycle (R319, R332): the lanes' bits in order, and the times from the strobe [ns] at which the shift starts and ends,
  LAT rises and falls, and the strobe rises and falls -/
  | fire (head : Fin 8) (wave : Nat) (instant : Nat) (lanes : List (List Bool)) (times : List Int)
  /-- the start of a read of a head memory (R321, R323): pair, 7-bit address, word address, length, fast mode -/
  | i2c (pair : Fin 4) (address word length : Nat) (fast : Bool)
  /-- an instruction to the journal flash (R136): its code, byte address and number of data bytes, 0 where it has none -/
  | flash (code : Byte) (addr count : Nat)
  | ldc (station : Fin 6) (beam : Fin 16) (frame : BitVec 24)
  | facet (station : Fin 6) (f : Int) (trim : Int) (beams : List (List (Int × Int)))
  deriving DecidableEq, Repr

/-! ## Recipes, jobs and sheets (R181..R191, R382..R407) -/

/-- A recipe in the store (R181, R185). -/
structure Recipe where
  kind : Nat
  inst : Nat
  version : Nat
  hash : BitVec 256
  body : List Byte
  active : Bool
  deriving DecidableEq, Repr

/-- An open job (R189, R359); `wrapped` says that a commit in it has raised SER_WRAP (R374). -/
structure Job where
  id : Word
  audit : Bool
  commits : Nat
  valid : Nat
  spoiled : Nat
  cancelled : Nat
  wrapped : Bool
  deriving DecidableEq, Repr

/-- The spoil reasons of R289, R316, R347 and R405. -/
inductive Spoil where
  | halt | power | clock | encoder | fenced
  | jam | mainDrive | stop | divert | duplex
  | steepVerify | steepDeadline | steepLost | steepSlotRead
  | beamBd | beamPhase | beamInterlock
  | headTemp | headOverspeed | headStrobe | headDuty | headData | headUnavailable
  deriving DecidableEq, Repr

/-- States of a ledger entry (R387), numbered as QUERY_SHEET does (R190). -/
inductive SheetState where
  | admitted | committed | pastGate | completed | cancelled
  deriving DecidableEq, Repr

/-- The ledger band outcomes of R288; PENDING is the absence of an entry. -/
inductive Outcome where
  | first | mirror | blank | slotRead
  deriving DecidableEq, Repr

/-- Progress of a mark field of a sheet (R330, R360). -/
inductive MarkRun where
  | waiting | running (next : Nat) | done
  deriving DecidableEq, Repr

/-- A mark field (R383) with the head that fires it (R343), its line count and its image, one list of 512 bytes per
line (R327); the image of kinds 1 and 3 is present once rendered (R377). `missed`: a line was not fired with its data;
`dropped`: an instant was dropped (R338). -/
structure Mark where
  kind : Nat
  head : Nat
  by_ : Nat
  format : Nat
  wave : Nat
  pos : Nat
  lines : Nat
  image : Option (List (List Byte))
  run : MarkRun
  fired : Nat
  missed : Bool
  dropped : Bool
  deriving DecidableEq, Repr

/-- A sensor window of a picked sheet (R400): the sensor, the expected leading edge, its timestamp once seen, and
whether the trailing edge has left. -/
structure Window where
  sensor : Nat
  start : Int
  stop : Int
  lead : Option Nat
  trailed : Bool
  deriving DecidableEq, Repr

/-- A ledger entry (R19, R382, R387). -/
structure Sheet where
  job : Word
  handle : BitVec 16
  media : Nat
  mask : BitVec 6
  length : Nat
  duplex : Nat
  dest : Nat
  spoilDest : Nat
  lead : Nat
  partner : BitVec 16
  widths : Vector Nat 6
  marks : List Mark
  state : SheetState
  cancel : Bool
  /-- position in commit order; 0 before commit (R387) -/
  order : Nat
  /-- XCLK cycle of the commit step (R404) -/
  since : Option Nat
  /-- commit ordinal within the job (R360) -/
  ordinal : Nat
  serial : Nat
  t : Option Nat
  spoil : Option Spoil
  /-- XCLK cycle in which the stored reason was written (R22) -/
  spoilCycle : Nat
  spoilMore : Nat
  outcomes : List (Nat × Nat × Outcome)
  route : Option Nat
  windows : List Window
  recorded : Option Nat
  recipeIdx : Nat
  digest : Word
  /-- the head that dropped the sheet's first fire instant (R339) -/
  overHead : Option (Fin 8)
  /-- the SHEET record has been formed (or none is due, R352) -/
  formed : Bool
  /-- the sheet stands at the registration hold (R397) -/
  hold : Bool
  /-- the leading edge has passed the registration gate (R360, R391) -/
  gated : Bool
  deriving DecidableEq, Repr

/-- History of a freed sheet (R190). -/
structure Past where
  job : Word
  handle : BitVec 16
  cancelled : Bool
  spoil : Option Spoil
  spoiled : Bool
  serial : Nat
  mirror : Nat
  blank : Nat
  recorded : Option Nat
  deriving DecidableEq, Repr

/-- The sheet ledger and the recipe store. -/
structure Ledger where
  /-- 512 | R19, R384 | all free | ledger entries -/
  entries : Vector (Option Sheet) 512 := Vector.replicate 512 none
  /-- 4096 | R190 | empty | freed sheets, newest first -/
  history : List Past := []
  /-- 4 | R189 | none | open jobs -/
  jobs : List Job := []
  /-- 1 | R191, R379 | 0 | audited printing on -/
  audit : Bool := false
  /-- - | R387 | 0 | sheets committed since boot, the source of commit order -/
  commits : Nat := 0
  /-- 32 | R185 | empty | recipe store -/
  store : Vector (Option Recipe) 32 := Vector.replicate 32 none
  /-- 64 | R360 | DESIGN CHOICE 0, log 20 | index of the first RECIPE record of the activation in force -/
  recipeRecord : Nat := 0
  deriving DecidableEq, Repr

/-! ## Caddy and ingest (R212..R235) -/

/-- A Leaf copy on its channel (R226, R232). -/
inductive Copy where
  | absent | good | bad
  deriving DecidableEq, Repr

/-- A Leaf in the Caddy (R213, R227): the header fields, the body and its two copies. -/
structure Leaf where
  job : Word
  key : Word
  form : Nat
  flags : Byte
  width : Nat
  rawLen : Nat
  bodyLen : Nat
  rawCrc : Word
  bodyCrc : Word
  body : List Byte
  primary : Copy
  mirror : Copy
  /-- an event of R230 has freed the Leaf while a decode attempt on it runs -/
  doomed : Bool
  deriving DecidableEq, Repr

/-- Where an ingest descriptor stands (R218..R222). -/
inductive IngestPhase where
  /-- accepted, not started -/
  | queued
  /-- reading its source, or waiting for an encode lane (none) -/
  | reading (lane : Option (Fin 12))
  /-- kind 1: the whole band has been read and its CRC agrees; the lane still emits its body (R221) -/
  | read (lane : Fin 12) (raw : List Byte)
  /-- both copies being written; the Leaf to enter -/
  | writing (leaf : Leaf) (zero : Bool)
  deriving DecidableEq, Repr

/-- An ingest descriptor in the device (R217): its 64 bytes, and the encode lanes that failed self-verify on it
(R256). -/
structure Ingest where
  ring : Fin 8
  bytes : List Byte
  phase : IngestPhase
  lane : Option (Fin 12)
  failed : List (Fin 12)
  deriving DecidableEq, Repr

/-- The Caddy (R226..R235). -/
structure Caddy where
  /-- 1,048,576 entries | R227, R234 | empty | index -/
  leaves : List Leaf := []
  /-- 32 | R234 | 0 | CAD_CAP_PAGES -/
  capPages : Nat := 0
  /-- 32 | R234, R479 | 0 | pages of each channel that are filled and so allocatable, used ones included -/
  filledPages : Nat := 0
  /-- 16 | R234 | 0x0400 | LOW_WATER [MiB] -/
  lowWater : Nat := 0x0400
  /-- 6 | R186, R234 | 0x3C | THRESHOLD -/
  threshold : Nat := 0x3C
  /-- 1 | R235 | 0 | CAD_LOW has been raised and free space has not risen 10 % above since -/
  lowRaised : Bool := false
  /-- 1 | R235 | 0 | free space has been at LOW_WATER or above since it was last below it -/
  lowAbove : Bool := false
  /-- 1 | R234 | 0 | LOST -/
  lost : Bool := false
  /-- - | R232, R233 | empty | repair copies in progress: job, key, channel -/
  repairs : List (Word × Word × Fin 2) := []
  /-- 32 | R234 | 0 | CAD_REPAIRS -/
  repaired : Nat := 0
  /-- 32 | R234 | 0 | CAD_LOST_KEY -/
  lostKey : Word := 0
  /-- 32 | R234 | 0 | CAD_LOST_JOB -/
  lostJob : Word := 0
  /-- 16 in progress | R218, R219 | empty | ingest descriptors, oldest first -/
  ingest : List Ingest := []
  /-- 3 | R219 | 0 | ingest ring whose turn is next -/
  turn : Nat := 0
  deriving DecidableEq, Repr

/-! ## Codec lanes (R236..R269) -/

/-- Lane states of R264. -/
inductive LaneState where
  | gated | test | idle | steep | ingest | run | fenced
  deriving DecidableEq, Repr

/-- A decode assignment (R245, R275): slot, epoch, band, copy and attempt. -/
structure Assign where
  station : Fin 6
  slot : Fin 6
  epoch : BitVec 8
  job : Word
  key : Word
  /-- false the primary copy, true the mirror copy -/
  mirror : Bool
  second : Bool
  deriving DecidableEq, Repr

/-- A CODEC_RUN's saved lane state (R258, R260, R261): the start's parameters, and how far it came: the source read, on an
encode lane the body bytes written since the start and the bits pending, and how many bytes have been written. -/
structure Saved where
  start : List Byte
  source : List Byte
  emitted : List Byte
  pending : Nat
  delivered : Nat
  deriving DecidableEq, Repr

/-- A codec lane (R264, R268). -/
structure Lane where
  /-- 3 | R268 | GATED | STATE -/
  state : LaneState := .gated
  /-- 1 | R264 | 0 | a fence is in force on the lane -/
  fence : Bool := false
  /-- 1 | R264, R265 | 0 | the test running is a periodic one -/
  periodic : Bool := false
  /-- 1 | R265, R266 | 0 | a known-answer test is due at the next idle moment -/
  testDue : Bool := false
  /-- 1 | R265 | 0 | a periodic test has fallen due while the lane was not idle -/
  periodicDue : Bool := false
  /-- - | R258, R260 | none | saved CODEC_RUN state -/
  saved : Option Saved := none
  /-- - | R245 | none | assignment of the present attempt -/
  assign : Option Assign := none
  /-- 8 | R268 | 0 | EPOCH -/
  epoch : BitVec 8 := 0
  /-- 8 | R268 | 0 | LAST_OUTCOME -/
  lastOutcome : Nat := 0
  /-- 8 | R268 | 0 | LAST_CAUSE -/
  lastCause : Nat := 0
  /-- 32 | R268 | 0 | ATTEMPTS -/
  attempts : Nat := 0
  /-- 32 | R268 | 0 | FAILS -/
  fails : Nat := 0
  /-- 64 | R268 | 0 | output bytes since boot; OUT_MIB is its whole MiB -/
  outBytes : Nat := 0
  /-- XCLK | R223 | 0 | 20 µs after the lane's latest Leaf: in a throttle step it takes no descriptor before -/
  readyAt : Nat := 0
  /-- - | R266 | 0 | attempts that the Steep has given the lane -/
  tries : Nat := 0
  /-- 1 | R264, R286 | 0 | the lane is gated once the attempt it runs has ended (log 107) -/
  gateDue : Bool := false
  /-- 1024 attempts | R266 | empty | counts of the Steep's attempts at which strikes were given, newest first -/
  strikes : List Nat := []
  deriving DecidableEq, Repr

/-- The lanes. -/
structure Codec where
  /-- 16 | R236 | each as Lane | decode lanes -/
  dec : Vector Lane 16 := Vector.replicate 16 {}
  /-- 12 | R236 | each as Lane | encode lanes -/
  enc : Vector Lane 12 := Vector.replicate 12 {}
  /-- 16 | R268 | 0x0064 | KAT_PERIOD [ms] -/
  katPeriod : Nat := 100
  /-- 32 | R268 | 0 | CDC_KAT_RUNS -/
  katRuns : Nat := 0
  deriving DecidableEq, Repr

/-! ## Steep (R270..R291) -/

/-- Band states of R274. -/
inductive BandState where
  | wait | decode1 | decode2 | verified | blank | exposing | done
  deriving DecidableEq, Repr

/-- A band of a station band sequence (R272, R274). -/
structure Band where
  /-- ledger index -/
  sheet : Fin 512
  job : Word
  key : Word
  band : Nat
  lead : Nat
  state : BandState
  slot : Option (Fin 6)
  /-- process-position count of the verify deadline, once scheduled (R273) -/
  deadline : Option Nat
  /-- lanes of the first attempt, which the second avoids (R275) -/
  lanes : List (Fin 16)
  /-- copy the present attempt reads: true the mirror -/
  mirror : Bool
  /-- outcome of the first attempt when it failed, with the lane that reported it (R266) -/
  failed : Option (Nat × Fin 16)
  /-- the band is to be assigned a lane (migration or second attempt waiting) -/
  waiting : Bool
  /-- the waiting assignment is a migration (R276) -/
  migrating : Bool
  /-- outcome to write at DONE -/
  outcome : Option Outcome
  deriving DecidableEq, Repr

/-- A Steep slot (R270, R271, R282). -/
structure Slot where
  /-- 8 | R282 | 0 | epoch -/
  epoch : BitVec 8 := 0
  /-- 4 | R282 | none | owner lane -/
  owner : Option (Fin 16) := none
  /-- 1 | R280 | 0 | retired -/
  retired : Bool := false
  /-- 1 | R280 | 0 | to be retired when its band is DONE -/
  retiring : Bool := false
  /-- 1 | R270 | 0 | holds a band -/
  busy : Bool := false
  /-- 786,432 bytes | R270 | DESIGN CHOICE empty, log 21 | content -/
  data : List Byte := []
  /-- 8 for each 64-bit word | R271 | empty, with the content | checks -/
  checks : List Byte := []
  deriving DecidableEq, Repr

/-- A station's side of the Steep (R290). -/
structure SteepStation where
  /-- 6 | R270 | each as Slot | slots -/
  slots : Vector Slot 6 := Vector.replicate 6 {}
  /-- - | R272 | empty | station band sequence -/
  bands : List Band := []
  /-- 32 | R290 | 0 | FIRST -/
  first : Nat := 0
  /-- 32 | R290 | 0 | MIRROR -/
  mirror : Nat := 0
  /-- 32 | R290 | 0 | BLANK -/
  blank : Nat := 0
  deriving DecidableEq, Repr

/-- The Steep. -/
structure Steep where
  /-- 6 | R290 | each as SteepStation | stations -/
  st : Vector SteepStation 6 := Vector.replicate 6 {}
  /-- 3 | R186, R290 | 4 | STP_CFG.LEAD -/
  lead : Nat := 4
  /-- 1 | R287 | 0 | the schedulers are in panic -/
  panic : Bool := false
  /-- XCLK | R290 | 0 | XCLK cycle at which the present panic began -/
  panicFrom : Nat := 0
  /-- XCLK | R290 | 0 | time in panic, earlier ones summed -/
  panicTime : Nat := 0
  /-- 32 | R290 | 0 | STP_MIGRATIONS -/
  migrations : Nat := 0
  /-- 32 | R290 | 0 | STP_STALE -/
  stale : Nat := 0
  /-- 32 | R290 | 0 | STP_LAST_KEY -/
  lastKey : Word := 0
  deriving DecidableEq, Repr

/-! ## Beam timing (R292..R318) -/

/-- Lock states of R312, numbered as BTU STATUS.LOCK. -/
inductive Lock where
  | off | synth | spin | search | ident | pullIn | locked | slew
  deriving DecidableEq, Repr

/-- A beam-timing unit (R317). -/
structure Station where
  /-- 3 | R317 | OFF | LOCK -/
  lock : Lock := .off
  /-- 1 | R317 | 0 | LDEN driven high -/
  lden : Bool := false
  /-- 1 | R317 | 0 | CAL_DUE -/
  calDue : Bool := false
  /-- 1 | R305 | 0 | a calibration is running -/
  calRunning : Bool := false
  /-- 1 | R317 | 0 | SIG_OK -/
  sigOk : Bool := false
  /-- 4 | R317 | 0 | FACETS in force -/
  facets : Nat := 0
  /-- 4 | R317 | 0 | FACET label -/
  facet : Nat := 0
  /-- - | R305, R309 | 0 | facets since lock start, for the APC beam -/
  facetCount : Nat := 0
  /-- 16 signed | R317 | 0 | PHASE_ERR -/
  phaseErr : Int := 0
  /-- 32 | R317 | 0 | REG_OFFSET in force -/
  regOffset : Nat := 0
  /-- 32 | R313 | DESIGN CHOICE 0, log 22 | grid reference in force, which moves in SLEW -/
  gridRef : Nat := 0
  /-- 16 x ps | R294, R317 | none | last facet periods, newest first -/
  periods : List Nat := []
  /-- 32 | R317 | 0 | SCAN_TIME [ps] -/
  scanTime : Nat := 0
  /-- 12 x 16 x ps | R308 | none | last scan times per facet label, newest first -/
  scans : Vector (List Nat) 12 := Vector.replicate 12 []
  /-- 12 x 16 signed | R317 | 0 | TRIM per facet label -/
  trims : Vector Int 12 := Vector.replicate 12 0
  /-- 16 signed | R317 | 0 | CAL: die temperature at the last calibration -/
  calTemp : Int := 0
  /-- 16 | R317 | 0 | CAL: calibrations since boot -/
  cals : Nat := 0
  /-- 5 | R317 | 0 | FLAGS BD_MISS, BDE_MISS, INTERLOCK, APC_LIMIT, TABLE_RELOAD -/
  flags : BitVec 5 := 0
  /-- 32 | R317 | 0 | BD_MISSES -/
  bdMisses : Nat := 0
  /-- 2 | R295 | 0 | consecutive BDS edges missed -/
  missRun : Nat := 0
  /-- 16 x 12 | R317 | 0 | APC_LEVEL -/
  apcLevel : Vector Nat 16 := Vector.replicate 16 0
  /-- 16 x 5 | R309 | 0 | consecutive updates at a limit -/
  apcRun : Vector Nat 16 := Vector.replicate 16 0
  /-- - | R312 | 0 | consecutive facets with abs e at most 2 -/
  goodRun : Nat := 0
  /-- - | R312 | 0 | consecutive facets with abs e above 8 -/
  badRun : Nat := 0
  /-- - | R307 | none | stored facet signature [ps] -/
  signature : Option (List Nat) := none
  /-- - | R307 | empty | scan times of the identification in progress, oldest first -/
  identScans : List Nat := []
  /-- - | R307 | 0 | identification rounds made -/
  identRounds : Nat := 0
  /-- 32 lines | R304 | none | tap delays [fs] behind the tap tables in use -/
  taps : List Nat := []
  /-- 32 lines | R304 | none | tap delays behind the pending tap tables -/
  tapsPending : Option (List Nat) := none
  /-- cycles | R304 | 0 | the XCLK cycle in which the pending tables were completed -/
  pendingSince : Nat := 0
  /-- 1 | R305 | 0 | the running calibration goes beam by beam, in the blanking intervals of a sheet -/
  calRolling : Bool := false
  /-- 16 x 1 | R305 | 0 | the beams that a rolling calibration has calibrated -/
  calBeams : BitVec 16 := 0
  /-- 32 lines | R305 | none | the tap delays that a rolling calibration has measured so far -/
  calLines : List Nat := []
  /-- 1 | R306 | 0 | the last calibration found a line that cannot span 15/16 of the pixel period -/
  calShort : Bool := false
  /-- up to 64 revolutions x ps | R307 | none | the scan times that STATION_CALIBRATE kind 1 has measured, newest first -/
  calScans : List Nat := []
  /-- 4 | R307 | 0 | the facet label of the oldest of them -/
  calLabel : Nat := 0
  /-- 9 | R310 | 0 | the facets over which STATION_CALIBRATE kind 2 has run the loop, to 256 -/
  calFacets : Nat := 0
  /-- 16 x 12 | R310 | 0 | the last monitor sample of each beam -/
  apcLast : Vector Nat 16 := Vector.replicate 16 0
  /-- beams | R309 | empty | the beams whose LDC frame waits for the next facet -/
  ldcLate : List (Fin 16) := []
  /-- 16 x 1 | R294, R309, R312 | 0 | the beams that are forced on -/
  forced : BitVec 16 := 0
  /-- cycles | R294 | none | the time of the last BDS, real or synthetic -/
  bdsAt : Option Nat := none
  /-- cycles | R294 | none | the time of the BDE of the facet that it began -/
  bdeAt : Option Nat := none
  /-- cycles | R315 | none | the cycle of the last real BDS edge -/
  edgeAt : Option Nat := none
  /-- 64 signed | R312 | 0 | the grid value at which lock was regained: sheets with an earlier TOF are not exposed any more -/
  resumeAt : Int := 0
  /-- 1 | R285, R315 | none | a facet's read that waits for an attempt's report of this cycle, and whether a sheet may begin in it -/
  readDue : Option Bool := none
  /-- 1 | R285 | 0 | the first line of a band that waits for an attempt's report of this cycle -/
  firstDue : Bool := false
  /-- 3 | R317 | 0 | kinds of calibration passed since activation -/
  calPassed : BitVec 3 := 0
  /-- 1 | R295, R83 | 0 | Pour of the station blanked until lock -/
  blanked : Bool := false
  /-- 1 | R291, R509 | 0 | STP_STATION_SLOTS holds the station fenced -/
  slotFence : Bool := false
  deriving DecidableEq, Repr

/-! ## Marking heads (R319..R349) -/

/-- Pacer states of R344. -/
inductive HeadState where
  | absent | idle | capped | marking | held | fenced
  deriving DecidableEq, Repr

/-- What a scan latches from a head memory (R322, R324). -/
structure HeadMem where
  nozzles : Nat
  rank : Nat
  rowGap : Nat
  stbMax : Nat
  limit : Int
  hyst : Nat
  duty : Nat
  table : List Nat
  serial : List Byte
  deriving DecidableEq, Repr

/-- A head pacer (R348). -/
structure Head where
  /-- 3 | R348 | ABSENT | STATE -/
  state : HeadState := .absent
  /-- 1 | R348, R343 | 0 | MOVED -/
  moved : Bool := false
  /-- - | R324 | none | latched head memory -/
  mem : Option HeadMem := none
  /-- 16 signed | R348 | 0 | TEMP -/
  temp : Int := 0
  /-- 32 | R348 | 0 | FIRES -/
  fires : Nat := 0
  /-- 32 | R348 | 0 | DROPPED -/
  dropped : Nat := 0
  /-- 32 | R348 | 0 | STB_CUTS -/
  cuts : Nat := 0
  /-- 32 | R348 | 0 | DUTY_SUPPR -/
  suppressed : Nat := 0
  /-- 2048 x 1 | R333 | 0 | dead-nozzle map, as the marked logical nozzles -/
  dead : List Nat := []
  /-- - | R333 | empty | changes that take effect at the first fire cycle outside a sheet -/
  deadNext : List (Nat × Bool) := []
  /-- 1 | R348 | 0 | NO_TAKEOVER -/
  noTakeover : Bool := false
  /-- 5 | R348 | 0 | FLAGS CUT, OVERSPEED, TEMP_HOLD, DUTY, DATA -/
  flags : BitVec 5 := 0
  /-- 32 | R348 | 0 | LAST_DROP instant and ledger index -/
  lastDrop : Nat × Nat := (0, 0)
  /-- 8 | R348 | 0 | SCAN -/
  scan : Nat := 0
  /-- 9, 2 | R330 | none | ledger index and mark field being fired -/
  field : Option (Fin 512 × Nat) := none
  /-- XCLK | R338 | none | cycle of the last strobed instant -/
  lastStrobe : Option Nat := none
  /-- 32 lines | R329 | empty | FIFO: line number and its 512 bytes, none when unavailable -/
  fifo : List (Nat × Option (List Byte)) := []
  /-- 9, 2 | R329 | none | ledger index and mark field whose lines the FIFO holds -/
  fifoFor : Option (Fin 512 × Nat) := none
  /-- 64 lines | R328 | empty | delay buffer of the lagging row: line number and drops -/
  delay : List (Nat × List Nat) := []
  /-- 1 | R336 | 0 | the watchdog holds the strobe low after a cut -/
  cutHold : Bool := false
  /-- 2048 x 7 | R337 | empty | fires per nozzle in the duty window -/
  dutyFires : List (Nat × Nat) := []
  /-- 32 | R337 | 0 | non-zero drops in the duty window -/
  dutyDrops : Nat := 0
  /-- 1 | R321 | 100 kHz | fast mode of the head's I²C bus, from the DEVICE recipe -/
  i2cFast : Bool := false
  /-- 1 | R345 | none | a capping move in progress: true to cap -/
  capMove : Option Bool := none
  deriving DecidableEq, Repr

/-! ## Serial authority and journal (R350..R381) -/

/-- A journal record formed and not yet durable (R357): its index, its 128 bytes, the chain hash it follows, the
ledger entry it records, and the ticket under which a command waits for it. -/
structure Rec where
  idx : Nat
  bytes : List Byte
  prev : BitVec 256
  sheet : Option (Fin 512)
  ticket : Nat
  deriving DecidableEq, Repr

/-- A record that waits to be formed (R362, R364): type, aux byte, payload, its ledger entry, its ticket, an H of its
own for the header (R357), a previous chain hash of its own (R358), and the 96 bytes of a record that was formed before its
place in the chain is known: one formed while a seal is being signed (R361), or a lost one formed again (R368). -/
structure Unformed where
  type : Nat
  aux : Nat
  payload : List Byte
  sheet : Option (Fin 512)
  ticket : Nat
  high : Option Nat
  prev : Option (BitVec 256)
  raw : Option (List Byte)
  deriving DecidableEq, Repr

/-- The serial authority and the journal writer (R379). -/
structure Journal where
  /-- 1 | R379 | 0 | PROVISIONED -/
  provisioned : Bool := false
  /-- 1 | R379 | 0 | ANCHORED -/
  anchored : Bool := false
  /-- 1 | R379 | 0 | FLASH_OK -/
  flashOk : Bool := false
  /-- 1 | R379 | 0 | SEALING -/
  sealing : Bool := false
  /-- 32 records | R362, R379 | empty | staged records, oldest first -/
  staged : List Rec := []
  /-- - | R362 | empty | records that wait to be formed, oldest first -/
  waiting : List Unformed := []
  /-- 64 | R379 | 0 | n -/
  next : Nat := 0
  /-- 64 | R379 | 0 | H -/
  high : Nat := 0
  /-- 64 | R379 | 0 | newest durable index; none before the first record of a ring -/
  newest : Option Nat := none
  /-- 64 | R206 | 0 | oldest retained index -/
  oldest : Nat := 0
  /-- - | the MODEL's own field | 0 | count of records asked for, which numbers their tickets -/
  tickets : Nat := 0
  /-- 64 | R358 | 0 | index of the next record formed -/
  nextIdx : Nat := 0
  /-- 64 | R379 | 0 | index of the newest seal -/
  sealIdx : Nat := 0
  /-- 1 | R363 | 0 | a seal has been formed in this ring -/
  sealed : Bool := false
  /-- 9 | R363 | 0 | records formed since the last seal -/
  unsealed : Nat := 0
  /-- 256 | R358 | 0 | chain hash of the newest record formed -/
  chain : BitVec 256 := 0
  /-- 64 | R379 | all ones | K; none when nothing was collected -/
  coll : Option Nat := none
  /-- 32 | R366 | DESIGN CHOICE 0, log 23 | sequence of the newest collection-log entry -/
  collSeq : Nat := 0
  /-- 1 | R366 | DESIGN CHOICE 0, log 23 | collection-log sector in use -/
  collSector : Nat := 0
  /-- 8 | R366 | DESIGN CHOICE 0, log 23 | entries used in that sector -/
  collUsed : Nat := 0
  /-- 64 | R365 | 0 | flash capacity [bytes] as SFDP confirms it -/
  capacity : Nat := 0
  /-- 32 | R379 | 0 | JNL_BOOTS -/
  boots : Nat := 0
  /-- 32 | R379 | 0 | JNL_VOIDED -/
  voided : Nat := 0
  /-- 32 | R206 | 0 | reservations made since boot -/
  reservations : Nat := 0
  /-- 64 | R351 | none | first serial of the reservation in flight -/
  inFlight : Option Nat := none
  /-- 1 | R381 | 0 | JNL_LOW has been raised -/
  lowRaised : Bool := false
  /-- 1 | R381 | 0 | JNL_FULL has been raised -/
  fullRaised : Bool := false
  /-- 1 | R139 | 0 | the oldest staged record stands in a page that was programmed with the record before it -/
  grouped : Bool := false
  /-- 1 | R139, R369 | 0 | a JOURNAL_READ has been served since the last record program -/
  readServed : Bool := false
  /-- sectors | R138, R367 | DESIGN CHOICE empty, log 24 | the sector being erased, and those to be erased after it -/
  erasing : List Nat := []
  /-- bytes | R135, R365 | DESIGN CHOICE erased, log 24 | journal flash: address and byte, canonical; unlisted 0xFF -/
  flash : List (Nat × Byte) := []
  deriving DecidableEq, Repr

/-! ## Sheet sequencer (R386..R407) -/

/-- A path stop in force (R401, R402): its reason, and whether its source has been raised. -/
structure PathStop where
  reason : Spoil
  raised : Bool
  deriving DecidableEq, Repr

/-- The sheet sequencer (R406). -/
structure Seq where
  /-- 1 | R406, R194 | 0 | OWN -/
  own : Bool := false
  /-- 1 | R406, R401 | 0 | PATH_STOP with its reason -/
  pathStop : Option PathStop := none
  /-- 32 | R406 | 0 | SEQ_PSN -/
  psn : BitVec 32 := 0
  /-- 5, 3, 8, 9 | R406 | 0 | SEQ_JAM: sensor, kind, reason, ledger index -/
  jamSensor : Nat := 0
  /-- 3 | R406 | 0 | kind of the last jam -/
  jamKind : Nat := 0
  /-- 8 | R406 | 0 | reason of the last path stop -/
  jamReason : Nat := 0
  /-- 9 | R406 | 0 | ledger index of the sheet concerned -/
  jamSheet : Nat := 0
  /-- 32 | R406 | 0 | SEQ_DONE -/
  done : Nat := 0
  /-- 32 | R406 | 0 | SEQ_SPOILED -/
  spoiled : Nat := 0
  /-- 4 | R406 | 0 | FLAGS JAM, STOP, PAUSE, HOLD -/
  flags : BitVec 4 := 0
  /-- 64 | R389 | none | T + 16 x length of the sheet picked last -/
  lastEnd : Option Nat := none
  /-- 513 x (64, 64) | R389 | empty | commit order and T + 16 x length of the sheets picked, newest first -/
  ends : List (Nat × Nat) := []
  /-- 64 | R388 | none | commit order of the sheet for which SEQ_PICK_WAIT was raised -/
  waitRaised : Option Nat := none
  /-- 3 | R390 | 0 | cause for which SEQ_PAUSE was raised in the present pause -/
  pauseRaised : Nat := 0
  /-- 64 | R390 | none | commit order of the sheet for which HEAD_WAIT has elapsed -/
  headWaited : Option Nat := none
  /-- 1 | R390 | DESIGN CHOICE 1, log 25 | every enabled fuser zone has been within its band for 500 ms -/
  fuserReady : Bool := true
  /-- 25,000 x frames | R390 | 0 | frames for which every enabled zone has been within its band -/
  fuserFrames : Nat := 0
  /-- 4 | R339, R348 | 0 | OVS_RUN -/
  ovsRun : Nat := 0
  deriving DecidableEq, Repr

/-! ## Stepper axes (R408..R427) -/

/-- Axis states of R417, numbered as AXS STATUS.STATE. -/
inductive AxisState where
  | disabled | idle | homing | moving | group | geared | stopping | fenced
  deriving DecidableEq, Repr

/-- The profile of a move in progress (R418): kind 0 absolute, 1 relative, 2 velocity with the velocity commanded, and
its limits. -/
structure Move where
  kind : Nat
  speed : Int
  vlim : Nat
  alim : Nat
  /-- the move ends at a soft limit (velocity move of a homed axis) -/
  limit : Bool
  deriving DecidableEq, Repr

/-- The straight line of a group move (R420): start and displacement of the axis, the path length and the distance gone
along it [1/65,536 of 1/256 step], the path velocity [1/65,536 of 1/256 step per ms] and the path limits [1/256 step per
ms and per ms², the last one the deceleration at which the group stops]. -/
structure Line where
  start : Int
  delta : Int
  len : Nat
  gone : Nat
  speed : Nat
  vlim : Nat
  alim : Nat
  stop : Nat
  deriving DecidableEq, Repr

/-- A gear lock (R421): the count at lock, POS at lock [1/65,536 of 1/256 step], and the correction that the deskew move
still owes with its velocity (R422), in the same unit. -/
structure GearLock where
  count : Nat
  pos : Int
  owed : Int
  speed : Int
  deriving DecidableEq, Repr

/-- A homing in progress (R419): the sequence, its phase (0 slow away from an active sensor, 1 fast toward it, 2 slow
until it releases, 3 slow toward a hard stop) and the way gone since its start [1/65,536 of 1/256 step]. -/
structure Homing where
  seq : Nat
  phase : Nat
  gone : Nat
  deriving DecidableEq, Repr

/-- A stepper axis (R426). -/
structure Axis where
  /-- 3 | R426 | DISABLED | STATE -/
  state : AxisState := .disabled
  /-- 1 | R426 | 0 | HOMED -/
  homed : Bool := false
  /-- 1 | R426 | 0 | STALLED -/
  stalled : Bool := false
  /-- 1 | R426 | 0 | OWNED -/
  owned : Bool := false
  /-- 3 | R426 | 0 | LEVEL -/
  level : Nat := 0
  /-- 3 | R413 | DESIGN CHOICE 0, log 26 | level decided and not yet applied -/
  levelNext : Nat := 0
  /-- 2 | R426 | 0 | GROUP -/
  group : Nat := 0
  /-- 1 | R426 | 0 | IDLE_I -/
  idleI : Bool := false
  /-- 32 signed | R426 | 0 | POS -/
  pos : Int := 0
  /-- 32 signed | R426 | 0 | TARGET -/
  target : Int := 0
  /-- 32 signed | R426 | 0 | VEL -/
  vel : Int := 0
  /-- 16 signed | R426 | 0 | LOAD -/
  load : Int := 0
  /-- 16 signed | R426 | 0 | coil A current [mA] -/
  iA : Int := 0
  /-- 16 signed | R426 | 0 | coil B current [mA] -/
  iB : Int := 0
  /-- 2 x 17 signed | R409 | DESIGN CHOICE 0, log 27 | duty of the coils [1/65,536], negative for current from X2 to X1 -/
  duty : Int × Int := (0, 0)
  /-- 2 x 189 | R409 | none | last bits of the coils' current feeds, newest first -/
  feed : List Bool × List Bool := ([], [])
  /-- 32 signed | R414 | 0 | coil angle of the present PWM period -/
  theta : Int := 0
  /-- XCLK | R409 | 0 | cycle in which the present PWM period began -/
  pwmAt : Nat := 0
  /-- 16 | R426 | 0 | MOVE_ID of the last move accepted -/
  moveId : BitVec 16 := 0
  /-- 16 | R426 | 0 | MOVE_ID of the last move ended -/
  endedId : BitVec 16 := 0
  /-- 32 | R426 | 0 | STALLS -/
  stalls : Nat := 0
  /-- 7 | R426 | 0 | FLAGS STALL, LIMIT, HOME_FAIL, OVERCURRENT, OPEN, FEED, SKEW -/
  flags : BitVec 7 := 0
  /-- 16 signed | R426 | 0 | DESKEW: last delta [counts] -/
  deskewDelta : Int := 0
  /-- 16 signed | R426 | 0 | DESKEW: last D applied -/
  deskewD : Int := 0
  /-- - | R418 | none | profile in progress -/
  move : Option Move := none
  /-- - | R419 | none | homing in progress -/
  homing : Option Homing := none
  /-- 1 | R417 | 0 | disable once at rest (AXIS_STOP kind 2) -/
  thenDisable : Bool := false
  /-- - | R421 | none | gear lock -/
  gearLock : Option GearLock := none
  /-- signed | R423 | none | POS at which the leading edge of the sheet held at the gate reaches the gate [1/65,536] -/
  gateAt : Option Int := none
  /-- signed, 32 | R423 | none | that POS and the new T, to which the next lock is phased -/
  phase : Option (Int × Nat) := none
  /-- - | R420 | none | line of a group move -/
  line : Option Line := none
  /-- 16 | R414 | 0 | fraction of POS [1/65,536] -/
  frac : Nat := 0
  /-- 48 signed | R414 | DESIGN CHOICE 0, log 53 | velocity in 1/65,536 of VEL's unit -/
  fine : Int := 0
  /-- 2 x 2 | R411 | 0 | consecutive samples above the over-current limit per coil -/
  ocRun : Nat × Nat := (0, 0)
  /-- 2 x 5 | R411 | 0 | consecutive open-coil periods per coil -/
  openRun : Nat × Nat := (0, 0)
  /-- 7 | R416 | 0 | consecutive periods above the stall threshold -/
  stallRun : Nat := 0
  deriving DecidableEq, Repr

/-! ## Motors and bus (R428..R450) -/

/-- Channel states, numbered as MOTOR_QUERY W2 (R193). -/
inductive MotorState where
  | stopped | catching | aligning | ramping | running | coasting | braking | fenced
  deriving DecidableEq, Repr

/-- A brushless channel (R449). -/
structure Motor where
  /-- 3 | R449 | STOPPED | STATE -/
  state : MotorState := .stopped
  /-- 3 | R449 | 0 | STEP -/
  step : Nat := 0
  /-- 1 | R449 | 0 | OPEN_LOOP -/
  openLoop : Bool := false
  /-- 1 | R449 | 0 | OWNED -/
  owned : Bool := false
  /-- 1 | R446 | 0 | input control suspended by MOTOR_STOP -/
  suspended : Bool := false
  /-- 32 | R449 | 0 | SPEED [0.01 rpm] -/
  speed : Nat := 0
  /-- 32 | R449 | 0 | SETPOINT [0.01 rpm] -/
  setpoint : Nat := 0
  /-- 16 signed | R449 | 0 | current command [mA] -/
  current : Int := 0
  /-- 16 | R449 | 0 | peak phase current of the last electrical turn [mA] -/
  peak : Nat := 0
  /-- 16 | R449 | 0 | peak phase current of the present electrical turn [mA] -/
  peakNow : Nat := 0
  /-- 6 x ns | R432 | none | last step periods, newest first -/
  periods : List Nat := []
  /-- 6 | R449 | 0 | FLAGS LOS, START_FAIL, OVERCURRENT, FEED, DUTY_FLOOR, BUS_COAST -/
  flags : BitVec 6 := 0
  /-- 32 | R449 | 0 | STARTS -/
  starts : Nat := 0
  /-- 32 | R449 | 0 | LOS_COUNT -/
  losCount : Nat := 0
  /-- 2 | R440 | 0 | restarts made since the last AT_SPEED -/
  restarts : Nat := 0
  /-- 1 | R437 | 0 | coasting after a loss of synchronism -/
  lost : Bool := false
  /-- 1 | R437 | 0 | BRAKING a backward motor -/
  reverse : Bool := false
  /-- 1 | R437 | 0 | BRAKING with all low sides on before ALIGNING -/
  lowSides : Bool := false
  /-- - | R438 | 0 | crossings seen in CATCHING -/
  crossings : Nat := 0
  /-- 1 | R438 | DESIGN CHOICE forward, log 28 | direction of the last crossing in CATCHING -/
  forward : Bool := true
  /-- 3 | R438 | 0 | step that the last crossing in CATCHING gives; 0 before one -/
  seen : Nat := 0
  /-- 32 | R439 | 0 | forced speed of the open-loop ramp [0.01 rpm] -/
  forced : Nat := 0
  /-- XCLK | R446 | none | cycle since which a suspended speed input has read below the start speed -/
  lowSince : Option Nat := none
  /-- 3 | R439 | 0 | consecutive crossings that match the forced timing -/
  matchRun : Nat := 0
  /-- 3 | R440 | 0 | consecutive step periods beyond the LOS tolerance -/
  losRun : Nat := 0
  /-- 3 x 2 | R436 | 0 | consecutive outputs above the trip current, phases U, V, W -/
  ocRun : Nat × Nat × Nat := (0, 0, 0)
  /-- 16 | R435 | DESIGN CHOICE 0, log 27 | duty of the next period [1/65,536] -/
  duty : Nat := 0
  /-- 32 | R433 | 0 | on-time of the present PWM period [ns] -/
  onNs : Nat := 0
  /-- 3, 32 | R433 | 0 | periods left in a group of shifted pulses, and the on-time of each [ns] -/
  shift : Nat × Nat := (0, 0)
  /-- 2 x 93 | R434 | none | last bits of the feeds MSD A and B, newest first -/
  feed : List Bool × List Bool := ([], [])
  /-- 3 | R435 | 0 | bits since the last sinc² output -/
  feedAt : Nat := 0
  /-- 16 | R435 | none | modulator clock of the last PWM period at which its pulse was cut -/
  cutAt : Option Nat := none
  /-- XCLK | R430 | 0 | cycle in which the present PWM period began -/
  pwmAt : Nat := 0
  /-- 6 x XCLK | R428 | none | cycle in which each gate output was last high: UH, UL, VH, VL, WH, WL -/
  gateOn : Vector (Option Nat) 6 := Vector.replicate 6 none
  /-- 1 | R437, R444 | 0 | DRVEN driven high -/
  drven : Bool := false
  deriving DecidableEq, Repr

/-- The motors and their bus (R441..R449). -/
structure Motors where
  /-- 10 | R449 | each as Motor | channels M0..M9 -/
  ch : Vector Motor 10 := Vector.replicate 10 {}
  /-- 1 | R449 | 0 | BRK: BRK_GATE high -/
  brk : Bool := false
  /-- us | R441, R443 | 0 | time for which BRK_GATE has been high -/
  brkOn : Nat := 0
  /-- 1 | R449 | 0 | BRK_FB level -/
  brkFb : Bool := false
  /-- 1 | R441 | 0 | regeneration forbidden by the soft limit -/
  softHold : Bool := false
  /-- 1 | R443 | 0 | regeneration forbidden by a chopper fault -/
  chopperHold : Bool := false
  /-- 1 | R449, R444 | 0 | HARD: R444 in force -/
  hard : Bool := false
  /-- 32 | R449 | 0 | MOT_BUS_V [mV] -/
  busV : Nat := 0
  /-- 32 | R449 | 0 | MOT_BUS_PEAK [mV] -/
  busPeak : Nat := 0
  /-- 32 | R449 | 0 | MOT_BRK_TIME [us] -/
  brkTime : Nat := 0
  /-- 3 | R449 | 0 | MOT_BUS_FLAGS SOFT, CHOPPER, UV -/
  flags : BitVec 3 := 0
  /-- 2 x 32 | R445 | DESIGN CHOICE 0, log 29 | filtered SPDCMD setpoints of M8 and M9 [0.01 rpm] -/
  spdcmd : Vector Nat 2 := Vector.replicate 2 0
  deriving DecidableEq, Repr

/-! ## Control engine (R451..R473) -/

/-- Slot modes, numbered as LOOP_QUERY W3 (R196). -/
inductive LoopMode where
  | off | manual | lawA | lawB
  deriving DecidableEq, Repr

/-- A pending handover (R463): the mode asked for, evaluations waited, and a forced TIMEOUT of 0 (R464). -/
structure Handover where
  target : LoopMode
  waited : Nat
  atOnce : Bool
  deriving DecidableEq, Repr

/-- A loop slot (R451, R472). -/
structure Loop where
  /-- 1 | R472 | 0 | EN -/
  en : Bool := false
  /-- 8 | R472 | 0 | ENTRY -/
  entry : Nat := 0
  /-- 4 | R472 | off | MODE -/
  mode : LoopMode := .off
  /-- - | R463, R472 | none | handover pending -/
  pending : Option Handover := none
  /-- 2 | R463 | none | slew after a handover in progress: its kind -/
  slew : Option (Nat × Nat) := none
  /-- 1 | R472 | 0 | SAT -/
  sat : Bool := false
  /-- 7 | R460 | 0 | consecutive saturated evaluations -/
  satRun : Nat := 0
  /-- 16 | R472 | 0 | MISSED -/
  missed : Nat := 0
  /-- 16 | R452 | 0 | k: period in frames; 0 for an event slot -/
  k : Nat := 0
  /-- 16 | R452 | 0 | phase -/
  phase : Nat := 0
  /-- 32 signed | R458 | 0 | measured value y -/
  y : Int := 0
  /-- 32 signed | R458 | none | y of the previous evaluation -/
  yPrev : Option Int := none
  /-- 32 signed | R458 | 0 | working setpoint r -/
  r : Int := 0
  /-- 32 signed | R458 | 0 | target setpoint -/
  rTarget : Int := 0
  /-- 32 | R458 | 0 | ramp [unit/s] -/
  ramp : Nat := 0
  /-- 32 signed | R461 | none | setpoint and ramp stored while an outer drives the slot, or for the wake of R465 -/
  stored : Option (Int × Nat) := none
  /-- 32, 32 | R471 | none | setpoint and ramp of the frame's own cycle, taken over after the frame -/
  spNext : Option (Int × Nat) := none
  /-- 32 signed | R462 | 0 | manual output -/
  manual : Int := 0
  /-- 64, 16 fraction bits | R458 | 0 | integrator I -/
  integ : Int := 0
  /-- 32 signed | R458, R472 | 0 | out -/
  out : Int := 0
  /-- 1 | R455 | 0 | out not yet applied: it takes effect at the next frame -/
  outNext : Option Int := none
  /-- 1 | R465 | 0 | an input fault or the hard limit blocks the output of a fuser zone -/
  blocked : Bool := false
  /-- 1 | R461 | 0 | CASCADE: setpoint from the outer -/
  cascade : Bool := false
  /-- 8 | R509 | 0 | sources 0xE0..0xE7 that hold the slot off -/
  fence : BitVec 8 := 0
  deriving DecidableEq, Repr

/-- The control engine (R472). -/
structure Engine where
  /-- 160 | R451 | each as Loop | slots L0..L159 -/
  loops : Vector Loop 160 := Vector.replicate 160 {}
  /-- 64 | R452 | 0 | frames since RST -/
  frame : Nat := 0
  /-- 1 | R472 | 0 | HVEN driven high -/
  hven : Bool := false
  /-- 1 | R472 | 0 | MAINS: valid half-cycles present -/
  mains : Bool := false
  /-- 4 | R465 | 0 | consecutive valid half-cycles after a loss -/
  mainsRun : Nat := 0
  /-- 16 | R472 | 0 | CTL_MAINS: last half-cycle [us] -/
  halfCycle : Nat := 0
  /-- 4 x 17 | R465 | 0, 16,384, 32,768, 49,152 | fuser accumulators -/
  acc : Vector Nat 4 := #v[0, 16384, 32768, 49152]
  /-- 4 x 32 | R465 | 0 | zone outputs in effect, which the next crossing adds -/
  zone : Vector Nat 4 := Vector.replicate 4 0
  /-- 4 x 32 | R471 | none | zone outputs that a mains edge of the present cycle adds, when the frame has changed them -/
  zoneOld : Option (Vector Nat 4) := none
  /-- 4 x 1 | R465 | 0 | HTR0..3 -/
  htr : Vector Bool 4 := Vector.replicate 4 false
  /-- 4 x 1, XCLK | R465 | none | levels that HTR0..3 take ZC_DELAY after the last edge, and the cycle -/
  htrNext : Option (Vector Bool 4 × Nat) := none
  /-- 20 x 16 | R466 | 0 | HVREF duties -/
  hvref : Vector Nat 20 := Vector.replicate 20 0
  /-- 32 | R472 | 0 | CTL_MISSED -/
  missed : Nat := 0
  /-- 6 | R472 | 0 | FLAGS MISS, OVERTEMP, MAINS, HV, INPUT, PARITY -/
  flags : BitVec 6 := 0
  deriving DecidableEq, Repr

/-! ## DRAM controller (R474..R499) -/

/-- A DRAM channel (R498). -/
structure Channel where
  /-- 1 | R498 | 0 | UP -/
  up : Bool := false
  /-- 1 | R498 | 0 | SR -/
  sr : Bool := false
  /-- 1 | R498 | 1 | DOUBLED -/
  doubled : Bool := true
  /-- 3 | R498 | 0 | OWED -/
  owed : Nat := 0
  /-- 2 | R498 | 0 | RANKS -/
  ranks : Nat := 0
  /-- 1 | R498 | 0 | X16 -/
  x16 : Bool := false
  /-- 2 | R498 | 0 | DENSITY -/
  density : Nat := 0
  /-- GiB | R475 | 0 | fitted capacity found -/
  gib : Nat := 0
  /-- 16 signed | R498 | 0 | TEMP -/
  temp : Int := 0
  /-- 32 | R498 | 0 | GUARD_FAILS -/
  guardFails : Nat := 0
  /-- 32 | R498 | 0 | PARITY_REPLAYS -/
  parityReplays : Nat := 0
  /-- 32 | R498 | 0 | CRC_REPLAYS -/
  crcReplays : Nat := 0
  /-- 32 | R498 | 0 | THROTTLES -/
  throttles : Nat := 0
  /-- 32 | R498 | 0 | SR_ENTRIES -/
  srEntries : Nat := 0
  /-- 32 | R498 | 0 | FORCED -/
  forced : Nat := 0
  /-- 64 | R498 | 0 | LAST_FAIL -/
  lastFail : DWord := 0
  /-- 1 | R492 | 0 | the last sample found the sensor broken or absent -/
  broken : Bool := false
  /-- 5 | R498 | 0 | FLAGS GUARD, REPLAY, REPLAY_FAIL, HOT, SENSOR -/
  flags : BitVec 5 := 0
  /-- 8 | R498 | 0 | TRAIN: last step that failed -/
  trainFail : Nat := 0
  /-- 8 | R498 | 0 | TRAIN: passes since boot -/
  trainPasses : Nat := 0
  /-- 7 | R498 | 0 | DRC_STORED bits of the channel -/
  stored : BitVec 7 := 0
  /-- XCLK | R493, R497 | none | cycle of the last catch-up run, which a refresh due in that cycle has joined -/
  joined : Option Nat := none
  /-- 64 | R485 | DESIGN CHOICE 0, log 30 | ZQ short calibrations issued -/
  zqCals : Nat := 0
  deriving DecidableEq, Repr

/-- A DRAM_TRAIN in progress (R482, R483): its mask and kind, the channel and the rate code being trained, the step of
that rate counted from 0, whether it is being retried, and the channels that have passed. -/
structure Training where
  mask : BitVec 2
  kind : Nat
  channel : Fin 2
  rate : Nat
  step : Nat
  retried : Bool
  passed : BitVec 2
  deriving DecidableEq, Repr

/-- The DRAM controller. -/
structure Dram where
  /-- 2 | R498 | each as Channel | channels -/
  ch : Vector Channel 2 := Vector.replicate 2 {}
  /-- - | R482, R498 | none | TRAINING: training in progress -/
  training : Option Training := none
  /-- cycles | R497 | none | the XCLK cycle in which the last training step ended -/
  stepAt : Option Nat := none
  /-- 3 | R484, R498 | none | RATE_PEND: deferred rate code -/
  ratePend : Option Nat := none
  /-- 3 | R498 | 0 | RATE -/
  rate : Nat := 0
  /-- 32 | R498 | 0 | DRC_FILL [MiB] -/
  fill : Nat := 0
  /-- 1 | R498 | 0 | FILL_DONE -/
  fillDone : Bool := false
  /-- 32 | R498 | 0 | DRC_SCAN passes -/
  scans : Nat := 0
  /-- 16 | R499 | 0 | failures found in the present pass -/
  scanFails : Nat := 0
  /-- 32 | R498 | 0 | DRC_MAPPED: Mc [MiB] -/
  mapped : Nat := 0
  deriving DecidableEq, Repr

/-! ## Fault fabric (R500..R525) -/

/-- The levels of R507. -/
inductive Level where
  | log | note | fence | runout | halt
  deriving DecidableEq, Repr

/-- An event-ring entry being coalesced (R515). -/
structure Coalesce where
  level : Level
  raises : Nat
  detail : Word
  position : Nat
  time : Nat
  injected : Bool
  deriving DecidableEq, Repr

/-- A source of the fabric (R500, R502, R524). -/
structure Src where
  /-- 3 | R524 | default of the source's table | configured severity -/
  sev : Level := .note
  /-- 3 | R524, R522 | 0b001 | route bits -/
  route : BitVec 3 := 1
  /-- 6 | R524, R522 | source / 4 | MSI-X vector -/
  vector : Fin 64 := 0
  /-- 3 | R505, R524 | not pending | pending level -/
  pend : Option Level := none
  /-- - | R202 | 0 | order of becoming pending, for "oldest" -/
  order : Nat := 0
  /-- 32 | R202, R524 | 0 | raises since the last clear -/
  raises : Nat := 0
  /-- 32 | R202 | 0 | detail of the first raise -/
  first : Word := 0
  /-- 32 | R202, R524 | 0 | detail of the latest raise -/
  latest : Word := 0
  /-- 64 | R202 | 0 | process position at the first raise -/
  position : Nat := 0
  /-- XCLK | R24 | DESIGN CHOICE none, log 96 | cycle of the latest raise recorded -/
  raisedAt : Option Nat := none
  /-- 1 | R509, R524 | 0 | the source holds its unit fenced -/
  fenced : Bool := false
  /-- - | R515 | none | coalescing in progress -/
  coalesce : Option (Option Coalesce) := none
  /-- 3 | R515 | LOG | level of the entry that began the coalescing -/
  coalesceLevel : Level := .log
  deriving DecidableEq, Repr

/-- A detection on its way to the fabric (R505): source, detail, the level a table or rule forces, and whether an
injection caused it (R519). -/
structure Raise where
  src : Fin 256
  detail : Word
  min : Level
  injected : Bool
  /-- raises it stands for (R404: the number of jams) -/
  count : Nat
  deriving DecidableEq, Repr

/-- An armed injection (R519). -/
structure Injection where
  src : Fin 256
  kind : Nat
  left : Nat
  deriving DecidableEq, Repr

/-- The fabric. -/
structure Fabric where
  /-- 256 | R500, R524 | severities of the tables, vector source / 4 | sources -/
  src : Vector Src 256
  /-- - | R202 | 0 | pending order counter -/
  order : Nat := 0
  /-- - | R505 | empty | detections not yet recorded, oldest first -/
  inbox : List Raise := []
  /-- - | R9 | empty | W1C bits, of every block, that hardware has set in the present cycle: register offset and mask -/
  sticky : List (Nat × Nat) := []
  /-- 16 | R518 | empty | alarm queue, oldest first -/
  alarms : List (Fin 256) := []
  /-- 8 | R524 | 0 | FLT_ALARMS.LOST -/
  alarmsLost : Nat := 0
  /-- - | R519, R524 | none | armed injection -/
  inject : Option Injection := none
  /-- 3 | R513, R524 | 3 | ALIVE level -/
  aliveLevel : Nat := 3
  /-- 32 | R524 | 0 | FLT_RAISES -/
  total : Nat := 0
  /-- the present cycle | R523 | empty | severities in force before a change of this cycle -/
  was : List (Fin 256 × Level) := []
  /-- the present cycle | R523 | empty | sources as they stood before a raise of this cycle -/
  before : List (Fin 256 × Src) := []
  /-- the present cycle | R523 | empty | sources whose real and injected raises of this cycle one entry covers -/
  covered : List (Fin 256) := []
  /-- 8 | R521 | none | source of the interruption in progress -/
  interruption : Option (Fin 256) := none
  deriving DecidableEq, Repr

/-! ## Fuses and die temperature (R526..R544) -/

/-- The fuse array and what boot sense made of it. -/
structure Fuses where
  /-- 272 x 72 | R526 | DESIGN CHOICE blank, log 31 | array rows: words 0..255, spare rows 256..271; survives reset -/
  rows : Vector (BitVec 72) 272 := Vector.replicate 272 0
  /-- 256 x 64 | R528 | 0 | latched data -/
  latched : Vector (BitVec 64) 256 := Vector.replicate 256 0
  /-- 256 x 8 | R204, R532 | 0 | latched check bits -/
  checks : Vector Byte 256 := Vector.replicate 256 0
  /-- 272 x 1 | R537 | 0 | marginal rows at boot -/
  marginal : BitVec 272 := 0
  /-- 256 x 1 | R204 | 0 | words redirected to a spare row -/
  redirected : BitVec 256 := 0
  /-- 256 x 65 | R535 | none | shadows -/
  shadows : List (Fin 256 × BitVec 64) := []
  /-- 26 | R529, R544 | 0 | FUS_WIRES -/
  wires : BitVec 26 := 0
  /-- 26 | R544 | 0 | FUS_UNDECIDED -/
  undecided : BitVec 26 := 0
  /-- 16 | R527, R538 | 0 | effective part code -/
  part : BitVec 16 := 0
  /-- 1 | R544 | 0 | SENSED -/
  sensed : Bool := false
  /-- 1 | R544 | 0 | INTEGRITY -/
  integrity : Bool := false
  /-- 9 | R544 | 0 | marginal words and rows at boot -/
  margins : Nat := 0
  /-- 16 | R544 | 0 | re-sense differences -/
  differences : Nat := 0
  /-- 16 signed | R544 | 0 | die temperature at the last sense -/
  senseTemp : Int := 0
  /-- 16 | R544 | 0 | re-senses since boot -/
  resenses : Nat := 0
  /-- the present cycle | R543 | empty | what FUSE_READ showed of words before a change of this cycle: W0..W3 -/
  before : List (Fin 256 × List Nat) := []
  /-- 1 | R539, log 117 | 0 | the boot sense was made before the first good sample, whose temperature it takes -/
  senseFresh : Bool := false
  /-- 1 | R539, R544 | 0 | the die has moved as R539 says since the last sense: a re-sense is due, or running (RESENSING) -/
  resensing : Bool := false
  /-- - | R543 | none | a re-sense that waits for a burn to end: the words that differ -/
  resenseDue : Option (List (Fin 256)) := none
  deriving DecidableEq, Repr

/-- The die temperature monitor (R540, R541, R544). -/
structure Temp where
  /-- 16 signed | R544 | 0 | TEMP in force [0.25 degC] -/
  temp : Int := 0
  /-- 2 | R544 | 0 | throttle step -/
  step : Nat := 0
  /-- 1 | R544 | 0 | BROKEN -/
  broken : Bool := false
  /-- 1 | R544 | 0 | WARN -/
  warn : Bool := false
  /-- 1 | R544 | 0 | HOT -/
  hot : Bool := false
  /-- 1 | R541 | 0 | trip level entered -/
  trip : Bool := false
  /-- 16 signed | R544 | 0 | last good sample -/
  good : Int := 0
  /-- 16 | R544 | 0 | raw diode code -/
  raw : BitVec 16 := 0
  /-- 16, 16, 16 signed | R88, R527, R560 | DESIGN CHOICE 0, log 103 | compensation of the ADC reference in force: offset and slope
  of TRIM word 33, and the temperature it was made for -/
  adcRef : Nat × Nat × Int := (0, 0, 0)
  /-- 16 signed | R544 | 0x8000 | TMP_PEAK -/
  peak : Int := -32768
  /-- 32 | R544 | 0 | TMP_THROTTLE_MS -/
  throttleMs : Nat := 0
  /-- 4 | R544 | 0 | FLAGS WARN, THROTTLE, HOT, BROKEN -/
  flags : BitVec 4 := 0
  deriving DecidableEq, Repr

end Sys2Proof.Machine
end

