-- ==== Sys2Proof/Machine/Sources.lean ====
section
/-!
DEFINITION. The 256 sources of the fault fabric (R500): their numbers, default severities, floors (R508), the
sources their tables reserve, and the condition levels that a table adds to a cause.
-/

namespace Sys2Proof.Machine

namespace Level

/-- The level as the numbers 0..4 of R507. -/
def toNat : Level → Nat
  | .log => 0 | .note => 1 | .fence => 2 | .runout => 3 | .halt => 4

/-- The level of a number 0..4 (R507); anything above is HALT. -/
def ofNum : Nat → Level
  | 0 => .log | 1 => .note | 2 => .fence | 3 => .runout | _ => .halt

/-- The higher of two levels (R505). -/
def max (a b : Level) : Level := if a.toNat < b.toNat then b else a

end Level

/-- Default severity of a source (the tables R235, R269, R291, R318, R349, R381, R407, R427, R450, R473, R499,
R501..R504); a reserved source has LOG, which R500 leaves without effect. -/
def defaultSeverity (n : Nat) : Level :=
  if n ≤ 0x0F then
    (match n with | 0x00 => .runout | 0x04 | 0x05 => .log | 0x01 | 0x02 | 0x03 | 0x06 => .note | _ => .log)
  else if n ≤ 0x1F then (if n = 0x10 then .note else .log)
  else if n ≤ 0x2F then
    (match n with | 0x21 | 0x22 | 0x25 | 0x26 => .note | 0x27 => .runout | _ => .log)
  else if n ≤ 0x4B then .fence
  else if n ≤ 0x4F then (if n ≤ 0x4D then .note else .log)
  else if n ≤ 0x5F then
    (match n with | 0x51 | 0x53 | 0x54 | 0x57 => .note | 0x56 => .fence | _ => .log)
  else if n ≤ 0x8F then
    (match (n - 0x60) % 8 with | 0 | 2 | 3 => .runout | 4 => .halt | 5 | 6 | 7 => .note | _ => .log)
  else if n ≤ 0x9F then (if n % 2 = 0 then .fence else .note)
  else if n ≤ 0xAF then
    (match n with | 0xA0 | 0xA1 | 0xA2 | 0xA4 | 0xA5 | 0xA7 | 0xA9 => .note | _ => .log)
  else if n ≤ 0xBF then
    (match n with | 0xB0 | 0xB5 => .note | 0xB1 | 0xB2 => .runout | _ => .log)
  else if n ≤ 0xCF then .note
  else if n ≤ 0xDF then
    (if n ≤ 0xD9 then .note
     else match n with | 0xDA => .halt | 0xDB => .note | 0xDC | 0xDD => .runout | _ => .log)
  else if n ≤ 0xE7 then
    (match n with | 0xE1 | 0xE3 | 0xE7 => .note | 0xE4 => .halt | 0xE5 | 0xE6 => .runout | _ => .log)
  else if n ≤ 0xEF then
    (match n with | 0xE8 => .note | 0xEA | 0xEC => .runout | _ => .log)
  else
    (match n with
     | 0xF0 | 0xF1 | 0xF2 | 0xF4 | 0xFE => .note
     | 0xF6 | 0xFA | 0xFB => .runout
     | 0xF7 | 0xF8 | 0xF9 | 0xFC => .halt
     | _ => .log)

/-- Fixed floor of a source (R508). -/
def sourceFloor (n : Nat) : Level :=
  if n = 0x10 then .note
  else if 0x60 ≤ n ∧ n ≤ 0x8F ∧ (n - 0x60) % 8 = 4 then .runout
  else if 0x90 ≤ n ∧ n ≤ 0x9F ∧ n % 2 = 0 then .fence
  else if n = 0xDA ∨ n = 0xF7 then .halt
  else .log

/-- A source that its block's table marks reserved, which is never raised (R500). -/
def reservedSource (n : Nat) : Bool :=
  (decide (0x07 ≤ n) && decide (n ≤ 0x0F)) || (decide (0x14 ≤ n) && decide (n ≤ 0x1F)) ||
  (decide (0x29 ≤ n) && decide (n ≤ 0x2F)) || n == 0x4E || n == 0x4F ||
  (decide (0x58 ≤ n) && decide (n ≤ 0x5F)) || (decide (0xAA ≤ n) && decide (n ≤ 0xAF)) ||
  (decide (0xB6 ≤ n) && decide (n ≤ 0xBF)) || n == 0xDE || n == 0xDF || n == 0xEF || n == 0xFF

/-- The source of a unit that the part does not enable (R3, R5, R530): stations, heads, and polygon motors, which go with
their stations (log 97). -/
def sourceDisabled (station head : Nat → Bool) (n : Nat) : Bool :=
  (decide (0x60 ≤ n) && decide (n ≤ 0x8F) && !station ((n - 0x60) / 8)) ||
  (decide (0x90 ≤ n) && decide (n ≤ 0x9F) && !head ((n - 0x90) / 2)) ||
  (decide (0xD0 ≤ n) && decide (n ≤ 0xD5) && !station (n - 0xD0))

/-- The sources at reset (R522): default severity, route bit 0 only, vector source / 4. -/
def resetSources : Vector Src 256 :=
  ⟨((List.range 256).map fun n => ({ sev := defaultSeverity n, vector := Fin.ofNat 64 (n / 4) } : Src)).toArray,
    by simp⟩

end Sys2Proof.Machine
end

