-- ==== Sys2Proof/Machine/State.lean ====
section
/-!
DEFINITION. The state of the NL8640 as a block, and the state right after reset. Every part's fields, with their
widths, rules and reset values, stand in Machine/Parts.lean; the reset value of a field is its default there.
-/

namespace Sys2Proof.Machine

/-- The state of the device. -/
structure State where
  /-- - | block model | empty | commands that wait, first in, first out -/
  pending : List Instr := []
  /-- 64 | R514, R524 | 0 | XCLK cycles since RST -/
  now : Nat := 0
  /-- - | the MODEL's own field | DESIGN CHOICE 0, log 6 | count of free values drawn so far -/
  free : Nat := 0
  /-- - | R111, R120, R310, R332 | empty | what the device has put out at its ports, oldest first -/
  out : List Out := []
  /-- - | R41 | each as Sys | modes, power and start-up -/
  sys : Sys := {}
  /-- - | R545, R556 | each as Pins | levels at balls and the test port -/
  pins : Pins := {}
  /-- - | R94 | each as Clk | clocks and the process-position counter -/
  clk : Clk := {}
  /-- - | R105 | each as Hif | host interface -/
  hif : Hif := {}
  /-- - | R119 | each as Spi | management port -/
  mgt : Spi := {}
  /-- - | R119 | each as Spi | supervisor port -/
  sup : Spi := {}
  /-- - | R155 | each as Kettle | Kettle -/
  ktl : Kettle := {}
  /-- - | R387 | each as Ledger | sheet ledger, jobs and recipe store -/
  led : Ledger := {}
  /-- - | R234 | each as Caddy | Caddy -/
  cad : Caddy := {}
  /-- - | R268 | each as Codec | codec lanes -/
  cdc : Codec := {}
  /-- - | R290 | each as Steep | Steep -/
  stp : Steep := {}
  /-- 6 | R317 | each as Station | beam-timing units -/
  btu : Vector Station 6 := Vector.replicate 6 {}
  /-- 8 | R348 | each as Head | head pacers -/
  hdp : Vector Head 8 := Vector.replicate 8 {}
  /-- - | R379 | each as Journal | serial authority and journal -/
  jnl : Journal := {}
  /-- - | R406 | each as Seq | sheet sequencer -/
  seq : Seq := {}
  /-- 16 | R426 | each as Axis | stepper axes -/
  axs : Vector Axis 16 := Vector.replicate 16 {}
  /-- - | R449 | each as Motors | motors and bus -/
  mot : Motors := {}
  /-- - | R472 | each as Engine | control engine -/
  ctl : Engine := {}
  /-- - | R498 | each as Dram | DRAM controller -/
  drc : Dram := {}
  /-- - | R524 | each as Fabric | fault fabric -/
  flt : Fabric := { src := resetSources }
  /-- - | R544 | each as Fuses | fuse array -/
  fus : Fuses := {}
  /-- - | R544 | each as Temp | die temperature monitor -/
  tmp : Temp := {}
  deriving DecidableEq, Repr

/-- The reasons for which a step would stop with a fault: none. No command of this block faults; the type has one
constructor that nothing raises (safe), because the block interface asks for a type of reasons. -/
inductive Fault where
  /-- raised by no command; kept so that the type of reasons is inhabited; safe -/
  | unused
  deriving DecidableEq, Repr

/-- The reasons for which a step is refused. -/
inductive Refusal where
  /-- raised only by an arm of `exec` whose command has no meaning yet, under the command's mnemonic; safe, since
  nothing can be proved of what such a command does -/
  | notModelled (mnemonic : String)
  deriving DecidableEq, Repr

/-- The device right after reset: RST_N low has put it in mode RESET with every register at its reset value (R552,
R43); the first command of a run is RESET_RELEASE. -/
def State.reset : State := {}

end Sys2Proof.Machine
end

