-- ==== Sys2Proof/Machine/Operands.lean ====
section
/-!
DEFINITION. The operand forms: packet parameters by packet offset (R173), fields of fuse words and dedicated wires
(R527, R529), the resources of the part (R3), and fields of active recipe bodies (R181, R182).
-/

namespace Sys2Proof.Machine

/-! ## Packet parameters (R140, R173) -/

/-- The u8, u16, u32, u64 and i32 parameter at a packet offset (16 and up). -/
def Cmd.p8 (c : Cmd) (off : Nat) : Nat := u8 c.params (off - 16)
def Cmd.p16 (c : Cmd) (off : Nat) : Nat := u16 c.params (off - 16)
def Cmd.p32 (c : Cmd) (off : Nat) : Nat := u32 c.params (off - 16)
def Cmd.p64 (c : Cmd) (off : Nat) : Nat := u64 c.params (off - 16)
def Cmd.i32 (c : Cmd) (off : Nat) : Int := signedOf 32 (Cmd.p32 c off)

/-- The number a mode is encoded as (R41). -/
def Mode.code : Mode → Nat
  | .reset => 0 | .boot => 1 | .standby => 2 | .ready => 3 | .print => 4 | .runout => 5 | .halt => 6 | .service => 7

/-- The number a status is encoded as (R151). -/
def Status.code : Status → Nat
  | .ok => 0x00 | .accepted => 0x01 | .partially => 0x02
  | .badOpcode => 0x10 | .badParam => 0x11 | .length => 0x12 | .state => 0x13 | .denied => 0x14 | .busy => 0x15
  | .timeout => 0x16 | .fenced => 0x17 | .stillPresent => 0x18 | .noResource => 0x19 | .signature => 0x1A
  | .noshrink => 0x20 | .check => 0x21 | .decode => 0x22

/-- OK, ACCEPTED and PARTIAL, which a clear REPLY flag keeps silent (R150). -/
def Status.soft : Status → Bool
  | .ok => true | .accepted => true | .partially => true | _ => false

/-- The reply flags byte (R149). -/
def Reply.flags (r : Reply) : Nat := bit r.dup + 2 * bit r.restart + 4 * bit r.late

/-- The 32 bytes of a reply (R148). -/
def Reply.bytes (r : Reply) : List Byte :=
  leBytes 2 r.tag.toNat ++ leBytes 1 r.status.code ++ leBytes 1 r.flags ++ leBytes 4 r.detail.toNat ++
  leBytes 4 r.seq.toNat ++ leBytes 4 r.w0.toNat ++ leBytes 4 r.w1.toNat ++ leBytes 4 r.w2.toNat ++
  leBytes 4 r.w3.toNat ++ leBytes 4 r.w4.toNat

/-- The 16 bytes of an NL4410 short reply (R171). -/
def Reply.short (r : Reply) : List Byte :=
  let more := r.w2 != 0 || r.w3 != 0 || r.w4 != 0
  leBytes 2 r.tag.toNat ++ leBytes 1 r.status.code ++ leBytes 1 (bit more + 2 * bit r.restart + 4 * bit r.dup) ++
  leBytes 2 r.detail.toNat ++ leBytes 2 r.seq.toNat ++ leBytes 4 r.w0.toNat ++ leBytes 4 r.w1.toNat

/-! ## Fuses and the part (R3, R526..R530, R538) -/

/-- What a consumer reads of a fuse word (R528): the latched value, OR the shadow. -/
def fuseWord (s : State) (w : Fin 256) : BitVec 64 :=
  match s.fus.shadows.find? (·.1 == w) with
  | some (_, d) => s.fus.latched[w] ||| d
  | none => s.fus.latched[w]

/-- The LOCK word's region bits as latched (R536), and as a consumer reads them (R528). -/
def lockBits (s : State) : Nat := s.fus.latched[239].toNat % 256
def lockInForce (s : State) : Nat := (fuseWord s 239).toNat % 256

/-- The stations, heads and DRAM capacity that a part code's row of R3 gives. -/
def partStations (part : BitVec 16) : Nat :=
  if part = 0x8640 then 6 else if part = 0x8620 then 4 else if part = 0x8610 then 2 else 0
def partHeads (part : BitVec 16) : Nat :=
  if part = 0x8640 then 8 else if part = 0x8620 then 4 else if part = 0x8610 then 2 else 0
def partDram (part : BitVec 16) : Nat :=
  if part = 0x8640 then 64 else if part = 0x8620 then 32 else if part = 0x8610 then 16 else 0

/-- A dedicated wire (R529). -/
def wire (s : State) (k : Nat) : Bool := s.fus.wires.getLsbD k

/-- Station k enabled on the part (R3, R530). -/
def stationOn (s : State) (k : Nat) : Bool := decide (k < partStations s.fus.part) && wire s k
/-- Head k enabled on the part (R3, R530). -/
def headOn (s : State) (k : Nat) : Bool := decide (k < partHeads s.fus.part) && wire s (6 + k)
/-- Motor channel m enabled on the part (R3). Word 16 has no bit for a motor (R529): DESIGN CHOICE, log 97, a polygon motor
goes with the wire of its station. -/
def motorOn (s : State) (m : Nat) : Bool := decide (6 ≤ m) && decide (m < 10) || stationOn s m
/-- High-voltage channel v enabled on the part (R3): three for each station of the part, and HV18, HV19. Word 16 has no bit
for one (R529): DESIGN CHOICE, log 97, the part code alone decides. -/
def hvOn (s : State) (v : Nat) : Bool := decide (v < 3 * partStations s.fus.part) || v == 18 || v == 19
/-- DRAM maximum [GiB] (R530). -/
def dramMax (s : State) : Nat := min (fieldOf s.fus.wires.toNat 14 8) (partDram s.fus.part)
/-- The policy wires (R529). -/
def journalMandatory (s : State) : Bool := wire s 22
def compatForbidden (s : State) : Bool := wire s 23
def servicePermitted (s : State) : Bool := wire s 24
def bar2Permitted (s : State) : Bool := wire s 25

/-- HIF_ID (R105): part code and die revision. -/
def idWord (s : State) : Nat := s.fus.part.toNat + 65536 * fieldOf (fuseWord s 0).toNat 16 8

/-- n consecutive fuse words from w as bytes, each little-endian. -/
def fuseBytes (s : State) (w n : Nat) : List Byte :=
  ((List.range n).map fun k => leBytes 8 (s.fus.latched.toArray.getD (w + k) 0).toNat).flatten

/-- The journal private key (R211): words 128..131 as the 32-byte octet string that was burned. -/
def journalPrivate (s : State) : Nat := beNat (fuseBytes s 128 4)

/-- Whether the public key of the stored private key has the SHA-256 that words 152..155 hold (R370). -/
def keyMatches (s : State) : Bool := sha256 (ecPublic (journalPrivate s)) == fuseBytes s 152 4

/-- KEY region complete (R526, R370): words 128..156 not blank, and the key check passed. -/
def keyComplete (s : State) : Bool :=
  ((List.range 29).all fun k => s.fus.latched.toArray.getD (128 + k) 0 != 0) && keyMatches s

/-! ## Recipes in force (R181, R182, R185) -/

/-- Kinds of R182 whose activation is idle-only: all but FAULT. -/
def recipeKinds : List Nat :=
  [0x0001, 0x0002, 0x0003, 0x0010, 0x0020, 0x0030, 0x0031, 0x0032, 0x0040, 0x0050, 0x0060]

/-- The active recipe of a kind and instance. -/
def activeRecipe (s : State) (kind inst : Nat) : Option Recipe :=
  (s.led.store.toList.filterMap id).find? fun r => r.active && r.kind == kind && r.inst == inst

/-- The body of the active recipe of a kind without instances, empty when none is active. -/
def body (s : State) (kind : Nat) : List Byte :=
  match activeRecipe s kind 0xFFFF with | some r => r.body | none => []

/-- The body of the active STATION or HEAD recipe of an instance. -/
def bodyOf (s : State) (kind inst : Nat) : List Byte :=
  match activeRecipe s kind inst with | some r => r.body | none => []

/-- Whether a recipe of the kind (without instances) is active. -/
def recipeOn (s : State) (kind : Nat) : Bool := (activeRecipe s kind 0xFFFF).isSome

/-- Body size of each kind: DEVICE 64, CLOCK 448, DRAM, STATION, HEAD, MOTION, MOTOR, LOOPS, SHEET 1,088,
MARKS 5,648, FAULT 1,088 (R186, R187, R301, R325, R372, R386, R424, R447, R470, R496, R522). -/
def deviceBody (s : State) : List Byte := body s 0x0001
def clockBody (s : State) : List Byte := body s 0x0002
def dramBody (s : State) : List Byte := body s 0x0003
def stationBody (s : State) (k : Nat) : List Byte := bodyOf s 0x0010 k
def headBody (s : State) (k : Nat) : List Byte := bodyOf s 0x0020 k
def motionBody (s : State) : List Byte := body s 0x0030
def motorBody (s : State) : List Byte := body s 0x0031
def loopsBody (s : State) : List Byte := body s 0x0032
def sheetBody (s : State) : List Byte := body s 0x0040
def marksBody (s : State) : List Byte := body s 0x0050

/-! ## SHEET recipe fields (R386) -/

def processSpeed (s : State) : Nat := u32 (sheetBody s) 0x000
def pickLead (s : State) : Nat := u32 (sheetBody s) 0x004
def holdMargin (s : State) : Nat := u32 (sheetBody s) 0x008
def divDecide (s : State) : Nat := u32 (sheetBody s) 0x00C
def gateTol (s : State) : Nat := u32 (sheetBody s) 0x010
def pathAxes (s : State) : Nat := u16 (sheetBody s) 0x014
def gateSensor (s : State) : Nat := u8 (sheetBody s) 0x016
/-- Web mode (R399): frames of a moving web are handled as sheets, and nothing is held at a gate. -/
def webMode (s : State) : Bool := bitOf (u8 (sheetBody s) 0x017) 0
def holdAtGate (s : State) : Bool := bitOf (u8 (sheetBody s) 0x017) 1
/-- Diverter axis d (0..3); 0xFF for none. -/
def diverterAxis (s : State) (d : Nat) : Nat := u8 (sheetBody s) (0x018 + d)
def m6Tolerance (s : State) : Nat := u16 (sheetBody s) 0x01C
def fuserBand (s : State) : Nat := u16 (sheetBody s) 0x01E
def headWaitMs (s : State) : Nat := u32 (sheetBody s) 0x020
def duplexReturn (s : State) : Nat := u8 (sheetBody s) 0x024
/-- A media class entry (16 bytes at 0x040 + 16 x class). -/
def mediaGap (s : State) (m : Nat) : Nat := u32 (sheetBody s) (0x040 + 16 * m)
def mediaMaxLen (s : State) (m : Nat) : Nat := u32 (sheetBody s) (0x044 + 16 * m)
def mediaDests (s : State) (m : Nat) : Nat := u8 (sheetBody s) (0x048 + 16 * m)
def mediaFlags (s : State) (m : Nat) : Nat := u8 (sheetBody s) (0x049 + 16 * m)
def tailTol (s : State) (m : Nat) : Nat := u16 (sheetBody s) (0x04A + 16 * m)
/-- A destination entry (32 bytes at 0x140 + 32 x destination). -/
def destPos (s : State) (d k : Nat) : Int := i32 (sheetBody s) (0x140 + 32 * d + 4 * k)
def destExit (s : State) (d : Nat) : Nat := u8 (sheetBody s) (0x150 + 32 * d)
def destFlags (s : State) (d : Nat) : Nat := u8 (sheetBody s) (0x151 + 32 * d)
/-- A sensor entry (16 bytes at 0x240 + 16 x sensor). -/
def sensorDebounce (s : State) (k : Nat) : Nat := u16 (sheetBody s) (0x240 + 16 * k + 10)
def sensorStart (s : State) (k : Nat) : Int := i32 (sheetBody s) (0x240 + 16 * k)
def sensorEnd (s : State) (k : Nat) : Int := i32 (sheetBody s) (0x244 + 16 * k)
def sensorDests (s : State) (k : Nat) : Nat := u8 (sheetBody s) (0x248 + 16 * k)
def sensorFlags (s : State) (k : Nat) : Nat := u8 (sheetBody s) (0x249 + 16 * k)

end Sys2Proof.Machine
end

