-- ==== Sys2Proof/Machine/Ops.lean ====
section
/-!
DEFINITION. The operations every unit shares: updates of one part of the state, free values, time and position,
detections on their way to the fault fabric, what leaves the device at its ports, and the delivery of replies.
-/

namespace Sys2Proof.Machine

/-! ## Updates of one part -/

def State.modSys (s : State) (g : Sys → Sys) : State := { s with sys := g s.sys }
def State.modPins (s : State) (g : Pins → Pins) : State := { s with pins := g s.pins }
def State.modClk (s : State) (g : Clk → Clk) : State := { s with clk := g s.clk }
def State.modHif (s : State) (g : Hif → Hif) : State := { s with hif := g s.hif }
def State.modMgt (s : State) (g : Spi → Spi) : State := { s with mgt := g s.mgt }
def State.modSup (s : State) (g : Spi → Spi) : State := { s with sup := g s.sup }
def State.modKtl (s : State) (g : Kettle → Kettle) : State := { s with ktl := g s.ktl }
def State.modLed (s : State) (g : Ledger → Ledger) : State := { s with led := g s.led }
def State.modCad (s : State) (g : Caddy → Caddy) : State := { s with cad := g s.cad }
def State.modCdc (s : State) (g : Codec → Codec) : State := { s with cdc := g s.cdc }
def State.modStp (s : State) (g : Steep → Steep) : State := { s with stp := g s.stp }
def State.modJnl (s : State) (g : Journal → Journal) : State := { s with jnl := g s.jnl }
def State.modSeq (s : State) (g : Seq → Seq) : State := { s with seq := g s.seq }
def State.modMot (s : State) (g : Motors → Motors) : State := { s with mot := g s.mot }
def State.modCtl (s : State) (g : Engine → Engine) : State := { s with ctl := g s.ctl }
def State.modDrc (s : State) (g : Dram → Dram) : State := { s with drc := g s.drc }
def State.modFlt (s : State) (g : Fabric → Fabric) : State := { s with flt := g s.flt }
def State.modFus (s : State) (g : Fuses → Fuses) : State := { s with fus := g s.fus }
def State.modTmp (s : State) (g : Temp → Temp) : State := { s with tmp := g s.tmp }
def State.modBtu (s : State) (k : Fin 6) (g : Station → Station) : State := { s with btu := updF s.btu k g }
def State.modHead (s : State) (h : Fin 8) (g : Head → Head) : State := { s with hdp := updF s.hdp h g }
def State.modAxis (s : State) (a : Fin 16) (g : Axis → Axis) : State := { s with axs := updF s.axs a g }
def State.modMotor (s : State) (m : Fin 10) (g : Motor → Motor) : State :=
  s.modMot fun x => { x with ch := updF x.ch m g }
def State.modLoop (s : State) (l : Fin 160) (g : Loop → Loop) : State :=
  s.modCtl fun x => { x with loops := updF x.loops l g }
def State.modChan (s : State) (c : Fin 2) (g : Channel → Channel) : State :=
  s.modDrc fun x => { x with ch := updF x.ch c g }
def State.modSrc (s : State) (n : Fin 256) (g : Src → Src) : State :=
  s.modFlt fun x => { x with src := updF x.src n g }
def State.modSynth (s : State) (k : Fin 6) (g : Synth → Synth) : State :=
  s.modClk fun x => { x with px := updF x.px k g }
def State.modSteep (s : State) (k : Fin 6) (g : SteepStation → SteepStation) : State :=
  s.modStp fun x => { x with st := updF x.st k g }
def State.modDec (s : State) (n : Fin 16) (g : Lane → Lane) : State :=
  s.modCdc fun x => { x with dec := updF x.dec n g }
def State.modEnc (s : State) (n : Fin 12) (g : Lane → Lane) : State :=
  s.modCdc fun x => { x with enc := updF x.enc n g }
def State.modCr (s : State) (n : Fin 4) (g : Ring → Ring) : State :=
  s.modHif fun x => { x with cr := updF x.cr n g }
def State.modIg (s : State) (n : Fin 8) (g : Ring → Ring) : State :=
  s.modHif fun x => { x with ig := updF x.ig n g }
/-- Apply a function to a ledger entry that is occupied. -/
def State.modSheet (s : State) (i : Fin 512) (g : Sheet → Sheet) : State :=
  s.modLed fun x => { x with entries := updF x.entries i (Option.map g) }
/-- The target port of an SPI port name. -/
def State.spi (s : State) : SpiPort → Spi
  | .mgmt => s.mgt
  | .sup => s.sup
def State.modSpi (s : State) (p : SpiPort) (g : Spi → Spi) : State :=
  match p with
  | .mgmt => s.modMgt g
  | .sup => s.modSup g

/-! ## Free values, time and position -/

/-- Hardware sets W1C bits of the register at an offset (R9): which ones is kept until the cycle ends. -/
def State.stick (s : State) (offset mask : Nat) : State :=
  s.modFlt fun f => { f with sticky := (offset, mask) :: f.sticky }

/-- The bits of a register that a write of 1 may clear: those that hardware has not set in this same cycle (R9). -/
def clearable (s : State) (offset value : Nat) : Nat :=
  s.flt.sticky.foldl (fun v x => if x.1 = offset then v - (v &&& x.2) else v) value

/-- Whether a happening is still to come in the present cycle: time passes on an empty queue only (log 1), so that the
commands that wait belong to the cycle in which the present one acts (log 96). -/
def coming (s : State) (p : Instr → Bool) : Bool := s.pending.any p

/-- Where two happenings of one cycle meet and the second to be given takes precedence, the first one does nothing when the
other is to come: an expiry beside a completion (R14), and the tables of precedence of the chapters. -/
def giveWay (s : State) (p : Instr → Bool) (effect : State) : State := if coming s p then s else effect

/-- Count one draw of a free value: the value drawn is a Config function at the old count (log 6). -/
def State.drawn (s : State) : State := { s with free := s.free + 1 }

/-- Time since RST [us] (R514): 200 XCLK cycles (R76). -/
def usNow (s : State) : Nat := s.now / 200

/-- The process-position counter (R89): the integer part of the accumulator. -/
def ppc (s : State) : Nat := s.clk.acc / 2 ^ 32

/-- The position that the head pacers track [1/256 count], within half a count of the counter's (R331, log 108). -/
def trackAt (c : Clk) : Nat := Nat.min (c.acc / 2 ^ 24 + 128) (Nat.max (c.acc / 2 ^ 24 - 128) c.trackPos)

/-- The tracked position has reached a count; a frozen counter stops all fires (R331). -/
def trackReached (c : Clk) (count : Nat) : Bool := c.ppcSrc != .frozen && decide (256 * count ≤ trackAt c)

/-! ## DRAM requests (R490) -/

/-- A request brings the channels out of the self-refresh that they entered by themselves; W2 and deeper hold them in
it. -/
def dramRequest (s : State) : State :=
  if 2 ≤ s.sys.depth then s
  else s.modDrc fun d => { d with ch := d.ch.map fun (c : Channel) => { c with sr := false } }

/-! ## Detections (R505) -/

/-- A detection goes on its way to the fabric (R505), with a level its table or a rule forces; a reserved source or
one of a disabled resource never raises (R5, R500). -/
def raiseAt (s : State) (src detail : Nat) (min : Level) : State :=
  if reservedSource src || sourceDisabled (stationOn s) (headOn s) src then s
  else s.modFlt fun x =>
    { x with inbox := x.inbox ++ [⟨Fin.ofNat 256 src, BitVec.ofNat 32 detail, min, false, 1⟩] }

/-- The level that a source's table gives for the cause of a raise, as a minimum (R505): HALT for details 3, 4 and 5 of
KTL_LOCKSTEP (R502), FENCE for CAL of a station at 0x02 and 0xFF (R318), RUNOUT for OVERSPEED_RUN of a head (R349), RUNOUT
in audited printing and NOTE otherwise for JNL_EVENT (R381), FENCE for OVERCURRENT and FEED of a channel (R450). -/
def causeLevel (s : State) (src detail : Nat) : Level :=
  let cause := detail % 256
  if src = 0x10 then (if 3 ≤ cause ∧ cause ≤ 5 then .halt else .log)
  else if 0x60 ≤ src ∧ src ≤ 0x8F ∧ (src - 0x60) % 8 = 6 then (if cause = 0x02 ∨ cause = 0xFF then .fence else .log)
  else if 0x90 ≤ src ∧ src ≤ 0x9F ∧ src % 2 = 1 then (if cause = 0x05 then .runout else .log)
  else if src = 0xA0 then (if s.led.audit then .runout else .note)
  else if 0xD0 ≤ src ∧ src ≤ 0xD9 then (if cause = 0x06 ∨ cause = 0x07 then .fence else .log)
  else .log

/-- A detection at the source's configured severity, or at the level its table gives for the cause. -/
def raise (s : State) (src detail : Nat) : State := raiseAt s src detail (causeLevel s src detail)

/-- The severity that a raise of this cycle uses: the one in force before a change of the cycle (R523). -/
def sevOf (s : State) (k : Fin 256) : Level := (s.flt.was.lookup k).getD s.flt.src[k].sev

/-- A severity is about to change: raises of this cycle still use it (R523). -/
def noteSev (s : State) (k : Fin 256) : State := s.modFlt fun f => { f with was := f.was ++ [(k, f.src[k].sev)] }

/-- The raised level of a detection (R505). -/
def raisedLevel (s : State) (r : Raise) : Level := Level.max (sevOf s r.src) r.min

/-- The device enters HALT in this cycle: by a detection on its way, or at PWRFAIL_N. -/
def haltComes (s : State) : Bool :=
  (s.flt.inbox.any fun r => raisedLevel s r == .halt) || coming s (· == .pwrfailNAssert)

/-- Whether a source is pending, and at which level (R505). -/
def pendLevel (s : State) (src : Nat) : Option Level := (getN s.flt.src src {}).pend

/-- Whether any source is pending at a level or above (R43, R507). -/
def pendingAtLeast (s : State) (l : Level) : Bool :=
  s.flt.src.toList.any fun x => match x.pend with | some p => decide (l.toNat ≤ p.toNat) | none => false

/-- DEGRADED (R42): some source holds its unit fenced. -/
def degraded (s : State) : Bool := s.flt.src.toList.any (·.fenced)

/-! ## Output at the ports (R111, R114, R120) -/

/-- The bank of the balls through which something leaves (R545): A the SPI ports, B the journal
flash and the head memories, C the laser drivers, D the head strobes. -/
def Out.bank : Out → Option (Fin 8)
  | .miso .. => some 0
  | .flash .. | .i2c .. => some 1
  | .ldc .. => some 2
  | .fire .. => some 3
  | _ => none

/-- Something leaves the device; not through the balls of a bank whose supply is lost (R554). -/
def emit (s : State) (o : Out) : State :=
  if o.bank.any fun b => s.pins.bankLost[b] then s else { s with out := s.out ++ [o] }

/-- An MSI-X message on a vector (R114): a masked vector, or the function mask, turns it into a pending bit. -/
def sendMsix (s : State) (v : Fin 64) : State :=
  if s.hif.msix[v].masked || s.hif.funcMask then
    s.modHif fun h => { h with pba := h.pba ||| (1#64 <<< v.1) }
  else emit s (.msix v)

/-- A reply entry into the reply ring of a command or ingest ring (R106, R107, R111): the 32 bytes at the next free
slot, RHEAD, the write-back (DESIGN CHOICE, log 118: four bytes, RHEAD zero-extended), and the message or its coalescing. `notify` is clear for a reply that R150 keeps
without a message of its own. -/
def ringReply (s : State) (r : Ring) (entry : List Byte) (notify : Bool) : Ring × State :=
  let slot := r.rhead.toNat % 2 ^ r.log2n
  let s := emit s (.write (r.rbase + BitVec.ofNat 64 (32 * slot)) entry)
  let r := { r with rhead := r.rhead + 1, awaiting := r.awaiting - 1,
                    drained := r.drained || (r.en && r.awaiting == 1) }
  let s := if r.wb == 0 then s else emit s (.write r.wb (leBytes 4 r.rhead.toNat))
  if !notify then (r, s)
  else if r.coal == 0 then (r, sendMsix s r.vector)
  else ({ r with unsignalled := true }, s)

/-- The reply of a command ring. -/
def replyCr (s : State) (n : Fin 4) (entry : List Byte) (notify : Bool) : State :=
  let x := ringReply s s.hif.cr[n] entry notify
  x.2.modCr n fun _ => x.1

/-- The completion entry of an ingest ring (R224). -/
def replyIg (s : State) (n : Fin 8) (entry : List Byte) (notify : Bool) : State :=
  let x := ringReply s s.hif.ig[n] entry notify
  x.2.modIg n fun _ => x.1

/-- A reply on an SPI port (R123, R124, R150): the tag's packet leaves the queue; a reply after its TIMEOUT, or one
that R150 keeps silent, is not queued. -/
def replySpi (s : State) (p : SpiPort) (r : Reply) (notify : Bool) : State :=
  s.modSpi p fun x =>
    let timed := match x.queue.find? (·.tag == r.tag) with | some q => q.timed | none => false
    { x with queue := x.queue.eraseP (·.tag == r.tag)
             replies := if timed || !notify then x.replies else x.replies ++ [r] }

/-- The duplicate store of a source (R161). -/
def dupEntry (s : State) : Source → Option DupEntry
  | .ring n => s.ktl.dupRing[n]
  | .mgmt => s.ktl.dupMgmt
  | .sup => s.ktl.dupSup

/-- Write the duplicate store of a source (R161). -/
def setDup (s : State) (src : Source) (e : Option DupEntry) : State :=
  match src with
  | .ring n => s.modKtl fun k => { k with dupRing := k.dupRing.set n.1 e n.2 }
  | .mgmt => s.modKtl fun k => { k with dupMgmt := e }
  | .sup => s.modKtl fun k => { k with dupSup := e }

/-- A reply goes to its source (R148, R150, R159). -/
def post (s : State) (c : Cmd) (r : Reply) : State :=
  let notify := bitOf c.flags.toNat 1 || !r.status.soft
  match c.src with
  | .ring n => replyCr s n r.bytes notify
  | .mgmt => replySpi s .mgmt r notify
  | .sup => replySpi s .sup r notify

/-- The reply of a packet in progress is stored for duplicates when its sequence is the one stored (R161). -/
def storeReply (s : State) (c : Cmd) (r : Reply) : State :=
  match dupEntry s c.src with
  | some e => if e.seq == c.seq && c.seq != 0 && e.reply.isNone then setDup s c.src (some { e with reply := some r }) else s
  | none => s

/-- An accepted packet completes with its reply. -/
def deliver (s : State) (c : Cmd) (f : Fate) (r : Reply) : State :=
  match f with
  | .live => post (storeReply s c r) c r
  | .stale => post s c r
  | .void => s

/-! ## Results of commands (R151, R152) -/

/-- What a command answers, before tag and sequence are added: status, sub-reason, offset field, opcode-specific
half and result words. -/
structure Res where
  status : Status
  sub : Nat := 0
  off : Nat := 0xFF
  ext : Nat := 0
  w0 : Nat := 0
  w1 : Nat := 0
  w2 : Nat := 0
  w3 : Nat := 0
  w4 : Nat := 0
  deriving DecidableEq, Repr

/-- The detail word (R152): 0 for a success without a sub-reason. -/
def Res.detail (r : Res) : Nat :=
  if r.status.soft && r.sub == 0 then 0 else r.sub + 256 * r.off + 65536 * r.ext

/-- The reply of a result (R148). -/
def Res.reply (r : Res) (c : Cmd) : Reply :=
  { tag := c.tag, status := r.status, detail := BitVec.ofNat 32 r.detail, seq := c.seq,
    w0 := BitVec.ofNat 32 r.w0, w1 := BitVec.ofNat 32 r.w1, w2 := BitVec.ofNat 32 r.w2,
    w3 := BitVec.ofNat 32 r.w3, w4 := BitVec.ofNat 32 r.w4 }

/-- A failure without a field at fault (R152, R173). -/
def fail (st : Status) (sub : Nat) (ext : Nat := 0) : Res := { status := st, sub := sub, ext := ext }

/-- A failure at the field of a packet offset (R173): inline the packet offset; in an indirect block 0xFE, with the
block offset in [31:16] for an opcode-specific sub-reason. -/
def failAt (c : Cmd) (st : Status) (sub off : Nat) : Res :=
  if c.indirect then { status := st, sub := sub, off := 0xFE, ext := if 0x40 ≤ sub then off - 16 else 0 }
  else { status := st, sub := sub, off := off }

/-- How a started command goes on: it completes with a result; it parks until hardware or its journal record comes
(R157, R176); or it has completed already. -/
inductive Verdict where
  | reply (s : State) (r : Res)
  | park (s : State) (w : Wait) (r : Option Res)

/-- A refusal with no effect. -/
def refuse (s : State) (r : Res) : Verdict := .reply s r

/-! ## Modes (R41, R43, R179) -/

/-- A mode change: HIF_MODE is raised between two modes other than RESET (R179, R501). -/
def setMode (s : State) (m : Mode) : State :=
  let old := s.sys.mode
  let s := s.modSys fun x => { x with mode := m, depth := if m == .standby then x.depth else 0 }
  if old == .reset || m == .reset || old == m then s
  else raise s 0x02 (m.code + 16 * old.code + 256 * s.sys.lastCause.toNat + 65536 * bit s.sys.lcSrc)

/-- LAST_CAUSE and LC_SRC for an entry to RUNOUT or HALT by a source (R41, R507). -/
def causeBy (s : State) (src : Nat) : State :=
  s.modSys fun x => { x with lastCause := BitVec.ofNat 8 src, lcSrc := true }

/-- LAST_CAUSE for an entry by command (R41). -/
def causeByCommand (s : State) : State := s.modSys fun x => { x with lastCause := 0, lcSrc := false }

/-! ## Sheets of the ledger -/

/-- The occupied ledger entries with their indices. -/
def sheets (s : State) : List (Fin 512 × Sheet) :=
  ((List.finRange 512).zip s.led.entries.toList).filterMap fun x => x.2.map fun e => (x.1, e)

/-- The occupied entry of a job and handle (R190). -/
def findSheet (s : State) (job : Word) (handle : BitVec 16) : Option (Fin 512 × Sheet) :=
  (sheets s).find? fun e => e.2.job == job && e.2.handle == handle

/-- COMMITTED or PAST_GATE: committed and not completed (R178, R387). -/
def Sheet.open (e : Sheet) : Bool := e.state == .committed || e.state == .pastGate

/-- Picked: committed with a scheduled T (R387). -/
def Sheet.picked (e : Sheet) : Bool := e.open && e.t.isSome

/-- Whether the ledger holds no entry. -/
def ledgerEmpty (s : State) : Bool := s.led.entries.toList.all (·.isNone)

/-- Number of the spoil reasons of R289, R316, R347 and R405. -/
def Spoil.code : Spoil → Nat
  | .halt => 0x01 | .power => 0x02 | .clock => 0x03 | .encoder => 0x04 | .fenced => 0x05
  | .jam => 0x08 | .mainDrive => 0x09 | .stop => 0x0A | .divert => 0x0B | .duplex => 0x0C
  | .steepVerify => 0x20 | .steepDeadline => 0x21 | .steepLost => 0x22 | .steepSlotRead => 0x23
  | .beamBd => 0x28 | .beamPhase => 0x29 | .beamInterlock => 0x2A
  | .headTemp => 0x30 | .headOverspeed => 0x31 | .headStrobe => 0x32 | .headDuty => 0x33 | .headData => 0x34
  | .headUnavailable => 0x35

/-- The record source number of a command (R359): 0..3 command ring, 4 management, 5 supervisor. -/
def Source.code : Source → Nat
  | .ring n => n.1
  | .mgmt => 4
  | .sup => 5

/-- Packet bytes 16..63 (R140): the inline parameters, or the pointer block. -/
def Cmd.tail (c : Cmd) : List Byte := if c.indirect then padTo 48 c.block else padTo 48 c.params

/-- The 64 bytes of a packet (R140). -/
def Cmd.packet (c : Cmd) (op : Nat) : List Byte :=
  leBytes 1 op ++ [c.flags] ++ leBytes 2 c.tag.toNat ++
  leBytes 2 (if c.indirect then 12 else c.params.length) ++ zeros 2 ++ leBytes 4 c.deadline.toNat ++
  leBytes 4 c.seq.toNat ++ Cmd.tail c

end Sys2Proof.Machine
end

