-- ==== Sys2Proof/Machine/LoopOps.lean ====
section
/-!
DEFINITION. The control engine's shared operations: the number format (R456, R457), the law (R458, R459), the fields
of the LOOPS recipe (R470), frame load (R453), mode changes (R462) and the slot modes that units impose (R465..R469).
-/

namespace Sys2Proof.Machine

/-! ## Number format (R456, R457) -/

/-- Division by 2^n rounded to nearest, ties away from zero. -/
def roundShift (p : Int) (n : Nat) : Int :=
  if p < 0 then -(((-p).toNat + 2 ^ n / 2) / 2 ^ n : Nat) else ((p.toNat + 2 ^ n / 2) / 2 ^ n : Nat)

/-- A quotient rounded to nearest, ties away from zero. -/
def roundDiv (p : Int) (q : Nat) : Int :=
  if p < 0 then -((2 * (-p).toNat + q) / (2 * q) : Nat) else ((2 * p.toNat + q) / (2 * q) : Nat)

/-- Linear interpolation of a table of codes and values between two neighbours of its order, rounded to nearest as R457
rounds (log 35); none outside the table. -/
def between : List (Nat × Int) → Nat → Option Int
  | a :: b :: t, x =>
    if (a.1 ≤ x && x ≤ b.1) || (b.1 ≤ x && x ≤ a.1) then
      some (if a.1 == b.1 then a.2
        else a.2 + roundDiv ((b.2 - a.2) * (if a.1 ≤ b.1 then ((x : Int) - a.1) else ((a.1 : Int) - x)))
          (if a.1 ≤ b.1 then b.1 - a.1 else a.1 - b.1))
    else between (b :: t) x
  | _, _ => none

/-- The signed 64-bit and 32-bit limits. -/
def sat64 (v : Int) : Int := clampI (-(2 ^ 63)) (2 ^ 63 - 1) v
def sat32 (v : Int) : Int := clampI (-(2 ^ 31)) (2 ^ 31 - 1) v

/-- A product p of an i32 and a mantissa, as a 64-bit value with 16 fraction bits at exponent x (R457). -/
def toFix (p x : Int) : Int :=
  if 0 ≤ x + 16 then sat64 (p * 2 ^ (x + 16).toNat) else roundShift p (-(x + 16)).toNat

/-- Conversion to i32 (R457). -/
def fixToI32 (v : Int) : Int := sat32 (roundShift v 16)

/-! ## LOOPS recipe fields (R470) -/

/-- E and T, the counts of entries and law tables. -/
def loopEntries (b : List Byte) : Nat := u16 b 0x000
def loopTables (b : List Byte) : Nat := u16 b 0x002
/-- The laser entry of station k; 0xFFFF none. -/
def laserEntry (b : List Byte) (k : Nat) : Nat := u16 b (0x004 + 2 * k)
/-- ZC_DELAY [µs]. -/
def zcDelay (b : List Byte) : Nat := u16 b 0x010
def hvSettleMs (b : List Byte) : Nat := u16 b 0x014
/-- The 64 bytes of entry e. -/
def loopEntry (b : List Byte) (e : Nat) : List Byte := bytesAt b (0x740 + 64 * e) 64
/-- The 96 bytes of law table t. -/
def lawTable (b : List Byte) (t : Nat) : List Byte := bytesAt b (0x740 + 64 * loopEntries b + 96 * t) 96
/-- The 64 bytes of linearisation table t. -/
def linTable (b : List Byte) (t : Nat) : List Byte := bytesAt b (0x540 + 64 * t) 64

/-- Fields of an entry. -/
def entKind (e : List Byte) : Nat := u8 e 0x00
def entTarget (e : List Byte) : Nat := u8 e 0x01
def entInput (e : List Byte) : Nat := u8 e 0x02
def entLin (e : List Byte) : Nat := u8 e 0x03
def entOutput (e : List Byte) : Nat := u8 e 0x04
def entLaw (e : List Byte) (b : Bool) : Nat := u8 e (if b then 0x07 else 0x06)
def entRatio (e : List Byte) : Nat := u16 e 0x12
def entInner (e : List Byte) : Nat := u8 e 0x14
def entSpMin (e : List Byte) : Int := i32 e 0x18
def entSpMax (e : List Byte) : Int := i32 e 0x1C
def entOutMin (e : List Byte) : Int := i32 e 0x20
def entOutMax (e : List Byte) : Int := i32 e 0x24
def entOutOff (e : List Byte) : Int := i32 e 0x28
def entRate (e : List Byte) : Nat := u32 e 0x2C
def entWindow (e : List Byte) : Nat := u32 e 0x30
def entTimeout (e : List Byte) : Nat := u32 e 0x34
def entStandby (e : List Byte) : Int := i32 e 0x38
def entHard (e : List Byte) : Int := i32 e 0x3C

/-- The entry of a slot. -/
def slotEntry (s : State) (l : Loop) : List Byte := loopEntry (loopsBody s) l.entry

/-! ## Law (R458, R459) -/

/-- A column's mantissa at |e| (R459): interpolated between breakpoints, rounded toward zero. -/
def interpolate (t : List Byte) (col : Nat) (a : Nat) : Int :=
  let e := fun k => u32 t (4 * k)
  let m := fun k => i16 t (col + 2 * k)
  match (List.range 7).find? fun j => decide (e j ≤ a) && decide (a < e (j + 1)) with
  | some j =>
    let d : Int := (e (j + 1) - e j : Nat)
    Int.tdiv (m j * d + (m (j + 1) - m j) * (a - e j : Nat)) d
  | none => m 7

/-- A law term: gain of a column at |e| times a value, with 16 fraction bits. -/
def lawTerm (t : List Byte) (col expo a : Nat) (v : Int) : Int := toFix (interpolate t col a * v) (i8 t expo)

/-- I_MIN, I_MAX and bias of a law table, with 16 fraction bits. -/
def tabIMin (t : List Byte) : Int := i32 t 0x54 * 65536
def tabIMax (t : List Byte) : Int := i32 t 0x58 * 65536
def tabBias (t : List Byte) : Int := i32 t 0x5C * 65536

/-- The measured value y (R458). -/
def measured (e : List Byte) (raw : Int) : Int :=
  fixToI32 (sat64 (toFix (raw * i16 e 0x08) (i8 e 0x0A) + i32 e 0x0C * 65536))

/-- u without its integrator (R458): kp × e + kd × (y_prev − y) + ff × r + bias. -/
def lawU0 (e t : List Byte) (err yPrev y r : Int) : Int :=
  let a := err.natAbs
  sat64 (lawTerm t 0x20 0x50 a err + lawTerm t 0x40 0x52 a (sat32 (yPrev - y)) +
    toFix (r * i16 e 0x10) (i8 e 0x0B) + tabBias t)

/-- ki × e (R458). -/
def lawKi (t : List Byte) (err : Int) : Int := lawTerm t 0x30 0x51 err.natAbs err

/-- The value of a linearisation table at a code (R470): a pair's value at its code; elsewhere the spec gives no rule
and the value is free (log 36). -/
def linearised (t : List Byte) (code : Nat) : Int :=
  match (List.range 16).find? fun k => u16 t (4 * k) == code with
  | some k => i16 t (4 * k + 2)
  | none => Config.freeLinear t code

/-- The ramp or rate per evaluation: units/s × P, converted to i32 as R457 rounds (log 34). -/
def perEvaluation (rate k : Nat) : Int := roundDiv (rate * (20 * k) : Nat) 1000000

/-! ## Frame load (R452..R454) -/

/-- Cells of an evaluation (R453): 2 when a law table of the entry has a non-zero Kd mantissa. -/
def entryCost (b e : List Byte) : Nat :=
  let kd := fun t => (List.range 8).any fun k => i16 (lawTable b t) (0x40 + 2 * k) != 0
  if kd (entLaw e false) || (entLaw e true != 0xFF && kd (entLaw e true)) then 2 else 1

/-- Cost of the laser entry of station k, when the station is enabled and has one (R454). -/
def laserCost (s : State) (b : List Byte) (k : Nat) : Nat :=
  if b.isEmpty || !stationOn s k || laserEntry b k == 0xFFFF then 0 else entryCost b (loopEntry b (laserEntry b k))

/-- The event reserve [cells]. -/
def eventReserve (s : State) : Nat := ((List.range 6).map (laserCost s (loopsBody s))).sum

/-- Whether slot n is a laser-power slot (R467): beam slot of a station with an active STATION recipe. -/
def laserSlot (s : State) (n : Nat) : Bool := decide (n < 96) && (activeRecipe s 0x0010 (n / 16)).isSome

/-- The enabled timer slots with their cost, period and phase. -/
def timerSlots (s : State) : List (Nat × Nat × Nat × Nat) :=
  (List.finRange 160).filterMap fun i =>
    let l := s.ctl.loops[i]
    if l.en && l.k != 0 then some (i.1, entryCost (loopsBody s) (slotEntry s l), l.k, l.phase) else none

/-- Evaluations per second (R453): the sum of cost × 10^6 / P over timer slots and of the event reserve, as a fraction. -/
def evalRate (reserve : Nat) (sl : List (Nat × Nat × Nat × Nat)) : Nat × Nat :=
  sl.foldl (fun r x => (r.1 * x.2.2.1 + x.2.1 * 50000 * r.2, r.2 * x.2.2.1)) (50000 * reserve, 1)

/-- The sum is above what the engine can evaluate (R453). -/
def rateExceeds (r : Nat × Nat) : Bool := decide (8000000 * r.2 < r.1)

/-- Evaluations per second in force (R453, R472), in whole ones. -/
def rateSum (s : State) : Nat :=
  let r := evalRate (eventReserve s) (timerSlots s)
  r.1 / r.2

/-- Cells of timer slots in frame f. -/
def frameLoad (sl : List (Nat × Nat × Nat × Nat)) (f : Nat) : Nat :=
  (sl.map fun x => if f % x.2.2.1 = x.2.2.2 then x.2.1 else 0).sum

/-- Whether two slots ever meet in a frame (Chinese remainder theorem). -/
def meets (a b : Nat × Nat × Nat × Nat) : Bool :=
  let g := Nat.gcd a.2.2.1 b.2.2.1
  a.2.2.2 % g == b.2.2.2 % g

/-- The highest load over all frames of a set of slots: slots that pairwise meet all meet in one frame, so the peak is
the largest cost of a pairwise-meeting set that contains `taken`. -/
def peakFrom : List (Nat × Nat × Nat × Nat) → List (Nat × Nat × Nat × Nat) → Nat
  | _, [] => 0
  | taken, x :: rest =>
    if taken.all (meets x) then
      let here := x.2.1 + peakFrom (x :: taken) rest
      if rest.all (meets x) then here else Nat.max here (peakFrom taken rest)
    else peakFrom taken rest

/-- Cells in the busiest frame (R453, R472), the event reserve included. -/
def peakLoad (s : State) : Nat := peakFrom [] (timerSlots s) + eventReserve s

/-- The phase of the lowest peak frame load among those allowed, the lowest on a tie (R452). -/
def bestPhase (others : List (Nat × Nat × Nat × Nat)) (slot cost k : Nat) (allowed : Nat → Bool) : Nat × Nat :=
  (List.range k).foldl (fun (best : Nat × Nat) ph =>
    if allowed ph then
      let load := Nat.max (peakFrom [] others)
        (cost + peakFrom [] (others.filter (meets (slot, cost, k, ph))))
      if load < best.2 then (ph, load) else best
    else best) (0, 1000000)

/-! ## Slot modes (R451, R462, R465..R469) -/

/-- Laws A and B. -/
def LoopMode.law : LoopMode → Bool
  | .lawA => true | .lawB => true | _ => false

/-- A slot in manual or a law mode. -/
def Loop.driving (l : Loop) : Bool := l.en && l.mode != .off

/-- The slot goes to off (R451, R462): a pending handover and a slew end; out falls to OUT_OFF at the next
evaluation. -/
def Loop.toOff (l : Loop) : Loop := { l with mode := .off, pending := none, slew := none, integ := 0, yPrev := none }

/-- Every slot whose entry has one of the kinds goes to off. -/
def slotsOff (s : State) (kinds : List Nat) : State :=
  let b := loopsBody s
  s.modCtl fun c => { c with loops := c.loops.map fun l =>
    if l.en && kinds.contains (entKind (loopEntry b l.entry)) then { l.toOff with outNext := none } else l }

/-- The slot of the speed loop of motor channel m (R447, R468). -/
def motorSlot (s : State) (m : Fin 10) : Option (Fin 160) :=
  let b := motorBody s
  if b.isEmpty then none
  else let n := u8 b (0x040 + 96 * m.1 + 0x40)
    if h : n < 160 then some ⟨n, h⟩ else none

/-- The channel sets its slot's mode at its own transitions (R468). -/
def motorSlotOff (s : State) (m : Fin 10) : State :=
  match motorSlot s m with
  | some n => s.modLoop n fun l => l.toOff
  | none => s
def motorSlotManual (s : State) (m : Fin 10) (current : Nat) : State :=
  match motorSlot s m with
  | some n => s.modLoop n fun l => if l.en then { l with mode := .manual, manual := current, pending := none, slew := none } else l
  | none => s
/-- From the handover of R439 on, law A; the handover uses a TIMEOUT of 0 (R464). -/
def motorSlotLaw (s : State) (m : Fin 10) : State :=
  match motorSlot s m with
  | some n => s.modLoop n fun l => if l.en then { l with pending := some ⟨.lawA, 0, true⟩ } else l
  | none => s
/-- At a transition within closed-loop operation the slot is in law A again, whatever LOOP_MODE has set (R468). -/
def motorSlotKeep (s : State) (m : Fin 10) : State :=
  match motorSlot s m with
  | some n => s.modLoop n fun l => if l.en && l.mode.law && l.mode != .lawA then { l with pending := some ⟨.lawA, 0, true⟩ } else l
  | none => s

/-- The channel's speed setpoint is the slot's target (R458). -/
def motorSlotTarget (s : State) (m : Fin 10) (speed : Nat) : State :=
  match motorSlot s m with
  | some n => s.modLoop n fun l => { l with rTarget := speed, ramp := 0 }
  | none => s

/-- Whether an enabled high-voltage slot is in manual or a law mode (R466). -/
def hvDriving (s : State) : Bool :=
  s.ctl.loops.any fun l => l.driving && entKind (slotEntry s l) == 2

/-- HVEN (R466): driven high only while the mode allows it, PWRFAIL_N has not been asserted, a high-voltage slot
drives, and no HV_OK fault holds it low. -/
def hvUpdate (s : State) : State :=
  let m := s.sys.mode
  let allowed := m == .ready || m == .print || m == .runout || m == .service || (m == .standby && s.sys.depth == 1)
  let on := allowed && !s.sys.pwrFail && hvDriving s && !s.pins.hvBlocked
  s.modCtl fun c => { c with hven := on }

/-- A high-voltage slot changes mode out of off: HVEN may rise again once FAULT_CLEAR of CTL_HV has returned OK
(R466). -/
def hvLeavesOff (s : State) : State :=
  s.modPins fun p => if p.hvBlocked && p.hvCleared then { p with hvBlocked := false, hvCleared := false } else p

end Sys2Proof.Machine
end

