-- ==== Sys2Proof/Machine/Inflate.lean ====
section
/-!
DEFINITION. The accepted DEFLATE subset (R238..R242): a decoder that stops at the first error in stream order. Error
numbers are those of R241; 0 is none.
-/

namespace Sys2Proof.Machine

/-- What the decoder has made: its error, the bytes produced, the bits consumed, and whether it stopped because output
remained with no room for it (R260). -/
structure Inflated where
  err : Nat
  out : Array Byte
  pos : Nat
  full : Bool

/-- A field of n bits, least significant first; none when a bit lies beyond the last body byte (E_TRUNC). -/
def bitField (d : Array Byte) (pos n : Nat) : Option Nat :=
  if 8 * d.size < pos + n then none
  else some ((List.range n).foldl (fun a k =>
    a + 2 ^ k * ((d.getD ((pos + k) / 8) 0).toNat / 2 ^ ((pos + k) % 8) % 2)) 0)

/-- A canonical Huffman code: how many codes of each length 1..15, and the symbols in code order. -/
structure Huff where
  counts : List Nat
  syms : Array Nat

/-- The canonical code of a list of lengths (RFC 1951). -/
def huffOf (lens : List Nat) : Huff :=
  let idx := lens.zipIdx
  { counts := (List.range 15).map fun k => lens.countP (· == k + 1)
    syms := (((List.range 15).map fun k => (idx.filter (·.1 == k + 1)).map (·.2)).flatten).toArray }

/-- Codes left over: none when over-subscribed, some 0 when complete. -/
def huffLeft (counts : List Nat) : Option Nat :=
  (counts.foldl (fun (x : Option Nat × Nat) c =>
    (match x.1 with | some l => if c ≤ 2 * l then some (2 * l - c) else none | none => none, 0)) (some 1, 0)).1

/-- Read one symbol: the symbol and the position after it, or the error (0x01 E_CODE, 0x07 E_TRUNC). -/
def huffSym (syms : Array Nat) (d : Array Byte) : List Nat → Nat → Nat → Nat → Nat → Nat × Nat × Nat
  | [], _, _, _, pos => (1, 0, pos)
  | c :: cs, code, first, index, pos =>
    if c + cs.sum = 0 then (1, 0, pos)
    else match bitField d pos 1 with
      | none => (7, 0, pos)
      | some b =>
        let code := code + b
        if code < first + c then (0, syms.getD (index + (code - first)) 0, pos + 1)
        else huffSym syms d cs (2 * code) (2 * (first + c)) (index + c) (pos + 1)

def Huff.read (h : Huff) (d : Array Byte) (pos : Nat) : Nat × Nat × Nat := huffSym h.syms d h.counts 0 0 0 pos

/-- Base and extra bits of a length symbol 257..285 and of a distance symbol 0..29 (RFC 1951). -/
def lengthCode (k : Nat) : Nat × Nat :=
  if k = 28 then (258, 0) else if k < 8 then (3 + k, 0)
  else let x := k / 4 - 1
       (3 + (4 + k % 4) * 2 ^ x, x)
def distCode (k : Nat) : Nat × Nat :=
  if k < 4 then (1 + k, 0)
  else let x := k / 2 - 1
       (1 + (2 + k % 2) * 2 ^ x, x)

/-- Copy n bytes from a distance back. -/
def copyMatch : Nat → Nat → Array Byte → Array Byte
  | 0, _, out => out
  | n + 1, dist, out => copyMatch n dist (out.push (out.getD (out.size - dist) 0))

/-- A symbol 286, 287 or a distance 30, 31 (R241). -/
def symError (e bad : Nat) (sym : Nat) : Nat := if e != 0 then e else if bad ≤ sym then 1 else 0

/-- The symbols of a block up to its end-of-block code (R241, R242); `room` bounds the bytes written so far. -/
def symbols (d : Array Byte) (raw room : Nat) (lit dist : Huff) : Nat → Nat → Array Byte → Inflated
  | 0, pos, out => ⟨7, out, pos, false⟩
  | fuel + 1, pos, out =>
    let (e, sym, p) := lit.read d pos
    let e := symError e 286 sym
    if e != 0 then ⟨e, out, p, false⟩
    else if sym = 256 then ⟨0, out, p, false⟩
    else if sym < 256 then
      if raw < out.size + 1 then ⟨5, out, p, false⟩
      else if room ≤ out.size then ⟨0, out, pos, true⟩
      else symbols d raw room lit dist fuel p (out.push (BitVec.ofNat 8 sym))
    else
      let lc := lengthCode (sym - 257)
      match bitField d p lc.2 with
      | none => ⟨7, out, p, false⟩
      | some lx =>
        let len := lc.1 + lx
        let (e, ds, p) := dist.read d (p + lc.2)
        let e := symError e 30 ds
        if e != 0 then ⟨e, out, p, false⟩
        else
          let dc := distCode ds
          match bitField d p dc.2 with
          | none => ⟨7, out, p, false⟩
          | some dx =>
            let back := dc.1 + dx
            let p := p + dc.2
            if out.size < back then ⟨4, out, p, false⟩
            else if raw < out.size + len then ⟨5, out, p, false⟩
            else if room ≤ out.size then ⟨0, out, pos, true⟩
            else if room < out.size + len then ⟨0, copyMatch (room - out.size) back out, p, true⟩
            else symbols d raw room lit dist fuel p (copyMatch len back out)

/-- The fixed codes (RFC 1951). -/
def fixedLit : Huff :=
  huffOf (List.replicate 144 8 ++ List.replicate 112 9 ++ List.replicate 24 7 ++ List.replicate 8 8)
def fixedDist : Huff := huffOf (List.replicate 32 5)

/-- Order of the code-length code's lengths (RFC 1951). -/
def clOrder : List Nat := [16, 17, 18, 0, 8, 7, 9, 6, 10, 5, 11, 4, 12, 3, 13, 2, 14, 1, 15]

/-- The code lengths of a dynamic header, newest first (R239): error, lengths, position. -/
def readLengths (d : Array Byte) (cl : Huff) (total : Nat) : Nat → Nat → List Nat → Nat × List Nat × Nat
  | 0, pos, acc => (7, acc, pos)
  | fuel + 1, pos, acc =>
    if total ≤ acc.length then (0, acc, pos)
    else
      let (e, sym, p) := cl.read d pos
      if e != 0 then (e, acc, p)
      else if sym < 16 then readLengths d cl total fuel p (sym :: acc)
      else
        let bits := if sym = 16 then 2 else if sym = 17 then 3 else 7
        match bitField d p bits with
        | none => (7, acc, p)
        | some x =>
          if sym = 16 && acc.isEmpty then (1, acc, p)
          else
            let n := x + (if sym = 18 then 11 else 3)
            if total < acc.length + n then (1, acc, p)
            else readLengths d cl total fuel (p + bits)
              (List.replicate n (if sym = 16 then acc.headD 0 else 0) ++ acc)

/-- The header of a dynamic block (R239, R242): error, the two codes, position. -/
def dynamicHeader (d : Array Byte) (pos : Nat) : Nat × Huff × Huff × Nat :=
  let bad := fun (e : Nat) => (e, fixedLit, fixedDist, pos)
  match bitField d pos 5 with
  | none => bad 7
  | some hlit =>
    if 30 ≤ hlit then bad 1
    else match bitField d (pos + 5) 5 with
      | none => bad 7
      | some hdist =>
        if 30 ≤ hdist then bad 1
        else match bitField d (pos + 10) 4 with
          | none => bad 7
          | some hclen =>
            match bitField d (pos + 14) (3 * (hclen + 4)) with
            | none => bad 7
            | some raw =>
              let cls := (List.range 19).map fun sym =>
                match (clOrder.take (hclen + 4)).idxOf? sym with
                | some k => raw / 8 ^ k % 8
                | none => 0
              let cl := huffOf cls
              if huffLeft cl.counts != some 0 then bad 1
              else
                let total := hlit + 257 + hdist + 1
                let (e, acc, p) := readLengths d cl total (total + 1) (pos + 14 + 3 * (hclen + 4)) []
                if e != 0 then (e, fixedLit, fixedDist, p)
                else
                  let lens := acc.reverse
                  let lit := huffOf (lens.take (hlit + 257))
                  let dl := lens.drop (hlit + 257)
                  let dist := huffOf dl
                  if huffLeft lit.counts != some 0 || lens.getD 256 0 == 0 then (1, lit, dist, p)
                  else match huffLeft dist.counts with
                    | none => (1, lit, dist, p)
                    | some 0 => (0, lit, dist, p)
                    | some _ =>
                      let used := dl.filter (· != 0)
                      if used.isEmpty || used == [1] then (0, lit, dist, p) else (1, lit, dist, p)

/-- A stored block from its LEN field on (R242). -/
def stored (d : Array Byte) (raw room pos : Nat) (out : Array Byte) : Inflated :=
  let p := (pos + 7) / 8 * 8
  match bitField d p 16, bitField d (p + 16) 16 with
  | some len, some nlen =>
    if len + nlen != 65535 then ⟨3, out, p + 32, false⟩
    else if raw < out.size + len then ⟨5, out, p + 32, false⟩
    else
      let have_ := d.size - (p / 8 + 4)
      let n := min len (min have_ (room - out.size))
      let out := out ++ d.extract (p / 8 + 4) (p / 8 + 4 + n)
      let p := p + 32 + 8 * n
      if n == len then ⟨0, out, p, false⟩
      else if n < min len have_ then ⟨0, out, p, true⟩
      else ⟨7, out, p, false⟩
  | _, _ => ⟨7, out, p, false⟩

/-- The blocks of a body up to the final one. -/
def blocks (d : Array Byte) (raw room : Nat) : Nat → Nat → Array Byte → Inflated
  | 0, pos, out => ⟨7, out, pos, false⟩
  | fuel + 1, pos, out =>
    match bitField d pos 3 with
    | none => ⟨7, out, pos, false⟩
    | some h =>
      let type := h / 2
      let r : Inflated :=
        if type = 0 then stored d raw room (pos + 3) out
        else if type = 1 then symbols d raw room fixedLit fixedDist (8 * d.size + 1) (pos + 3) out
        else if type = 2 then
          let (e, lit, dist, p) := dynamicHeader d (pos + 3)
          if e != 0 then ⟨e, out, p, false⟩ else symbols d raw room lit dist (8 * d.size + 1) p out
        else ⟨2, out, pos + 3, false⟩
      if r.err != 0 || r.full then r
      else if h % 2 = 1 then (if r.out.size < raw then { r with err := 6 } else r)
      else blocks d raw room fuel r.pos r.out

/-- Decode a body to a raw length, with room for so many bytes. -/
def inflate (body : List Byte) (raw room : Nat) : Inflated :=
  blocks body.toArray raw room (8 * body.length + 1) 0 #[]

end Sys2Proof.Machine
end

