-- ==== Sys2Proof/Machine/Deflate.lean ====
section
/-!
DEFINITION. What an encode lane makes of a raw band (R249..R255): blocks, matches, and for each block the shortest of the
encodings it may use. The hash and the choices inside a dynamic header that the rules leave to the die revision are free
(log 83).
-/

namespace Sys2Proof.Machine

/-! ## Matches (R251..R253) -/

/-- A literal, or a match of a length at a distance. -/
inductive Token where
  | lit (b : Byte)
  | copy (len dist : Nat)
  deriving DecidableEq, Repr

/-- The three bytes at a position. -/
def bytes3 (raw : Array Byte) (p : Nat) : Byte × Byte × Byte := (raw.getD p 0, raw.getD (p + 1) 0, raw.getD (p + 2) 0)

/-- Two positions on one chain: their next three bytes have the same 15-bit hash (R251; log 83). -/
def sameChain (x y : Byte × Byte × Byte) : Bool :=
  x == y || Config.matchHash x.1 x.2.1 x.2.2 == Config.matchHash y.1 y.2.1 y.2.2

/-- How many of at most so many bytes at two positions agree from the start. -/
def agreeing (raw : Array Byte) (q p : Nat) : Nat → Nat
  | 0 => 0
  | n + 1 => if raw.getD q 0 == raw.getD p 0 then agreeing raw (q + 1) (p + 1) n + 1 else 0

/-- Search depth of a level (R253). -/
def searchDepth (level : Nat) : Nat := if level = 1 then 4 else if level = 2 then 16 else if level = 3 then 64 else 256

/-- The match at a position (R251): the longest of the candidates examined, among equals the nearest; none below 3 bytes. A
match stays within its block. -/
def matchAt (raw : Array Byte) (depth p ends : Nat) : Option (Nat × Nat) :=
  if ends < p + 3 then none
  else
    let here := bytes3 raw p
    let near := ((List.range (min p 32768)).filter fun k => sameChain (bytes3 raw (p - 1 - k)) here).take depth
    let best := near.foldl (fun (b : Nat × Nat) k =>
      let n := agreeing raw (p - 1 - k) p (min 258 (ends - p))
      if b.1 < n then (n, k + 1) else b) (0, 0)
    if best.1 < 3 then none else some best

/-- The tokens of a block from a position on (R251, R252): at levels 3 and 4 a strictly longer match one byte later makes
this byte a literal. -/
def tokensFrom (raw : Array Byte) (depth : Nat) (lazyMatch : Bool) (ends : Nat) : Nat → Nat → List Token
  | 0, _ => []
  | fuel + 1, p =>
    if ends ≤ p then []
    else match matchAt raw depth p ends with
      | none => .lit (raw.getD p 0) :: tokensFrom raw depth lazyMatch ends fuel (p + 1)
      | some (n, d) =>
        let later := match matchAt raw depth (p + 1) ends with
          | some (m, _) => decide (n < m)
          | none => false
        if lazyMatch && later then .lit (raw.getD p 0) :: tokensFrom raw depth lazyMatch ends fuel (p + 1)
        else .copy n d :: tokensFrom raw depth lazyMatch ends fuel (p + n)

/-- The tokens of the block that covers raw bytes start to ends. -/
def blockTokens (raw : Array Byte) (level start ends : Nat) : List Token :=
  tokensFrom raw (searchDepth level) (decide (3 ≤ level)) ends (ends - start) start

/-! ## Symbols and bits (RFC 1951) -/

/-- A number as so many bits, least significant first. -/
def lowBits (x : Nat) : Nat → List Bool
  | 0 => []
  | n + 1 => (x % 2 == 1) :: lowBits (x / 2) n

/-- The symbol, extra bits and extra value of a match length and of a distance. -/
def lengthSymbol (n : Nat) : Nat × Nat × Nat :=
  let k := (List.range 29).foldl (fun a k => if (lengthCode k).1 ≤ n then k else a) 0
  (257 + k, (lengthCode k).2, n - (lengthCode k).1)
def distSymbol (d : Nat) : Nat × Nat × Nat :=
  let k := (List.range 30).foldl (fun a k => if (distCode k).1 ≤ d then k else a) 0
  (k, (distCode k).2, d - (distCode k).1)

/-- The canonical code word of a symbol under a list of lengths, as bits in the order in which they are emitted. -/
def codeWord (lens : List Nat) (sym : Nat) : List Bool :=
  let n := lens.getD sym 0
  let first := (List.range n).foldl (fun a l => if l = 0 then a else a + lens.countP (· == l) * 2 ^ (n - l)) 0
  (lowBits (first + (lens.take sym).countP (· == n)) n).reverse

/-- The bits of one token under the two codes. -/
def tokenBits (lit dist : List Nat) : Token → List Bool
  | .lit b => codeWord lit b.toNat
  | .copy n d =>
    let x := lengthSymbol n
    let y := distSymbol d
    codeWord lit x.1 ++ lowBits x.2.2 x.2.1 ++ codeWord dist y.1 ++ lowBits y.2.2 y.2.1

/-- The tokens of a block and its end-of-block code. -/
def codedTokens (lit dist : List Nat) (ts : List Token) : List Bool :=
  ts.flatMap (tokenBits lit dist) ++ codeWord lit 256

/-- Lengths of the fixed codes. -/
def fixedLitLens : List Nat :=
  List.replicate 144 8 ++ List.replicate 112 9 ++ List.replicate 24 7 ++ List.replicate 8 8
def fixedDistLens : List Nat := List.replicate 30 5

/-! ## Dynamic headers (R254) -/

/-- How often each literal/length symbol 0..285 and each distance symbol 0..29 is used; the end-of-block code once. -/
def litCounts (ts : List Token) : List Nat :=
  let used := 256 :: ts.map fun t => match t with
    | .lit b => b.toNat
    | .copy n _ => (lengthSymbol n).1
  (List.range 286).map fun k => used.countP (· == k)
def distCounts (ts : List Token) : List Nat :=
  let used := ts.filterMap fun t => match t with
    | .lit _ => none
    | .copy _ d => some (distSymbol d).1
  (List.range 30).map fun k => used.countP (· == k)

/-- Lengths that a code for these counts can have: a length within the limit for every used symbol and for no other, and a
complete code; one used symbol has length 1 (R239, R254). -/
def lengthsFit (limit : Nat) (counts lens : List Nat) : Bool :=
  lens.length == counts.length && (counts.zip lens).all (fun x => (x.1 == 0) == (x.2 == 0) && decide (x.2 ≤ limit)) &&
    (match lens.filter (· != 0) with
      | [] => true
      | [l] => l == 1
      | _ => huffLeft (huffOf lens).counts == some 0)

/-- A complete code of nearly equal lengths. -/
def evenLengths (counts : List Nat) : List Nat :=
  let n := counts.countP (· != 0)
  let k := Nat.log2 (2 * n - 1)
  let short := 2 ^ k - n
  (counts.foldl (fun (x : List Nat × Nat) c =>
    if c = 0 then (0 :: x.1, x.2) else ((if n = 1 then 1 else if x.2 < short then k - 1 else k) :: x.1, x.2 + 1)) ([], 0)).1.reverse

/-- The code built from symbol counts (R254): the die revision's own choice where it is one, else an even code (log 83). -/
def builtLengths (limit : Nat) (counts : List Nat) : List Nat :=
  let l := Config.codeLengths limit counts
  if lengthsFit limit counts l then l else evenLengths counts

/-- The list up to its last entry that is not 0, at least so many entries. -/
def trimmed (least : Nat) (l : List Nat) : List Nat :=
  l.take (max least (l.length - (l.reverse.takeWhile (· == 0)).length))

/-- The lengths that a list of code-length symbols with their repeat values stands for, newest first; none where it stands
for none. -/
def expandRuns : List (Nat × Nat) → List Nat → Option (List Nat)
  | [], acc => some acc
  | (sym, x) :: rest, acc =>
    if sym < 16 then expandRuns rest (sym :: acc)
    else if sym = 16 then
      if acc.isEmpty || 3 < x then none else expandRuns rest (List.replicate (x + 3) (acc.headD 0) ++ acc)
    else if sym = 17 then if 7 < x then none else expandRuns rest (List.replicate (x + 3) 0 ++ acc)
    else if sym = 18 then if 127 < x then none else expandRuns rest (List.replicate (x + 11) 0 ++ acc)
    else none

/-- The symbols for n equal lengths v in a row (R254): 18 and 17 for zeros, 16 after a first length. -/
def runSymbols (v n : Nat) : List (Nat × Nat) :=
  if v = 0 then
    let r := n % 138
    List.replicate (n / 138) (18, 127) ++
      (if 11 ≤ r then [(18, r - 11)] else if 3 ≤ r then [(17, r - 3)] else List.replicate r (0, 0))
  else
    let r := (n - 1) % 6
    (v, 0) :: List.replicate ((n - 1) / 6) (16, 3) ++ (if 3 ≤ r then [(16, r - 3)] else List.replicate r (v, 0))

/-- A list of lengths with every run of equal ones coded by repeat symbols. -/
def repeated (lens : List Nat) : List (Nat × Nat) :=
  (lens.foldr (fun v (g : List (Nat × Nat)) => match g with
    | (w, n) :: rest => if v = w then (w, n + 1) :: rest else (v, 1) :: g
    | [] => [(v, 1)]) []).flatMap fun g => runSymbols g.1 g.2

/-- The part of a dynamic header from HCLEN on (R254): the smallest HCLEN, the code-length code, and the lengths under it. -/
def runsBits (runs : List (Nat × Nat)) : List Bool × List Bool :=
  let cl := builtLengths 7 ((List.range 19).map fun k => runs.countP fun r => r.1 == k)
  let order := trimmed 4 (clOrder.map fun k => cl.getD k 0)
  (lowBits (order.length - 4) 4,
    order.flatMap (lowBits · 3) ++
      runs.flatMap fun r => codeWord cl r.1 ++
        lowBits r.2 (if r.1 = 16 then 2 else if r.1 = 17 then 3 else if r.1 = 18 then 7 else 0))

/-- How many bits a choice of code-length symbols takes. -/
def runsCost (runs : List (Nat × Nat)) : Nat := (runsBits runs).2.length

/-- The code-length symbols of a list of lengths (R254): the die revision's own choice where it stands for the list and no plain
use of symbols 16, 17 and 18, or of none, is shorter; else the shorter of these two (log 83). -/
def lengthRuns (lens : List Nat) : List (Nat × Nat) :=
  let plain := lens.map fun l => (l, 0)
  let best := if runsCost (repeated lens) < runsCost plain then repeated lens else plain
  let r := Config.lengthRuns lens
  if expandRuns r [] == some lens.reverse && decide (runsCost r ≤ runsCost best) then r else best

/-- A dynamic block without its three header bits: HLIT, HDIST and HCLEN the smallest that cover every used symbol
(R254). -/
def dynamicBits (ts : List Token) : List Bool :=
  let lit := trimmed 257 (builtLengths 15 (litCounts ts))
  let dist := trimmed 1 (builtLengths 15 (distCounts ts))
  let runs := runsBits (lengthRuns (lit ++ dist))
  lowBits (lit.length - 257) 5 ++ lowBits (dist.length - 1) 5 ++ runs.1 ++ runs.2 ++ codedTokens lit dist ts

/-! ## Blocks (R249, R250) -/

/-- A stored block without its three header bits, at a bit position: alignment, LEN, NLEN and the bytes. -/
def storedBits (pos : Nat) (bytes : List Byte) : List Bool :=
  List.replicate ((8 - (pos + 3) % 8) % 8) false ++ lowBits bytes.length 16 ++ lowBits (65535 - bytes.length) 16 ++
    bytes.flatMap fun b => lowBits b.toNat 8

/-- The bits of one block at a bit position, and whether it is a dynamic one (R250): the shortest encoding; among equals
fixed before dynamic before stored. -/
def blockBits (raw : Array Byte) (level : Nat) (dynamic final : Bool) (pos start ends : Nat) : List Bool × Bool :=
  let ts := blockTokens raw level start ends
  let a := codedTokens fixedLitLens fixedDistLens ts
  let b := if dynamic then some (dynamicBits ts) else none
  let c := storedBits pos ((raw.extract start ends).toList)
  let shorter := match b with
    | some b => decide (b.length < a.length)
    | none => false
  let x : Nat × List Bool := if shorter then (2, b.getD []) else (1, a)
  let x := if c.length < x.2.length then (0, c) else x
  (final :: lowBits x.1 2 ++ x.2, x.1 == 2)

/-- The blocks of a band (R249): so many of 16,384 bytes, the last one of the remainder; the bits emitted, newest block
last, and whether a dynamic block is among them. -/
def bandBits (raw : Array Byte) (level : Nat) (dynamic : Bool) : Nat → Nat → Nat → List Bool × Bool
  | 0, _, _ => ([], false)
  | fuel + 1, start, pos =>
    if raw.size ≤ start then ([], false)
    else
      let ends := min raw.size (start + 16384)
      let b := blockBits raw level dynamic (ends == raw.size) pos start ends
      let rest := bandBits raw level dynamic fuel ends (pos + b.1.length)
      (b.1 ++ rest.1, b.2 || rest.2)

/-- Bits into bytes, the first bit the least significant; the last byte is padded with 0 (R249). -/
def packBits : Nat → List Bool → List Byte
  | 0, _ => []
  | _, [] => []
  | fuel + 1, b :: bs =>
    let l := (b :: bs).take 8
    BitVec.ofNat 8 (l.foldr (fun x a => 2 * a + (if x then 1 else 0)) 0) :: packBits fuel ((b :: bs).drop 8)

/-- What an encode lane makes of a raw band (R249..R255): the body, and whether it holds a dynamic block (R214). -/
structure Encoded where
  body : List Byte
  dynamic : Bool
  deriving DecidableEq, Repr

def encodeBand (raw : List Byte) (level : Nat) (dynamic : Bool) : Encoded :=
  let x := bandBits raw.toArray level dynamic (raw.length / 16384 + 1) 0 0
  ⟨packBits x.1.length x.1, x.2⟩

/-- How many bits the whole blocks of a part of a band take, before the band is read to its end (R249, R257). -/
def partBits (part : List Byte) (level : Nat) (dynamic : Bool) : Nat :=
  let whole := part.take (part.length / 16384 * 16384)
  (bandBits whole.toArray level dynamic (part.length / 16384) 0 0).1.length

end Sys2Proof.Machine
end

