-- ==== Sys2Proof/Machine/JournalOps.lean ====
section
/-!
DEFINITION. The journal: flash as canonical data, the formation of records (R357..R364), the free count and its
conditions (R367, R176), and reservations (R351). What a record's durability brings is in Machine/Durable.lean.
-/

namespace Sys2Proof.Machine

/-! ## Journal flash (R135): a list of addresses and bytes, strictly rising, no byte 0xFF -/

/-- The byte at an address; an unlisted address reads erased. -/
def flashGet : List (Nat × Byte) → Nat → Byte
  | [], _ => 0xFF
  | (b, v) :: t, a => if a = b then v else flashGet t a

/-- Set a byte, keeping the canonical form. -/
def flashSet : List (Nat × Byte) → Nat → Byte → List (Nat × Byte)
  | [], a, v => if v = 0xFF then [] else [(a, v)]
  | (b, w) :: t, a, v =>
    if a < b then (if v = 0xFF then (b, w) :: t else (a, v) :: (b, w) :: t)
    else if a = b then (if v = 0xFF then t else (a, v) :: t)
    else (b, w) :: flashSet t a v

/-- The canonical form: addresses strictly rising, and no byte equal to what an unlisted address reads as. -/
abbrev flashWf (l : List (Nat × Byte)) : Prop := l.Pairwise (fun x y => x.1 < y.1) ∧ ∀ x ∈ l, x.2 ≠ 0xFF

/-- Program bytes from an address: NOR flash only clears bits (R135). -/
def flashProgram (l : List (Nat × Byte)) (a : Nat) : List Byte → List (Nat × Byte)
  | [] => l
  | b :: bs => flashProgram (flashSet l a (flashGet l a &&& b)) (a + 1) bs

/-- Erase a 4 KiB sector (R135). -/
def flashErase (l : List (Nat × Byte)) (sector : Nat) : List (Nat × Byte) := l.filter fun x => x.1 / 4096 != sector

/-- n bytes from an address. -/
def flashRead (l : List (Nat × Byte)) (a : Nat) : Nat → List Byte
  | 0 => []
  | n + 1 => flashGet l a :: flashRead l (a + 1) n

/-! ## Ring geometry and free count (R365, R367) -/

/-- S, the record slots of the ring (R365). -/
def ringSlots (s : State) : Nat := (s.jnl.capacity - 8192) / 128

/-- The byte address of record i (R365). -/
def recordAddr (s : State) (i : Nat) : Nat := 8192 + i % ringSlots s * 128

/-- The ring size [MiB], rounded down (R365). -/
def ringMib (s : State) : Nat := (s.jnl.capacity - 8192) / 1048576

/-- The journal writer is in force: a provisioned device with journal flash available. -/
def jnlOn (s : State) : Bool := s.jnl.provisioned && s.jnl.flashOk

/-- F (R367), floored at 0. -/
def freeRecords (s : State) : Nat :=
  let n1 := match s.jnl.newest with | some n => n + 1 | none => 0
  let used := match s.jnl.coll with | some k => n1 - (k + 1) | none => n1
  ringSlots s - 64 - used

/-- L: ledger entries that are not yet recorded (R367). -/
def unrecorded (s : State) : Nat := (sheets s).countP fun e => e.2.recorded.isNone

/-- The full condition of admission and of journaled opcodes (R367). -/
def ringFull (s : State) : Bool := decide (freeRecords s < 64 + 2 * (unrecorded s + 1))

/-- What R176 answers before a journaled opcode: NO_RESOURCE 0x7F without flash, 0x7E without ring space;
`reserve` for CANCEL_SHEET and CLOSE_JOB, which draw on the 64-record reserve. -/
def journalRefusal (s : State) (reserve : Bool) : Option Res :=
  if !s.jnl.provisioned then none
  else if !s.jnl.flashOk then some (fail .noResource 0x7F)
  else if (if reserve then decide (freeRecords s < 2) else ringFull s) then some (fail .noResource 0x7E)
  else none

/-! ## Instructions to the flash (R136) -/

/-- Instructions to the journal flash, in order: code, address and data bytes of each. -/
def flashOps (s : State) (l : List (Nat × Nat × Nat)) : State :=
  l.foldl (fun s x => emit s (.flash (BitVec.ofNat 8 x.1) x.2.1 x.2.2)) s

/-- Instructions while a sector is being erased: the erase is suspended for them and resumed (R136, DEDUCED, log 112); one that
PWRFAIL_N has suspended stays so (R138). -/
def besideErase (s : State) (l : List (Nat × Nat × Nat)) : List (Nat × Nat × Nat) :=
  if s.jnl.erasing.isEmpty || s.sys.pwrFail then l else (0x75, 0, 0) :: l ++ [(0x7A, 0, 0)]

/-- A sector erase. -/
def eraseOps (sector : Nat) : List (Nat × Nat × Nat) := [(0x06, 0, 0), (0x21, 4096 * sector, 0), (0x05, 0, 1)]

/-- A page program of a number of bytes. -/
def programOps (addr count : Nat) : List (Nat × Nat × Nat) := [(0x06, 0, 0), (0x34, addr, count), (0x05, 0, 1)]

/-- JNL_LOW when F falls below 25 % of S (R381). -/
def lowCheck (s : State) : State :=
  let low := jnlOn s && decide (freeRecords s * 4 < ringSlots s)
  let s := if low && !s.jnl.lowRaised then raise s 0xA1 0 else s
  s.modJnl fun j => { j with lowRaised := low }

/-! ## Formation (R357, R358, R361..R363) -/

/-- U (R351): reserved serials not yet issued. -/
def unusedSerials (s : State) : Nat := s.jnl.high + 1 - s.jnl.next

/-- The 32-byte common header (R357). -/
def recordHeader (s : State) (type aux idx high : Nat) : List Byte :=
  leBytes 1 type ++ leBytes 1 1 ++ leBytes 1 (min 255 (unusedSerials s)) ++ leBytes 1 aux ++
  leBytes 4 s.jnl.boots ++ leBytes 8 idx ++ leBytes 8 (ppc s) ++ leBytes 8 high

/-- A seal that waits to be formed. -/
def sealRequest (ticket : Nat) : Unformed := ⟨0x04, 0, [], none, ticket, none, none, none⟩

/-- Formation of a SEAL record (R363, R364): it covers every record since the previous one; its signature and chain
hash come with SEAL_SIGNED. With no record to cover, none is formed (R207). A lost seal that is formed again names the number of
records that it named (R368, DEDUCED, log 111). -/
def formSeal (s : State) (u : Unformed) : State :=
  let idx := s.jnl.nextIdx
  let stage := fun (covered : Nat) (left : Nat) =>
    let r : Rec := ⟨idx, recordHeader s 0x04 (covered - 1) idx s.jnl.high ++ zeros 96, s.jnl.chain, none, u.ticket⟩
    s.modJnl fun j => { j with staged := j.staged ++ [r], nextIdx := idx + 1, unsealed := left, sealing := true }
  match u.raw with
  | some lost => stage (u8 lost 3 + 1) s.jnl.unsealed
  | none => if s.jnl.unsealed = 0 then s else stage s.jnl.unsealed 0

/-- A VOID record counts its serials and raises SER_VOID when it is formed (R379, R381). -/
def voidFormed (s : State) (u : Unformed) : State :=
  if u.type = 0x03 && u.raw.isNone then
    raise (s.modJnl fun j =>
      { j with voided := satAdd 32 j.voided (u64 u.payload 8 + 1 - u64 u.payload 0) }) 0xA4 u.aux
  else s

/-- The 256th record since the last seal asks for a seal (R363), ahead of every record that waits; behind a lost seal that is
formed again (R368). -/
def dueSeal : List Unformed → List Unformed
  | [] => [sealRequest 0]
  | u :: t => if u.type = 0x04 then (if u.raw.isNone then u :: t else u :: dueSeal t) else sealRequest 0 :: u :: t

/-- Formation of a record (R357, R358): the header, the payload and the chain hash; the 256th record since the last
seal asks for a seal (R363). The first RECIPE record of a group is remembered (R360). -/
def formOne (s : State) (u : Unformed) : State :=
  if u.type = 0x04 then formSeal s u
  else
    let idx := s.jnl.nextIdx
    let first := match u.raw with
      | some r => padTo 8 r ++ leBytes 8 idx ++ bytesAt r 16 80
      | none => recordHeader s u.type u.aux idx (u.high.getD s.jnl.high) ++ padTo 64 u.payload
    let prev := u.prev.getD s.jnl.chain
    let h := sha256Bits (hashBytes prev ++ first)
    let r : Rec := ⟨idx, first ++ hashBytes h, prev, u.sheet, u.ticket⟩
    let s := s.modJnl fun j =>
      { j with staged := j.staged ++ [r], nextIdx := idx + 1, chain := h, unsealed := j.unsealed + 1
               waiting := if j.unsealed + 1 = 256 then dueSeal j.waiting else j.waiting }
    let s := voidFormed s u
    if u.type = 0x08 && u.aux = 0 then s.modLed fun l => { l with recipeRecord := idx } else s

/-- Form what waits while the staging buffer has room and no seal is being signed (R361, R362). -/
def formReady : Nat → State → State
  | 0, s => s
  | fuel + 1, s =>
    match s.jnl.waiting with
    | [] => s
    | u :: rest =>
      if s.jnl.sealing || decide (32 ≤ s.jnl.staged.length) then s
      else formReady fuel (formOne (s.modJnl fun j => { j with waiting := rest }) u)

/-- Form as much as waits. -/
def formAll (s : State) : State := formReady (2 * s.jnl.waiting.length + 2) s

/-- The records formed while a seal is being signed: they stand in the staging buffer, and are chained after that seal
(R361, R362). -/
def formedHeld (s : State) : List Unformed :=
  if s.jnl.sealing then s.jnl.waiting.take (32 - s.jnl.staged.length) else []

/-- Whether the record of a ticket has been formed (R361, R362). -/
def ticketFormed (s : State) (t : Nat) : Bool :=
  !(s.jnl.waiting.any fun u => u.ticket == t) || (formedHeld s).any fun u => u.ticket == t

/-- The index of the record of a ticket that stands in the staging buffer: the one it has, or the one it gets in the order
of the chain behind the seal being signed (R358, R361). -/
def ticketIndex (s : State) (t : Nat) : Option Nat :=
  match s.jnl.staged.find? fun r => r.ticket == t with
  | some r => some r.idx
  | none => ((formedHeld s).findIdx? fun u => u.ticket == t).map (s.jnl.nextIdx + ·)

/-- A record for which the staging buffer has room while a seal is being signed has its header, its payload and what its
formation brings from now; only its index and its chain hash wait for the seal (R357, R361). -/
def stampHeld (u : Unformed) (s : State) : State × Unformed :=
  if s.jnl.sealing && decide (s.jnl.staged.length + s.jnl.waiting.length < 32) then
    (voidFormed s u,
     { u with raw := some (recordHeader s u.type u.aux 0 (u.high.getD s.jnl.high) ++ padTo 64 u.payload) })
  else (s, u)

/-- Ask for a record; it is formed at once when the buffer has room (R362), and not any more after PWRFAIL_N (R378). Without a
journal in force nothing is written. Tickets number the requests from 1; 0 is none. -/
def requestRecord (s : State) (u : Unformed) : State :=
  if jnlOn s then
    let x := stampHeld u s
    let t := x.1.modJnl fun j => { j with waiting := j.waiting ++ [{ x.2 with ticket := j.tickets + 1 }], tickets := j.tickets + 1 }
    if s.sys.pwrFail then t else formAll t
  else s

/-- A record of a type with its aux byte and payload. -/
def journal (s : State) (type aux : Nat) (payload : List Byte) : State :=
  requestRecord s ⟨type, aux, payload, none, 0, none, none, none⟩

/-- A seal is asked for (R363), unless one waits already or no record has been formed since the last (R207, R378). -/
def requestSeal (s : State) : State :=
  if !jnlOn s || s.sys.pwrFail || s.jnl.waiting.any (·.type == 0x04) || (s.jnl.unsealed == 0 && s.jnl.waiting.isEmpty) then s
  else formAll (s.modJnl fun j =>
    { j with waiting := j.waiting ++ [sealRequest (j.tickets + 1)], tickets := j.tickets + 1 })

/-- A pair of u64 fields: the payload of RESERVE, VOID and GAP records (R359). -/
def pairPayload (a b : Nat) : List Byte := leBytes 8 a ++ leBytes 8 b

/-- A reservation when U is 16 or less and none is in flight (R351). -/
def reserveCheck (s : State) : State :=
  if jnlOn s && s.jnl.anchored && s.jnl.inFlight.isNone && !s.sys.pwrFail && decide (unusedSerials s ≤ 16) then
    let b := s.jnl.high + 1
    requestRecord (s.modJnl fun j => { j with inFlight := some b })
      ⟨0x02, 0, pairPayload b (b + 63), none, 0, some (b + 63), none, none⟩
  else s

/-- The EVENT record of a raise (aux 0) or of an acknowledged alarm (aux 1) (R359, R517, R518). -/
def journalEvent (s : State) (aux src : Nat) (l : Level) (detail : Word) : State :=
  journal s 0x0B aux (leBytes 1 src ++ leBytes 1 l.toNat ++ zeros 2 ++ leBytes 4 detail.toNat)

/-- The COMMAND record of a journaled opcode (R359). -/
def journalCommand (s : State) (op : Nat) (st : Status) (c : Cmd) : State :=
  journal s 0x0A (Source.code c.src)
    (leBytes 1 op ++ leBytes 1 st.code ++ leBytes 2 c.tag.toNat ++ leBytes 4 c.seq.toNat ++ Cmd.tail c)

/-- Audited printing: a journaled step completes only once its record is durable (R176). -/
def audited (s : State) : Bool := s.led.audit

/-- The commit step of a journaled opcode: `s` has its effect and its record. In audited printing with the journal
in force the command parks until the record asked for last is durable (R176); in unaudited printing it parks only while
the staging buffer has no room for the record (R362). Otherwise it completes. -/
def journaled (before s : State) (r : Res) : Verdict :=
  if !jnlOn s || decide (s.jnl.tickets ≤ before.jnl.tickets) then .reply s r
  else if !ticketFormed s s.jnl.tickets then .park before .room none
  else if audited before || audited s then .park s (.record s.jnl.tickets) (some r)
  else .reply s r

end Sys2Proof.Machine
end

