-- ==== Sys2Proof/Machine/SheetOps.lean ====
section
/-!
DEFINITION. Shared operations on ledger entries: spoiling (R22, R385), abandonment of a sheet's bands (R286), Leaves
of a sheet (R230), completion and its SHEET record (R360, R394), and the freeing of an entry (R20).
-/

namespace Sys2Proof.Machine

/-- Bands of a sheet of L lines (R216). -/
def bandCount (l : Nat) : Nat := (l + 31) / 32

/-- The leaf key of a handle, station and band (R213). -/
def leafKey (handle : BitVec 16) (station band : Nat) : Word :=
  BitVec.ofNat 32 (handle.toNat * 16384 + station * 2048 + band)

/-- Raw length of band n of a sheet at a width (R216). -/
def rawLength (len width n : Nat) : Nat :=
  width / 2 * (if n + 1 < bandCount len then 32 else len - 32 * n)

/-- The handle, station and band fields of a leaf key (R213). -/
def keyHandle (k : Word) : BitVec 16 := BitVec.ofNat 16 (fieldOf k.toNat 14 16)
def keyStation (k : Word) : Nat := fieldOf k.toNat 11 3
def keyBand (k : Word) : Nat := fieldOf k.toNat 0 11

/-- The journal's word for a committed sheet's outcome (R360): 0 VALID, 1 SPOILED, 2 CANCELLED. -/
def Sheet.outcome (e : Sheet) : Nat := if e.cancel then 2 else if e.spoil.isSome then 1 else 0

/-- The writer of a spoil reason, in the order of R19's table (R289, R316, R347, R405): the sequencer, the Steep, a
beam-timing unit, a head pacer, the fault fabric. -/
def Spoil.writer : Spoil → Nat
  | .jam | .mainDrive | .stop | .divert | .duplex => 0
  | .steepVerify | .steepDeadline | .steepLost | .steepSlotRead => 1
  | .beamBd | .beamPhase | .beamInterlock => 2
  | .headTemp | .headOverspeed | .headStrobe | .headDuty | .headData | .headUnavailable => 3
  | .halt | .power | .clock | .encoder | .fenced => 4

/-- A spoil reason recorded on an entry in a cycle (R19, R22): the first is stored, later ones are counted; of two in one
cycle, the one whose writer comes first in the table is stored. -/
def Sheet.spoiled (e : Sheet) (now : Nat) (r : Spoil) : Sheet :=
  match e.spoil with
  | none => { e with spoil := some r, spoilCycle := now }
  | some q =>
    { e with spoil := if e.spoilCycle = now ∧ r.writer < q.writer then some r else some q, spoilMore := satAdd 16 e.spoilMore 1 }

/-- Spoil a committed, uncompleted sheet; when it is side A, its side B is spoiled with reason DUPLEX (R385). -/
def spoil (s : State) (i : Fin 512) (r : Spoil) : State :=
  match s.led.entries[i] with
  | none => s
  | some e =>
    if !e.open then s
    else
      let s := s.modSheet i fun e => e.spoiled s.now r
      if e.duplex != 1 || e.spoil.isSome then s
      else s.modLed fun l => { l with entries := l.entries.map fun o => o.map fun b =>
        if b.duplex == 2 && b.job == e.job && b.partner == e.handle && b.open then b.spoiled s.now .duplex else b }

/-- Spoil every sheet that satisfies a condition. -/
def spoilAll (s : State) (p : Sheet → Bool) (r : Spoil) : State :=
  (sheets s).foldl (fun s x => if x.2.open && p x.2 then spoil s x.1 r else s) s

/-! ## Leaves -/

/-- Whether a decode attempt on a Leaf is running (R230). -/
def attemptOn (s : State) (job key : Word) : Bool :=
  s.cdc.dec.any fun l => match l.assign with | some a => a.job == job && a.key == key | none => false

/-- Pages of one copy of a Leaf; a form-2 Leaf has none (R222). -/
def Leaf.pages (l : Leaf) : Nat := if l.form = 2 then 0 else (64 + l.bodyLen + 4095) / 4096

/-- Index of the channel of a Leaf's primary copy (R226). -/
def primaryChannel (key : Word) : Nat := (keyStation key + keyBand key) % 2

/-- The copy of a Leaf on channel c. -/
def Leaf.copyOn (l : Leaf) (c : Nat) : Copy := if c == primaryChannel l.key then l.primary else l.mirror

/-- Pages that a Leaf holds on channel c. -/
def Leaf.held (l : Leaf) (c : Nat) : Nat := if l.copyOn c == .absent then 0 else l.pages

/-- Pages in use by the Caddy on channel c. -/
def usedPages (s : State) (c : Nat) : Nat := (s.cad.leaves.map fun l => l.held c).sum

/-- Free pages of channel c: filled and not in use (R479); a channel that is not up has none. -/
def freeOn (s : State) (c : Fin 2) : Nat := if s.drc.ch[c].up then s.cad.filledPages - usedPages s c.1 else 0

/-- Free pages (R234). -/
def freePages (s : State) : Nat := freeOn s 0 + freeOn s 1

/-- Free space [MiB]. -/
def freeMib (s : State) : Nat := freePages s / 256

/-- Free the Leaves that satisfy a condition (R230): one on which an attempt runs is freed when that has ended. -/
def freeLeaves (s : State) (p : Leaf → Bool) : State :=
  let busy := fun (l : Leaf) => attemptOn s l.job l.key
  s.modCad fun c =>
    { c with leaves := (c.leaves.filter fun l => !p l || busy l).map fun l => if p l then { l with doomed := true } else l
             repairs := c.repairs.filter fun r => !(c.leaves.any fun l => p l && l.job == r.1 && l.key == r.2.1) }

/-- The Leaf of a job and key. -/
def findLeaf (s : State) (job key : Word) : Option Leaf := s.cad.leaves.find? fun l => l.job == job && l.key == key

/-! ## Abandonment (R286) -/

/-- Free a slot (R270, R280): it is retired when a slot-read error has been found in it. -/
def Slot.freed (x : Slot) : Slot :=
  { x with busy := false, owner := none, retired := x.retired || x.retiring, retiring := false }

/-- Slot.freed with the epoch advanced (R282). -/
def Slot.abandoned (x : Slot) : Slot := { x.freed with epoch := x.epoch + 1 }

/-- A sheet's bands that are not DONE go to DONE (R286): their slots are freed under an advanced epoch; bands that are
DONE leave the head of the sequence. -/
def SteepStation.abandon (st : SteepStation) (i : Fin 512) : SteepStation :=
  let mine := st.bands.filter fun b => b.sheet == i && b.state != .done
  { st with slots := mine.foldl (fun v b => match b.slot with | some k => updF v k Slot.abandoned | none => v) st.slots
            bands := (st.bands.map fun b => if b.sheet == i && b.state != .done then
              { b with state := .done, slot := none, waiting := false, deadline := none } else b).dropWhile (·.state == .done) }

/-- Slots of a station in service (R281). -/
def slotsInService (x : SteepStation) : Nat := x.slots.toList.countP fun k => !k.retired

/-- STP_SLOT_RETIRED for each slot that has been retired since `before` (R280), and STP_STATION_SLOTS for each station
that has fallen below 4 slots in service (R281). -/
def retireCheck (before s : State) : State :=
  (List.finRange 6).foldl (fun s k =>
    let old := before.stp.st[k]
    let new := s.stp.st[k]
    let s := (List.finRange 6).foldl (fun s n =>
      if new.slots[n].retired && !old.slots[n].retired then raise s 0x54 (6 * k.1 + n.1) else s) s
    if decide (slotsInService new < 4) && decide (4 ≤ slotsInService old) then raise s 0x56 k.1 else s) s

/-- Abandon every band of a sheet that is not DONE (R286): no outcome is written, and its Leaves are freed once no
attempt on them runs. -/
def abandon (s : State) (i : Fin 512) : State :=
  let keys := (s.stp.st.toList.map (·.bands)).flatten.filterMap fun b =>
    if b.sheet == i && b.state != .done then some (b.job, b.key) else none
  let before := s
  let s := retireCheck before (s.modStp fun x => { x with st := x.st.map fun y => y.abandon i })
  freeLeaves s fun l => keys.any fun k => k.1 == l.job && k.2 == l.key

/-- The heads forget a sheet: its lines leave the FIFO, and a head that fires one of its fields goes back to IDLE. -/
def headsForget (s : State) (i : Fin 512) : State :=
  { s with hdp := s.hdp.map fun (h : Head) =>
      let h := if h.fifoFor.any fun f => f.1 == i then { h with fifo := [], fifoFor := none } else h
      if h.field.any fun f => f.1 == i then
        { h with field := none, delay := [], state := if h.state == .marking then .idle else h.state }
      else h }

/-- Cancel the fire instants of a sheet's mark fields that have not begun, and end those that have (R401, R403). -/
def cancelMarks (s : State) (i : Fin 512) : State :=
  headsForget (s.modSheet i fun e => { e with marks := e.marks.map fun m =>
    if m.kind == 0 || m.run == .done then m else { m with run := .done, missed := true } }) i

/-! ## Completion (R394) and the SHEET record (R360) -/

/-- Bands of an entry with an outcome. -/
def Sheet.count (e : Sheet) (p : Outcome → Bool) : Nat := e.outcomes.countP fun o => p o.2.2
def Sheet.mirrors (e : Sheet) : Nat := e.count (· == .mirror)
def Sheet.exposedBlank (e : Sheet) : Nat := e.count fun o => o == .blank
def Sheet.blanks (e : Sheet) : Nat := e.count fun o => o == .blank || o == .slotRead

/-- The payload of a SHEET record (R360). -/
def sheetPayload (i : Fin 512) (e : Sheet) : List Byte :=
  let heads := (List.range 4).map fun k => match e.marks[k]? with
    | some m => if m.kind == 0 then 0xFF else if m.fired == 0 then 0xFE else m.by_
    | none => 0xFF
  let done := ((List.range 4).map fun k => match e.marks[k]? with
    | some m => if m.kind != 0 && m.run == .done && !m.missed then 2 ^ k else 0
    | none => 0).sum
  leBytes 8 e.serial ++ leBytes 4 e.job.toNat ++ leBytes 2 e.handle.toNat ++ leBytes 1 e.outcome ++
  leBytes 1 (match e.spoil with | some r => r.code | none => 0) ++ leBytes 2 e.spoilMore ++
  leBytes 1 e.mask.toNat ++ leBytes 1 e.media ++ leBytes 2 e.mirrors ++ leBytes 2 e.blanks ++
  leBytes 8 (if e.gated then e.t.getD 0 else 0) ++ (heads.map fun h => BitVec.ofNat 8 h) ++ leBytes 1 done ++
  leBytes 1 (e.route.getD 0xFF) ++ leBytes 2 i.1 ++ leBytes 4 e.recipeIdx ++ leBytes 4 e.digest.toNat ++
  leBytes 4 e.length ++ leBytes 4 e.ordinal

/-- The history entry of a sheet (R190). -/
def Sheet.past (e : Sheet) : Past :=
  { job := e.job, handle := e.handle, cancelled := e.state != .completed, spoil := e.spoil
    spoiled := e.spoil.isSome, serial := e.serial, mirror := e.mirrors, blank := e.exposedBlank, recorded := e.recorded }

/-- The sheet sequencer owns the polygon motor of every station that a committed sheet names (R194). -/
def ownPolygons (s : State) : State :=
  let named := fun (k : Nat) => s.led.entries.toList.any fun o => match o with | some e => e.open && e.mask.getLsbD k | none => false
  s.modMot fun m => { m with ch := m.ch.mapFinIdx fun k x _ => if decide (k < 6) && named k then { x with owned := true } else x }

/-- Units the sheet sequencer owns are released when the ledger holds no committed sheet (R194); a geared axis then
decelerates (R417). -/
def releaseUnits (s : State) : State :=
  if s.led.entries.toList.any fun o => match o with | some e => e.open | none => false then s
  else
    let s := s.modSeq fun q => { q with own := false }
    let s := { s with axs := s.axs.map fun (a : Axis) =>
      if a.owned && a.state == AxisState.geared then { a with owned := false, state := AxisState.stopping, gearLock := none, move := none }
      else { a with owned := false } }
    s.modMot fun m => { m with ch := m.ch.map fun (c : Motor) => { c with owned := false } }

/-- Free a ledger entry (R20): its Leaves are freed (R230) and its history is kept (R190). -/
def freeEntry (s : State) (i : Fin 512) : State :=
  match s.led.entries[i] with
  | none => s
  | some e =>
    let s := s.modLed fun l => { l with entries := l.entries.set i.1 none i.2
                                        history := (e.past :: l.history).take 4096 }
    freeLeaves (headsForget s i) fun l => l.job == e.job && keyHandle l.key == e.handle

/-- The recorded field of an entry is set, by its durable SHEET record or, for a sheet without one, at completion
(R19, R352, R362); the entry is freed (R20). -/
def setRecorded (s : State) (i : Fin 512) (idx : Option Nat) : State :=
  freeEntry (s.modSheet i fun e => { e with recorded := idx }) i

/-- The SHEET record of a completed or cancelled sheet (R352, R360, R361). -/
def recordSheet (s : State) (i : Fin 512) : State :=
  match s.led.entries[i] with
  | none => s
  | some e =>
    if e.serial = 0 || !jnlOn s then setRecorded s i none
    else requestRecord (s.modSheet i fun e => { e with formed := true })
      ⟨0x01, 0, sheetPayload i e, some i, 0, none, none, none⟩

/-- The count of consecutive overspeed spoils (R339). -/
def overspeedRun (s : State) (i : Fin 512) (e : Sheet) : State :=
  if e.spoil != some .headOverspeed then s.modSeq fun q => { q with ovsRun := 0 }
  else
    let n := s.seq.ovsRun + 1
    let s := s.modSeq fun q => { q with ovsRun := min 9 n }
    if n != 9 then s
    else match e.overHead with
      | some h => raise s (0x91 + 2 * h.1) (0x05 + 65536 * (if s.hdp[h].lastDrop.2 == i.1 then s.hdp[h].lastDrop.1 else 0))
      | none => s

/-- Completion of a sheet (R394): the state, the counters of the sequencer and of the job, SEQ_SHEET_DONE, and the
SHEET record. -/
def completeSheet (s : State) (i : Fin 512) : State :=
  match s.led.entries[i] with
  | none => s
  | some e =>
    if !e.open then s
    else
      let bad := e.spoil.isSome
      let s := s.modSheet i fun e => { e with state := .completed, windows := [] }
      let s := s.modSeq fun q => { q with done := inc32 q.done, spoiled := if bad then inc32 q.spoiled else q.spoiled }
      let s := s.modLed fun l => { l with jobs := updFirst (·.id == e.job) (fun j =>
        if e.cancel then { j with cancelled := j.cancelled + 1 }
        else if bad then { j with spoiled := j.spoiled + 1 } else { j with valid := j.valid + 1 }) l.jobs }
      let s := overspeedRun s i e
      let s := raise s 0xB0 ((if bad then 0x30 else 0) +
        256 * (match e.spoil with | some r => r.code | none => 0) + 65536 * i.1)
      releaseUnits (recordSheet s i)

/-- A picked or committed sheet completes spoiled where it stands (R401, R403): its bands are abandoned, its fire
instants cancelled, and its route is its spoil destination. -/
def completeSpoiled (s : State) (i : Fin 512) (r : Spoil) : State :=
  let s := spoil s i r
  let s := cancelMarks (abandon s i) i
  completeSheet (s.modSheet i fun e => { e with route := some e.spoilDest }) i

/-! ## What follows when sheets have gone -/

/-- The sheets whose exposure at a station is incomplete (R83, R316, R510): committed, naming the station, with a
band in its sequence. -/
def exposureOpen (s : State) (k : Nat) (e : Sheet) (i : Fin 512) : Bool :=
  e.open && e.mask.getLsbD k && (match s.stp.st.toList[k]? with | some st => st.bands.any (fun b => b.sheet == i && b.state != .done) | none => false)

/-- Spoil every sheet whose exposure at station k is incomplete. -/
def spoilStation (s : State) (k : Nat) (r : Spoil) : State :=
  (sheets s).foldl (fun s x => if exposureOpen s k x.2 x.1 then spoil s x.1 r else s) s

/-- Spoil every sheet whose marks at a head are incomplete (R336, R342). -/
def spoilHead (s : State) (h : Nat) (r : Spoil) : State :=
  (sheets s).foldl (fun s x =>
    if x.2.open && x.2.marks.any fun m => m.kind != 0 && m.by_ == h && m.run != .done then spoil s x.1 r else s) s

end Sys2Proof.Machine
end

