-- ==== Sys2Proof/Machine/CodecOps.lean ====
section
/-!
DEFINITION. Shared operations of the codec lanes (R236..R269) and of the commands that are parked on hardware (R157).
-/

namespace Sys2Proof.Machine

/-! ## Parked commands (R157, R165) -/

/-- Parked command k leaves its place with a reply; a run-to-end command whose deadline had expired replies with LATE
and raises KTL_LATE (R165). -/
def finishParked (s : State) (k : Nat) (r : Reply) : State :=
  match s.ktl.parked[k]? with
  | none => s
  | some p =>
    let s := s.modKtl fun x => { x with parked := x.parked.eraseIdx k }
    let s := if p.late then raise s 0x13 p.op.toNat else s
    deliver s p.cmd p.fate (if p.late then { r with late := true } else r)

/-! ## Lanes -/

/-- The number of a lane state (R268). -/
def LaneState.code : LaneState → Nat
  | .gated => 0 | .test => 1 | .idle => 2 | .steep => 3 | .ingest => 4 | .run => 5 | .fenced => 6

/-- The lane of a name, and an update of it. -/
def laneAt (s : State) : LaneId → Lane
  | .dec n => s.cdc.dec[n]
  | .enc n => s.cdc.enc[n]
def modLane (s : State) (id : LaneId) (g : Lane → Lane) : State :=
  match id with
  | .dec n => s.modDec n g
  | .enc n => s.modEnc n g

/-- A lane's source (R269), and its number in a CODEC_RUN packet (R208). -/
def laneSource : LaneId → Nat
  | .dec n => 0x30 + n.1
  | .enc n => 0x40 + n.1
def laneNumber : LaneId → Nat
  | .dec n => n.1
  | .enc n => 16 + n.1

/-- A lane cause is raised (R269) with the lane's state. -/
def laneRaise (s : State) (id : LaneId) (cause : Nat) : State :=
  let st := (laneAt s id).state.code
  raise (modLane s id fun l => { l with lastCause := cause }) (laneSource id) (cause + 256 * st)

/-- A lane whose raise is still on its way to the fabric, which may fence it (R509): it takes no new work. -/
def laneSuspect (s : State) (id : LaneId) : Bool := s.flt.inbox.any fun r => r.src.1 == laneSource id

/-- A lane loses its power (R262, R264): what it holds goes, and a fence in force stays. -/
def Lane.gated (l : Lane) : Lane :=
  { l with state := .gated, saved := none, periodic := false, assign := none, testDue := false, periodicDue := false
           gateDue := false }

/-- A status code that stands in LAST_OUTCOME of an encode lane; a decode lane shows attempt outcomes there (R268). -/
def Lane.noted (id : LaneId) (st : Status) (l : Lane) : Lane :=
  match id with
  | .dec _ => l
  | .enc _ => { l with lastOutcome := st.code }

/-- Work has ended (R264): the lane goes idle, or runs the test that a strike has made due (R266); a fenced lane stays
as it is. -/
def Lane.ended (l : Lane) : Lane :=
  if l.state == .fenced || l.state == .gated then { l with assign := none }
  else if l.gateDue then Lane.gated l
  else if l.testDue then { l with state := .test, periodic := false, testDue := false, assign := none }
  else if l.periodicDue then { l with state := .test, periodic := true, periodicDue := false, assign := none }
  else { l with state := .idle, assign := none }

/-- A lane free for new work (R276): idle and unfenced. -/
def Lane.isIdle (l : Lane) : Bool := l.state == .idle && !l.fence
/-- A lane in a periodic test, which new work abandons (R264, R276). -/
def Lane.inPeriodic (l : Lane) : Bool := l.state == .test && l.periodic && !l.fence

/-- The order in which lanes are taken (R262, R276): idle without saved state, idle with it, in a periodic test
without it, in a periodic test with it; among equals the first of the list. -/
def chooseLane {α : Type} (cands : List α) (get : α → Lane) : Option α :=
  match cands.find? fun x => (get x).isIdle && (get x).saved.isNone with
  | some x => some x
  | none => match cands.find? fun x => (get x).isIdle with
    | some x => some x
    | none => match cands.find? fun x => (get x).inPeriodic && (get x).saved.isNone with
      | some x => some x
      | none => cands.find? fun x => (get x).inPeriodic

/-- The lane takes work: its saved state is discarded (R262), and a periodic test abandoned. -/
def Lane.taken (l : Lane) (new : LaneState) : Lane :=
  { l with state := new, saved := none, periodic := false, attempts := inc32 l.attempts }

/-- The parked CODEC_RUN of a lane. -/
def runOf (s : State) (id : LaneId) : Option Nat :=
  s.ktl.parked.findIdx? fun p => p.op == 0x78 && Cmd.p8 p.cmd 16 == laneNumber id

/-- A running CODEC_RUN ends with its saved state discarded: FENCED, or PARTIAL on entry to STANDBY (R263). -/
def cutRun (s : State) (id : LaneId) (r : Res) : State :=
  let s := modLane s id fun l => Lane.noted id r.status
    { l with saved := none, fails := if r.status == .partially then l.fails else inc32 l.fails }
  match runOf s id with
  | none => s
  | some k => match s.ktl.parked[k]? with
    | some p => finishParked s k (r.reply p.cmd)
    | none => s

/-- Unfenced lanes of a pool. -/
def unfenced (l : List Lane) : Nat := l.countP fun x => !x.fence

/-- CDC_DEC_POOL and CDC_ENC_POOL, when a fence makes their condition true (R269). -/
def poolCheck (before s : State) : State :=
  let s := if decide (unfenced s.cdc.dec.toList < 8) && decide (8 ≤ unfenced before.cdc.dec.toList) then raise s 0x4C 0 else s
  if unfenced s.cdc.enc.toList == 0 && unfenced before.cdc.enc.toList != 0 then raise s 0x4D 0 else s

/-! ## Attempts (R243..R246) -/

/-- An attempt report (R246). -/
structure AttemptReport where
  epoch : BitVec 8
  outcome : Nat
  rawBytes : Nat
  bodyBytes : Nat
  rawCrc : Word
  flags : Nat
  deriving DecidableEq, Repr

/-- What a lane makes of a Leaf copy (R240, R243): the bytes it writes, the body bytes it consumes, and the decoder's
error. -/
def leafDecoded (l : Leaf) : List Byte × Nat × Nat :=
  if l.form = 1 then
    let i := inflate l.body l.rawLen l.rawLen
    (i.out.toList, min l.body.length ((i.pos + 7) / 8), i.err)
  else if l.form = 2 then (zeros l.rawLen, 0, 0)
  else (l.body, l.body.length, 0)

/-- The flags of a report (R244, R246): bit 0 the raw CRC differs, bit 1 the body CRC. -/
def crcFlags (l : Leaf) (raw : List Byte) : Nat :=
  bit (crc32c raw != l.rawCrc) + 2 * bit ((if l.form = 2 then 0 else crc32c l.body) != l.bodyCrc)

/-- The data and the report of decoding a Leaf copy to its end (R243, R244, R246). -/
def attemptData (l : Leaf) (epoch : BitVec 8) : List Byte × AttemptReport :=
  let r := leafDecoded l
  let flags := crcFlags l r.1
  let outcome := if r.2.2 != 0 then r.2.2 else if r.1.length != l.rawLen then 6 else if flags != 0 then 8 else 0
  (r.1, { epoch := epoch, outcome := outcome, rawBytes := r.1.length, bodyBytes := r.2.1, rawCrc := crc32c r.1, flags := flags })

/-! ## CODEC_RUN packets (R208) -/

def runLane (c : Cmd) : Nat := Cmd.p8 c 16
def runOp (c : Cmd) : Nat := Cmd.p8 c 17
def runFlags (c : Cmd) : Nat := Cmd.p8 c 19
def runSourceLen (c : Cmd) : Nat := Cmd.p32 c 28
def runDest (c : Cmd) : Nat := Cmd.p64 c 32
def runDestLen (c : Cmd) : Nat := Cmd.p32 c 40
def runCrc (c : Cmd) : Nat := Cmd.p32 c 44
def runParam (c : Cmd) : Nat := Cmd.p32 c 48

/-- The packet of the start whose run a lane holds. -/
def startOf (c : Cmd) (v : Saved) : Cmd := { c with params := v.start }

/-- How far a running call has come when it is stopped in the middle (R209, R263): the bytes it has written, the state
it leaves and its result. Host memory is no part of the machine, and how far the call came is timing: the bytes that it has
read and those that an encode has emitted are free values (log 83). -/
def codecSoFar (s : State) (id : LaneId) (c : Cmd) (v : Saved) : List Byte × Saved × Res :=
  let st := startOf c v
  let read := (Config.freeWord s.free).toNat % (runSourceLen st - v.source.length + 1)
  let source := v.source ++ (List.range read).map (Config.freeByte s.free)
  match id with
  | .dec _ =>
    let i := inflate source (runParam st) (v.delivered + runDestLen c)
    let out := i.out.toList
    let used := min source.length ((i.pos + 7) / 8)
    let new := out.drop v.delivered
    (new, { v with source := source, delivered := v.delivered + new.length },
      { status := .partially, w0 := used, w1 := new.length, w3 := (crc32c out).toNat, w4 := (crc32c (source.take used)).toNat })
  | .enc _ =>
    let made := (Config.freeWord (s.free + 1)).toNat % (runDestLen c + 1)
    let new := (List.range made).map (Config.freeByte (s.free + 1))
    let pending := (Config.freeWord (s.free + 2)).toNat % 64
    let emitted := v.emitted ++ new
    (new, { v with source := source, emitted := emitted, pending := pending, delivered := v.delivered + made },
      { status := .partially, w0 := source.length, w1 := made, w2 := pending, w3 := (crc32c source).toNat
        w4 := (crc32c emitted).toNat })

/-- Entry to STANDBY ends a running CODEC_RUN with PARTIAL (R263): what the call has written stands. -/
def standbyRun (s : State) (id : LaneId) : State :=
  match (laneAt s id).saved, (runOf s id).bind fun k => s.ktl.parked[k]? with
  | some v, some p =>
    let x := codecSoFar s id p.cmd v
    let s := { s with free := s.free + 3 }
    cutRun (if x.1.isEmpty then s else emit s (.write (BitVec.ofNat 64 (runDest p.cmd)) x.1)) id x.2.2
  | _, _ => cutRun s id { status := .partially }

end Sys2Proof.Machine
end

