-- ==== Sys2Proof/Machine/SteepOps.lean ====
section
/-!
DEFINITION. Shared operations of the Steep (R270..R291): lead and sequence, verified lead and panic, entry to BLANK,
and what a fence of a decode lane does to its attempt.
-/

namespace Sys2Proof.Machine

/-- Update band b of station k. -/
def modBand (s : State) (k : Fin 6) (b : Nat) (g : Band → Band) : State :=
  s.modSteep k fun x => { x with bands := updAt g b x.bands }

/-- The lead a band runs at (R281): at most the slots in service less 2. -/
def leadOf (x : SteepStation) (b : Band) : Nat := min b.lead (slotsInService x - 2)

/-- A band that has not begun exposure. -/
def Band.before (b : Band) : Bool := b.state != .exposing && b.state != .done

/-- The first band of a station that has not begun exposure, and the count of consecutive VERIFIED bands from it
(R287). -/
def verifiedLead (x : SteepStation) : Nat × Option Band :=
  let rest := x.bands.dropWhile fun b => !b.before
  ((rest.takeWhile fun b => b.state == .verified).length, rest.head?)

/-- A station below its panic level (R287). -/
def belowPanic (x : SteepStation) : Bool :=
  let v := verifiedLead x
  match v.2 with
  | some b => b.deadline.isSome && decide (v.1 < leadOf x b - 1)
  | none => false

/-- Panic begins and ends (R287, R290): STP_PANIC names the lowest station below its level. -/
def panicUpdate (s : State) : State :=
  let now := s.stp.st.any belowPanic
  if now && !s.stp.panic then
    let k := (List.range 6).find? fun k => belowPanic (getN s.stp.st k {})
    raise (s.modStp fun x => { x with panic := true, panicFrom := s.now }) 0x55 (k.getD 0)
  else if !now && s.stp.panic then
    s.modStp fun x => { x with panic := false, panicTime := x.panicTime + (s.now - x.panicFrom) }
  else s

/-- A decode attempt on a Leaf has ended: the Leaf is freed now when an event of R230 came during it. -/
def attemptOver (s : State) (job key : Word) : State :=
  if attemptOn s job key then s
  else s.modCad fun c => { c with leaves := c.leaves.filter fun l => !(l.doomed && l.job == job && l.key == key) }

/-- A band enters BLANK (R279): the slot's epoch advances, the reason is recorded, STP_BLANK is raised with the second
attempt's outcome. -/
def blankBand (s : State) (k : Fin 6) (i : Nat) (r : Spoil) (outcome : Nat) : State :=
  match s.stp.st[k].bands[i]? with
  | none => s
  | some b =>
    let s := s.modSteep k fun x => { x with
      slots := match b.slot with
        | some n => updF x.slots n fun y => { y with epoch := y.epoch + 1, owner := none }
        | none => x.slots
      bands := updAt (fun b => { b with state := .blank, waiting := false, outcome := some .blank }) i x.bands }
    let s := spoil (s.modStp fun x => { x with lastKey := b.key }) b.sheet r
    panicUpdate (raise s 0x51 (outcome + 256 * r.code + 65536 * b.band + 2 ^ 27 * k.1))

/-- The band of an assignment, when the slot still carries the assignment's epoch and owner (R278, R282). -/
def currentBand (s : State) (lane : Fin 16) (a : Assign) : Option Nat :=
  let x := s.stp.st[a.station]
  let y := x.slots[a.slot]
  if y.epoch == a.epoch && y.owner == some lane then
    x.bands.findIdx? fun b => b.slot == some a.slot && b.state != .done
  else none

/-- The attempt of a lane is to move to another lane (R284). -/
def migrateFrom (s : State) (lane : Fin 16) : State :=
  match s.cdc.dec[lane].assign with
  | none => s
  | some a =>
    let s := match currentBand s lane a with
      | some i => modBand s a.station i fun (b : Band) =>
          if b.state == BandState.decode1 || b.state == BandState.decode2 then { b with waiting := true, migrating := true } else b
      | none => s
    attemptOver (s.modDec lane fun l => { l with assign := none }) a.job a.key

/-- The report of an assignment whose epoch or owner has changed (R283): it is discarded, and so are the words it still
wrote; how many came after the change is open (log 40). -/
def staleReport (s : State) (written : Nat) : State :=
  let late := (Config.freeWord s.free).toNat % (written / 8 + 1)
  s.drawn.modStp fun x => { x with stale := satAdd 32 x.stale (late + 1) }

/-- Bands of every sheet that is still in a sequence are abandoned on entry to HALT (R286), and panic ends with them
(R287). -/
def abandonAll (s : State) : State :=
  panicUpdate ((sheets s).foldl (fun s x => if x.2.open then abandon s x.1 else s) s)

end Sys2Proof.Machine
end

