-- ==== Sys2Proof/Machine/BeamOps.lean ====
section
/-!
DEFINITION. Shared operations of the beam-timing units (R292..R318) and of their pixel synthesizers: fields of the
STATION recipe (R301), and the ways a station loses its lock.
-/

namespace Sys2Proof.Machine

/-- The number of a lock state (R317). -/
def Lock.code : Lock → Nat
  | .off => 0 | .synth => 1 | .spin => 2 | .search => 3 | .ident => 4 | .pullIn => 5 | .locked => 6 | .slew => 7

/-! ## STATION recipe fields (R301) -/

def stFacets (b : List Byte) : Nat := u8 b 0x000
def stSigOn (b : List Byte) : Bool := bitOf (u8 b 0x003) 0
def stNbd (b : List Byte) : Nat := u32 b 0x004
def stStart (b : List Byte) : Nat := u16 b 0x008
def stBdBeam (b : List Byte) : Nat := u8 b 0x001
def stBdPre (b : List Byte) : Nat := u16 b 0x00A
def stBdPost (b : List Byte) : Nat := u16 b 0x00C
def stApcStart (b : List Byte) : Nat := u16 b 0x00E
def stApcLen (b : List Byte) : Nat := u16 b 0x010
def stSlew (b : List Byte) : Nat := u16 b 0x012
def stRegOffset (b : List Byte) : Nat := u32 b 0x014
def stFrac (b : List Byte) : Nat := u32 b 0x018 % 2 ^ 24
def stInt (b : List Byte) : Nat := u16 b 0x01C
def stDiv (b : List Byte) : Nat := u8 b 0x01E
def stLdcCmd (b : List Byte) : Nat := u8 b 0x01F % 16
def stSeed (b : List Byte) : Nat := u32 b 0x020
def stTone (b : List Byte) (k : Nat) : Nat := u8 b (0x030 + k)
def stPhase (b : List Byte) (k : Nat) : Int := i16 b (0x040 + 2 * k)
def stSig (b : List Byte) (k : Nat) : Nat := u32 b (0x060 + 4 * k)
def stOffset (b : List Byte) (k : Nat) : Int := i16 b (0x090 + 2 * k)
def stMag (b : List Byte) (k : Nat) : Int := i8 b (0x0B0 + k)
def stBow (b : List Byte) (k : Nat) : Int := i8 b (0x0E0 + k)
def stApcSet (b : List Byte) (k : Nat) : Nat := u16 b (0x110 + 2 * k)
def stLevelMin (b : List Byte) : Nat := u16 b 0x130
def stLevelMax (b : List Byte) : Nat := u16 b 0x132
def stLevelInit (b : List Byte) : Nat := u16 b 0x134

/-! ## Pixel synthesizers (R79..R82) -/

/-- Edges of row k of the VCO band table of a CLOCK body [MHz]. -/
def bandLow (b : List Byte) (k : Nat) : Nat := u16 b (0x040 + 12 * k)
def bandHigh (b : List Byte) (k : Nat) : Nat := u16 b (0x042 + 12 * k)

/-- f_vco × 2^24 / 25 MHz at zero trim (R79). -/
def vcoWord (b : List Byte) : Nat := stInt b * 2 ^ 24 + stFrac b

/-- Some band of the CLOCK body contains f_vco at zero trim; the lowest such (R81). -/
def bandFor (clock station : List Byte) : Option Nat :=
  let f := 25 * vcoWord station
  (List.range 32).find? fun k => decide (bandLow clock k * 2 ^ 24 ≤ f) && decide (f ≤ bandHigh clock k * 2 ^ 24)

/-- The temperature column nearest at or below a die temperature (R81): −40 °C is column 0, 20 °C apart. -/
def columnOf (temp : Int) : Nat := (clampI 0 7 (Int.fdiv (temp + 160) 80)).toNat

/-- Whether the die temperature is more than 2 °C beyond a column's range (R81); the outer columns have no outer end. -/
def columnLeft (col : Nat) (temp : Int) : Bool :=
  let low : Int := 80 * (col : Int) - 160
  (decide (0 < col) && decide (temp < low - 8)) || (decide (col < 7) && decide (low + 80 + 8 < temp))

/-- The die temperature that compensations use: while the sensor is broken, the last good sample (R540). -/
def compTemp (s : State) : Int := if s.tmp.broken then s.tmp.good else s.tmp.temp

/-- The capacitor code of a band and column (R81, R187). -/
def capCode (clock : List Byte) (band col : Nat) : Nat := u8 clock (0x44 + 12 * band + col)

/-- A synthesizer starts with a STATION body's setting (R79, R80, R81). -/
def startSynth (s : State) (k : Fin 6) (b : List Byte) : State :=
  let band := (bandFor (clockBody s) b).getD 0
  let col := columnOf (compTemp s)
  let cap := capCode (clockBody s) band col
  s.modSynth k fun x => { x with
    en := true, locked := false, frac := stFrac b, int := stInt b, div := stDiv b, band := band, column := col
    cap := cap, seed := stSeed b, changeDue := false, trim := 0, trimFacet := 0
    lfsr := BitVec.ofNat 32 (stSeed b), mash := (0, 0, 0), carries := (0, 0, 0), modOut := 0 }

/-- A due column or band change is applied (R82): the synthesizer relocks. -/
def changeSynth (s : State) (k : Fin 6) : State :=
  let b := stationBody s k.1
  let band := (bandFor (clockBody s) b).getD 0
  let col := columnOf (compTemp s)
  let cap := capCode (clockBody s) band col
  s.modSynth k fun x => if x.en && x.changeDue then
    { x with band := band, column := col, cap := cap, changeDue := false, locked := false } else x

/-- The sigma-delta modulator for one reference cycle (R80): a MASH 1-1-1 of three 24-bit accumulators on FRAC, whose least
significant bit takes the dither bit of the LFSR while the seed is not 0. The accumulators start from 0, the LFSR shifts right
and its dither bit is the one shifted out (log 100). -/
def Synth.refCycle (x : Synth) : Synth :=
  let dither := if x.seed = 0 then 0 else x.lfsr.toNat % 2
  let a := x.mash.1 + (x.frac + dither)
  let b := x.mash.2.1 + a % 2 ^ 24
  let c := x.mash.2.2 + b % 2 ^ 24
  let carry := fun (n : Nat) => (n / 2 ^ 24 : Nat)
  let out : Int := Int.ofNat (carry a) + (Int.ofNat (carry b) - x.carries.1) + (Int.ofNat (carry c) - 2 * x.carries.2.1 + x.carries.2.2)
  { x with
    lfsr := if x.seed = 0 then x.lfsr else (x.lfsr >>> 1) ^^^ (if x.lfsr.getLsbD 0 then 0x80200003#32 else 0)
    mash := (a % 2 ^ 24, b % 2 ^ 24, c % 2 ^ 24), carries := (carry b, carry c, x.carries.2.1), modOut := out }

/-- One REFCLK cycle of every running synthesizer (R80): each eighth XCLK cycle, while there is a reference. -/
def synthCycle (s : State) : State :=
  if s.now % 8 != 0 || !s.clk.refOk then s
  else s.modClk fun c => { c with px := c.px.map fun (x : Synth) => if x.en then x.refCycle else x }

/-! ## Loss of lock -/

/-- Outside facet operation the trim is 0 (R79). -/
def noTrim (s : State) (k : Fin 6) : State := s.modSynth k fun x => { x with trim := 0, trimFacet := 0 }


/-- The station's synthesizer stops (R312): DIV reads 0 while stopped (R96). -/
def stopSynth (s : State) (k : Fin 6) : State :=
  s.modSynth k fun x => { x with en := false, locked := false, div := 0, changeDue := false }

/-- A station goes to OFF: LDEN low, FACETS 0; the polygon is left running. -/
def stationOff (s : State) (k : Fin 6) (withSynth : Bool) : State :=
  let s := (noTrim s k).modBtu k fun x => { x with
    lock := .off, lden := false, facets := 0, sigOk := false, goodRun := 0, badRun := 0
    periods := [], identScans := [], identRounds := 0, missRun := 0, forced := 0, bdsAt := none, bdeAt := none, ldcLate := [] }
  if withSynth then stopSynth s k else s

/-- STATION_LOCK release (R312) also puts the laser-power slots in off (R467). -/
def releaseStation (s : State) (k : Fin 6) : State :=
  (stationOff s k true).modCtl fun c => { c with loops := c.loops.mapFinIdx fun n l _ =>
    if n / 16 == k.1 && n < 96 && l.en && entKind (loopEntry (loopsBody s) l.entry) == 3 then l.toOff else l }

/-! ## Times in a facet (R294, R309) -/

/-- The mean of the last 16 measured facet periods [ps]; 0 without one. -/
def meanFacet (x : Station) : Nat := x.periods.sum / x.periods.length

/-- A number of pixel periods at zero trim [ps] (R79). -/
def pixelsPs (b : List Byte) (n : Nat) : Nat := n * stDiv b * 2 ^ 24 * 40000 / vcoWord b

/-- The mean of the last 16 scan times of the present facet [ps]; before its first, N_BD pixel periods (DEDUCED, log 113). -/
def meanScan (b : List Byte) (x : Station) : Nat :=
  let l := getN x.scans x.facet []
  if l.isEmpty then pixelsPs b (stNbd b) else l.sum / l.length

/-- The time [ps], in XCLK cycles of 5 ns. -/
def timePs (s : State) : Nat := 5000 * s.now

/-- The predicted time of the next BDS [ps] (R294). -/
def predictedBds (x : Station) : Option Nat :=
  match x.bdsAt with
  | some t => if x.periods.isEmpty then none else some (5000 * t + meanFacet x)
  | none => none

/-- The lock states in which facets are counted and the windows of R294 are open: IDENT to SLEW. -/
def Lock.scanning : Lock → Bool
  | .ident | .pullIn | .locked | .slew => true
  | _ => false

/-- Whether the BD beam is forced on (R294, R312): in SEARCH continuously, then in the window about the predicted BDS, and from
the end of the last pixel of a line of 49,152 until BDE or the end of its window. -/
def bdBeamOn (b : List Byte) (x : Station) (now : Nat) : Bool :=
  x.lock == .search || x.lock.scanning &&
    ((match predictedBds x with
      | some p => decide (p ≤ now + 1000 * stBdPre b) && decide (now < p + 1000 * stBdPost b)
      | none => false) ||
     (match x.bdsAt, x.bdeAt with
      | some t, none => decide (5000 * t + pixelsPs b (stStart b + 49152) ≤ now) &&
          decide (now < 5000 * t + meanScan b x + 1000 * stBdPost b)
      | _, _ => false))

/-- The APC beam: that of the facet count (R309). -/
def apcBeam (x : Station) : Fin 16 := Fin.ofNat 16 x.facetCount

/-- Whether the APC beam is forced on (R309): from BDE + APC_START for APC_LEN. -/
def apcBeamOn (b : List Byte) (x : Station) (now : Nat) : Bool :=
  x.lock.scanning && (match x.bdeAt with
    | some t => decide (5000 * t + 1000 * stApcStart b ≤ now) && decide (now < 5000 * t + 1000 * (stApcStart b + stApcLen b))
    | none => false)

/-- The beams of a station that are forced on (R296, R311): none while LDEN is low. -/
def forcedBeams (s : State) (k : Fin 6) : BitVec 16 :=
  let x := s.btu[k]
  let b := stationBody s k.1
  if !x.lden then 0
  else (if bdBeamOn b x (timePs s) then 1#16 <<< stBdBeam b else 0) |||
       (if apcBeamOn b x (timePs s) then 1#16 <<< (apcBeam x).1 else 0)

/-- The forced-on beams of a station follow its state and the time. -/
def lightBeams (s : State) (k : Fin 6) : State :=
  let f := forcedBeams s k
  if f = s.btu[k].forced then s else s.modBtu k fun x => { x with forced := f }

/-- The forced-on beams of every station. -/
def lightAll (s : State) : State := (List.finRange 6).foldl lightBeams s

/-- Whether an LDC frame of 0.96 µs is complete by the predicted BDS − 2 µs (R309). -/
def ldcFits (s : State) (k : Fin 6) : Bool :=
  match predictedBds s.btu[k] with | some p => decide (timePs s + 2960000 ≤ p) | none => true

/-! ## SEARCH (R310..R312) -/

/-- An LDC frame (R310): command, beam and drive level. -/
def ldcFrame (b : List Byte) (beam level : Nat) : BitVec 24 := BitVec.ofNat 24 (2 ^ 20 * stLdcCmd b + 2 ^ 16 * beam + 2 ^ 4 * level)

/-- The frame with a beam's drive level is sent. -/
def sendFrame (s : State) (k : Fin 6) (beam : Fin 16) : State :=
  emit s (.ldc k beam (ldcFrame (stationBody s k.1) beam.1 s.btu[k].apcLevel[beam]))

/-- A new drive level of a beam is stored and sent (R309, R310). -/
def sendLevel (s : State) (k : Fin 6) (beam : Fin 16) (level : Nat) : State :=
  sendFrame (s.modBtu k fun x => { x with apcLevel := x.apcLevel.set beam.1 level beam.2 }) k beam

/-- The measured speed of M{s} is at least 90 % of its setpoint (R311). -/
def polygonFast (s : State) (k : Fin 6) : Bool := decide (9 * s.mot.ch[k.1].setpoint ≤ 10 * s.mot.ch[k.1].speed)

/-- LDEN may be high (R311), as far as mode, PWRFAIL_N and the polygon go. -/
def ldenAllowed (s : State) (k : Fin 6) : Bool := s.sys.mode != .halt && !s.sys.pwrFail && polygonFast s k

/-- SEARCH: the initial level goes to all 16 beams (R310). -/
def enterSearch (s : State) (k : Fin 6) : State :=
  let s := (noTrim s k).modBtu k fun x => { x with
    lock := .search, missRun := 0, goodRun := 0, badRun := 0, periods := [], identScans := [], identRounds := 0 }
  (List.finRange 16).foldl (fun s b => sendLevel s k b (stLevelInit (stationBody s k.1))) s

/-- The at-speed event of M{s} takes a station in SPIN to SEARCH with LDEN high (R312). -/
def spinDone (s : State) (k : Fin 6) : State :=
  if s.btu[k].lock != .spin then s
  else
    let on := ldenAllowed s k
    enterSearch (s.modBtu k fun x => { x with lden := on }) k

/-- R311 drops LDEN for a condition 1..4: LASER_INTERLOCK, incomplete sheets spoiled, the station in OFF with its
synthesizer stopped. -/
def interlock (s : State) (k : Fin 6) (cond : Nat) : State :=
  let s := stationOff s k true
  let s := (s.modBtu k fun x => { x with flags := x.flags ||| 0x04 }).stick (0x1018 + 0x100 * k.1) 4
  spoilStation (raise s (0x64 + 8 * k.1) cond) k.1 .beamInterlock

/-- The fault fabric fences a station (R509, R510): lock state OFF, LDEN low, no new decode assignment; the
synthesizer and the polygon are left running; incomplete sheets are spoiled. -/
def fenceStation (s : State) (k : Fin 6) : State :=
  spoilStation ((stationOff s k false).modBtu k fun x => { x with blanked := true }) k.1 .fenced

/-- A station is fenced while a source that fences it holds it (R509). -/
def stationFenced (s : State) (k : Nat) : Bool :=
  ((List.range 8).any fun i => (getN s.flt.src (0x60 + 8 * k + i) {}).fenced) || (getN s.btu k {}).slotFence

/-- BD_LOST (R295): the station blanks, incomplete sheets are spoiled with BEAM_BD, the lock state goes to SEARCH. -/
def bdLost (s : State) (k : Fin 6) : State :=
  let s := enterSearch (s.modBtu k fun x => { x with blanked := true }) k
  spoilStation (raise s (0x62 + 8 * k.1) s.btu[k].facet) k.1 .beamBd

end Sys2Proof.Machine
end

