-- ==== Sys2Proof/Machine/CaddyOps.lean ====
section
/-!
DEFINITION. Shared operations of the ingest and the Caddy (R212..R235): the fields of a descriptor and of a Leaf
header, completions, the choice of an encode lane, the low-space condition and repairs.
-/

namespace Sys2Proof.Machine

/-! ## Descriptors (R217) -/

def igKind (d : List Byte) : Nat := u8 d 0
def igFlags (d : List Byte) : Nat := u8 d 1
def igTag (d : List Byte) : Nat := u16 d 2
def igJob (d : List Byte) : Word := BitVec.ofNat 32 (u32 d 4)
def igAddr (d : List Byte) : Nat := u64 d 8
def igLen (d : List Byte) : Nat := u32 d 16
def igDeadline (d : List Byte) : Nat := u32 d 20
def igKey (d : List Byte) : Word := BitVec.ofNat 32 (u32 d 24)
def igWidth (d : List Byte) : Nat := u16 d 28
def igLevel (d : List Byte) : Nat := u8 d 30
def igCrc (d : List Byte) : Nat := u32 d 32
def igThreshold (d : List Byte) : Nat := u8 d 36

/-- Both channels serve the Caddy (CAD_STATUS.MIRROR, R58). -/
def mirrorOn (s : State) : Bool := s.drc.ch[0].up && s.drc.ch[1].up

/-- A completion of an ingest (R224, R225). -/
structure IgRes where
  status : Status
  sub : Nat := 0
  off : Nat := 0xFF
  flags : Nat := 0
  leaf : Option Leaf := none
  deriving DecidableEq, Repr

/-- A descriptor that has been started. -/
def Ingest.running (d : Ingest) : Bool := match d.phase with | .queued => false | _ => true

/-- A failure at a descriptor byte or, with 0x40 added, at a header byte (R224). -/
def igFail (st : Status) (sub : Nat) (off : Nat := 0xFF) : IgRes := { status := st, sub := sub, off := off }

/-- The 32 bytes of a completion entry (R224). -/
def igEntry (s : State) (d : Ingest) (r : IgRes) : List Byte :=
  let detail := if r.status == .ok && r.sub == 0 then 0 else r.sub + 256 * r.off
  let lane := match d.lane with | some n => 0x10 + n.1 | none => 0xFF
  leBytes 2 (igTag d.bytes) ++ leBytes 1 r.status.code ++ leBytes 1 r.flags ++ leBytes 4 detail ++
  leBytes 4 (igKey d.bytes).toNat ++ leBytes 4 (igJob d.bytes).toNat ++
  leBytes 4 (match r.leaf with | some l => l.bodyLen | none => 0) ++
  leBytes 4 (match r.leaf with | some l => l.bodyCrc.toNat | none => 0) ++
  leBytes 1 (if igKind d.bytes = 1 then lane else 0xFF) ++
  leBytes 1 (match r.leaf with | some l => l.form | none => 0xFF) ++ zeros 2 ++ leBytes 4 (freeMib s)

/-- The encode lane that works on a descriptor. -/
def Ingest.worker (d : Ingest) : Option (Fin 12) :=
  match d.phase with
  | .reading l => l
  | .read n _ => some n
  | _ => none

/-- The lane of a descriptor has finished with it (R264, R268); after a Leaf a throttle step lets it take no other for 20 µs
(R223). -/
def laneDone (s : State) (d : Ingest) (st : Status) : State :=
  match d.worker with
  | some n =>
    s.modEnc n fun l => { l.ended with lastOutcome := st.code
                                       fails := if st == .ok || st == .noshrink then l.fails else inc32 l.fails
                                       readyAt := if st == .ok then s.now + 4000 else l.readyAt }
  | _ => s

/-- A descriptor completes (R224): its lane is released, the entry is written, and CHECK raises CAD_INGEST_ERR. -/
def completeIngest (s : State) (d : Ingest) (r : IgRes) : State :=
  let s := laneDone s d r.status
  let s := s.modCad fun c => { c with ingest := c.ingest.erase d }
  let s := if r.status == .check then raise s 0x24 0 else s
  replyIg s d.ring (igEntry s d r) (bitOf (igFlags d.bytes) 0 || r.status != .ok)

/-- CAD_LOW (R235): raised when free space falls below LOW_WATER, and again only after it has risen 10 % above. Space that
has not been above it yet, as while the first fill runs (R479), has not fallen (log 78). -/
def caddyLow (s : State) : State :=
  let f := freeMib s
  if decide (f < s.cad.lowWater) then
    if s.cad.lowAbove then
      let t := s.modCad fun c => { c with lowAbove := false, lowRaised := true }
      if s.cad.lowRaised then t else raise t 0x22 0
    else s
  else s.modCad fun c => { c with lowAbove := true, lowRaised := c.lowRaised && decide (f * 10 < c.lowWater * 11) }

/-- The modes in which ingest rings are served (R219). -/
def ingestServed (m : Mode) : Bool := m == .ready || m == .print || m == .runout || m == .service

/-- Entry to HALT or STANDBY: every descriptor in progress completes with STATE (R219). -/
def stopIngest (s : State) : State :=
  s.cad.ingest.foldl (fun s d => completeIngest s d { status := .state, sub := 0x0D }) s

/-- The order in which R221 takes encode lanes. -/
def encodeOrder (dynamic : Bool) : List (Fin 12) :=
  if dynamic then [0, 1, 2, 3, 4, 5, 6, 7, 8, 9, 10, 11] else [2, 3, 4, 5, 6, 7, 8, 9, 10, 11, 0, 1]

/-- Whether every encode lane is fenced or has failed self-verify on a descriptor (R256). -/
def encodeExhausted (s : State) (d : Ingest) : Bool :=
  (List.finRange 12).all fun n => s.cdc.enc[n].fence || d.failed.contains n

/-- The encode lane for a descriptor (R221, R223, R256). -/
def encodeLane (s : State) (d : Ingest) : Option (Fin 12) :=
  chooseLane ((encodeOrder (bitOf (igFlags d.bytes) 1)).filter fun n =>
    !d.failed.contains n && (s.tmp.step == 0 || decide (s.cdc.enc[n].readyAt ≤ s.now)) && !laneSuspect s (.enc n)) fun n => s.cdc.enc[n]

/-- A kind-1 descriptor in progress takes a lane when one is free, or ends FENCED when none ever will be (R221,
R256). A restored encode service ends an interruption (R521). -/
def takeEncodeLane (s : State) (d : Ingest) : State :=
  if encodeExhausted s d then completeIngest s d { status := .fenced }
  else match encodeLane s d with
    | none => s
    | some n =>
      let s := (dramRequest s).modEnc n fun l => l.taken .ingest
      let on := updFirst (fun x => x == d)
        (fun x => { x with phase := .reading (some n), lane := some n }) s.cad.ingest
      let s := s.modCad fun c => { c with ingest := on }
      match s.flt.interruption with
      | some k => if decide (0x40 ≤ k.1) && decide (k.1 ≤ 0x4B) then s.modFlt fun f => { f with interruption := none } else s
      | none => s

/-- Every descriptor that waits for a lane tries again, oldest first. -/
def encodeWaiting (s : State) : State :=
  s.cad.ingest.foldl (fun s d => match d.phase with
    | .reading none => if igKind d.bytes = 1 then takeEncodeLane s d else s
    | _ => s) s

/-- The descriptor of a lane runs again from its start on another lane (R256, R264). -/
def rerunIngest (s : State) (n : Fin 12) (selfVerify : Bool) : State :=
  let again := fun (d : Ingest) =>
    if d.worker == some n then
      { d with phase := .reading none, lane := none, failed := if selfVerify then n :: d.failed else d.failed }
    else d
  let s := s.modCad fun c => { c with ingest := c.ingest.map again }
  encodeWaiting s

/-- A fence of a lane takes effect (R245, R264, R284): a gated lane keeps it for its next wake; the work of any other
moves or runs again, and a CODEC_RUN ends FENCED. -/
def fenceLane (s : State) (id : LaneId) : State :=
  let old := (laneAt s id).state
  if (laneAt s id).fence then s
  else
    let before := s
    let s := modLane s id fun l => { l with fence := true, saved := none, periodic := false, gateDue := false
                                            state := if old == .gated || l.gateDue then .gated else .fenced }
    let s := poolCheck before s
    let failed := fun (l : Lane) => Lane.noted id .fenced { l with fails := inc32 l.fails }
    let s := match id, old with
      | .dec n, .steep => migrateFrom (modLane s id failed) n
      | .enc n, .ingest => rerunIngest (modLane s id failed) n false
      | _, .run => cutRun s id { status := .fenced }
      | _, _ => s
    encodeWaiting s

/-- FAULT_CLEAR of a lane's source (R264): the lane is tested, now or at its next wake. -/
def unfenceLane (s : State) (id : LaneId) : State :=
  modLane s id fun l =>
    if !l.fence then l
    else { l with fence := false, state := if l.state == .fenced then .test else l.state, periodic := false, testDue := false }

/-- Lanes are power-gated on entry to STANDBY (R262..R264). A decode lane whose attempt has been abandoned runs it to its end
first (R286, log 107). -/
def gateLanes (s : State) : State :=
  let ids : List LaneId := (List.finRange 16).map .dec ++ (List.finRange 12).map .enc
  ids.foldl (fun s id =>
    let s := if (laneAt s id).state == .run then standbyRun s id else s
    modLane s id fun l => if l.state == .steep then { l with gateDue := true } else Lane.gated l) s

/-- Lanes leave GATED: end of boot stage 3, or a wake (R264). -/
def ungateLanes (s : State) : State :=
  s.modCdc fun c =>
    let up := fun (l : Lane) => if l.state == .gated then
      { l with state := if l.fence then .fenced else .test, periodic := false, testDue := false } else { l with gateDue := false }
    { c with dec := c.dec.map up, enc := c.enc.map up }

end Sys2Proof.Machine
end

