-- ==== Sys2Proof/Machine/HeadOps.lean ====
section
/-!
DEFINITION. Shared operations of the marking heads (R319..R349): fields of the HEAD recipe (R325) and of head memory
(R322), the maximum fire rate (R332), and the states that other units impose.
-/

namespace Sys2Proof.Machine

/-- The number of a pacer state (R348). -/
def HeadState.code : HeadState → Nat
  | .absent => 0 | .idle => 1 | .capped => 2 | .marking => 3 | .held => 4 | .fenced => 5

/-! ## HEAD recipe fields (R325) -/

def hdLaneRate (b : List Byte) : Nat := if u8 b 0x000 = 0 then 200 else if u8 b 0x000 = 1 then 100 else 50
def hdPartnerOn (b : List Byte) : Bool := bitOf (u8 b 0x001) 0
def hdUpstream (b : List Byte) : Bool := bitOf (u8 b 0x001) 1
def hdPartner (b : List Byte) : Nat := u8 b 0x002
def hdOffset (b : List Byte) : Nat := u32 b 0x004
/-- Strobe width for WSEL w [10 ns]. -/
def hdWidth (b : List Byte) (w : Nat) : Nat := u16 b (0x008 + 2 * w)
def hdDutyNozzle (b : List Byte) : Nat := u8 b 0x010
def hdSpitWave (b : List Byte) : Nat := u8 b 0x011
def hdCapAxis (b : List Byte) : Nat := u8 b 0x012
def hdCapPos (b : List Byte) : Int := i32 b 0x018
def hdUncapPos (b : List Byte) : Int := i32 b 0x01C
/-- Remap entry of physical slot p (R327). -/
def hdRemap (b : List Byte) (p : Nat) : Nat := u16 b (0x040 + 2 * p)
def remapBlank (e : Nat) : Bool := bitOf e 15
def remapRowB (e : Nat) : Bool := bitOf e 11
def remapLogical (e : Nat) : Nat := fieldOf e 0 11

/-- The drop of each physical slot (R319, R327), from the drop of each logical nozzle of row A (false) and row B. -/
def slotDrops (b : List Byte) (nozzles : Nat) (drop : Bool → Nat → Nat) : List Nat :=
  (List.range nozzles).map fun p =>
    let e := hdRemap b p
    if remapBlank e then 0 else drop (remapRowB e) (remapLogical e)

/-! ## Rates (R332), in ns -/

/-- t_shift of one fire cycle [ns] (R320): 2⌈N/4⌉ bits at the lane rate in Mbit/s. -/
def shiftNs (b : List Byte) (n : Nat) : Nat := 2 * ((n + 3) / 4) * 1000 / hdLaneRate b

/-- The largest of the four strobe widths [ns]. -/
def widestNs (b : List Byte) : Nat := 10 * ((List.range 4).map fun w => hdWidth b w).foldl Nat.max 0

/-- Rank fire rate [Hz] (R322). -/
def rankHz (rank : Nat) : Nat := 48000 + 1000 * rank

/-- f_max [Hz], rounded down (R332). -/
def fMax (b : List Byte) (m : HeadMem) : Nat :=
  min (rankHz m.rank) (min (1000000000 / (shiftNs b m.nozzles + 350)) (1000000000 / (widestNs b + 500)))

/-- P_min [ns], rounded up: the longest of the three periods whose reciprocals R332 compares. -/
def pMinNs (b : List Byte) (m : HeadMem) : Nat :=
  Nat.max ((1000000000 + rankHz m.rank - 1) / rankHz m.rank) (Nat.max (shiftNs b m.nozzles + 350) (widestNs b + 500))

/-- Whether a planned speed [mm/s] is above the head speed limit f_max × 1/600 inch (R332, R340), for each of the three rates
whose least is f_max. -/
def overHeadSpeed (b : List Byte) (m : HeadMem) (speed : Nat) : Bool :=
  decide (rankHz m.rank * 254 < speed * 6000) ||
  decide (1000000000 * 254 < speed * 6000 * Nat.max (shiftNs b m.nozzles + 350) (widestNs b + 500))

/-- Whether a time [ns] is shorter than num/den of P_min = 1 / f_max (R335, R338). -/
def shorterThan (b : List Byte) (m : HeadMem) (num den ns : Nat) : Bool :=
  decide (den * ns * rankHz m.rank < num * 1000000000) ||
  decide (den * ns < num * Nat.max (shiftNs b m.nozzles + 350) (widestNs b + 500))

/-- The bits of a fire cycle on lane 0..3 (R319): physical slot p travels on lane p mod 4, most significant bit first. -/
def laneBits (drops : List Nat) : List (List Bool) :=
  (List.range 4).map fun lane => (List.range ((drops.length + 3) / 4)).flatMap fun q =>
    let d := drops.getD (4 * q + lane) 0
    [bitOf d 1, bitOf d 0]

/-- When the steps of a fire cycle take place [ns from the strobe] (R332): the shift starts and ends, LAT rises and falls, the
strobe rises and falls. -/
def cycleTimes (b : List Byte) (nozzles wave : Nat) : List Int :=
  [-((shiftNs b nozzles + 350 : Nat) : Int), -350, -250, -150, 0, (10 * hdWidth b wave : Nat)]

/-- The output of a fire cycle. -/
def fireOut (h : Fin 8) (b : List Byte) (wave instant : Nat) (drops : List Nat) : Out :=
  .fire h wave instant (laneBits drops) (cycleTimes b drops.length wave)

/-- The fire pitch P [counts] (R330): 32 at 1200 lpi, 16 at 600 lpi. The process resolution is the STATION recipes'
(R301), 1200 lpi when none is active (log 41). -/
def firePitch (s : State) : Nat :=
  if (List.range 6).any fun k => let b := stationBody s k
                                 !b.isEmpty && u8 b 0x002 == 1 then 16 else 32

/-! ## The limiter of the duty window (R337) -/

/-- What the duty-window limiter leaves of a cycle (R337): the drops, those suppressed, and whether the strobe is. -/
def dutyLimit (b : List Byte) (mem : HeadMem) (x : Head) (drops : List Nat) : List Nat × Nat × Bool :=
  let fired := fun (n : Nat) => match x.dutyFires.find? fun d => d.1 == n with | some d => d.2 | none => 0
  let kept := drops.zipIdx.map fun (d : Nat × Nat) =>
    if d.1 != 0 && decide (hdDutyNozzle b ≤ fired (remapLogical (hdRemap b d.2))) then 0 else d.1
  let count := fun (l : List Nat) => l.countP (· != 0)
  (kept, count drops - count kept, decide (mem.duty < x.dutyDrops + count kept))

/-- The drops of a strobed cycle are counted in the window. -/
def dutyCount (b : List Byte) (x : Head) (drops : List Nat) : Head :=
  drops.zipIdx.foldl (fun (x : Head) d =>
    if d.1 = 0 then x
    else
      let n := remapLogical (hdRemap b d.2)
      { x with
        dutyDrops := x.dutyDrops + 1
        dutyFires := if x.dutyFires.any fun e => e.1 == n then updFirst (·.1 == n) (fun e => (e.1, e.2 + 1)) x.dutyFires
          else (n, 1) :: x.dutyFires }) x

/-! ## States -/

/-- A sheet is at head h: one of its fields there has begun, and one is still to end (R333). -/
def insideSheetAt (s : State) (h : Nat) : Bool :=
  (sheets s).any fun x => x.2.open &&
    (let m := x.2.marks.filter fun m => m.kind != 0 && m.by_ == h
     (m.any fun y => y.run != .waiting) && m.any fun y => y.run != .done)

/-- A head enters HELD or FENCED: new fields go to its partner when it has one (R343). -/
def headLeaves (s : State) (h : Fin 8) (new : HeadState) : State :=
  let b := headBody s h.1
  let s := s.modHead h fun x => { x with state := new }
  if !b.isEmpty && hdPartnerOn b && !s.hdp[h].moved then
    raise (s.modHead h fun x => { x with moved := true }) (0x91 + 2 * h.1) 0x08
  else s

/-- The fault fabric or a strobe cut fences a head (R344); ABSENT stays. -/
def fenceHead (s : State) (h : Fin 8) : State :=
  if s.hdp[h].state == .absent || s.hdp[h].state == .fenced then s else headLeaves s h .fenced

/-- A head is released from FENCED into IDLE (R344), and new fields come back to it (R343). -/
def unfenceHead (s : State) (h : Fin 8) : State :=
  s.modHead h fun x => if x.state == .fenced then { x with state := .idle, moved := false, cutHold := false }
    else { x with cutHold := false }

/-- The temperature of a code through the head-memory table: 40 units of 0.25 °C between entries; the ends are held. -/
def headTemp (table : List Nat) (code : Nat) : Int :=
  let first := table.getD 0 0
  match between (table.zipIdx.map fun (x : Nat × Nat) => (x.1, (40 * x.2 : Nat))) code with
  | some t => t
  | none => if decide (first ≤ code) == decide (first ≤ table.getD 15 0) then 600 else 0

/-- A thermistor code at or above a head's limit: a broken one reads so (R341). -/
def codeHolds (mem : HeadMem) (code : Nat) : Bool := code == 0 || code == 4095 || decide (mem.limit ≤ headTemp mem.table code)

/-- A sample still to come in this cycle takes a head into HELD: an admission of the same cycle sees it HELD (R346). -/
def holdComes (s : State) (h : Nat) : Bool :=
  match s.hdp.toList[h]? with
  | some x => (x.state == .idle || x.state == .marking) && (match x.mem with
    | some mem => coming s fun c => match c with | .headTempSample j code => j.1 == h && codeHolds mem code.toNat | _ => false
    | none => false)
  | none => false

/-- The head a new mark field naming h uses (R343). -/
def fieldHead (s : State) (h : Nat) : Nat :=
  match s.hdp.toList[h]? with
  | some x =>
    let b := headBody s h
    if b.isEmpty || !(x.moved || (hdPartnerOn b && holdComes s h)) then h
    else match s.hdp.toList[hdPartner b]? with
      | some p => if holdComes s (hdPartner b) || p.state == .held || p.state == .fenced || p.state == .absent || p.state == .capped then h else hdPartner b
      | none => h
  | none => h

/-- Capping or uncapping as a state change (R344, R345). -/
def capHead (s : State) (h : Fin 8) (cap : Bool) : State :=
  s.modHead h fun x =>
    if cap && x.state == .idle then { x with state := .capped }
    else if !cap && x.state == .capped then { x with state := .idle } else x

end Sys2Proof.Machine
end

