-- ==== Sys2Proof/Machine/MotorOps.lean ====
section
/-!
DEFINITION. Shared operations of the brushless channels: the fields of the MOTOR recipe (R447), the transitions that
several commands make (R437), and where regeneration is forbidden (R443).
-/

namespace Sys2Proof.Machine

/-! ## MOTOR recipe fields (R447) -/

def busUv (b : List Byte) : Nat := u32 b 0x00
def busBrakeOff (b : List Byte) : Nat := u32 b 0x04
def busBrakeOn (b : List Byte) : Nat := u32 b 0x08
def busSoft (b : List Byte) : Nat := u32 b 0x0C
def busHard (b : List Byte) : Nat := u32 b 0x10
def busDivider (b : List Byte) : Nat := u16 b 0x14
def busMinOn (b : List Byte) : Nat := u16 b 0x1A
/-- SPDCMD8 (0) and SPDCMD9 (1). -/
def spdMode (b : List Byte) (n : Nat) : Nat := u8 b (0x20 + 16 * n)
def spdFilter (b : List Byte) (n : Nat) : Nat := u16 b (0x22 + 16 * n)
def spdFull (b : List Byte) (n : Nat) : Nat := u32 b (0x24 + 16 * n)
/-- The 96 bytes of channel m's entry. -/
def motorEntry (b : List Byte) (m : Nat) : List Byte := bytesAt b (0x040 + 96 * m) 96
def moEnabled (e : List Byte) : Bool := bitOf (u8 e 0x00) 0
def moReverse (e : List Byte) : Bool := bitOf (u8 e 0x00) 1
def moRestart (e : List Byte) : Bool := bitOf (u8 e 0x00) 2
def moPoles (e : List Byte) : Nat := u8 e 0x01
def moClock (e : List Byte) : Bool := bitOf (u8 e 0x00) 3
def moPwmFreq (e : List Byte) : Nat := u16 e 0x02
/-- Dead time [ns]. -/
def moDead (e : List Byte) : Nat := u16 e 0x04
/-- Blanking after a commutation [% of the predicted step period]. -/
def moBlank (e : List Byte) : Nat := u8 e 0x06
def moLosTol (e : List Byte) : Nat := u8 e 0x07
def moMaxSpeed (e : List Byte) : Nat := u32 e 0x08
def moSensorless (e : List Byte) : Nat := u32 e 0x0C
def moCatch (e : List Byte) : Nat := u32 e 0x10
def moReverseThr (e : List Byte) : Nat := u32 e 0x14
def moStart (e : List Byte) : Nat := u32 e 0x18
def moHandover (e : List Byte) : Nat := u32 e 0x1C
def moRampAcc (e : List Byte) : Nat := u32 e 0x20
def moAlignI (e : List Byte) : Nat := u16 e 0x28
def moRampI (e : List Byte) : Nat := u16 e 0x2C
def moLimitI (e : List Byte) : Nat := u16 e 0x30
def moTripI (e : List Byte) : Nat := u16 e 0x32
def moBrakeI (e : List Byte) : Nat := u16 e 0x34
def moFull (e : List Byte) : Nat := u16 e 0x36
def moBand (e : List Byte) : Nat := u16 e 0x38
def moWindow (e : List Byte) : Nat := u16 e 0x3C
def moRestarts (e : List Byte) : Nat := u8 e 0x41

/-- XCLK cycles of a modulator clock, MDCLK1 or MDCLK0 (R447): 5, 10 or 20 MHz, and the default before a recipe. -/
def mdclkCycles (s : State) (one : Bool) : Nat :=
  let b := motorBody s
  match if b.isEmpty then 2 else u8 b (if one then 0x1D else 0x1C) with
  | 0 => 40 | 1 => 20 | _ => 10

/-- The entry of a channel under the active MOTOR recipe. -/
def motorOf (s : State) (m : Fin 10) : List Byte := motorEntry (motorBody s) m.1

/-- A speed within the at-speed band of the setpoint (R437): the band is in 0.01 %. -/
def inBand (e : List Byte) (speed set : Nat) : Bool :=
  decide ((speed - set + (set - speed)) * 10000 ≤ set * moBand e)

/-! ## Regeneration (R441, R443) -/

/-- The bus voltage [mV] of a conversion: 12 bits over 1,800 mV, times the divider ratio (R441, R560; log 58). -/
def busMillivolts (b : List Byte) (code : Nat) : Nat := code * 1800 * busDivider b / 4096000

/-- Regeneration forbidden (MOT_BUS_STATUS.NOREGEN). -/
def noRegen (s : State) : Bool := s.mot.softHold || s.mot.chopperHold

/-- The bus reaches the soft limit in this cycle (R448): a stop is a coast. -/
def softComes (s : State) : Bool :=
  let b := motorBody s
  !b.isEmpty && coming s fun c => match c with
    | .busSample code _ => decide (busSoft b ≤ busMillivolts b code.toNat)
    | _ => false

/-! ## Transitions (R437) -/

/-- The mean of the last six step periods [ns] (R432); 0 before six are measured. -/
def predictedStep (x : Motor) : Nat := if x.periods.length < 6 then 0 else x.periods.sum / 6

/-- What a channel forgets when it stops commutating. -/
def Motor.idle (x : Motor) : Motor :=
  { x with step := 0, openLoop := false, current := 0, forced := 0, matchRun := 0, losRun := 0, reverse := false, lowSides := false
           crossings := 0, duty := 0, onNs := 0, shift := (0, 0) }

/-- Zero-torque coast (R429, R437): a stopped or fenced channel stays as it is. -/
def coast (s : State) (m : Fin 10) : State :=
  match s.mot.ch[m].state with
  | .stopped | .fenced => s
  | _ => motorSlotOff (s.modMotor m fun x => { x.idle with state := .coasting, lost := false, crossings := 0 }) m

/-- A driving state: ALIGNING, RAMPING, RUNNING, BRAKING (R437). -/
def MotorState.driving : MotorState → Bool
  | .aligning | .ramping | .running | .braking => true
  | _ => false

/-- FENCED (R436, R437): gates low, DRVEN low. -/
def fenceMotor (s : State) (m : Fin 10) : State :=
  motorSlotOff (s.modMotor m fun x => { x.idle with state := .fenced, drven := false, periods := [], lost := false, ocRun := (0, 0, 0), feed := ([], []) }) m

/-- Every channel in turn. -/
def overMotors (s : State) (f : State → Fin 10 → State) : State := (List.finRange 10).foldl f s

/-- CATCHING (R437, R438): catch-spin begins; DRVEN is high except under R444. -/
def startMotor (s : State) (m : Fin 10) (speed : Nat) : State :=
  let s := s.modMotor m fun x => { x.idle with
    state := .catching, setpoint := speed, drven := !s.mot.hard, starts := inc32 x.starts, suspended := false
    restarts := 0, lost := false, periods := [] }
  motorSlotTarget s m speed

/-- A new speed setpoint (R437): RUNNING goes back to RAMPING when the speed is outside the band of it. -/
def setSpeed (s : State) (m : Fin 10) (speed : Nat) : State :=
  let x := s.mot.ch[m]
  let back := x.state == .running && !inBand (motorOf s m) x.speed speed
  let s := s.modMotor m fun x => { x with setpoint := speed, state := if back then .ramping else x.state }
  motorSlotTarget (if back then motorSlotKeep s m else s) m speed

/-- A controlled stop (MOTOR_STOP kind 0, R437, R446): BRAKING from RAMPING and RUNNING, a coast while regeneration is
forbidden or becomes so in this cycle (R443, R448), and from CATCHING and ALIGNING a coast. -/
def controlledStop (s : State) (m : Fin 10) : State :=
  match s.mot.ch[m].state with
  | .ramping | .running =>
    if noRegen s || softComes s then coast s m
    else motorSlotKeep (s.modMotor m fun x => { x with state := .braking, reverse := false, lowSides := false }) m
  | .catching | .aligning => coast s m
  | _ => s

/-- Whether M6 runs within its tolerance of the process speed (R386, R388): its measured speed against its
setpoint, in 0.1 %. -/
def m6InTolerance (s : State) : Bool :=
  let x := s.mot.ch[6]
  x.state == .running &&
    decide ((x.speed - x.setpoint + (x.setpoint - x.speed)) * 1000 ≤ x.setpoint * m6Tolerance s)

end Sys2Proof.Machine
end

