-- ==== Sys2Proof/Machine/LoopEval.lean ====
section
/-! DEFINITION. One evaluation of a loop slot (R455..R468), and what an output drives. -/

namespace Sys2Proof.Machine

/-- A value moved toward a target by at most a step. -/
def approach (from_ target step : Int) : Int := from_ + clampI (-step) step (target - from_)

/-- The limits of a slot's out (R458, R461, R467, R468): OUT_MIN..OUT_MAX, and a second clamp for an outer, a
laser-power and a motor-speed slot. -/
def outLimits (s : State) (n : Fin 160) (e : List Byte) : Int × Int :=
  let lo := entOutMin e
  let hi := entOutMax e
  if entKind e == 3 then
    let b := stationBody s (n.1 / 16)
    (Max.max lo (u16 b 0x130 : Nat), Min.min hi (u16 b 0x132 : Nat))
  else if entKind e == 4 then
    let m := motorEntry (motorBody s) (entTarget e)
    let lim : Int := (moLimitI m : Nat)
    let lo := Max.max lo (-lim)
    (if noRegen s then Max.max lo 0 else lo, Min.min hi lim)
  else if entRatio e != 0 then
    let inner := slotEntry s (getN s.ctl.loops (entInner e) {})
    (Max.max lo (entSpMin inner), Min.min hi (entSpMax inner))
  else (lo, hi)

/-- The working setpoint after its ramp (R458), which an event slot runs at the 20 µs of its reserve (R454, log 38). -/
def rampedSetpoint (l : Loop) : Int :=
  if l.ramp = 0 then l.rTarget
  else let p := perEvaluation l.ramp (Nat.max 1 l.k)
       l.r + clampI (-p) p (l.rTarget - l.r)

/-- The setpoint that the law sees: for the polygon of a station, raised by trim × e, at most 1 % of it (R313, R468). -/
def trimmedSetpoint (s : State) (e : List Byte) (r : Int) : Int :=
  if entKind e == 4 && decide (entTarget e < 6) then
    let ph := (getN s.btu (entTarget e) {}).phaseErr
    let lim := r.natAbs / 100
    r + clampI (-(lim : Nat)) (lim : Nat) (fixToI32 (toFix (ph * i16 e 0x38) (i8 e 0x3A)))
  else r

/-- Whether the slot's output is blocked (R460): a fuser zone without valid mains (R465), or a motor-speed slot while
regeneration is forbidden (R468). -/
def outputBlocked (s : State) (e : List Byte) : Bool :=
  (entKind e == 1 && !s.ctl.mains) || (entKind e == 4 && noRegen s)

/-- An output stands at OUT_MAX or OUT_MIN, and the error would drive it further (R460). -/
def drivenFurther (e : List Byte) (out err : Int) : Bool :=
  (out == entOutMax e && decide (0 < err)) || (out == entOutMin e && decide (err < 0))

/-- Whether the integrator holds (R460). -/
def integratorHolds (s : State) (e : List Byte) (out err : Int) : Bool :=
  drivenFurther e out err || outputBlocked s e ||
  (entRatio e != 0 &&
    let inner := getN s.ctl.loops (entInner e) {}
    drivenFurther (slotEntry s inner) inner.out err)

/-- A law's integrator after the evaluation, and its clamped output. -/
def lawStep (t : List Byte) (u0 ki integ lo hi : Int) (hold : Bool) : Int × Int :=
  let i := if hold then integ else clampI (tabIMin t) (tabIMax t) (sat64 (integ + ki))
  (i, clampI lo hi (fixToI32 (sat64 (u0 + i))))

/-- What an evaluation leaves: the slot, and the kind with which a handover ended (R463). -/
structure Evaluated where
  slot : Loop
  ended : Option (Nat × Nat)

/-- The evaluation of a slot in its mode with its pending handover (R458, R462, R463): `y` is the measured value. -/
def evaluate (s : State) (n : Fin 160) (l : Loop) (y : Int) : Evaluated :=
  let b := loopsBody s
  let e := slotEntry s l
  let lim := outLimits s n e
  let k := Nat.max 1 l.k
  let r := rampedSetpoint l
  let yPrev := l.yPrev.getD y
  let rr := trimmedSetpoint s e r
  let err := sat32 (rr - y)
  let law := fun (m : LoopMode) => lawTable b (entLaw e (m == .lawB))
  let hold := integratorHolds s e l.out err
  let rate := perEvaluation (entRate e) k
  -- the present mode's integrator and output, and whether a slew ends here
  let now : Int × Int × Option (Nat × Nat) × Option (Nat × Nat) :=
    match l.mode with
    | .off => (0, entOutOff e, none, none)
    | .manual => (l.integ, approach l.out (clampI lim.1 lim.2 l.manual) rate, none, none)
    | m =>
      let t := law m
      let x := lawStep t (lawU0 e t err yPrev y rr) (lawKi t err) l.integ lim.1 lim.2 hold
      match l.slew with
      | none => (x.1, x.2, none, none)
      | some sl =>
        let o := approach l.out x.2 rate
        if o == x.2 then (x.1, o, none, some sl) else (x.1, o, some sl, none)
  let base : Loop := { l with y := y, yPrev := some y, r := r, integ := now.1, slew := now.2.2.1 }
  match l.pending with
  | none => ⟨{ base with out := now.2.1 }, now.2.2.2⟩
  | some h =>
    let t := law h.target
    let q := lawU0 e t err yPrev y rr
    let iReq := now.2.1 * 65536 - q
    let i := clampI (tabIMin t) (tabIMax t) iReq
    let g := iReq - i
    let within := decide (g.natAbs ≤ entWindow e * 65536)
    let timeout := if h.atOnce then 0 else entTimeout e
    if within || decide (timeout * 1000 ≤ h.waited * (20 * k)) then
      let sw : Loop := { base with mode := h.target, pending := none, integ := i, out := now.2.1 }
      if g == 0 then ⟨{ sw with slew := none }, some (0, h.waited)⟩
      else ⟨{ sw with slew := some (if within then 1 else 2, h.waited) }, none⟩
    else ⟨{ base with out := now.2.1, pending := some { h with waited := h.waited + 1 } }, none⟩

/-- SAT and its run of consecutive saturated evaluations (R460). -/
def saturation (s : State) (n : Fin 160) (l : Loop) : State :=
  let e := slotEntry s l
  let sat := l.out == entOutMin e || l.out == entOutMax e
  let run := if sat then min 101 (l.satRun + 1) else 0
  let s := s.modLoop n fun _ => { l with sat := sat, satRun := run }
  if run == 100 then raise s 0xE2 n.1 else s

/-- An outer in a law mode drives its inner's setpoint in the same frame (R461). -/
def driveInner (s : State) (l : Loop) : State :=
  let e := slotEntry s l
  if entRatio e == 0 || !l.mode.law || !decide (entInner e < 160) then s
  else s.modLoop (Fin.ofNat 160 (entInner e)) fun i =>
    { i with stored := if i.cascade then i.stored else some (i.rTarget, i.ramp)
             rTarget := l.out, ramp := 0, cascade := true }

/-- The safety rules of fuser zones and high voltage (R465, R466): the slot goes to off on an input fault or at its
hard limit; none when neither applies. -/
def guardedOff (s : State) (n : Fin 160) (l : Loop) (code : Nat) (y : Int) : Option State :=
  let e := slotEntry s l
  let off := fun (s : State) => s.modLoop n fun l => { l.toOff with y := y, out := entOutOff e, outNext := some (entOutOff e) }
  if l.mode == .off then none
  else if entKind e == 1 && (code == 0 || code == 4095) then
    some (raise (((off s).modCtl fun c => { c with flags := c.flags ||| 0x10 }).stick 0x2410 0x10) 0xE3 n.1)
  else if (entKind e == 1 || entKind e == 2) && entHard e != 0x7FFFFFFF && decide (entHard e ≤ y) then
    some (raise (((off s).modCtl fun c => { c with flags := c.flags ||| 0x02 }).stick 0x2410 2) 0xE4 n.1)
  else none

/-- Whether the output of a fuser zone is blocked by its input or its hard limit (R465). -/
def zoneBlocked (e : List Byte) (code : Nat) (y : Int) : Bool :=
  entKind e == 1 && (code == 0 || code == 4095 || (entHard e != 0x7FFFFFFF && decide (entHard e ≤ y)))

/-- What the output of a slot drives (R465..R468): a reference duty or a current command; a fuser zone reads it at its
next crossing, nothing while an input fault or the hard limit blocks it, and a laser-power level is sent by the
station. -/
def applyOut (s : State) (l : Loop) : State :=
  let e := slotEntry s l
  let duty := (clampI 0 65535 l.out).toNat
  if entKind e == 2 then
    (if hvOn s (entTarget e) then s.modCtl fun c => { c with hvref := updN c.hvref (entTarget e) fun _ => duty } else s)
  else if entKind e == 1 then
    s.modCtl fun c => { c with zone := updN c.zone (entTarget e) fun _ => if l.blocked then 0 else (clampI 0 65536 l.out).toNat }
  else if entKind e == 0 && entOutput e != 0 then
    (if hvOn s (entOutput e - 1) then s.modCtl fun c => { c with hvref := updN c.hvref (entOutput e - 1) fun _ => duty } else s)
  else if entKind e == 4 then
    s.modMot fun m => { m with ch := updN m.ch (entTarget e) fun (x : Motor) =>
      if x.state.driving then { x with current := l.out } else x }
  else s

/-- HVREF duty 0 where no slot drives it (R466). -/
def idleRefs (s : State) : State :=
  let drives := fun (n : Nat) => s.ctl.loops.any fun l =>
    let e := slotEntry s l
    l.en && ((entKind e == 2 && entTarget e == n) || (entKind e == 0 && entOutput e == n + 1))
  s.modCtl fun c => { c with hvref := c.hvref.mapFinIdx fun n d _ => if d = 0 || drives n then d else 0 }

/-- One evaluation: the measured value, the safety rules, the law, and the events; the output waits in `outNext` for
a timer slot (R455) and acts at once for an event slot. -/
def evaluateSlot (s : State) (n : Fin 160) (code : Nat) (raw : Int) (event : Bool) : State :=
  let l := s.ctl.loops[n]
  let e := slotEntry s l
  let y := measured e raw
  let s := s.modLoop n fun l => { l with blocked := zoneBlocked e code y }
  match guardedOff s n l code y with
  | some t => hvUpdate t
  | none =>
    let v := evaluate s n s.ctl.loops[n] y
    let s := saturation s n v.slot
    let s := match v.ended with
      | some (kind, waited) => raise s 0xE0 (n.1 + 256 * kind + 65536 * min 255 waited)
      | none => s
    let s := driveInner s s.ctl.loops[n]
    let s := if entKind e == 2 && l.mode == .off && v.slot.mode != .off then hvUpdate (hvLeavesOff s) else s
    if event then applyOut s s.ctl.loops[n]
    else s.modLoop n fun x => { x with outNext := some x.out }

/-- A missed evaluation (R455). -/
def missSlot (s : State) (n : Fin 160) : State :=
  let s := s.modLoop n fun l => { l with missed := satAdd 16 l.missed 1 }
  raise ((s.modCtl fun c => { c with missed := inc32 c.missed, flags := c.flags ||| 0x01 }).stick 0x2410 1) 0xE1 n.1

end Sys2Proof.Machine
end

