-- ==== Sys2Proof/Machine/MotionOps.lean ====
section
/-!
DEFINITION. Shared operations of the stepper axes: the fields of the MOTION recipe (R424) and the ways an axis ends
what it does (R410, R411, R416..R420).
-/

namespace Sys2Proof.Machine

/-! ## MOTION recipe fields (R424) -/

def deskewLeft (b : List Byte) : Nat := u8 b 0x00
def deskewRight (b : List Byte) : Nat := u8 b 0x01
def deskewSensorL (b : List Byte) : Nat := u8 b 0x02
def deskewSensorR (b : List Byte) : Nat := u8 b 0x03
def deskewMax (b : List Byte) : Nat := u32 b 0x04
def deskewEnd (b : List Byte) : Nat := u32 b 0x08
def holdToGate (b : List Byte) : Nat := u32 b 0x0C
def correctionAcc (b : List Byte) : Nat := u32 b 0x10
/-- The 160 bytes of axis a's entry. -/
def axisEntry (b : List Byte) (a : Nat) : List Byte := bytesAt b (0x040 + 160 * a) 160
def axEnabled (e : List Byte) : Bool := bitOf (u8 e 0x00) 0
def axReverse (e : List Byte) : Bool := bitOf (u8 e 0x00) 1
/-- MDCLK1 rather than MDCLK0. -/
def axClock (e : List Byte) : Bool := bitOf (u8 e 0x00) 2
def axDecay (e : List Byte) : Nat := u8 e 0x01
/-- The fast fraction of the off-time [%]. -/
def axFast (e : List Byte) : Nat := u8 e 0x02
def axFull (e : List Byte) : Nat := u16 e 0x0C
def axOhms (e : List Byte) : Nat := u16 e 0x10
def axHenries (e : List Byte) : Nat := u16 e 0x12
def axStallDetect (e : List Byte) : Bool := bitOf (u8 e 0x00) 3
def axStallFilter (e : List Byte) : Nat := u8 e 0x03
def axPwmFreq (e : List Byte) : Nat := u16 e 0x04
def axRunI (e : List Byte) : Nat := u16 e 0x06
def axIdleI (e : List Byte) : Nat := u16 e 0x08
def axOverI (e : List Byte) : Nat := u16 e 0x0E
def axStallThr (e : List Byte) : Nat := u8 e 0x14
def axHyst (e : List Byte) : Nat := u8 e 0x15
def axStallMin (e : List Byte) : Nat := u16 e 0x16
/-- Switch point k [full steps/s]. -/
def axSw (e : List Byte) (k : Nat) : Nat := u16 e (0x18 + 2 * k)
def axSoftMin (e : List Byte) : Int := i32 e 0x24
def axSoftMax (e : List Byte) : Int := i32 e 0x28
def axVDef (e : List Byte) : Nat := u32 e 0x2C
def axVMax (e : List Byte) : Nat := u32 e 0x30
def axADef (e : List Byte) : Nat := u32 e 0x34
def axAMax (e : List Byte) : Nat := u32 e 0x38
def axStopDec (e : List Byte) : Nat := u32 e 0x3C
def axGear (e : List Byte) : Nat := u32 e 0x40
def axIdleDelay (e : List Byte) : Nat := u16 e 0x0A
/-- The 16 bytes of homing sequence k. -/
def axHomeSeq (e : List Byte) (k : Nat) : List Byte := bytesAt e (0x60 + 16 * k) 16
def homeMethod (q : List Byte) : Nat := u8 q 0
def homeNegative (q : List Byte) : Bool := bitOf (u8 q 1) 0
def homeActiveHigh (q : List Byte) : Bool := bitOf (u8 q 1) 1
def homeSensor (q : List Byte) : Nat := u8 q 2
def homeFast (q : List Byte) : Nat := u16 q 4
def homeSlow (q : List Byte) : Nat := u16 q 6
def homeTravel (q : List Byte) : Nat := u32 q 8
def homePos (q : List Byte) : Int := i32 q 12

/-- The entry of an axis under the active MOTION recipe. -/
def axisOf (s : State) (a : Fin 16) : List Byte := axisEntry (motionBody s) a.1

/-- A paper-path axis of the SHEET recipe (R386). -/
def pathAxis (s : State) (a : Nat) : Bool := bitOf (pathAxes s) a

/-- The deskew pair's members. -/
def deskewMember (s : State) (a : Nat) : Bool :=
  let b := motionBody s
  !b.isEmpty && (deskewLeft b == a || deskewRight b == a)

/-- Speed in full steps per second: 1/256 step per ms × 1000 / 256. -/
def fullSteps (vel : Int) : Nat := vel.natAbs * 1000 / 256

/-- Whether the axis moves at or above its stall minimum speed. -/
def atStallSpeed (e : List Byte) (x : Axis) : Bool := decide (axStallMin e * 256 ≤ x.vel.natAbs * 1000)

/-- POS with its fraction, in 1/65,536. -/
def Axis.finePos (x : Axis) : Int := x.pos * 65536 + x.frac

/-! ## Ends of motion -/

/-- Every axis in turn, from A15 down, so that the lowest-numbered member of a group ends last. -/
def overAxes (s : State) (f : State → Fin 16 → State) : State := (List.finRange 16).reverse.foldl f s

/-- The end event of a move (R418): the identifier and DONE or STOPPED; homing ends without one when it is stopped. -/
def axisEnded (s : State) (a : Fin 16) (cause : Nat) : State :=
  let id := s.axs[a].moveId
  raise (s.modAxis a fun x => { x with endedId := id }) (0xC0 + a.1) (cause + 65536 * id.toNat)

/-- Whether the axis is the lowest-numbered member of its group (R420). -/
def groupLead (s : State) (a : Fin 16) : Bool :=
  (List.finRange 16).all fun b => !(decide (b.1 < a.1) && s.axs[b].state == .group && s.axs[b].group == s.axs[a].group)

/-- The end event of whatever the axis was doing when something else than its target ended it (R418, R420). -/
def axisCut (s : State) (a : Fin 16) : State :=
  match s.axs[a].state with
  | .moving | .homing => axisEnded s a 0x02
  | .group => if groupLead s a then axisEnded s a 0x02 else s
  | .stopping => if s.axs[a].move.isSome then axisEnded s a 0x02 else s
  | _ => s

/-- An axis at rest, with no profile. -/
def Axis.rest (x : Axis) : Axis :=
  { x with vel := 0, fine := 0, move := none, homing := none, gearLock := none, line := none, phase := none }

/-- A cause bit of AXS FLAGS (R426): STALL, LIMIT, HOME_FAIL, OVERCURRENT, OPEN, FEED, SKEW. -/
def axisFlag (s : State) (a : Fin 16) (k : Nat) : State :=
  (s.modAxis a fun x => { x with flags := x.flags ||| BitVec.ofNat 7 (2 ^ k) }).stick (0x1C20 + 0x40 * a.1) (2 ^ k)

/-- A target is reached: POS is the target; a group's members all reach theirs in the same cycle, and only the
lowest-numbered raises the end event; a velocity move has reached its soft limit. -/
def targetReached (s : State) (a : Fin 16) : State :=
  let x := s.axs[a]
  let arrive := fun (x : Axis) => { x.rest with state := .idle, pos := x.target, frac := 0, group := 0 }
  match x.state with
  | .moving => match x.move with
    | none => s
    | some m =>
      if m.kind = 2 then
        if m.limit then
          let s := raise (axisFlag s a 1) (0xC0 + a.1) (0x04 + 65536 * x.moveId.toNat)
          axisEnded (s.modAxis a arrive) a 0x02
        else s
      else axisEnded (s.modAxis a arrive) a 0x01
  | .group =>
    overAxes s fun s b =>
      if s.axs[b].state == .group && s.axs[b].group == x.group then
        let lead := groupLead s b
        let s := s.modAxis b fun x => { (arrive x) with endedId := x.moveId }
        if lead then axisEnded s b 0x01 else s
      else s
  | _ => s

/-- A target that is reached in this cycle, the axis's own or its group's, stands before a stop, HALT or a fence (R425). -/
def reachedFirst (s : State) (a : Fin 16) : State :=
  if coming s fun c => match c with
      | .axisTargetReached b => b == a || (s.axs[a].state == .group && s.axs[b].state == .group && s.axs[b].group == s.axs[a].group)
      | _ => false
  then targetReached s a else s

/-- A stop at once (R417): POS freezes, and HOMED is cleared when the axis moved at or above its stall minimum
speed. -/
def Axis.stopAtOnce (e : List Byte) (x : Axis) : Axis :=
  { x.rest with state := .idle, homed := x.homed && !atStallSpeed e x, thenDisable := false, group := 0 }

/-- A stop at once of one axis with its end event; nothing on a DISABLED or FENCED axis. -/
def stopAxisAtOnce (s : State) (a : Fin 16) : State :=
  let x := s.axs[a]
  if x.state == .disabled || x.state == .fenced then s
  else (axisCut s a).modAxis a fun x => x.stopAtOnce (axisOf s a)

/-- Disabled or fenced (R417): outputs low, HOMED clear. -/
def Axis.dead (new : AxisState) (x : Axis) : Axis :=
  { x.rest with state := new, homed := false, thenDisable := false, idleI := false, iA := 0, iB := 0, load := 0
                duty := (0, 0), feed := ([], []), group := 0, gateAt := none, ocRun := (0, 0), openRun := (0, 0), stallRun := 0 }

/-- STPEN (R550): high while any axis is in a state other than DISABLED or FENCED. -/
def stpen (s : State) : Bool := s.axs.toList.any fun x => x.state != .disabled && x.state != .fenced

/-- The axis is disabled (power-loss step 3, R417). -/
def disableAxis (s : State) (a : Fin 16) : State := (axisCut s a).modAxis a (Axis.dead .disabled)

/-- HALT entry on one axis (R47, R410, R417, R425): at rest at once, at idle current. -/
def haltAxis (s : State) (a : Fin 16) : State :=
  let s := stopAxisAtOnce (reachedFirst s a) a
  s.modAxis a fun x => if x.state == .disabled || x.state == .fenced then x else { x with idleI := true }

/-- The axis goes to STOPPING (R417): it decelerates at its stop deceleration, and AXIS_AT_REST ends it. -/
def rampAxis (s : State) (a : Fin 16) (thenDisable : Bool) : State :=
  match s.axs[a].state with
  | .homing | .moving | .group | .geared =>
    let moving := s.axs[a].state != .geared
    s.modAxis a fun x => { x with state := .stopping, homing := none, thenDisable := thenDisable
                                  gearLock := none, move := if moving then some (x.move.getD ⟨0, 0, 0, 0, false⟩) else none }
  | _ => s

/-- AXIS_STOP kind 0 or 2 on a group member stops the whole group, and only the lowest-numbered member raises the end
event when it is at rest (R420). -/
def rampGroup (s : State) (a : Fin 16) (thenDisable : Bool) : State :=
  if s.axs[a].state == .group then
    let g := s.axs[a].group
    overAxes s fun t b =>
      if t.axs[b].state == .group && t.axs[b].group == g then
        let lead := groupLead t b
        (rampAxis t b (thenDisable && b == a)).modAxis b fun x => if lead then x else { x with move := none }
      else t
  else rampAxis s a thenDisable

/-- A stop at once on a group member stops every member (R420). -/
def stopGroup (s : State) (a : Fin 16) : State :=
  if s.axs[a].state == .group then
    let g := s.axs[a].group
    overAxes s fun t b => if t.axs[b].state == .group && t.axs[b].group == g then stopAxisAtOnce t b else t
  else stopAxisAtOnce s a

/-! ## Start of a move (R418) -/

/-- An accepted move: the next identifier of the axis, its target and its limits; a replaced move raises nothing. -/
def startMove (s : State) (a : Fin 16) (m : Move) (target : Int) : State :=
  s.modAxis a fun x => { x with
    state := .moving, target := target, moveId := x.moveId + 1, move := some m
    idleI := false, thenDisable := false, stallRun := 0, stalled := false }

/-- A move of the device's own (capping, diverters) with the recipe's default limits; nothing on an axis that is not
enabled or is fenced. -/
def ownMove (s : State) (a : Nat) (target : Int) : State :=
  if h : a < 16 then
    let x := s.axs[a]
    if !axEnabled (axisOf s ⟨a, h⟩) || x.state == .fenced then s
    else startMove s ⟨a, h⟩ ⟨0, 0, 0, 0, false⟩ target
  else s

end Sys2Proof.Machine
end

