-- ==== Sys2Proof/Machine/Reaction.lean ====
section
/-!
DEFINITION. The fault fabric's reactions (R500..R521): entry to HALT and RUNOUT, path stops, fencing, the recording of
a raise, its delivery, and the mode changes that follow from what is in flight (R43, R398).
-/

namespace Sys2Proof.Machine

/-! ## Device up -/

/-- In mode RESET nothing runs (R41): an event leaves the state as it is. -/
def whenUp (s : State) (f : State → State) : State := if s.sys.mode == .reset then s else f s

/-! ## Injection (R519, R520) -/

/-- An armed injection ends, with its unused count. -/
def endInjection (s : State) : State :=
  match s.flt.inject with
  | none => s
  | some i => raise (s.modFlt fun f => { f with inject := none }) 0xFD (i.src.1 + 65536 * i.left)

/-- A check of a source's detector that an armed injection of kind 0 inverts (R519): the raises of that source that the
detection has put on their way since `before` carry the mark, and one count is used. -/
def injected (before : State) (src : Nat) (s : State) : State :=
  match s.flt.inject with
  | none => s
  | some i =>
    if i.kind = 0 && i.src.1 == src && decide (0 < i.left) then
      s.modFlt fun f => { f with
        inject := some { i with left := i.left - 1 }
        inbox := f.inbox.zipIdx.map fun (x : Raise × Nat) =>
          if before.flt.inbox.length ≤ x.2 ∧ x.1.src = i.src then { x.1 with injected := true } else x.1 }
    else s

/-- A mode change with what HVEN follows from it (R466); an injection ends when the device leaves SERVICE (R520). -/
def enterMode (s : State) (m : Mode) : State :=
  let leaves := s.sys.mode == .service && m != .service
  let s := hvUpdate (setMode s m)
  if leaves then endInjection s else s

/-! ## ALIVE (R513) -/

/-- Whether ALIVE may toggle. -/
def aliveOk (s : State) : Bool :=
  let l := Nat.max 1 s.flt.aliveLevel
  s.sys.up && s.sys.mode != .halt && s.sys.mode != .reset && !s.pins.aliveStopped &&
  !(s.flt.src.toList.any fun x => match x.pend with | some p => decide (l ≤ p.toNat) | none => false)

/-- ALIVE goes low when a condition fails; it starts again only at the 1 ms tick. -/
def aliveUpdate (s : State) : State := if aliveOk s then s else s.modPins fun p => { p with aliveRun := false }

/-! ## Detections with a count -/

/-- A detection that stands for several raises (R404). -/
def raiseMany (s : State) (src detail count : Nat) : State :=
  s.modFlt fun x => { x with inbox := x.inbox ++ [⟨Fin.ofNat 256 src, BitVec.ofNat 32 detail, .log, false, count⟩] }

/-- A unit that takes itself out of service under its own rule counts as fenced (R509). -/
def selfFence (s : State) (src : Nat) : State := s.modSrc (Fin.ofNat 256 src) fun x => { x with fenced := true }

/-! ## Entry to HALT (R47, R403, R469) -/

/-- The outputs that HALT switches off: LDEN, HTR, the slots that drive them, motors, axes and ALIVE. -/
def haltOutputs (s : State) : State :=
  let s := { s with btu := s.btu.map fun (b : Station) => { b with lden := false } }
  let s := slotsOff s [1, 2, 3]
  let s := s.modCtl fun c => { c with hven := false, htr := Vector.replicate 4 false, htrNext := none }
  let s := overMotors s coast
  let s := overAxes s haltAxis
  s.modPins fun p => { p with aliveRun := false }

/-- Every committed sheet not yet completed is spoiled with a reason and completes where it stands (R47, R62, R403). -/
def spoilCommitted (s : State) (r : Spoil) : State :=
  (sheets s).foldl (fun s x => if x.2.open then completeSpoiled s x.1 r else s) s

/-! ## Standby measures that end with STANDBY (R76..R81, R465, R490) -/

/-- A fuser slot takes back its setpoint, with the ramp in force (R465). -/
def Loop.awake (b : List Byte) (l : Loop) : Loop :=
  if l.en && entKind (loopEntry b l.entry) == 1 then
    (match l.stored with | some (r, _) => { l with rTarget := r, stored := none } | none => l)
  else l

/-- Depth W4 ends: the fuser zones take back their setpoints, FCLK and SCLK their root-derived clocks (R77, R78). -/
def leaveFourth (s : State) : State :=
  let b := loopsBody s
  let s := s.modCtl fun c => { c with loops := c.loops.map (Loop.awake b) }
  s.modClk fun c => { c with fclkRef := false, sclkRoot := c.rootLock }

/-- The channels leave the self-refresh of depth W2 (R490). -/
def leaveRefresh (s : State) : State :=
  s.modDrc fun x => { x with ch := x.ch.map fun (c : Channel) => { c with sr := false } }

/-- The pixel synthesizers that depth W1 has stopped start again, each with a band and a column selected anew (R81). -/
def restartSynths (s : State) : State :=
  (List.finRange 6).foldl (fun s k =>
    if s.btu[k].lock == .off || s.clk.px[k].en then s else startSynth s k (stationBody s k.1)) s

/-- HALT from STANDBY (R43, R76): the clocks run as outside STANDBY again. The motors that a depth has stopped stay stopped,
heads stay CAPPED until a wake or HEAD_MAINTAIN (R344), and lanes GATED until a wake (R264). -/
def haltFromStandby (s : State) : State :=
  if s.sys.mode != .standby then s
  else
    let d := s.sys.depth
    let s := if 4 ≤ d then leaveFourth s else s
    let s := if 2 ≤ d then leaveRefresh s else s
    (restartSynths s).modSys fun x => { x with polygonsStopped := 0 }

/-- HALT entry with a spoil reason, its cause stored already: outputs, mode, sheets, bands and ingest. -/
def haltWith (s : State) (r : Spoil) : State :=
  if s.sys.mode == .halt then s
  else
    let s := haltOutputs (haltFromStandby s)
    let s := enterMode (s.modSys fun x => { x with wake := none, depthTarget := 0 }) .halt
    let s := spoilCommitted s r
    stopIngest (abandonAll s)

/-- HALT entry by a source (R43, R47, R507); a device in HALT already stays as it is. -/
def haltEntry (s : State) (src : Nat) : State :=
  if s.sys.mode == .halt || s.sys.mode == .reset then s else haltWith (causeBy s src) .halt

/-- A HALT that only reset leaves (R43). -/
def haltForGood (s : State) (src : Nat) : State :=
  (haltEntry s src).modSys fun x => { x with haltUntilReset := true }

/-! ## Entry to RUNOUT (R397, R398, R423) -/

/-- A picked sheet stops at the registration hold (R397): its T, TOFs, deadlines and fire instants are cancelled. -/
def holdSheet (s : State) (i : Fin 512) : State :=
  let s := s.modSheet i fun (e : Sheet) => { e with
    t := none, hold := true, windows := []
    marks := e.marks.map fun (m : Mark) => if m.kind == 0 then m else { m with run := .waiting, fired := 0, missed := false, dropped := false } }
  panicUpdate (s.modStp fun x => { x with st := x.st.map fun (y : SteepStation) =>
    { y with bands := y.bands.map fun (b : Band) => if b.sheet == i then { b with deadline := none } else b } })

/-- The lowest T of some sheets. -/
def firstT (l : List Sheet) : Nat := (l.filterMap (·.t)).foldl Nat.min (2 ^ 64)

/-- Where the deskew axis will stand when the edge that it holds reaches the gate (R423): its present POS and the counts left
to T at its gear. -/
def holdPhase (s : State) (a : Fin 16) (t : Nat) : State :=
  s.modAxis a fun x => { x with
    gateAt := if x.gearLock.isSome then some (x.finePos + (axGear (axisOf s a) : Int) * ((t : Int) - ppc s)) else none }

/-- Entry to RUNOUT from READY or PRINT, its cause stored already. -/
def runoutWith (s : State) : State :=
  let s := enterMode s .runout
  let s := s.modSys fun x => { x with held := true }
  let held := if holdAtGate s && !webMode s then
      (sheets s).filter fun x => x.2.state == .committed && !x.2.cancel &&
        (match x.2.t with | some t => decide (ppc s + holdMargin s < t) | none => false)
    else []
  let s := held.foldl (fun s x => holdSheet s x.1) s
  let s := if held.isEmpty then s
    else
      let s := s.modSeq fun q =>
        let left := q.ends.filter fun x => !(held.any fun y => y.2.order == x.1)
        { q with ends := left, lastEnd := left.head?.map (·.2) }
      overAxes s fun t a => if deskewMember t a.1 then rampAxis (holdPhase t a (firstT (held.map (·.2)))) a false else t
  let n := (sheets s).countP fun x => x.2.state == .committed && x.2.t.isNone
  if n = 0 then s
  else raise ((s.modSeq fun q => { q with flags := q.flags ||| 0x8 }).stick 0x1A24 8) 0xB4 n

/-- RUNOUT by a source (R43, R507). -/
def runoutEntry (s : State) (src : Nat) : State :=
  if s.sys.mode == .ready || s.sys.mode == .print then runoutWith (causeBy s src) else s

/-! ## Path stops (R401) -/

/-- Windows are evaluated: not in HALT, nor while a path stop is in force. -/
def windowsOpen (s : State) : Bool := s.sys.mode != .halt && s.seq.pathStop.isNone

/-- The sheet that a sensor expects next: picked, its leading edge not seen there, lowest T. -/
def expectedAt (s : State) (k : Nat) : Option (Fin 512 × Sheet × Window) :=
  (sheets s).foldl (fun (m : Option (Fin 512 × Sheet × Window)) x =>
    if !x.2.picked then m
    else match x.2.windows.find? fun w => w.sensor == k && w.lead.isNone with
      | none => m
      | some w => match m with
        | some y => if x.2.t.getD 0 < y.2.1.t.getD 0 then some (x.1, x.2, w) else m
        | none => some (x.1, x.2, w)) none

/-- The leading edge of a sheet at the gate is still to come in this cycle, in its window (R21). -/
def gateComes (s : State) (i : Fin 512) : Bool :=
  windowsOpen s && !s.seq.psn.getLsbD (gateSensor s) &&
  (coming s fun c => match c with | .paperSensorEdge k true => k.1 == gateSensor s | _ => false) &&
  match expectedAt s (gateSensor s) with
  | some (j, _, w) => j == i && decide (w.start ≤ (ppc s : Int)) && decide ((ppc s : Int) ≤ w.stop)
  | none => false

/-- The trailing edge of a sheet at its exit sensor is still to come in this cycle, in its window (R394). -/
def exitComes (s : State) (e : Sheet) : Bool :=
  windowsOpen s && e.state == .pastGate && match e.route with
  | none => false
  | some d =>
    let k := destExit s d
    s.seq.psn.getLsbD k && (coming s fun c => match c with | .paperSensorEdge j false => j.1 == k | _ => false) &&
      e.windows.any fun w => w.sensor == k && !w.trailed && match w.lead with
        | some l => decide (l + 16 * e.length ≤ ppc s + tailTol s e.media) && decide (ppc s ≤ l + 16 * e.length + tailTol s e.media)
        | none => false

/-- What a path stop leaves standing of its own cycle (R404): a completion, and a passage of the gate. -/
def beforeStop (s : State) : State :=
  let out := (sheets s).filter fun x => exitComes s x.2
  let in_ := (sheets s).filter fun x => gateComes s x.1
  let s := out.foldl (fun s x => completeSheet s x.1) s
  in_.foldl (fun s x => s.modSheet x.1 fun e => if e.state == .committed then { e with state := .pastGate, gated := true } else e) s

/-- The sheet sequencer owns the paper-path axes, and those with a gear go to GEARED (R194, R421). -/
def gearPath (s : State) : State :=
  overAxes s fun t a =>
    if !pathAxis t a.1 then t
    else
      let e := axisOf t a
      t.modAxis a fun x =>
        if axGear e != 0 && axEnabled e && (x.state == .idle || x.state == .disabled) then
          { x with owned := true, state := .geared, gearLock := none, move := none, idleI := false, thenDisable := false }
        else { x with owned := true }

/-- A path stop: every picked sheet is spoiled and completes, HELD is set, M6 and the paper-path axes decelerate, and
SEQ_JAM or SEQ_STOP is raised. While one is in force no further one begins. -/
def pathStop (s : State) (r : Spoil) (sensor kind sheet count : Nat) : State :=
  if s.seq.pathStop.isSome then s
  else
    let jam := r == .jam
    let s := ((beforeStop s).stick 0x1A24 (if jam then 1 else 2)).modSeq fun q => { q with
      pathStop := some ⟨r, false⟩, jamReason := r.code, jamSheet := sheet
      jamSensor := if jam then sensor else q.jamSensor, jamKind := if jam then kind else q.jamKind
      flags := q.flags ||| (if jam then 0x1 else 0x2) }
    let s := (sheets s).foldl (fun s x => if x.2.picked then completeSpoiled s x.1 r else s) s
    let s := (panicUpdate s).modSys fun x => { x with held := true }
    let s := controlledStop s 6
    let s := overAxes s fun t a => if pathAxis t a.1 then rampAxis t a false else t
    if jam then raiseMany s 0xB1 (sensor + 32 * kind + 65536 * sheet) count
    else raise s 0xB2 r.code

/-- A unit that the sheet sequencer owns has stopped (R194, R401, R510). -/
def ownedStop (s : State) : State := pathStop s .stop 0 0 0 1

/-! ## Fencing (R509, R510) -/

/-- An axis is fenced (R417), except a DISABLED one, which stays as it is; when the sequencer owns it, a path stop
begins. -/
def fenceAxis (s : State) (a : Fin 16) : State :=
  if s.axs[a].state == .fenced then s
  else
    let s := reachedFirst s a
    let owned := s.axs[a].owned
    let s := if s.axs[a].state == .disabled then s else (stopGroup s a).modAxis a (Axis.dead .fenced)
    if owned then ownedStop s else s

/-- A channel is fenced; when the sequencer owns it, a path stop begins. -/
def fenceChannel (s : State) (m : Fin 10) : State :=
  if s.mot.ch[m].state == .fenced then s
  else
    let owned := s.mot.ch[m].owned
    let s := fenceMotor s m
    if owned then ownedStop s else s

/-- A slot is held off by a source 0xE0..0xE7. -/
def fenceSlot (s : State) (src : Nat) (n : Fin 160) : State :=
  hvUpdate (s.modLoop n fun l => { l.toOff with fence := l.fence ||| BitVec.ofNat 8 (2 ^ (src - 0xE0)) })

/-- Whether a source has a unit (R509), with its detail. -/
def hasUnit (src : Nat) : Bool :=
  src == 0x10 || (decide (0x30 ≤ src) && decide (src ≤ 0x4B)) || src == 0x56 ||
  (decide (0x60 ≤ src) && decide (src ≤ 0x9F)) || (decide (0xC0 ≤ src) && decide (src ≤ 0xD9)) ||
  (decide (0xE0 ≤ src) && decide (src ≤ 0xE4)) || src == 0xE7

/-- The unit of a source goes into its fenced state (R509). -/
def fenceUnit (s : State) (src detail : Nat) : State :=
  if src < 0x30 then s
  else if src < 0x40 then fenceLane s (.dec (Fin.ofNat 16 (src - 0x30)))
  else if src < 0x4C then fenceLane s (.enc (Fin.ofNat 12 (src - 0x40)))
  else if src = 0x56 then
    let k := Fin.ofNat 6 detail
    fenceStation (s.modBtu k fun b => { b with slotFence := true }) k
  else if 0x60 ≤ src ∧ src < 0x90 then fenceStation s (Fin.ofNat 6 ((src - 0x60) / 8))
  else if 0x90 ≤ src ∧ src < 0xA0 then fenceHead s (Fin.ofNat 8 ((src - 0x90) / 2))
  else if 0xC0 ≤ src ∧ src < 0xD0 then fenceAxis s (Fin.ofNat 16 (src - 0xC0))
  else if 0xD0 ≤ src ∧ src < 0xDA then fenceChannel s (Fin.ofNat 10 (src - 0xD0))
  else if 0xE0 ≤ src ∧ src ≤ 0xE7 then
    (if h : detail % 256 < 160 then fenceSlot s src ⟨detail % 256, h⟩ else s)
  else s

/-! ## Delivery (R113, R514, R515) -/

/-- The 16 bytes of an event ring entry (R514). -/
def eventBytes (src : Fin 256) (flags raises : Nat) (detail : Word) (position time : Nat) : List Byte :=
  leBytes 1 src.1 ++ leBytes 1 flags ++ leBytes 2 (min 65535 raises) ++ leBytes 4 detail.toNat ++
  leBytes 4 position ++ leBytes 4 time

/-- An entry becomes due (R113, R515): it is written when the ring is enabled and not full, lost when it is full, and
not written when the ring is disabled; the message of an entry at NOTE or above is sent in every case. DESIGN CHOICE, log 118:
every entry written, a LOG entry too, has its HEAD write-back, of four bytes. -/
def postEvent (s : State) (src : Fin 256) (l : Level) (flags raises : Nat) (detail : Word) (position time : Nat) :
    State :=
  let e := s.hif.ev
  let s :=
    if !e.en then s
    else if 2 ^ e.log2n ≤ (e.head - e.ctail).toNat then
      s.modHif fun h => { h with ev := { e with lost := inc32 e.lost, lostFlag := true } }
    else
      let entry := eventBytes src (flags + 8 * bit e.lostFlag) raises detail position time
      let slot := e.head.toNat % 2 ^ e.log2n
      let s := emit s (.write (e.base + BitVec.ofNat 64 (16 * slot)) entry)
      let s := s.modHif fun h => { h with ev := { e with head := e.head + 1, lostFlag := false } }
      if e.wb == 0 then s else emit s (.write e.wb (leBytes 4 (e.head + 1).toNat))
  if l == .log then s else sendMsix s s.flt.src[src].vector

/-- The entry that a source's coalescing has gathered is written (R515). -/
def postCoalesced (s : State) (src : Fin 256) (c : Coalesce) (first : Bool) : State :=
  postEvent s src c.level (c.level.toNat + 16 * bit c.injected + 32 * bit first) c.raises c.detail c.position c.time

/-- The raises of the same source and cycle still on their way, injected where this one is real, or the other way (R523). -/
def twins (s : State) (r : Raise) : List Raise := s.flt.inbox.filter fun q => q.src == r.src && q.injected != r.injected

/-- A raise together with its twins: both counted, the detail of the later, INJECTED set. -/
def withTwins (s : State) (r : Raise) : Raise :=
  (twins s r).foldl (fun m q => { m with count := m.count + q.count, detail := q.detail, injected := true }) r

/-- The ring's side of a raise of a source with route bit 0 (R515); what an entry covers already is not told again (R523). -/
def deliverEvent (s : State) (r : Raise) (l : Level) (first : Bool) : State :=
  let x := s.flt.src[r.src]
  if !x.route.getLsbD 0 then s
  else if s.flt.covered.contains r.src then s.modFlt fun f => { f with covered := f.covered.erase r.src }
  else
    let s := s.modFlt fun f => { f with covered := f.covered ++ (twins s r).map (·.src) }
    let r := withTwins s r
    let now : Coalesce := ⟨l, r.count, r.detail, ppc s % 2 ^ 32, usNow s % 2 ^ 32, r.injected⟩
    let atOnce := fun (s : State) =>
      postCoalesced (s.modSrc r.src fun y => { y with coalesce := some none, coalesceLevel := l }) r.src now first
    match x.coalesce with
    | none => atOnce s
    | some got =>
      if decide (l.toNat ≤ x.coalesceLevel.toNat) then
        let merged := match got with
          | none => now
          | some c => { c with level := Level.max c.level l, raises := min 65535 (c.raises + r.count), detail := r.detail
                               injected := c.injected || r.injected }
        s.modSrc r.src fun y => { y with coalesce := some (some merged) }
      else
        atOnce (match got with | some c => postCoalesced s r.src c false | none => s)

/-! ## Interruptions (R521) -/

/-- The raises by which a restoration reports itself. -/
def selfReport (src detail : Nat) : Bool :=
  [0x11, 0x12, 0x20, 0x23, 0x4C, 0x4D, 0x52, 0x54, 0xE9].contains src || (src == 0xE7 && fieldOf detail 8 8 == 1)

/-- Whether the service that a lane's raise interrupts still waits for its restoration. -/
def interrupted (s : State) (src : Nat) : Bool :=
  (decide (0x30 ≤ src) && decide (src ≤ 0x3F) &&
    s.stp.st.any fun x => x.bands.any fun b => b.waiting && b.migrating) ||
  (decide (0x40 ≤ src) && decide (src ≤ 0x4B) &&
    s.cad.ingest.any fun d => igKind d.bytes == 1 && (match d.phase with | .reading none => true | _ => false))

/-- FLT_SECOND, and the start of an interruption. -/
def interruption (s : State) (r : Raise) (l : Level) : State :=
  let s := match s.flt.interruption with
    | some k =>
      if (l == .note || l == .fence) && k != r.src && r.src.1 != 0xFE && !selfReport r.src.1 r.detail.toNat then
        raise s 0xFE (k.1 + 256 * r.src.1)
      else s
    | none => s
  if s.flt.interruption.isNone && interrupted s r.src.1 then s.modFlt fun f => { f with interruption := some r.src } else s

/-! ## Recording a raise (R505..R507, R517, R518) -/

/-- The number of a pending level; 0 when not pending, since LOG is never pending. -/
def pendNum (o : Option Level) : Nat := match o with | some l => l.toNat | none => 0


/-- What the fabric stores of a raise (R505, R506). -/
def storeRaise (s : State) (r : Raise) (l : Level) : State :=
  let x := s.flt.src[r.src]
  let first := x.raises == 0
  let pend := if l == .log then x.pend
    else match x.pend with | some p => some (Level.max p l) | none => some l
  let newly := x.pend.isNone && pend.isSome
  let s := s.modFlt fun f => { f with order := if newly then f.order + 1 else f.order
                                      total := satAdd 32 f.total r.count }
  let s := if s.flt.before.any (·.1 == r.src) then s else s.modFlt fun f => { f with before := f.before ++ [(r.src, x)] }
  s.modSrc r.src fun y => { y with
    raises := satAdd 32 y.raises r.count, latest := r.detail, pend := pend, raisedAt := some s.now
    order := if newly then s.flt.order else y.order
    first := if first then r.detail else y.first
    position := if first then ppc s % 2 ^ 64 else y.position }

/-- The source that LAST_CAUSE takes when raises of one cycle move the mode (R523): that of the highest raised level, and the
lowest-numbered among equals, of the one that is recorded and those still on their way. -/
def cycleCause (s : State) (src : Fin 256) (l : Level) : Nat :=
  let better := fun (a b : Nat × Nat) => decide (a.1 < b.1) || a.1 == b.1 && decide (b.2 < a.2)
  (s.flt.inbox.foldl (fun m r =>
    let x := ((raisedLevel s r).toNat, r.src.1)
    if better m x then x else m) (l.toNat, src.1)).2

/-- The reaction of a raised level (R507): each level includes those of the lower ones. -/
def react (s : State) (r : Raise) (l : Level) : State :=
  let src := r.src.1
  let s := if decide (2 ≤ l.toNat) && hasUnit src then selfFence (fenceUnit s src r.detail.toNat) src else s
  let cause := cycleCause s r.src l
  if l == .halt then haltEntry s cause
  else if l == .runout then runoutEntry s cause
  else s

/-- An alarm source queues its alarm (R518). -/
def queueAlarm (s : State) (src : Fin 256) : State :=
  if src.1 == 0xF0 || src.1 == 0xF1 || src.1 == 0xF2 then
    s.modFlt fun f => if f.alarms.length < 16 then { f with alarms := f.alarms ++ [src] }
      else { f with alarmsLost := satAdd 8 f.alarmsLost 1 }
  else s

/-- The fabric records a raise and carries out its reaction. -/
def recordRaise (s : State) (r : Raise) : State :=
  let l := raisedLevel s r
  let x := s.flt.src[r.src]
  let lifts := decide (2 ≤ l.toNat) && decide (pendNum x.pend < l.toNat)
  let s := storeRaise s r l
  let s := deliverEvent s r l (x.raises == 0)
  let s := queueAlarm s r.src
  let s := s.modSeq fun q => match q.pathStop with
    | some p => if (r.src.1 == 0xB1 && p.reason == .jam) || (r.src.1 == 0xB2 && p.reason != .jam)
                then { q with pathStop := some { p with raised := true } } else q
    | none => q
  let s := react s r l
  let s := if lifts then journalEvent s 0 r.src.1 l r.detail else s
  aliveUpdate (interruption s r l)

/-- The oldest detection on its way is recorded. -/
def recordOldest (s : State) : State :=
  match s.flt.inbox with
  | [] => s
  | r :: rest => recordRaise (s.modFlt fun f => { f with inbox := rest }) r

/-- The detections on their way are recorded. -/
def recordAll (s : State) : State := iter recordOldest s.flt.inbox.length s

/-! ## Mode changes that follow from what is in flight (R43, R398, R400) -/

/-- Paper at an enabled sensor on entry to READY is a STRAY jam (R400); the lowest sensor is named. -/
def strayCheck (s : State) : State :=
  let at_ := (List.range 32).filter fun k => s.seq.psn.getLsbD k && bitOf (sensorFlags s k) 0
  match at_ with
  | [] => s
  | k :: _ => pathStop s .jam k 5 0 at_.length

/-- Entry to READY. -/
def enterReady (s : State) : State := strayCheck (enterMode s .ready)

/-- Whether a committed sheet still has a ledger entry (R43). -/
def committedLeft (s : State) : Bool := s.led.entries.toList.any fun o => match o with
  | some e => e.state != .admitted
  | none => false

/-- PRINT ends when the last committed sheet's entry is freed, RUNOUT when no sheet past the commit point remains and
no fault at RUNOUT or above is pending (R43); HELD clears in READY and PRINT without a path stop (R398). -/
def settle (s : State) : State :=
  let s :=
    if s.sys.mode == .print && !committedLeft s then enterReady s
    else if s.sys.mode == .runout && !pendingAtLeast s .runout &&
        !(s.led.entries.toList.any fun o => match o with | some e => e.state == .pastGate | none => false) then enterReady s
    else s
  if (s.sys.mode == .ready || s.sys.mode == .print) && s.seq.pathStop.isNone && s.sys.held then
    s.modSys fun x => { x with held := false }
  else s

end Sys2Proof.Machine
end

