-- ==== Sys2Proof/Machine/ModeOps.lean ====
section
/-!
DEFINITION. Standby depths and wakes (R48..R53), and the moves between STANDBY and the other modes that several
commands make.
-/

namespace Sys2Proof.Machine

/-! ## Wake estimates (R51, R52) -/

/-- Zone Z0 as measured, in °C: the fuser-zone slot with target 0 (R465); 0 without one. -/
def zoneZero (s : State) : Nat :=
  match s.ctl.loops.toList.find? fun l => l.en && entKind (slotEntry s l) == 1 && entTarget (slotEntry s l) == 0 with
  | some l => (Max.max 0 l.y).toNat / 4
  | none => 0

/-- The bin of zone Z0 (R52): 16 bins of 16 °C. -/
def zoneBin (s : State) : Fin 16 := Fin.ofNat 16 (min 15 (zoneZero s / 16))

/-- The learned heat-up time of a bin (R52): its own, that of the nearest filled bin below, or the recipe's nominal
time. -/
def heatUp (s : State) (b : Nat) : Nat :=
  match (List.range (b + 1)).reverse.findSome? fun k => getN s.sys.bins k none with
  | some v => v
  | none => u32 (deviceBody s) 0x08

/-- A measured estimate: the largest of 8 wakes, or its default until 8 are measured. -/
def measuredWake (l : List Nat) (default : Nat) : Nat := if l.length < 8 then default else l.foldl Nat.max 0

/-- The wake estimate of W1..W4 [ms] (R51). -/
def wakeEstimate (s : State) : Nat → Nat
  | 1 => measuredWake s.sys.wakes1 1
  | 2 => measuredWake s.sys.wakes2 100
  | 3 => measuredWake s.sys.wakes3 5000
  | _ => Nat.max (measuredWake s.sys.wakes3 5000) (heatUp s (zoneBin s).1)

/-- The deepest depth whose estimate is at most the budget; W1 when none fits (R49). -/
def selectDepth (s : State) : Nat :=
  if wakeEstimate s 4 ≤ s.sys.wakeBudget then 4
  else if wakeEstimate s 3 ≤ s.sys.wakeBudget then 3
  else if wakeEstimate s 2 ≤ s.sys.wakeBudget then 2
  else 1

/-! ## Measures of a depth -/

/-- A channel enters self-refresh (R490): its owed refreshes are issued first. -/
def selfRefresh (c : Channel) : Channel :=
  if c.up && !c.sr then { c with sr := true, owed := 0, srEntries := inc32 c.srEntries } else c

/-- Capping or uncapping a head (R345): the capping axis moves, and the state changes when it has; without a capping
axis the state changes at once. -/
def startCap (s : State) (h : Fin 8) (cap : Bool) : State :=
  let b := headBody s h.1
  if b.isEmpty || hdCapAxis b == 0xFF then capHead s h cap
  else ownMove (s.modHead h fun x => { x with capMove := some cap }) (hdCapAxis b) (if cap then hdCapPos b else hdUncapPos b)

/-- A fuser slot in a law mode takes the standby setpoint of its entry, under LOOPS body b (R465). -/
def Loop.standby (b : List Byte) (l : Loop) : Loop :=
  let e := loopEntry b l.entry
  if l.en && entKind e == 1 && l.mode.law then { l with stored := some (l.rTarget, l.ramp), rTarget := entStandby e }
  else l

/-- The measures added at a depth. -/
def enterDepth (s : State) (d : Nat) : State :=
  let s := s.modSys fun x => { x with depth := d }
  match d with
  | 1 =>
    let s := gateLanes s
    (List.finRange 6).foldl (fun s k => if s.clk.px[k].en then stopSynth s k else s) s
  | 2 => hvUpdate (s.modDrc fun x => { x with ch := x.ch.map selfRefresh })
  | 3 =>
    let run := (List.finRange 6).filter fun k => (s.mot.ch[k.1]).state.driving || (s.mot.ch[k.1]).state == .catching
    let mask := BitVec.ofNat 6 (s.sys.polygonsStopped.toNat ||| (run.map fun k => 2 ^ k.1).sum)
    let s := s.modSys fun x => { x with polygonsStopped := mask }
    let s := run.foldl (fun s k => controlledStop s (Fin.ofNat 10 k.1)) s
    let s := (List.finRange 6).foldl (fun s k => if s.btu[k].lock == .off then s else stationOff s k true) s
    (List.finRange 8).foldl (fun s h => if s.hdp[h].state == .idle then startCap s h true else s) s
  | 4 =>
    let b := loopsBody s
    let s := s.modCtl fun c => { c with loops := c.loops.map (Loop.standby b) }
    s.modClk fun c => { c with fclkRef := true, sclkRoot := false }
  | _ => s

/-- The measures of a depth are undone. -/
def leaveOne (s : State) (d : Nat) : State :=
  match d with
  | 1 =>
    restartSynths (ungateLanes s)
  | 2 => leaveRefresh s
  | 3 =>
    let s := (List.finRange 6).foldl (fun s k =>
      if s.sys.polygonsStopped.getLsbD k.1 then startMotor s (Fin.ofNat 10 k.1) (s.mot.ch[k.1]).setpoint else s) s
    let s := s.modSys fun x => { x with polygonsStopped := 0 }
    (List.finRange 8).foldl (fun s h =>
      if s.hdp[h].state == .capped || s.hdp[h].capMove == some true then startCap s h false else s) s
  | 4 => leaveFourth s
  | _ => s

/-- From a depth to a shallower one, or to 0 for a wake: the deeper measures go first. -/
def leaveDepth (s : State) (old new : Nat) : State :=
  ([4, 3, 2, 1].filter fun d => decide (d ≤ old) && decide (new < d)).foldl leaveOne s

/-- The depth is selected anew (R50): a shallower one is woken to at once, a deeper one is entered later. -/
def reselect (s : State) : State :=
  if s.sys.mode != .standby || s.sys.wake.isSome then s
  else
    let new := selectDepth s
    let old := s.sys.depth
    if new < old then hvUpdate ((leaveDepth s old new).modSys fun x => { x with depth := new, depthTarget := 0 })
    else s.modSys fun x => { x with depthTarget := if old < new then new else 0 }

/-- A change of an estimate selects the depth anew (R50); not while DRAM_TRAIN holds the device at W1 (R199). -/
def reselectChanged (s : State) : State :=
  if s.sys.mode == .standby && s.drc.training.isNone &&
      selectDepth s != (if s.sys.depthTarget = 0 then s.sys.depth else s.sys.depthTarget) then reselect s
  else s

/-! ## Entry to STANDBY (R43, R49, R219, R363) -/

/-- STANDBY at the depth that the wake budget chooses. -/
def standbyEntry (s : State) : State :=
  let s := enterMode s .standby
  let s := stopIngest s
  let s := requestSeal s
  let d := selectDepth s
  let s := s.modSys fun x => { x with bootStage := 7, depthTarget := 0, wake := none }
  hvUpdate (([1, 2, 3, 4].filter fun k => decide (k ≤ d)).foldl enterDepth s)

/-- A wake begins (R43, R53): a deeper entry not yet made is dropped, and the measures taken are undone. -/
def wakeStart (s : State) : State :=
  let d := s.sys.depth
  (leaveDepth s d 0).modSys fun x => { x with wake := some ⟨d, (zoneBin s).1⟩, depthTarget := 0 }

/-! ## The required set (R43, R182) -/

/-- Every recipe that the part requires is active. -/
def requiredSet (s : State) : Bool :=
  [0x0001, 0x0002, 0x0003, 0x0030, 0x0031, 0x0032, 0x0040].all (recipeOn s) &&
  (List.range 6).all fun k => !stationOn s k || (activeRecipe s 0x0010 k).isSome

end Sys2Proof.Machine
end

