-- ==== Sys2Proof/Machine/Flags.lean ====
section
/-!
DEFINITION. The status words and flags that software sees: the value of every register of the map (R104), and what a
write does to those that can be written (R8..R11).
-/

namespace Sys2Proof.Machine

/-- A value in a field of w bits that starts at bit p. -/
def atBit (p w v : Nat) : Nat := v % 2 ^ w * 2 ^ p

/-- The 32-bit halves of a 64-bit quantity (R12). -/
def loWord (v : Nat) : Nat := v % 2 ^ 32
def hiWord (v : Nat) : Nat := v / 2 ^ 32 % 2 ^ 32

/-- A vector of flags as a number, bit k first. -/
def mask (n : Nat) (p : Nat → Bool) : Nat := ((List.range n).map fun k => if p k then 2 ^ k else 0).sum

/-! ## What the next pick would take (R388..R390) -/

/-- The next committed sheet in commit order that has not been picked, held ones included. -/
def nextPick (s : State) : Option (Fin 512 × Sheet) :=
  (sheets s).foldl (fun m x =>
    if x.2.state == .committed && x.2.t.isNone && !x.2.cancel && x.2.since != some s.now then
      match m with
      | some y => if x.2.order < y.2.order then some x else m
      | none => some x
    else m) none

/-- Commit order of the next sheet to be picked. -/
def nextOrder (s : State) : Option Nat := (nextPick s).map fun x => x.2.order

/-- G in force for a sheet (R389, R390): the gap of its media class times the throttle factor, rounded up (log 46). -/
def pickGap (s : State) (e : Sheet) : Nat :=
  let g := mediaGap s e.media
  match s.tmp.step with
  | 0 => g
  | 1 => (g * 5 + 3) / 4
  | 2 => (g * 6 + 3) / 4
  | _ => g * 2

/-- Counts from the pick of a sheet to its T: PICK_LEAD, and HOLD_TO_GATE for a sheet at the registration hold (R389,
R397). -/
def leadToT (s : State) (e : Sheet) : Nat := if e.hold then holdToGate (motionBody s) else pickLead s

/-- T of a pick made now (R389): the smallest multiple of 256 that meets both bounds. -/
def pickT (s : State) (e : Sheet) : Nat :=
  let a := ppc s + leadToT s e
  let b := match s.seq.lastEnd with | some x => x + pickGap s e | none => 0
  (Nat.max a b + 255) / 256 * 256

/-- The next T is due (R389): the pick takes place at T less that distance (log 75). -/
def pickDue (s : State) (e : Sheet) : Bool := decide (pickT s e ≤ ppc s + leadToT s e)

/-- A head that fires a field of the sheet is HELD, and HEAD_WAIT has not elapsed (R390). -/
def headHolds (s : State) (e : Sheet) : Bool :=
  s.seq.headWaited != some e.order && e.marks.any fun m => m.kind != 0 && (getN s.hdp m.by_ {}).state == .held

/-- The condition that the next pick waits on (R388, R390), numbered as SEQ_STATUS.WAIT: 0 none. -/
def waitCode (s : State) : Nat :=
  match nextPick s with
  | none => 0
  | some (_, e) =>
    if s.sys.held || !(s.sys.mode == .ready || s.sys.mode == .print) then 1
    else if !m6InTolerance s then 2
    else if (List.range 6).any fun k => e.mask.getLsbD k && (getN s.btu k {}).lock != .locked then 3
    else if !s.seq.fuserReady then 4
    else if headHolds s e then 5
    else if !pickDue s e then 6
    else 0

/-! ## Rates (R90) -/

/-- The counter's rate [counts per XCLK cycle, 32 fraction bits]: the increment over the mean of the last edge
intervals, or M6's measured speed scaled by the recipe factor. -/
def ppcStep (s : State) : Nat :=
  match s.clk.ppcSrc with
  | .frozen => 0
  | .m6 => s.clk.fbInc * (s.mot.ch[6]).speed / (6000 * 200000000)
  | _ =>
    let inc := if s.clk.ppcSrc == .enc0 then s.clk.inc else s.clk.fbInc
    let t := s.clk.intervals.sum
    if t = 0 then 0 else inc * s.clk.intervals.length / t

/-- PPC_RATE (R98): counts per ms. -/
def ppcRate (s : State) : Nat := ppcStep s * 200000 / 2 ^ 32

/-! ## Pending sources (R505, R524) -/

/-- The highest pending level, none when nothing is pending. -/
def highestPending (s : State) : Option Nat :=
  s.flt.src.toList.foldl (fun m x => match x.pend with
    | some l => some (Nat.max l.toNat (m.getD 0))
    | none => m) none

/-- Sources pending. -/
def pendingCount (s : State) : Nat := s.flt.src.toList.countP (·.pend.isSome)

/-- The oldest pending source at the highest pending level (R202, R524). -/
def oldestPending (s : State) : Option (Fin 256) :=
  match highestPending s with
  | none => none
  | some l =>
    let at_ := (List.finRange 256).filter fun k => (match s.flt.src[k].pend with | some p => p.toNat == l | none => false)
    at_.foldl (fun m k => match m with
      | some j => if s.flt.src[k].order < s.flt.src[j].order then some k else m
      | none => some k) none

/-- Whether an enabled sensor reads paper (R402). -/
def paperSeen (s : State) : Bool := (List.range 32).any fun k => s.seq.psn.getLsbD k && bitOf (sensorFlags s k) 0

/-- Whether the cause of a source is present (R511): its detector still asserts a condition that the state shows
(log 45). Every other source is a single occurrence. The march test of STP_SLOT_READ is made by FAULT_CLEAR itself
(R281). -/
def causePresent (s : State) (src : Nat) : Bool :=
  let raised := (getN s.flt.src src {}).raises != 0
  match src with
  | 0x00 => raised && (match s.hif.link with | .held => true | .training => true | _ => false)
  | 0x56 => raised && s.stp.st.any fun x => decide (slotsInService x < 4)
  | 0xB1 => paperSeen s
  | 0xDA => decide (busBrakeOff (motorBody s) < s.mot.busV)
  | 0xDB => s.mot.softHold
  | 0xDC => decide (busBrakeOff (motorBody s) < s.mot.busV)
  | 0xDD => raised && decide (s.mot.busV < busUv (motorBody s))
  | 0xE5 => raised && !s.ctl.mains
  | 0xE6 => raised && s.ctl.hven && !s.pins.hvOk
  | 0xEC => raised && s.drc.ch.any fun c => c.broken || decide (380 ≤ c.temp)
  | 0xF4 => s.tmp.broken || decide (372 ≤ s.tmp.temp)
  | 0xF6 => !s.tmp.broken && decide (472 ≤ s.tmp.temp)
  | 0xF7 => !s.tmp.broken && decide (492 ≤ s.tmp.temp)
  | _ => false

/-! ## HIF_MODE (R41) -/

/-- HIF_MODE, and its mirrors MGT_MODE and SUP_MODE. -/
def modeWord (s : State) : Nat :=
  s.sys.mode.code + atBit 4 3 s.sys.depth + atBit 7 1 (bit (degraded s)) + atBit 8 1 (bit s.sys.svcLock) +
  atBit 9 1 (bit s.sys.held) + atBit 10 3 s.sys.bootStage + atBit 13 1 (bit s.sys.pwrLoss) +
  atBit 14 1 (bit s.sys.lcSrc) + atBit 16 8 s.sys.lastCause.toNat

/-! ## Rings (R106, R113) -/

/-- A register of a command or ingest ring. -/
def ringReg (r : Ring) (o : Nat) : Nat :=
  match o with
  | 0x00 => loWord r.base.toNat
  | 0x04 => hiWord r.base.toNat
  | 0x08 => r.log2n + atBit 8 1 (bit r.en) + atBit 9 1 (bit r.drained) + atBit 10 6 r.vector.1 + atBit 16 8 r.coal
  | 0x0C => r.tail.toNat
  | 0x10 => r.head.toNat + atBit 16 1 (bit (r.err != 0)) + atBit 17 3 r.err
  | 0x14 => loWord r.rbase.toNat
  | 0x18 => hiWord r.rbase.toNat
  | 0x1C => r.rhead.toNat
  | 0x20 => r.rtail.toNat
  | 0x24 => loWord r.wb.toNat
  | 0x28 => hiWord r.wb.toNat
  | _ => 0

/-- A register of the event ring; no entry of it is ever fetched, so DRAINED reads 1. -/
def eventReg (r : EventRing) (o : Nat) : Nat :=
  match o with
  | 0x00 => loWord r.base.toNat
  | 0x04 => hiWord r.base.toNat
  | 0x08 => r.log2n + atBit 8 1 (bit r.en) + atBit 9 1 1 + atBit 10 6 r.vector.1 + atBit 16 8 r.coal
  | 0x10 => r.head.toNat
  | 0x20 => r.ctail.toNat
  | 0x24 => loWord r.wb.toNat
  | 0x28 => hiWord r.wb.toNat
  | 0x2C => r.lost
  | _ => 0

/-- Whether the diagnostic window is open (R115, R118): BAR2_OPEN. -/
def bar2Open (s : State) : Bool := bar2Permitted s && s.hif.bar2En && (s.sys.mode == .service || !s.led.audit)

/-- The host interface's own blocks (R105, R106, R113, R114). -/
def hifReg (s : State) (o : Nat) : Nat :=
  let h := s.hif
  if o < 0x100 then
    match o with
    | 0x00 => idWord s
    | 0x08 => bit (bar2Open s) + atBit 1 1 (bit h.bar2Hit) + atBit 2 1 (bit h.bar2Write) + atBit 3 1 (bit h.ringErr) +
        atBit 4 1 (bit s.sys.compat) + atBit 5 1 (bit s.sys.sris)
    | 0x10 => atBit 0 8 h.bar2Window + atBit 8 1 (bit h.bar2En)
    | 0x40 => modeWord s
    | _ => 0
  else if o < 0x200 then ringReg (getN h.cr ((o - 0x100) / 0x40) {}) (o % 0x40)
  else if o < 0x400 then ringReg (getN h.ig ((o - 0x200) / 0x40) {}) (o % 0x40)
  else if o < 0x440 then eventReg h.ev (o - 0x400)
  else if 0x3000 ≤ o ∧ o < 0x3400 then
    let e := getN h.msix ((o - 0x3000) / 16) {}
    match o % 16 with
    | 0 => loWord e.addr.toNat
    | 4 => hiWord e.addr.toNat
    | 8 => e.data.toNat
    | _ => bit e.masked
  else if o = 0x3800 then loWord h.pba.toNat
  else if o = 0x3804 then hiWord h.pba.toNat
  else 0

/-! ## Clock block (R94..R98) -/

/-- Whether a clock output runs (R86, R94): it has a source, and a pixel-clock source runs. -/
def ckoOn (s : State) (n : Nat) : Bool :=
  let c := getN s.clk.cko n {}
  c.src != 0 && (decide (c.src < 4) || (getN s.clk.px (c.src - 4) {}).en)

/-- The number of a counter source (R94). -/
def PpcSource.code : PpcSource → Nat
  | .enc0 => 0 | .fallbackEncoder => 1 | .m6 => 2 | .frozen => 3

def clockReg (s : State) (o : Nat) : Nat :=
  let c := s.clk
  if 0x10 ≤ o ∧ o < 0x70 then
    let x := getN c.px ((o - 0x10) / 16) {}
    match o % 16 with
    | 0 => x.frac % 2 ^ 24 + atBit 24 8 x.int
    | 4 => bit x.en + atBit 1 1 (x.int / 256) + (if x.div = 0 then 0 else atBit 2 6 (x.div - 1)) + atBit 8 5 x.band +
        atBit 13 3 x.column + atBit 16 1 (bit x.changeDue) + atBit 17 1 (bit x.trimClamp)
    | 8 => x.seed
    | _ => fieldInt 16 x.trim + atBit 16 4 x.trimFacet
  else match o with
    | 0x00 => bit c.rootLock + atBit 1 1 (bit c.refOk) + atBit 2 1 (bit c.cmos) + atBit 3 1 (bit c.sclkRoot) +
        atBit 4 6 (mask 6 fun k => (getN c.px k {}).locked) + atBit 10 4 (mask 4 (ckoOn s)) + atBit 14 2 c.ppcSrc.code
    | 0x80 | 0x84 | 0x88 | 0x8C =>
      let x := getN c.cko ((o - 0x80) / 4) {}
      atBit 0 4 x.src + atBit 4 8 x.div + atBit 12 2 x.fmt + atBit 14 2 x.drive
    | 0xA0 => loWord (ppc s)
    | 0xA4 => hiWord (ppc s)
    | 0xA8 => loWord (ppcRate s)
    | 0xAC => c.backLimit % 65536 + atBit 16 3 c.fallback
    | 0xB0 => loWord c.inc
    | 0xB4 => hiWord c.inc
    | _ => 0

/-! ## Fault fabric (R524, R525) -/

def faultReg (s : State) (sel : Fin 256) (o : Nat) : Nat :=
  let f := s.flt
  let x := f.src[sel]
  let word := fun (p : Src → Bool) (w : Nat) => mask 32 fun k => p (getN f.src (32 * w + k) {})
  match o with
  | 0x00 => (highestPending s).getD 0xF + atBit 4 1 (bit s.pins.aliveRun) + atBit 5 1 (bit (degraded s)) +
      atBit 6 3 f.aliveLevel + atBit 16 9 (pendingCount s)
  | 0x04 => match oldestPending s with | some k => k.1 + 256 | none => 0
  | 0x08 => f.alarms.length + atBit 8 8 f.alarmsLost
  | 0x0C => match f.inject with
    | some i => i.src.1 + 256 + atBit 9 1 i.kind + atBit 16 16 i.left
    | none => 0
  | 0x10 => sel.1
  | 0x14 => x.sev.toNat + atBit 3 3 (sourceFloor sel.1).toNat + atBit 6 3 x.route.toNat + atBit 9 6 x.vector.1 +
      atBit 15 3 (match x.pend with | some l => l.toNat | none => 0) + atBit 18 1 (bit (causePresent s sel.1))
  | 0x18 => x.raises
  | 0x1C => x.latest.toNat
  | 0x60 => f.total
  | _ =>
    if 0x20 ≤ o ∧ o < 0x40 then word (fun y => y.pend.isSome) ((o - 0x20) / 4)
    else if 0x40 ≤ o ∧ o < 0x60 then word (fun y => y.fenced) ((o - 0x40) / 4)
    else 0

/-! ## Fuses and die temperature (R544) -/

/-- Spare rows used (R533): REDIRECT entries that are not blank. -/
def sparesUsed (s : State) : Nat := (List.range 16).countP fun k => getN s.fus.latched (240 + k) 0 != 0

/-- A FUSE_BURN, FUSE_LOCK_REGION or PROVISION is at work (R543). -/
def fuseBusy (s : State) : Bool :=
  s.ktl.parked.any fun p => p.wait == .hardware && (p.op == 0x6A || p.op == 0x6B || p.op == 0x7F)

/-- The words that a region requires (R526). -/
def requiredWords : Nat → List Nat
  | 0 => [0, 1, 2, 3, 15]
  | 1 => [16, 17]
  | 2 => [32, 33]
  | 3 => [96]
  | 4 => (List.range 29).map (128 + ·)
  | _ => []

/-- A region is incomplete when a required word of it reads blank (R536). -/
def regionIncomplete (s : State) (r : Nat) : Bool := (requiredWords r).any fun w => fuseWord s (Fin.ofNat 256 w) == 0

def fuseReg (s : State) (o : Nat) : Nat :=
  let f := s.fus
  let t := s.tmp
  match o with
  | 0x00 => bit f.sensed + atBit 1 1 (bit f.integrity) + atBit 2 1 (bit (f.margins != 0)) +
      atBit 3 1 (bit ((List.range 6).any fun r => bitOf (lockBits s) r && regionIncomplete s r)) +
      atBit 4 1 (bit (f.resensing && !fuseBusy s)) +
      atBit 8 8 (lockBits s) + atBit 16 5 (sparesUsed s)
  | 0x04 => f.wires.toNat
  | 0x08 => f.undecided.toNat
  | 0x0C => atBit 0 9 f.margins + atBit 16 16 f.differences
  | 0x10 => fieldInt 16 f.senseTemp + atBit 16 16 f.resenses
  | 0x14 => f.shadows.length
  | 0x40 => fieldInt 16 t.temp + atBit 16 2 t.step + atBit 18 1 (bit t.broken) + atBit 19 1 (bit t.warn) +
      atBit 20 1 (bit t.hot)
  | 0x44 => fieldInt 16 t.good + atBit 16 16 t.raw.toNat
  | 0x48 => fieldInt 16 t.peak
  | 0x4C => t.throttleMs
  | 0x50 => t.flags.toNat
  | _ => 0

/-! ## Caddy, codec and Steep (R234, R268, R290) -/

def caddyReg (s : State) (o : Nat) : Nat :=
  let c := s.cad
  match o with
  | 0x00 => bit (mirrorOn s) + atBit 1 1 (bit (decide (c.capPages ≠ 0) && decide (freeMib s < c.lowWater))) + atBit 2 1 (bit (!c.repairs.isEmpty)) +
      atBit 3 1 (bit c.lost)
  | 0x04 => c.lowWater % 65536 + atBit 16 6 c.threshold
  | 0x08 => c.capPages
  | 0x0C => freePages s
  | 0x10 => c.leaves.length
  | 0x14 => c.repaired
  | 0x18 => c.lostKey.toNat
  | 0x1C => c.lostJob.toNat
  | 0x20 => c.ingest.countP fun d => !(match d.phase with | .queued => true | _ => false)
  | _ => 0

/-- The registers of one lane. -/
def laneReg (l : Lane) (decode : Bool) (o : Nat) : Nat :=
  match o with
  | 0 => l.state.code + atBit 3 1 (bit (l.saved.isSome && l.state != .run)) +
      (if decode then atBit 8 8 l.epoch.toNat else 0) + atBit 16 8 l.lastOutcome + atBit 24 8 l.lastCause
  | 4 => l.attempts
  | 8 => l.fails
  | _ => min maxU32 (l.outBytes / 1048576)

def codecReg (s : State) (o : Nat) : Nat :=
  let c := s.cdc
  let both := fun (p : Lane → Bool) =>
    mask 16 (fun k => p (getN c.dec k {})) + 65536 * mask 12 (fun k => p (getN c.enc k {}))
  if 0x40 ≤ o ∧ o < 0x140 then laneReg (getN c.dec ((o - 0x40) / 16) {}) true (o % 16)
  else if 0x140 ≤ o ∧ o < 0x200 then laneReg (getN c.enc ((o - 0x140) / 16) {}) false (o % 16)
  else match o with
    | 0x00 => both (·.fence)
    | 0x04 => both fun l => l.state == .steep || l.state == .ingest || l.state == .run
    | 0x08 => both fun l => l.saved.isSome && l.state != .run
    | 0x0C => c.katPeriod
    | 0x10 => c.katRuns
    | _ => 0

/-- Decode lanes claimed (R277): a committed sheet that has not completed is in the ledger. -/
def claimed (s : State) : Bool := s.led.entries.toList.any fun o => match o with | some e => e.open | none => false

/-- The registers of a station's side of the Steep. -/
def steepStationReg (x : SteepStation) (o : Nat) : Nat :=
  match o with
  | 0 =>
    let v := verifiedLead x
    let lead := match v.2 with
      | some b => if b.deadline.isSome then leadOf x b else 0
      | none => 0
    let exposing := match x.bands.find? (·.state == .exposing) with | some b => b.band | none => 0
    lead + atBit 4 3 (min 4 v.1) + atBit 7 1 (bit (belowPanic x)) +
      atBit 8 6 (mask 6 fun k => (getN x.slots k {}).retired) + atBit 16 11 exposing
  | 4 => x.first
  | 8 => x.mirror
  | _ => x.blank

def steepReg (s : State) (o : Nat) : Nat :=
  let x := s.stp
  if 0x10 ≤ o ∧ o < 0x70 then steepStationReg (getN x.st ((o - 0x10) / 16) {}) (o % 16)
  else match o with
    | 0x00 => mask 6 (fun k => belowPanic (getN x.st k {})) + atBit 6 1 (bit x.panic) + atBit 7 1 (bit (claimed s))
    | 0x04 => x.lead
    | 0x70 => x.migrations
    | 0x74 => x.stale
    | 0x78 => min maxU32 ((x.panicTime + (if x.panic then s.now - x.panicFrom else 0)) / 200)
    | 0x7C => x.lastKey.toNat
    | _ => 0

/-! ## Beam timing and heads (R317, R348) -/

/-- FACET_PERIOD (R317): the mean of the last facet periods [ns]. -/
def facetPeriodNs (b : Station) : Nat :=
  meanFacet b / 1000

def beamReg (s : State) (o : Nat) : Nat :=
  let k := o / 0x100
  let b := getN s.btu k {}
  let p := o % 0x100
  if 0x20 ≤ p ∧ p < 0x40 then
    let w := (p - 0x20) / 4
    atBit 0 12 (getN b.apcLevel (2 * w) 0) + atBit 16 12 (getN b.apcLevel (2 * w + 1) 0)
  else if 0x40 ≤ p ∧ p < 0x50 then
    let r := stationBody s k
    let w := p - 0x40
    stTone r w + 256 * stTone r (w + 1) + 65536 * stTone r (w + 2) + 16777216 * stTone r (w + 3)
  else if 0x50 ≤ p ∧ p < 0x68 then
    let w := (p - 0x50) / 4
    fieldInt 16 (getN b.trims (2 * w) 0) + 65536 * fieldInt 16 (getN b.trims (2 * w + 1) 0)
  else match p with
    | 0x00 => b.lock.code + atBit 3 1 (bit b.lden) + atBit 4 1 (bit (b.calDue || b.calRunning)) + atBit 5 1 (bit b.sigOk) +
        (if b.lock == .off then 0 else atBit 8 4 b.facets) + atBit 12 4 b.facet
    | 0x04 => fieldInt 16 b.phaseErr
    | 0x08 => b.regOffset
    | 0x0C => facetPeriodNs b
    | 0x10 => b.scanTime
    | 0x14 => fieldInt 16 b.calTemp + atBit 16 16 b.cals
    | 0x18 => b.flags.toNat
    | 0x1C => b.bdMisses
    | _ => 0

def headReg (s : State) (o : Nat) : Nat :=
  let h := o / 0x80
  let x := getN s.hdp h {}
  let b := headBody s h
  match o % 0x80 with
  | 0x00 => x.state.code + atBit 3 1 (bit x.moved) + atBit 4 1 (bit s.sys.compat) +
      (match x.mem with | some m => atBit 8 8 m.rank + atBit 16 12 m.nozzles | none => 0)
  | 0x04 => match x.mem with
    | some m => (if b.isEmpty then 0 else atBit 0 16 (fMax b m / 10)) + atBit 16 16 m.stbMax
    | none => 0
  | 0x08 => fieldInt 16 x.temp + (match x.mem with | some m => 65536 * fieldInt 16 m.limit | none => 0)
  | 0x0C => match x.mem with | some m => m.hyst % 65536 | none => 0
  | 0x10 => x.fires
  | 0x14 => x.dropped
  | 0x18 => x.cuts
  | 0x1C => x.suppressed
  | 0x20 => atBit 0 12 x.dead.length + atBit 12 1 (bit x.noTakeover)
  | 0x24 => x.flags.toNat
  | 0x28 => s.seq.ovsRun
  | 0x2C => atBit 0 16 x.lastDrop.1 + atBit 16 16 x.lastDrop.2
  | 0x30 => x.scan
  | _ => 0

/-! ## Sequencer and journal (R379, R406) -/

/-- Committed sheets not completed (R178). -/
def openSheets (s : State) : Nat := (sheets s).countP fun x => x.2.open

def seqReg (s : State) (o : Nat) : Nat :=
  let q := s.seq
  let t := match nextPick s with | some x => pickT s x.2 | none => 0
  match o with
  | 0x00 => bit q.own + atBit 1 1 (bit q.pathStop.isSome) + atBit 2 1 (bit (webMode s)) + atBit 4 3 (waitCode s) +
      atBit 7 3 s.tmp.step
  | 0x04 => (sheets s).length + atBit 16 10 (openSheets s)
  | 0x08 => loWord t
  | 0x0C => hiWord t
  | 0x10 => match nextPick s with | some x => loWord (pickGap s x.2) | none => 0
  | 0x14 => q.psn.toNat
  | 0x18 => atBit 0 5 q.jamSensor + atBit 5 3 q.jamKind + atBit 8 8 q.jamReason + atBit 16 9 q.jamSheet
  | 0x1C => q.done
  | 0x20 => q.spoiled
  | 0x24 => q.flags.toNat
  | _ => 0

/-- K as its register pair shows it (R379): all ones when nothing has been collected. -/
def collWord (s : State) : Nat := match s.jnl.coll with | some k => k | none => 2 ^ 64 - 1

/-- F as its register shows it (R367, R379): 0 without a ring. -/
def freeWord (s : State) : Nat := if jnlOn s then min maxU32 (freeRecords s) else 0

def journalReg (s : State) (o : Nat) : Nat :=
  let j := s.jnl
  let newest := j.newest.getD 0
  match o with
  | 0x00 => bit j.provisioned + atBit 1 1 (bit j.anchored) + atBit 2 1 (bit j.flashOk) + atBit 3 1 (bit s.led.audit) +
      atBit 4 1 (bit (jnlOn s && ringFull s)) + atBit 5 1 (bit j.sealing) + atBit 8 6 (j.staged.length + (formedHeld s).length)
  | 0x08 => loWord j.next
  | 0x0C => hiWord j.next
  | 0x10 => loWord j.high
  | 0x14 => hiWord j.high
  | 0x18 => loWord newest
  | 0x1C => hiWord newest
  | 0x20 => loWord j.sealIdx
  | 0x24 => hiWord j.sealIdx
  | 0x28 => loWord (collWord s)
  | 0x2C => hiWord (collWord s)
  | 0x30 => freeWord s
  | 0x34 => if j.flashOk then ringMib s % 65536 else 0
  | 0x38 => j.boots
  | 0x3C => j.voided
  | _ => 0

/-! ## Axes, motors, engine and DRAM (R426, R449, R472, R498) -/

/-- The number of an axis state (R426). -/
def AxisState.code : AxisState → Nat
  | .disabled => 0 | .idle => 1 | .homing => 2 | .moving => 3 | .group => 4 | .geared => 5 | .stopping => 6 | .fenced => 7

def axisReg (s : State) (o : Nat) : Nat :=
  let a := o / 0x40
  let x := getN s.axs a {}
  let m := motionBody s
  match o % 0x40 with
  | 0x00 => x.state.code + atBit 3 1 (bit x.homed) + atBit 4 1 (bit x.stalled) + atBit 5 1 (bit x.owned) +
      atBit 6 3 x.level + (if x.state == .group then atBit 9 2 x.group else 0) + atBit 11 1 (bit x.idleI)
  | 0x04 => fieldInt 32 x.pos
  | 0x08 => fieldInt 32 x.target
  | 0x0C => fieldInt 32 x.vel
  | 0x10 => fieldInt 16 x.load
  | 0x14 => fieldInt 16 x.iA + 65536 * fieldInt 16 x.iB
  | 0x18 => x.moveId.toNat + 65536 * x.endedId.toNat
  | 0x1C => x.stalls
  | 0x20 => x.flags.toNat
  | 0x24 => if m.isEmpty then 0 else fieldInt 32 (axSoftMin (axisEntry m a))
  | 0x28 => if m.isEmpty then 0 else fieldInt 32 (axSoftMax (axisEntry m a))
  | 0x2C => if !m.isEmpty && deskewRight m == a then fieldInt 16 x.deskewDelta + 65536 * fieldInt 16 x.deskewD else 0
  | _ => 0

/-- The number of a channel state (R193). -/
def MotorState.code : MotorState → Nat
  | .stopped => 0 | .catching => 1 | .aligning => 2 | .ramping => 3 | .running => 4 | .coasting => 5 | .braking => 6
  | .fenced => 7

/-- The input of M8 or M9 in control (R445, R446). -/
def spdcmdOn (s : State) (m : Nat) : Bool :=
  let b := motorBody s
  decide (8 ≤ m) && decide (m < 10) && !b.isEmpty && spdMode b (m - 8) != 0 && !(getN s.mot.ch m {}).suspended

def motorReg (s : State) (o : Nat) : Nat :=
  let b := s.mot
  if o < 0x280 then
    let m := o / 0x40
    let x := getN b.ch m {}
    match o % 0x40 with
    | 0x00 => x.state.code + atBit 3 3 x.step + atBit 6 1 (bit x.openLoop) + atBit 7 1 (bit x.owned) +
        atBit 8 1 (bit (spdcmdOn s m))
    | 0x04 => loWord x.speed
    | 0x08 => loWord x.setpoint
    | 0x0C => fieldInt 16 x.current + atBit 16 16 x.peak
    | 0x10 => loWord (predictedStep x)
    | 0x14 => x.flags.toNat
    | 0x18 => x.starts
    | 0x1C => x.losCount
    | _ => 0
  else match o with
    | 0x300 => bit b.brk + atBit 1 1 (bit b.brkFb) + atBit 2 1 (bit (noRegen s)) + atBit 3 1 (bit b.hard)
    | 0x304 => loWord b.busV
    | 0x308 => loWord b.busPeak
    | 0x30C => b.brkTime
    | 0x310 => b.flags.toNat
    | _ => 0

/-- The number of a slot mode (R196). -/
def LoopMode.code : LoopMode → Nat
  | .off => 0 | .manual => 1 | .lawA => 2 | .lawB => 3

/-- STATE of a slot. -/
def loopStateWord (l : Loop) : Nat :=
  l.mode.code + atBit 4 1 (bit l.pending.isSome) + atBit 5 1 (bit l.sat) + atBit 6 1 (bit l.en) +
  atBit 7 1 (bit l.cascade) + atBit 8 8 l.entry + atBit 16 16 l.missed

def engineReg (s : State) (o : Nat) : Nat :=
  let c := s.ctl
  if 0x100 ≤ o ∧ o < 0x600 then
    let l := getN c.loops ((o - 0x100) / 8) {}
    if o % 8 = 0 then loopStateWord l else fieldInt 32 l.out
  else match o with
    | 0x00 => atBit 0 23 (rateSum s) + atBit 23 1 (bit c.hven) + atBit 24 1 (bit s.pins.hvOk) + atBit 25 1 (bit c.mains)
    | 0x04 => atBit 0 8 (peakLoad s) + atBit 8 8 (eventReserve s)
    | 0x08 => c.halfCycle % 65536
    | 0x0C => c.missed
    | 0x10 => c.flags.toNat
    | _ => 0

/-- The registers of a DRAM channel. -/
def channelReg (s : State) (c : Channel) (o : Nat) : Nat :=
  match o with
  | 0x00 => bit c.up + atBit 1 1 (bit c.sr) + atBit 2 1 (bit c.doubled) + atBit 3 3 c.owed + atBit 6 1 (bit s.stp.panic) +
      atBit 7 2 c.ranks + atBit 9 1 (bit c.x16) + atBit 10 2 c.density
  | 0x04 => fieldInt 16 c.temp
  | 0x08 => c.guardFails
  | 0x0C => c.parityReplays
  | 0x10 => c.crcReplays
  | 0x14 => c.throttles
  | 0x18 => c.srEntries
  | 0x1C => c.forced
  | 0x20 => loWord c.lastFail.toNat
  | 0x24 => hiWord c.lastFail.toNat
  | 0x28 => c.flags.toNat
  | 0x2C => atBit 0 8 c.trainFail + atBit 8 8 c.trainPasses
  | _ => 0

def dramReg (s : State) (o : Nat) : Nat :=
  let d := s.drc
  if 0x40 ≤ o ∧ o < 0xC0 then channelReg s (getN d.ch ((o - 0x40) / 0x40) {}) (o % 0x40)
  else match o with
    | 0x00 => bit d.training.isSome + atBit 1 1 (bit d.fillDone) + atBit 2 1 (bit d.ratePend.isSome) + atBit 3 3 d.rate
    | 0x04 => d.fill
    | 0x08 => d.scans
    | 0x0C => d.mapped
    | 0x10 => d.ch[0].stored.toNat + atBit 8 7 d.ch[1].stored.toNat
    | _ => 0

/-! ## The map (R104, R127, R130, R380) -/

/-- The blocks that BAR0 and the management port share: 0x0800..0x2DFF. -/
def sharedReg (s : State) (sel : Fin 256) (o : Nat) : Nat :=
  if o < 0x900 then clockReg s (o - 0x800)
  else if o < 0xB00 then faultReg s sel (o - 0x900)
  else if o < 0xC00 then fuseReg s (o - 0xB00)
  else if o < 0xD00 then caddyReg s (o - 0xC00)
  else if o < 0xF00 then codecReg s (o - 0xD00)
  else if o < 0x1000 then steepReg s (o - 0xF00)
  else if o < 0x1600 then beamReg s (o - 0x1000)
  else if o < 0x1A00 then headReg s (o - 0x1600)
  else if o < 0x1B00 then seqReg s (o - 0x1A00)
  else if o < 0x1C00 then journalReg s (o - 0x1B00)
  else if o < 0x2000 then axisReg s (o - 0x1C00)
  else if o < 0x2400 then motorReg s (o - 0x2000)
  else if o < 0x2C00 then engineReg s (o - 0x2400)
  else dramReg s (o - 0x2C00)

/-- The supervisor port's own block (R130, R380). -/
def supReg (s : State) (o : Nat) : Nat :=
  match o with
  | 0x00 => idWord s
  | 0x40 => modeWord s
  | 0x48 => match s.flt.alarms with | k :: _ => k.1 | [] => 0
  | 0x80 | 0x84 | 0x88 | 0x8C => loWord (s.sup.nonce.toNat / 2 ^ (8 * (o - 0x80)))
  | 0xA0 | 0xA4 | 0xA8 | 0xAC | 0xB0 | 0xB4 => journalReg s (o - 0xA0 + 0x18)
  | 0xB8 => freeWord s
  | 0xBC => s.sup.jbufCount
  | _ => 0

/-- The configuration space (R99, R102): what the spec states of it, at the places of PCIe Base 4.0; where the capability
structures lie is PRESUMED (log 16). Power management at 0x40 with No_Soft_Reset, MSI-X at 0x50, PCI Express at 0x60, AER at 0x100 and
the L1 substates at 0x148. -/
def configReg (s : State) (o : Nat) : Nat :=
  let h := s.hif
  match o with
  | 0x00 => (fuseWord s 1).toNat % 65536 + 65536 * s.fus.part.toNat
  | 0x04 => 0x00100000
  | 0x08 => 0x11800000
  | 0x10 => loWord h.bar0Base.toNat + 0x4
  | 0x14 => hiWord h.bar0Base.toNat
  | 0x18 => loWord h.bar2Base.toNat + 0xC
  | 0x1C => hiWord h.bar2Base.toNat
  | 0x34 => 0x40
  | 0x40 => 0x00035001
  | 0x44 => (if h.d3hot then 3 else 0) + atBit 3 1 1
  | 0x50 => 0x11 + 256 * 0x60 + atBit 16 11 63 + atBit 30 1 (bit h.funcMask) + atBit 31 1 1
  | 0x54 => 0x3000
  | 0x58 => 0x3800
  | 0x60 => 0x00020010
  | 0x64 => 2 + atBit 5 1 1 + atBit 28 1 1
  | 0x68 => atBit 5 3 h.maxPayload + atBit 12 3 h.maxRead
  | 0x6C => 4 + atBit 4 6 16 + atBit 10 2 2
  | 0x100 => 0x14820001
  | 0x148 => 0x0001001E
  | 0x14C => 0x1F
  | _ => 0

/-- The value of a register at a path (R104, R127, R130); an offset that no block defines, or that is no multiple of
4, reads 0. -/
def regValue (s : State) (p : Path) (o : Nat) : Nat :=
  if o % 4 != 0 then 0
  else match p with
    | .bar0 =>
      if 0x800 ≤ o ∧ o < 0x2E00 then sharedReg s s.hif.fltSelBar0 o else hifReg s o
    | .mgmt =>
      if 0x800 ≤ o ∧ o < 0x2E00 then sharedReg s s.hif.fltSelMgmt o
      else match o with
        | 0x00 => idWord s
        | 0x08 => s.mgt.timeout
        | 0x40 => modeWord s
        | _ => 0
    | .sup => supReg s o
    | .config => configReg s o

/-- The low words of the 64-bit pairs (R12). -/
def lowOffset (p : Path) (o : Nat) : Bool :=
  match p with
  | .sup => o == 0xA0 || o == 0xA8 || o == 0xB0
  | .config => false
  | _ =>
    o == 0x8A0 || o == 0x8B0 || o == 0x1A08 || o == 0x1B08 || o == 0x1B10 || o == 0x1B18 || o == 0x1B20 || o == 0x1B28 ||
    o == 0x2C60 || o == 0x2CA0 ||
    (p == .bar0 && ((decide (0x100 ≤ o) && decide (o < 0x440) &&
      (o % 0x40 == 0 || o % 0x40 == 0x24 || (o % 0x40 == 0x14 && decide (o < 0x400)))) || o == 0x3800))

/-- The capture latch of a path (R126). -/
def capture (s : State) : Path → Option (Nat × Word)
  | .bar0 => s.hif.capBar0
  | .mgmt => s.hif.capMgmt
  | .sup => s.hif.capSup
  | .config => none
def setCapture (s : State) (p : Path) (v : Option (Nat × Word)) : State :=
  s.modHif fun h => match p with
    | .bar0 => { h with capBar0 := v }
    | .mgmt => { h with capMgmt := v }
    | .sup => { h with capSup := v }
    | .config => h

/-- A register read (R12): the low word of a pair captures the high word, whose next read returns what was captured.
The two peak registers restart at a read (R449, R544). -/
def readReg (s : State) (p : Path) (o : Nat) : Word × State :=
  let v := BitVec.ofNat 32 (regValue s p o)
  let s :=
    if o = 0x2308 && (p == .bar0 || p == .mgmt) then s.modMot fun m => { m with busPeak := 0 }
    else if o = 0xB48 && (p == .bar0 || p == .mgmt) then s.modTmp fun t => { t with peak := -32768 }
    else s
  if lowOffset p o then (v, setCapture s p (some (o + 4, BitVec.ofNat 32 (regValue s p (o + 4)))))
  else match capture s p with
    | some (k, w) => if k = o then (w, setCapture s p none) else (v, s)
    | none => (v, s)

end Sys2Proof.Machine
end

