-- ==== Sys2Proof/Machine/RecipeChecks.lean ====
section
/-!
DEFINITION. The checks of a recipe body at activation (R184, R185): the ranges of each kind and the cross-checks
between recipes.
-/

namespace Sys2Proof.Machine

/-- A number within a range. -/
def within (lo hi v : Nat) : Bool := decide (lo ≤ v) && decide (v ≤ hi)

/-- A list strictly ascending. -/
def ascending : List Nat → Bool
  | a :: b :: l => decide (a < b) && ascending (b :: l)
  | _ => true

/-- The body length of a kind (R186, R187, R301, R325, R372, R386, R424, R447, R470, R496, R522). -/
def bodyLength (kind : Nat) (b : List Byte) : Nat :=
  match kind with
  | 0x0001 => 64 | 0x0002 => 448 | 0x0003 => 256 | 0x0010 => 320 | 0x0020 => 4160 | 0x0030 => 2624
  | 0x0031 => 1024 | 0x0032 => 1856 + 64 * loopEntries b + 96 * loopTables b
  | 0x0040 => 1088 | 0x0050 => 5648 | 0x0060 => 1088 | _ => 0

/-! ## Single bodies -/

/-- DEVICE (R28, R186). -/
def deviceOk (b : List Byte) : Bool :=
  decide (u8 b 0 ≤ 60) && decide (u8 b 1 ≤ 60) && within 2 4 (u8 b 2) && within 32 63 (u8 b 3) &&
  (u16 b 4 == 0 || within 10 60000 (u16 b 4)) && decide (u8 b 6 ≤ 1) && zeroAt b 7 1 &&
  within 1 3600000 (u32 b 8) && zeroAt b 0x0C 52

/-- Frequency of a CKOUT source that is no pixel clock [Hz]; none for off. -/
def ckoSource (src : Nat) : Option Nat :=
  match src with | 1 => some 25000000 | 2 => some 200000000 | 3 => some 100000000 | _ => none

/-- Limit of a CKOUT format [Hz] (R86). -/
def ckoLimit (fmt : Nat) : Nat := if fmt = 0 then 500000000 else if fmt = 1 then 250000000 else 200000000

/-- CLOCK (R86, R187); a CKOUT source that is the pixel clock of a station names that station (R4). -/
def clockOk (station : Nat → Bool) (b : List Byte) : Bool :=
  decide (u32 b 4 ≤ 65535) && (u32 b 0 != 0 || u32 b 4 != 0) && within 1 65535 (u16 b 0x10) &&
  decide (u8 b 0x12 ≤ 4) && (u8 b 0x12 == 0 || u32 b 8 != 0 || u32 b 0x0C != 0) && zeroAt b 0x13 1 &&
  ((List.range 4).all fun n =>
    let o := 0x14 + 4 * n
    decide (u8 b o ≤ 9) && (decide (u8 b o < 4) || station (u8 b o - 4)) && decide (u8 b (o + 2) ≤ 2) && decide (u8 b (o + 3) ≤ 3) &&
    (match ckoSource (u8 b o) with
     | some f => decide (f ≤ ckoLimit (u8 b (o + 2)) * (u8 b (o + 1) + 1))
     | none => true)) &&
  zeroAt b 0x24 28 &&
  ((List.range 32).all fun k =>
    decide (3200 ≤ bandLow b k) && decide (bandLow b k < bandHigh b k) && decide (bandHigh b k ≤ 6400))

/-- The limits of R79 under a trim [0.5 ppm]. -/
def synthOk (b : List Byte) (trim : Int) : Bool :=
  let f := 25 * vcoWord b * (2000000 + trim).toNat
  let unit := 2000000 * 2 ^ 24
  decide (3200 * unit ≤ f) && decide (f ≤ 6400 * unit) &&
  decide (50 * unit * stDiv b ≤ f) && decide (f ≤ 500 * unit * stDiv b)

/-- The trim that makes N_BD pixel periods span a scan time in ps (R308), clamped (R84). -/
def scanTrim (b : List Byte) (scan : Nat) : Int :=
  let num : Nat := stNbd b * 1000000 * 2 ^ 24 * stDiv b
  let den : Nat := 25 * vcoWord b * scan
  if den = 0 then 0 else clampI (-10000) 10000 (roundDiv (((num : Int) - den) * 2000000) den)

/-- The trims of the facet table: those of the signature, when there is one. -/
def facetTrims (b : List Byte) : List Int :=
  if stSigOn b then (List.range (stFacets b)).map fun k => scanTrim b (stSig b k) else []

/-- M(49,152) of R298, the cumulative magnification at the last pixel. -/
def magEnd (b : List Byte) : Int :=
  ((List.range 47).map fun z => stMag b z).foldl (· + ·) 0 + Int.fdiv (stMag b 47 * 1023) 1024

/-- The least and greatest of a list of integers. -/
def leastI (l : List Int) : Int := l.foldl (fun a b => Min.min a b) (l.headD 0)
def greatestI (l : List Int) : Int := l.foldl (fun a b => Max.max a b) (l.headD 0)

/-- Every edge lies from 256 to 16 × (N_BD − 16) sixteenths after BDS (R302). 16x + M(x) rises with x, so the extremes
lie at the first and the last pixel. -/
def edgesOk (b : List Byte) : Bool :=
  let ph := (List.range (stFacets b)).map (stPhase b)
  let off := (List.range 16).map (stOffset b)
  decide (256 ≤ 16 * (stStart b : Int) + leastI ph + leastI off) &&
  decide (16 * ((stStart b : Int) + 49151) + greatestI ph + greatestI off + magEnd b + 16 ≤ 16 * ((stNbd b : Int) - 16))

/-- STATION (R79, R293, R297, R301, R302). -/
def stationOk (b : List Byte) : Bool :=
  within 6 12 (stFacets b) && decide (u8 b 1 ≤ 15) && decide (u8 b 2 ≤ 1) && decide (u8 b 3 ≤ 1) &&
  decide (stNbd b ≤ 1000000) && decide (16 ≤ stStart b) && decide (stStart b + 49168 ≤ stNbd b) &&
  within 200 5000 (u16 b 0x0A) && within 200 5000 (u16 b 0x0C) && within 2000 30000 (u16 b 0x0E) &&
  within 2000 10000 (u16 b 0x10) && within 1 32 (stSlew b) && decide (stRegOffset b < 2 ^ 31) &&
  zeroAt b 0x1B 1 && within 128 256 (stInt b) && within 8 64 (stDiv b) && decide (u8 b 0x1F ≤ 15) &&
  decide (u8 b 0x24 ≤ 63) && zeroAt b 0x25 11 &&
  ((List.range 16).all fun k =>
    let t := stTone b k
    decide (t % 32 ≤ 16) && decide (t / 32 % 4 ≠ 3) && decide (t < 128)) &&
  ((List.range 12).all fun k =>
    if k < stFacets b then decide (-2048 ≤ stPhase b k) && decide (stPhase b k ≤ 2048) else stPhase b k == 0) &&
  zeroAt b 0x58 8 &&
  ((List.range 12).all fun k =>
    if stSigOn b && decide (k < stFacets b) then within 1 4000000000 (stSig b k) else stSig b k == 0) &&
  ((List.range 16).all fun k => decide (-32767 ≤ stOffset b k)) &&
  ((List.range 48).all fun k =>
    decide (-64 ≤ stMag b k) && decide (stMag b k ≤ 64) && decide (-8 ≤ stBow b k) && decide (stBow b k ≤ 8)) &&
  ((List.range 16).all fun k => decide (stApcSet b k ≤ 4095)) &&
  decide (stLevelMin b < stLevelMax b) && decide (stLevelMax b ≤ 4095) &&
  within (stLevelMin b) (stLevelMax b) (stLevelInit b) && zeroAt b 0x136 10 &&
  synthOk b 0 && (facetTrims b).all (synthOk b) && edgesOk b

/-- HEAD on its own (R325, R326): the head's number, whether its partner is enabled, and its memory when it is not
ABSENT. -/
def headOk (h : Nat) (partnerOn : Bool) (mem : Option HeadMem) (b : List Byte) : Bool :=
  let used := ((List.range 2048).map (hdRemap b)).filter fun e => !remapBlank e
  decide (u8 b 0 ≤ 2) && decide (u8 b 1 ≤ 3) &&
  decide (hdPartner b ≤ 7) && hdPartner b != h && (!hdPartnerOn b || partnerOn) && decide (u8 b 3 ≤ 63) &&
  within 1 (2 ^ 31 - 1) (hdOffset b) && ((List.range 4).all fun w => decide (50 ≤ hdWidth b w)) &&
  within 1 64 (hdDutyNozzle b) && decide (hdSpitWave b ≤ 3) && (decide (hdCapAxis b ≤ 15) || hdCapAxis b == 0xFF) &&
  zeroAt b 0x13 5 && zeroAt b 0x20 32 &&
  ((List.range 2048).all fun p => fieldOf (hdRemap b p) 12 3 == 0) &&
  decide ((used.map remapLogical).Nodup) &&
  (match mem with
   | none => true
   | some m =>
     ((List.range 4).all fun w => decide (hdWidth b w ≤ m.stbMax)) &&
     used.all (fun e => decide (remapLogical e < m.nozzles)) &&
     (List.range 2048).all fun p => decide (p < m.nozzles) || remapBlank (hdRemap b p))

/-- One axis entry of MOTION (R414, R424). -/
def axisOk (e : List Byte) : Bool :=
  let fs := u16 e 0x0C
  decide (u8 e 0 ≤ 15) && decide (u8 e 1 ≤ 2) && decide (u8 e 2 ≤ 100) && within 1 64 (axStallFilter e) &&
  within 200 1000 (axPwmFreq e) && decide (axRunI e ≤ fs) && decide (axIdleI e ≤ axRunI e) &&
  decide (u16 e 0x0A ≤ 10000) && within 100 10000 fs && decide (axRunI e < axOverI e) && decide (axOverI e ≤ fs) &&
  decide (100 ≤ u16 e 0x10) && decide (10 ≤ u16 e 0x12) && within 16 127 (axStallThr e) && decide (axHyst e ≤ 128) &&
  within 50 10000 (axStallMin e) && ascending ((List.range 5).map (axSw e)) && zeroAt e 0x22 2 &&
  decide (axSoftMin e < axSoftMax e) &&
  within 1 (64 * axPwmFreq e / 10) (axVDef e) && within 1 (64 * axPwmFreq e / 10) (axVMax e) &&
  within 1 (2 ^ 24) (axADef e) && within 1 (2 ^ 24) (axAMax e) && within 1 (2 ^ 24) (u32 e 0x3C) && zeroAt e 0x44 28 &&
  ((List.range 4).all fun k =>
    let q := axHomeSeq e k
    decide (homeMethod q ≤ 3) && decide (u8 q 1 ≤ 3) && decide (homeSensor q ≤ 31) && zeroAt q 3 1 &&
    (homeMethod q != 2 || decide (axStallMin e * 256 ≤ homeSlow q * 1000)))

/-- MOTION on its own (R424). -/
def motionOk (b : List Byte) : Bool :=
  ((deskewLeft b == 0xFF && deskewRight b == 0xFF) ||
    (decide (deskewLeft b ≤ 15) && decide (deskewRight b ≤ 15) &&
      axGear (axisEntry b (deskewLeft b)) != 0 &&
      axGear (axisEntry b (deskewLeft b)) == axGear (axisEntry b (deskewRight b)))) &&
  decide (deskewSensorL b ≤ 31) && decide (deskewSensorR b ≤ 31) && decide (deskewMax b ≤ 65535) &&
  within 1 (2 ^ 31 - 1) (holdToGate b) && within 1 65535 (correctionAcc b) && zeroAt b 0x14 44 &&
  (List.range 16).all fun a => axisOk (axisEntry b a)

/-- One channel entry of MOTOR (R438, R447). -/
def channelOk (e : List Byte) : Bool :=
  let fs := u16 e 0x36
  decide (u8 e 0 ≤ 15) && within 1 8 (moPoles e) && within 160 2000 (moPwmFreq e) && within 20 2000 (u16 e 4) &&
  within 5 50 (u8 e 6) && within 10 50 (moLosTol e) && decide (moMaxSpeed e ≤ 6000000) &&
  decide (150000 ≤ moCatch e * moPoles e) && decide (150000 ≤ moReverseThr e * moPoles e) &&
  decide (moStart e < moHandover e) && decide (moSensorless e < moHandover e) && decide (moHandover e ≤ moMaxSpeed e) &&
  within 1 1000000 (u32 e 0x20) && within 1 1000000 (u32 e 0x24) &&
  within 10 2000 (u16 e 0x2A) && within 100 30000 (u16 e 0x2E) && within 100 60000 fs &&
  decide (moAlignI e ≤ fs) && decide (moRampI e ≤ fs) && decide (moLimitI e ≤ fs) && decide (moTripI e ≤ fs) &&
  decide (moBrakeI e ≤ fs) && decide (moLimitI e < moTripI e) &&
  within 1 1000 (moBand e) && within 1 10000 (u16 e 0x3A) && within 200 5000 (moWindow e) &&
  within 50 10000 (u16 e 0x3E) && decide (u8 e 0x40 ≤ 159) && decide (moRestarts e ≤ 3) && zeroAt e 0x42 30

/-- MOTOR on its own (R447); an enabled entry names its channel (R4). -/
def motorOk (motor : Nat → Bool) (b : List Byte) : Bool :=
  ((List.range 5).all fun k => within 5000 100000 (u32 b (4 * k))) && ascending ((List.range 5).map fun k => u32 b (4 * k)) &&
  decide (1000 ≤ busDivider b) && within 1 50 (u16 b 0x16) && within 1 100 (u16 b 0x18) && within 1 1000 (busMinOn b) &&
  decide (u8 b 0x1C ≤ 2) && decide (u8 b 0x1D ≤ 2) && zeroAt b 0x1E 2 &&
  ((List.range 2).all fun n =>
    let o := 0x20 + 16 * n
    decide (spdMode b n ≤ 3) && zeroAt b (o + 1) 1 && within 1 1000 (spdFilter b n) &&
    (if spdMode b n = 3 then within 10 100000 (u32 b (o + 8)) else u32 b (o + 8) == 0) &&
    within 10 10000 (u16 b (o + 12)) && zeroAt b (o + 14) 2) &&
  (List.range 10).all fun m => channelOk (motorEntry b m) && (!moEnabled (motorEntry b m) || motor m)

/-- An exponent's range (R456). -/
def exponentOk (x : Int) : Bool := decide (-48 ≤ x) && decide (x ≤ 15)

/-- One entry of LOOPS (R456, R470), with T law tables; its target must be a unit of the part (R4). -/
def loopEntryOk (s : State) (tables : Nat) (e : List Byte) : Bool :=
  decide (entKind e ≤ 4) &&
  (match entKind e with
   | 0 => entTarget e == 0 && decide (entOutput e ≤ 20)
   | 1 => decide (entTarget e ≤ 3) | 2 => decide (entTarget e ≤ 19) && hvOn s (entTarget e)
   | 3 => decide (entTarget e ≤ 5) && stationOn s (entTarget e)
   | _ => decide (entTarget e ≤ 9) && motorOn s (entTarget e)) &&
  decide (entInput e % 128 ≤ 63) && decide (entLin e ≤ 7) && zeroAt e 5 1 &&
  decide (entLaw e false < tables) && (entLaw e true == 0xFF || decide (entLaw e true < tables)) &&
  exponentOk (i8 e 0x0A) && exponentOk (i8 e 0x0B) && decide (entRatio e ≤ 256) &&
  (entRatio e == 0 || decide (entInner e < 160)) && zeroAt e 0x15 3 && decide (1 ≤ entRate e) &&
  decide (entTimeout e ≤ 600000) &&
  (if entKind e = 1 then true
   else if entKind e = 4 then exponentOk (i8 e 0x3A) && zeroAt e 0x3B 1
   else u32 e 0x38 == 0)

/-- One law table (R456, R459). -/
def lawTableOk (t : List Byte) : Bool :=
  u32 t 0 == 0 && ascending ((List.range 8).map fun k => u32 t (4 * k)) &&
  exponentOk (i8 t 0x50) && exponentOk (i8 t 0x51) && exponentOk (i8 t 0x52) && zeroAt t 0x53 1

/-- Fields of the slot table (R470). -/
def tabEntry (b : List Byte) (n : Nat) : Nat := u16 b (0x040 + 8 * n)
def tabEnabled (b : List Byte) (n : Nat) : Bool := tabEntry b n != 0xFFFF && bitOf (u8 b (0x042 + 8 * n)) 0
def tabLawB (b : List Byte) (n : Nat) : Bool := bitOf (u8 b (0x042 + 8 * n)) 1
def tabPeriod (b : List Byte) (n : Nat) : Nat := u32 b (0x044 + 8 * n)

/-- The slots of a slot table with their phases (R452, R461): inner slots first, then outers, each in slot order. -/
def placeSlots (b : List Byte) : List (Nat × Nat × Nat × Nat) :=
  let on := (List.range 160).filter (tabEnabled b)
  let outer := fun n => entRatio (loopEntry b (tabEntry b n)) != 0
  let place := fun (acc : List (Nat × Nat × Nat × Nat)) n =>
    let e := loopEntry b (tabEntry b n)
    let k := Nat.max 1 (tabPeriod b n / 20)
    let allowed := fun ph =>
      if entRatio e = 0 then true
      else match acc.find? fun x => x.1 == entInner e with
        | some x => ph % x.2.2.1 == x.2.2.2
        | none => true
    acc ++ [(n, entryCost b e, k, (bestPhase acc n (entryCost b e) k allowed).1)]
  (on.filter fun n => outer n).foldl place ((on.filter fun n => !outer n).foldl place [])

/-- LOOPS on its own (R453, R461, R470), with the event reserve of the enabled stations. -/
def loopsOk (s : State) (b : List Byte) : Bool :=
  let es := loopEntries b
  let used := (List.range 160).filter fun n => tabEntry b n != 0xFFFF
  let outers := used.filter fun n => entRatio (loopEntry b (tabEntry b n)) != 0
  within 1 256 es && within 1 64 (loopTables b) &&
  ((List.range 6).all fun k => laserEntry b k == 0xFFFF ||
    (decide (laserEntry b k < es) && entKind (loopEntry b (laserEntry b k)) == 3)) &&
  decide (u16 b 0x010 ≤ 2000) && within 100 2000 (u16 b 0x012) && within 10 5000 (hvSettleMs b) && zeroAt b 0x016 42 &&
  (used.all fun n =>
    decide (tabEntry b n < es) && decide (u8 b (0x042 + 8 * n) ≤ 3) && zeroAt b (0x043 + 8 * n) 1 &&
    within 20 1000000 (tabPeriod b n) && tabPeriod b n % 20 == 0 &&
    (!tabLawB b n || entLaw (loopEntry b (tabEntry b n)) true != 0xFF)) &&
  ((List.range 8).all fun t => ascending ((List.range 16).map fun k => u16 (linTable b t) (4 * k))) &&
  ((List.range es).all fun e => loopEntryOk s (loopTables b) (loopEntry b e)) &&
  ((List.range (loopTables b)).all fun t => lawTableOk (lawTable b t)) &&
  (outers.all fun n =>
    let e := loopEntry b (tabEntry b n)
    let i := entInner e
    i != n && !outers.contains i && (!tabEnabled b n || tabEnabled b i) &&
    tabPeriod b n == entRatio e * tabPeriod b i &&
    decide ((outers.filter fun m => entInner (loopEntry b (tabEntry b m)) == i).length ≤ 1)) &&
  (let reserve := ((List.range 6).map (laserCost s b)).sum
   let sl := placeSlots b
   !rateExceeds (evalRate reserve sl) &&
   decide (peakFrom [] sl + reserve ≤ 160))

/-- The defined destinations of a SHEET body, as a byte; whether sensor k is enabled. -/
def destsDefined (b : List Byte) : Nat := ((List.range 8).map fun d => 2 ^ d * bit (bitOf (u8 b (0x140 + 32 * d + 17)) 0)).sum
def sensorOn (b : List Byte) (k : Nat) : Bool := bitOf (u8 b (0x240 + 16 * k + 9)) 0

/-- Nothing names an entry of a SHEET body that is not defined or enabled (R386): the gate sensor, the duplex-return
destination, the destinations of classes and sensors, the exit sensors. -/
def sheetNamesOk (b : List Byte) : Bool :=
  let d := destsDefined b
  sensorOn b (u8 b 0x16) && (u8 b 0x24 == 0xFF || bitOf d (u8 b 0x24)) &&
  ((List.range 16).all fun m =>
    !bitOf (u8 b (0x40 + 16 * m + 9)) 0 || (List.range 8).all fun k => !bitOf (u8 b (0x40 + 16 * m + 8)) k || bitOf d k) &&
  ((List.range 8).all fun k => !bitOf d k || sensorOn b (u8 b (0x140 + 32 * k + 16))) &&
  (List.range 32).all fun k =>
    !sensorOn b k || (List.range 8).all fun n => !bitOf (u8 b (0x240 + 16 * k + 8)) n || bitOf d n

/-- SHEET (R386). -/
def sheetOk (b : List Byte) : Bool :=
  sheetNamesOk b && within 200 2000 (u32 b 0) && within 1 (2 ^ 31 - 1) (u32 b 4) && decide (u32 b 8 ≤ u32 b 4) &&
  within 1 (2 ^ 31 - 1) (u32 b 0x0C) && within 16 65535 (u32 b 0x10) && decide (u8 b 0x16 ≤ 31) && decide (u8 b 0x17 ≤ 3) &&
  ((List.range 4).all fun d =>
    let a := u8 b (0x18 + d)
    a == 0xFF || (decide (a ≤ 15) && bitOf (u16 b 0x14) a)) &&
  within 5 200 (u16 b 0x1C) && within 4 400 (u16 b 0x1E) && decide (u32 b 0x20 ≤ 600000) &&
  (decide (u8 b 0x24 ≤ 7) || u8 b 0x24 == 0xFF) && zeroAt b 0x25 27 &&
  ((List.range 16).all fun m =>
    let o := 0x40 + 16 * m
    !bitOf (u8 b (o + 9)) 0 || (within 256 (2 ^ 24) (u32 b o) && decide (u8 b (o + 9) ≤ 3) && zeroAt b (o + 12) 4)) &&
  ((List.range 8).all fun d =>
    let o := 0x140 + 32 * d
    !bitOf (u8 b (o + 17)) 0 || (decide (u8 b (o + 16) ≤ 31) && decide (u8 b (o + 17) ≤ 3) && zeroAt b (o + 18) 14)) &&
  (List.range 32).all fun k =>
    let o := 0x240 + 16 * k
    !bitOf (u8 b (o + 9)) 0 || (decide (i32 b o < i32 b (o + 4)) && decide (u8 b (o + 9) ≤ 3) && zeroAt b (o + 12) 4)

/-- MARKS (R372, R373). -/
def marksOk (b : List Byte) : Bool :=
  let count := u8 b 0
  let gw := u8 b 1
  let gh := u8 b 2
  within 1 16 count && within 4 64 gw && within 4 64 gh && zeroAt b 3 13 &&
  ((List.range 16).all fun k =>
    let o := 0x10 + 32 * k
    if count ≤ k then zeroAt b o 32
    else decide (u8 b o ≤ 1) && within 1 3 (u8 b (o + 1)) && within 1 20 (u8 b (o + 2)) && decide (u8 b (o + 3) ≤ 2) &&
      decide (u8 b (o + 4) ≤ 1) && within 1 3 (u8 b (o + 5)) && decide (u8 b (o + 6) ≤ 3) && within 1 8 (u8 b (o + 7)) &&
      within 1 384 (u16 b (o + 8)) && decide (u16 b (o + 0x0A) ≤ 64) && decide (u16 b (o + 0x0C) ≤ 2047) &&
      decide (u8 b (o + 0x0E) ≤ 32) && zeroAt b (o + 0x0F) 1 && zeroAt b (o + 0x18) 8) &&
  (List.range 10).all fun d => (List.range 64).all fun r =>
    let row := u64 b (0x210 + 512 * d + 8 * r)
    if gh ≤ r then row == 0 else decide (row < 2 ^ gw)

/-- Fields of a DRAM body (R496). -/
def drDensity (b : List Byte) : Nat := u8 b 0
def drBin (b : List Byte) : Nat := u8 b 3
def drRates (b : List Byte) : Nat := u8 b 4
def drTempCode (b : List Byte) (k : Nat) : Nat := u16 b (0x20 + 4 * k)
def drTempValue (b : List Byte) (k : Nat) : Int := i16 b (0x22 + 4 * k)

/-- The tRFC1 value of a density (R474). -/
def trfcOf (density : Nat) : Nat := if density = 0 then 260 else if density = 1 then 350 else 550

/-- DRAM (R474, R496), against what training found on the trained channels. -/
def dramOk (s : State) (b : List Byte) : Bool :=
  decide (drDensity b ≤ 2) && decide (u8 b 1 ≤ 1) && within 1 2 (u8 b 2) && decide (drBin b ≤ 6) &&
  bitOf (drRates b) 0 && decide (drRates b < 2 ^ (drBin b + 1)) && within (trfcOf (drDensity b)) 550 (u16 b 6) &&
  within 1 40 (u8 b 8) && zeroAt b 9 3 && within 1024 1048576 (u32 b 0x0C) && within 64 1000000 (u32 b 0x10) &&
  within 1 1440 (u16 b 0x14) && ((List.range 2).all fun c => decide (u8 b (0x16 + c) ≤ 63) || u8 b (0x16 + c) == 0xFF) &&
  zeroAt b 0x18 8 && ascending ((List.range 16).map (drTempCode b)) &&
  ((List.range 7).all fun r =>
    let o := 0x60 + 16 * r
    if bitOf (drRates b) r then ((List.range 14).all fun k => u8 b (o + k) != 0) && zeroAt b (o + 14) 2
    else zeroAt b o 16) &&
  zeroAt b 0xD0 48 &&
  s.drc.ch.all fun c => !c.up || (c.density == drDensity b && bit c.x16 == u8 b 1 && c.ranks == u8 b 2)

/-- FAULT (R508, R522). -/
def faultOk (b : List Byte) : Bool :=
  (decide (u8 b 0 ≤ 4) || u8 b 0 == 0xFF) && zeroAt b 1 63 &&
  (List.range 256).all fun n =>
    let o := 0x40 + 4 * n
    (u8 b o == 0xFF || within (sourceFloor n).toNat 4 (u8 b o)) &&
    (decide (u8 b (o + 1) ≤ 7) || u8 b (o + 1) == 0xFF) && (decide (u8 b (o + 2) ≤ 63) || u8 b (o + 2) == 0xFF) &&
    zeroAt b (o + 3) 1

/-- A body on its own. -/
def bodyOk (s : State) (kind inst : Nat) (b : List Byte) : Bool :=
  b.length == bodyLength kind b &&
  (match kind with
   | 0x0001 => deviceOk b | 0x0002 => clockOk (stationOn s) b | 0x0003 => dramOk s b
   | 0x0010 => stationOk b
   | 0x0020 => headOk inst (headOn s (hdPartner b))
       (match s.hdp.toList[inst]? with | some h => if h.state == .absent then none else h.mem | none => none) b
   | 0x0030 => motionOk b | 0x0031 => motorOk (motorOn s) b | 0x0032 => loopsOk s b | 0x0040 => sheetOk b | 0x0050 => marksOk b
   | 0x0060 => faultOk b | _ => false)

/-! ## Cross-checks (R185) -/

/-- No CKOUT that names the station's pixel clock exceeds its limit, with the largest trim (R87). -/
def ckoStationOk (clock station : List Byte) (k : Nat) : Bool :=
  (List.range 4).all fun n =>
    let o := 0x14 + 4 * n
    u8 clock o != 4 + k ||
    decide (25000000 * vcoWord station * 1005 ≤ ckoLimit (u8 clock (o + 2)) * (u8 clock (o + 1) + 1) * stDiv station * 1000 * 2 ^ 24)

/-- The end-of-scan interval at the operating point is at least 8 µs (R85). Times in units of ps / (speed × f). -/
def intervalOk (station sheet : List Byte) : Bool :=
  let speed := u32 sheet 0
  let lpi := if u8 station 2 = 0 then 1200 else 600
  -- facet period 16 × 25.4 / lpi / speed s; scan N_BD × DIV × 2^24 × 1.005 / (25e6 × word) s
  let word := vcoWord station
  decide (8 * 10 ^ 3 * speed * lpi * 25 * word + stNbd station * stDiv station * 2 ^ 24 * 1005 * speed * lpi
    ≤ 16 * 254 * 10 ^ 8 * 25 * word)

/-- The deskew pair lies on the paper path, DESKEW_END is at most PICK_LEAD (R424), and no geared axis would exceed its
maximum velocity at the process speed (R421). -/
def motionSheetOk (motion sheet : List Byte) : Bool :=
  (deskewLeft motion == 0xFF || (bitOf (u16 sheet 0x14) (deskewLeft motion) && bitOf (u16 sheet 0x14) (deskewRight motion) &&
    sensorOn sheet (deskewSensorL motion) && sensorOn sheet (deskewSensorR motion))) &&
  decide (deskewEnd motion ≤ u32 sheet 4) &&
  (List.range 16).all fun a =>
    let e := axisEntry motion a
    decide (axGear e * u32 sheet 0 * 192 ≤ axVMax e * 65536 * 254)

/-- The cap and uncap positions lie within the capping axis's soft limits (R325). -/
def headMotionOk (head motion : List Byte) : Bool :=
  hdCapAxis head == 0xFF ||
  (let e := axisEntry motion (hdCapAxis head)
   decide (axSoftMin e ≤ hdCapPos head) && decide (hdCapPos head ≤ axSoftMax e) &&
   decide (axSoftMin e ≤ hdUncapPos head) && decide (hdUncapPos head ≤ axSoftMax e))

/-- Each enabled channel's slot holds a motor-speed entry that targets it (R447, R468). -/
def motorLoopsOk (motor loops : List Byte) : Bool :=
  (List.range 10).all fun m =>
    let e := motorEntry motor m
    let l := loopEntry loops (tabEntry loops (u8 e 0x40))
    !moEnabled e || (tabEntry loops (u8 e 0x40) != 0xFFFF && entKind l == 4 && entTarget l == m)

/-- What a LOOPS slot table or a MOTOR recipe must not claim while a STATION recipe is active (R467). -/
def claimsLaser (station : Nat) (slots : List Nat) : Bool := slots.any fun n => n / 16 == station && decide (n < 96)

/-- The recipes that would be in force: the named ones over those that stay. -/
def viewOf (s : State) (named : List Recipe) (kind inst : Nat) : Option (List Byte) :=
  match named.find? fun r => r.kind == kind && r.inst == inst with
  | some r => some r.body
  | none => (activeRecipe s kind inst).map Recipe.body

/-- A check between two recipes, when both would be in force. -/
def crossCheck (v : Nat → Nat → Option (List Byte)) (a b : Nat × Nat) (ok : List Byte → List Byte → Bool) :
    List ((Nat × Nat) × (Nat × Nat) × Bool) :=
  match v a.1 a.2, v b.1 b.2 with
  | some x, some y => [(a, b, ok x y)]
  | _, _ => []

/-- Every cross-check of R185 under a view: the two recipes that take part, and its outcome. -/
def crossChecks (v : Nat → Nat → Option (List Byte)) : List ((Nat × Nat) × (Nat × Nat) × Bool) :=
  let n := 0xFFFF
  ((List.range 6).map fun k =>
    crossCheck v (0x0010, k) (0x0002, n) (fun st c => (bandFor c st).isSome && ckoStationOk c st k) ++
    crossCheck v (0x0010, k) (0x0040, n) intervalOk ++
    crossCheck v (0x0010, k) (0x0032, n) (fun _ l =>
      !claimsLaser k ((List.range 160).filter fun m => tabEntry l m != 0xFFFF)) ++
    crossCheck v (0x0010, k) (0x0031, n) (fun _ m =>
      !claimsLaser k (((List.range 10).filter fun c => moEnabled (motorEntry m c)).map fun c => u8 (motorEntry m c) 0x40))).flatten ++
  ((List.range 8).map fun h =>
    crossCheck v (0x0020, h) (0x0040, n) (fun hd sh => hdCapAxis hd == 0xFF || !bitOf (u16 sh 0x14) (hdCapAxis hd)) ++
    crossCheck v (0x0020, h) (0x0030, n) headMotionOk).flatten ++
  crossCheck v (0x0030, n) (0x0040, n) motionSheetOk ++
  crossCheck v (0x0031, n) (0x0032, n) motorLoopsOk

/-- The first named recipe, in packet order, that takes part in a failed check (R184). -/
def failedRecipe (s : State) (named : List Recipe) : Option Nat :=
  let failed := (crossChecks (viewOf s named)).filter fun c => !c.2.2
  named.findIdx? fun r =>
    !bodyOk s r.kind r.inst r.body || failed.any fun c => c.1 == (r.kind, r.inst) || c.2.1 == (r.kind, r.inst)

end Sys2Proof.Machine
end

