-- ==== Sys2Proof/Machine/Recipes.lean ====
section
/-!
DEFINITION. What the activation of a recipe changes (R185..R187, R265, R312, R467, R470, R522), and the end of BOOT.
-/

namespace Sys2Proof.Machine

/-- CLOCK (R92, R93, R187): increments, limit and fallback; the primary source is restored and the counter goes on from
its present value; CKOUT takes its configuration. -/
def applyClock (s : State) (b : List Byte) : State :=
  s.modClk fun c => { c with
    inc := u32 b 0 + 2 ^ 32 * u32 b 4, fbInc := u32 b 8 + 2 ^ 32 * u32 b 0x0C, backLimit := u16 b 0x10
    fallback := u8 b 0x12, ppcSrc := .enc0, fbDisqualified := false, accEdge := c.acc, intervals := []
    cko := Vector.ofFn fun (n : Fin 4) =>
      let o := 0x14 + 4 * n.1
      { src := u8 b o, div := u8 b (o + 1), fmt := u8 b (o + 2), drive := u8 b (o + 3) } }

/-- The laser-power slot of a beam, as STATION activation enables it (R467): law A of the entry that the LOOPS header
names, at the beam's APC setpoint. -/
def laserLoop (loops station : List Byte) (k beam : Nat) : Loop :=
  let e := laserEntry loops k
  if loops.isEmpty || e == 0xFFFF then {}
  else { en := true, entry := e, mode := .lawA, rTarget := stApcSet station beam, r := stApcSet station beam }

/-- The sixteen laser-power slots of a station are enabled. -/
def enableLaser (s : State) (k : Nat) : State :=
  let loops := loopsBody s
  let st := stationBody s k
  s.modCtl fun c => { c with loops := c.loops.mapFinIdx fun n l _ =>
    if n / 16 == k && n < 96 then { laserLoop loops st k (n % 16) with fence := l.fence } else l }

/-- STATION (R79, R82, R307, R312, R317): a running synthesizer takes the new setting, the registration target moves,
the measured signature and the passed calibrations are forgotten, and the laser-power slots are enabled. -/
def applyStation (s : State) (k : Fin 6) (b : List Byte) : State :=
  let s := s.modSynth k fun x =>
    let due := (bandFor (clockBody s) b).getD x.band != x.band
    if x.en then { x with frac := stFrac b, int := stInt b, div := stDiv b, seed := stSeed b, changeDue := x.changeDue || due }
    else { x with frac := stFrac b, int := stInt b, seed := stSeed b }
  let s := s.modBtu k fun (x : Station) =>
    let slews := x.lock == .locked || x.lock == .slew
    let moves := slews && x.regOffset != stRegOffset b
    { x with regOffset := stRegOffset b, signature := none, calPassed := 0
             gridRef := if slews then x.gridRef else stRegOffset b
             lock := if moves then .slew else x.lock, goodRun := if moves then 0 else x.goodRun }
  enableLaser s k.1

/-- LOOPS (R470): every slot from the slot table, disabled or in its flagged law; a motor-speed slot starts in off, for
its channel sets its mode (R468, log 44). A slot that keeps its entry and its mode goes on (log 116). The laser-power slots
follow. -/
def applyLoops (s : State) (b : List Byte) : State :=
  let placed := placeSlots b
  let slot := fun (n : Nat) (old : Loop) =>
    let e := loopEntry b (tabEntry b n)
    let phase := match placed.find? fun x => x.1 == n with | some x => x.2.2.2 | none => 0
    let r := clampI (entSpMin e) (entSpMax e) old.rTarget
    let none_ : Loop := { ({} : Loop) with fence := old.fence, missed := old.missed }
    if tabEntry b n == 0xFFFF then none_
    else if !tabEnabled b n then { none_ with entry := tabEntry b n, k := tabPeriod b n / 20, out := entOutOff e }
    else
      let off := entKind e == 4 || old.fence != 0
      let mode : LoopMode := if off then .off else if tabLawB b n then .lawB else .lawA
      if old.en && old.entry == tabEntry b n && (old.mode == mode || entKind e == 4) then
        { old with k := tabPeriod b n / 20, phase := phase, rTarget := r }
      else { none_ with
          en := true, entry := tabEntry b n, k := tabPeriod b n / 20, phase := phase, rTarget := r, r := r, out := entOutOff e
          mode := mode }
  let s := s.modCtl fun c => { c with loops := c.loops.mapFinIdx fun n l _ => slot n l }
  idleRefs ((List.range 6).foldl (fun s k => if (activeRecipe s 0x0010 k).isSome then enableLaser s k else s) s)

/-- FAULT (R512, R522): later raises take the new settings. -/
def applyFault (s : State) (b : List Byte) : State :=
  let keep := fun (v : Nat) => v == 0xFF
  let s := s.modFlt fun f => { f with
    was := f.was ++ (List.finRange 256).filterMap fun n =>
      if keep (u8 b (0x40 + 4 * n.1)) || Level.ofNum (u8 b (0x40 + 4 * n.1)) == f.src[n].sev then none else some (n, f.src[n].sev)
    aliveLevel := if keep (u8 b 0) then f.aliveLevel else u8 b 0
    src := f.src.mapFinIdx fun n x _ =>
      let o := 0x40 + 4 * n
      { x with sev := if keep (u8 b o) then x.sev else Level.ofNum (u8 b o)
               route := if keep (u8 b (o + 1)) then x.route else BitVec.ofNat 3 (u8 b (o + 1))
               vector := if keep (u8 b (o + 2)) then x.vector else Fin.ofNat 64 (u8 b (o + 2)) } }
  aliveUpdate s

/-- The effect of one recipe, once it stands in the store as active. -/
def applyRecipe (s : State) (r : Recipe) : State :=
  match r.kind with
  | 0x0001 =>
    let s := s.modStp fun x => { x with lead := u8 r.body 2 }
    let s := s.modCad fun x => { x with threshold := u8 r.body 3 }
    let keep := s.cdc.katPeriod == u16 r.body 4
    let lane := fun (l : Lane) => { l with periodicDue := l.periodicDue && keep }
    let s := { s with hdp := s.hdp.map fun (x : Head) => { x with i2cFast := u8 r.body 6 == 1 } }
    s.modCdc fun x => { x with katPeriod := u16 r.body 4, dec := x.dec.map lane, enc := x.enc.map lane }
  | 0x0002 => applyClock s r.body
  | 0x0010 => if h : r.inst < 6 then applyStation s ⟨r.inst, h⟩ r.body else s
  | 0x0032 => applyLoops s r.body
  | 0x0060 => applyFault s r.body
  | _ => s

/-- The recipe of a store slot. -/
def storeSlot (s : State) (k : Nat) : Option Recipe := getN s.led.store k none

/-- The named recipes take effect together (R185): each replaces the active recipe of its kind and instance, whose slot
is freed. In BOOT, with stage 4 complete, a completed required set moves the device to STANDBY (R43). -/
def activate (s : State) (slots : List Nat) : State :=
  let named := slots.filterMap (storeSlot s)
  let s := s.modLed fun l => { l with store := l.store.mapFinIdx fun k o _ => match o with
    | none => none
    | some r =>
      if slots.contains k then some { r with active := true }
      else if r.active && named.any fun n => n.kind == r.kind && n.inst == r.inst then none
      else some r }
  let first := named.filter fun r => r.kind == 0x0032
  let s := (first ++ named.filter fun r => r.kind != 0x0032).foldl applyRecipe s
  let s := hvUpdate s
  if s.sys.mode == .boot && decide (s.sys.bootStage = 5) && requiredSet s then standbyEntry s
  else if s.sys.mode == .standby then reselect s
  else s

/-- The RECIPE records of an activation, in packet order (R185, R359). -/
def recordRecipes (s : State) (slots : List Nat) : State :=
  slots.zipIdx.foldl (fun s x => match storeSlot s x.1 with
    | some r => journal s 0x08 x.2 (leBytes 32 r.hash.toNat ++ leBytes 2 r.kind ++ leBytes 2 r.inst ++
        leBytes 4 r.version ++ leBytes 1 x.1 ++ leBytes 1 slots.length)
    | none => s) s

end Sys2Proof.Machine
end

