-- ==== Sys2Proof/Machine/Durable.lean ====
section
/-!
DEFINITION. The journal writer: programming the oldest staged record, what its durability brings (R351, R362, R368),
signing a seal (R364), erasing ahead of the write point (R138, R367), and the power-loss flush (R62).
-/

namespace Sys2Proof.Machine

/-! ## Erasing (R138, R367) -/

/-- The newest index held by ring slot q, when the newest durable index is n. -/
def heldIndex (slots n q : Nat) : Option Nat :=
  let r := n % slots
  if q ≤ r then some (n - (r - q)) else if slots ≤ n + (slots - r) - (slots - q) ∧ r + slots - q ≤ n then some (n - (r + slots - q)) else none

/-- The newest index that a ring sector (counted from 2) holds in this ring. -/
def sectorNewest (s : State) (sector : Nat) : Option Nat :=
  match s.jnl.newest with
  | none => none
  | some n =>
    let held := ((List.range 32).filterMap fun k => heldIndex (ringSlots s) n ((sector - 2) * 32 + k)).filter fun i =>
      decide (s.jnl.oldest ≤ i)
    if held.isEmpty then none else some (held.foldl Nat.max 0)

/-- Whether every record of a sector has been collected. -/
def sectorCollected (s : State) (sector : Nat) : Bool :=
  match sectorNewest s sector, s.jnl.coll with
  | none, _ => true
  | some i, some k => decide (i ≤ k)
  | some _, none => false

/-- Whether a sector reads erased. -/
def sectorBlank (s : State) (sector : Nat) : Bool := !(s.jnl.flash.any fun x => x.1 / 4096 == sector)

/-- A sector erase begins: from here the records that the sector held are no longer retained. -/
def eraseBegin (s : State) (sector : Nat) : State :=
  let gone := if sector < 2 then none else sectorNewest s sector
  flashOps (s.modJnl fun j => { j with
    oldest := match gone with | some i => Nat.max j.oldest (i + 1) | none => j.oldest }) (eraseOps sector)

/-- A sector is to be erased: at once, or after the ones before it. -/
def queueErase (s : State) (sector : Nat) : State :=
  if s.jnl.erasing.contains sector then s
  else
    let t := s.modJnl fun j => { j with erasing := j.erasing ++ [sector] }
    if s.jnl.erasing.isEmpty then eraseBegin t sector else t

/-- The number of the ring sector that is the first whole one at or after slot w. -/
def wholeSector (w : Nat) : Nat := (w + 31) / 32

/-- The erases that keep two erased sectors ahead of the write point, and a third so that none of them is missing when the write
point enters the first (R138, R362, DEDUCED, log 112). -/
def eraseAhead (s : State) : State :=
  let slots := ringSlots s
  if slots < 32 || !s.jnl.flashOk || s.sys.pwrFail then s
  else
    let at_ := match s.jnl.staged with | r :: _ => r.idx | [] => s.jnl.nextIdx
    let want := (List.range 3).map fun k => 2 + (wholeSector (at_ % slots) + k) % (slots / 32)
    want.foldl (fun s c => if sectorBlank s c || !sectorCollected s c then s else queueErase s c) s

/-- A sector erase ends, and the next one begins. -/
def eraseDone (s : State) (sector : Nat) : State :=
  if s.jnl.erasing.head? != some sector then s
  else
    let s := s.modJnl fun j => { j with flash := flashErase j.flash sector, erasing := j.erasing.tail }
    match s.jnl.erasing with
    | c :: _ => eraseBegin s c
    | [] => s

/-! ## Seals (R364) -/

/-- The seal being signed gets its signature and its chain hash. -/
def signSeal (s : State) : State :=
  if !s.jnl.sealing then s
  else match s.jnl.staged.getLast? with
    | none => s
    | some r =>
      let hdr := bytesAt r.bytes 0 32
      let sig := ecdsaSign (journalPrivate s) (sha256 (hdr ++ hashBytes r.prev))
      let first := hdr ++ padTo 64 sig
      let h := sha256Bits (hashBytes r.prev ++ first)
      formAll (s.modJnl fun j => { j with
        staged := j.staged.dropLast ++ [{ r with bytes := first ++ hashBytes h }], chain := h, sealing := false })

/-! ## Parked commands that wait for a record (R176) -/

/-- The store slots of an ACTIVATE_RECIPES packet (R183). -/
def activateSlots (c : Cmd) : List Nat := (List.range (min 16 (Cmd.p8 c 16))).map fun k => Cmd.p8 c (17 + k)

/-- One command that waits so completes: its reply names the record where the opcode reports it, and an activation takes
effect now (R185). -/
def completeOne (w : Wait) (idx : Nat) (s : State) : State :=
  match s.ktl.parked.findIdx? fun p => p.wait == w with
  | none => s
  | some k => match s.ktl.parked[k]? with
    | none => s
    | some p =>
      let s := if p.op == 0x12 then activate s (activateSlots p.cmd) else s
      let r := p.reply.getD ((fail .ok 0).reply p.cmd)
      let r :=
        if p.op == 0x71 || p.op == 0x74 then
          { r with w0 := BitVec.ofNat 32 idx, w1 := BitVec.ofNat 32 (idx / 2 ^ 32) }
        else if p.op == 0x12 then { r with w1 := BitVec.ofNat 32 (bit (requiredSet s)) }
        else r
      finishParked s k r

/-- Every command that waits for the durability of a ticket's record completes. -/
def completeTicket (s : State) (t idx : Nat) : State :=
  if t = 0 then s else iter (completeOne (.record t) idx) s.ktl.parked.length s

/-- A command that waited for room in the staging buffer completes once its record stands there (R362). -/
def completeFormed (s : State) : State :=
  s.ktl.parked.foldl (fun s p => match p.wait with
    | .formed t =>
      if ticketFormed s t then completeOne (.formed t) ((ticketIndex s t).getD 0) s else s
    | _ => s) s

/-! ## Durability (R351, R362) -/

/-- JNL_EVENT at the level of R381: RUNOUT in audited printing. -/
def raiseJournal (s : State) (cause : Nat) : State := raise s 0xA0 cause

/-- What a record that has become durable brings. -/
def durable (s : State) (r : Rec) : State :=
  let type := u8 r.bytes 0
  let s := s.modJnl fun j => { j with newest := some r.idx }
  let s :=
    if type = 0x04 then raise (s.modJnl fun j => { j with sealIdx := r.idx, sealed := true }) 0xA6 0
    else if type = 0x02 then
      raise (s.modJnl fun j => { j with high := Nat.max j.high (u64 r.bytes 0x28), inFlight := none, reservations := j.reservations + 1 })
        0xA3 (u64 r.bytes 0x20 % 2 ^ 32)
    else s
  let s := match r.sheet with | some i => setRecorded s i (some r.idx) | none => s
  completeTicket s r.ticket r.idx

/-- What follows in the same moment: room in the staging buffer, a reservation, the low mark and erases. -/
def afterProgram (s : State) : State := eraseAhead (lowCheck (reserveCheck (formAll s)))

/-- The record of a read-back mismatch (R368): a GAP record over its index, then the record again, ahead of what
waits. -/
def formAgain (s : State) (r : Rec) : State :=
  let gap : Unformed := ⟨0x07, 5, pairPayload r.idx r.idx, none, 0, none, some r.prev, none⟩
  let again : Unformed :=
    if u8 r.bytes 0 = 0x04 then { sealRequest r.ticket with raw := some (bytesAt r.bytes 0 32) }
    else ⟨u8 r.bytes 0, u8 r.bytes 3, [], r.sheet, r.ticket, none, none, some (bytesAt r.bytes 0 96)⟩
  let s := s.modJnl fun j => { j with waiting := gap :: again :: j.waiting }
  raiseJournal s 0x05

/-- Whether a record may be programmed into its slot: its sector when it is the first there, and the two sectors ahead of the
write point that it leaves, are erased (R138). -/
def erasedFor (s : State) (i : Nat) : Bool :=
  let slots := ringSlots s
  let w := i % slots
  let ahead := (List.range 2).map fun k => (wholeSector (w + 1) + k) % (slots / 32)
  (if w % 32 = 0 then w / 32 :: ahead else ahead).all fun c =>
    !s.jnl.erasing.contains (2 + c) && sectorBlank s (2 + c)

/-- Whether the oldest staged record can be programmed: a seal only once it is signed, and no record where the flash is not erased
for it; a PROVISION record waits for both collection-log sectors (R370). -/
def programmable (s : State) (r : Rec) (rest : List Rec) : Bool :=
  s.jnl.flashOk && !(s.jnl.sealing && rest.isEmpty && u8 r.bytes 0 == 0x04) && (s.jnl.grouped || erasedFor s r.idx) &&
  !(u8 r.bytes 0 == 0x0D && (s.jnl.erasing.contains 0 || s.jnl.erasing.contains 1))

/-- The staged records that are programmed as one page (R139): the oldest, and the next where it fills the other half of the page
that the oldest begins. -/
def pageGroup (s : State) : List Rec :=
  match s.jnl.staged with
  | [] => []
  | r :: rest =>
    match rest with
    | [] => [r]
    | q :: more =>
      if !s.jnl.grouped && recordAddr s r.idx % 256 == 0 && q.idx == r.idx + 1 &&
         !(s.jnl.sealing && more.isEmpty && u8 q.bytes 0 == 0x04)
      then [r, q] else [r]

/-- The instructions that program the oldest staged record, with its page, and read it back (R136, R139, R368). -/
def recordOps (s : State) (r : Rec) : List (Nat × Nat × Nat) :=
  let a := recordAddr s r.idx
  (if s.jnl.grouped then [] else programOps a (128 * (pageGroup s).length)) ++ [(0xEC, a, 128)]

/-- The oldest staged record leaves the buffer, with these bytes in its slot; the next follows in its page, or not. -/
def programRecord (s : State) (r : Rec) (bytes : List Byte) : State :=
  let mate := decide ((pageGroup s).length = 2)
  s.modJnl fun j => { j with
    staged := j.staged.tail, flash := flashProgram j.flash (recordAddr s r.idx) bytes, grouped := mate, readServed := false }

/-! ## Reading the journal (R139, R369) -/

/-- The bytes of n durable records from index i. -/
def recordBytes (s : State) (i n : Nat) : List Byte :=
  ((List.range n).map fun k => flashRead s.jnl.flash (recordAddr s (i + k)) 128).flatten

/-- JOURNAL_READ goes on with the records that are its due: at most 4 KiB between two record programs, and all of them where
nothing is to be programmed. How many it has delivered then. -/
def serveRead (s : State) (c : Cmd) (done total : Nat) : State × Nat :=
  let idle := s.jnl.staged.isEmpty
  let n := if idle then total - done else if s.jnl.readServed then 0 else min 32 (total - done)
  if n = 0 then (s, done)
  else
    let i := Cmd.p64 c 16 + done
    let data := recordBytes s i n
    let s := flashOps (s.modJnl fun j => { j with readServed := true }) (besideErase s [(0xEC, recordAddr s i, 128 * n)])
    let t := if c.src == .sup then s.modSup fun x => { x with jbuf := data, jbufCount := n }
             else emit s (.write (BitVec.ofNat 64 (Cmd.p64 c 28 + 128 * done)) data)
    (t, done + n)

/-- The result of a JOURNAL_READ that has delivered n records (R206). -/
def readResult (s : State) (n : Nat) : Res :=
  let newest := s.jnl.newest.getD 0
  { status := .ok, w0 := n, w1 := loWord newest, w2 := hiWord newest, w3 := loWord s.jnl.oldest, w4 := hiWord s.jnl.oldest }

/-- Whether a parked command waits for its turn to read. -/
def waitsToRead (p : Parked) : Bool := match p.wait with | .read .. => true | _ => false

/-- The read whose turn it is goes on: the supervisor's ahead of a host's. -/
def readTurn (s : State) : State :=
  let sup := s.ktl.parked.findIdx? fun p => waitsToRead p && p.cmd.src == .sup
  match sup.orElse fun _ => s.ktl.parked.findIdx? waitsToRead with
  | none => s
  | some k => match s.ktl.parked[k]? with
    | none => s
    | some p => match p.wait with
      | .read done total =>
        let x := serveRead s p.cmd done total
        if x.2 = total then finishParked x.1 k ((readResult x.1 total).reply p.cmd)
        else x.1.modKtl fun y => { y with parked := updAt (fun q => { q with wait := .read x.2 total }) k y.parked }
      | _ => s

/-- The reads that wait, as far as they can go. -/
def serveReads (s : State) : State := iter readTurn s.ktl.parked.length s

/-- The oldest staged record has been programmed and read back (R362, R368). A slot whose read-back differs holds bits
that the spec does not give: free values. -/
def programHead (s : State) (ok : Bool) : State :=
  match s.jnl.staged with
  | [] => s
  | r :: rest =>
    if !programmable s r rest then s
    else
      let bytes := if ok then r.bytes else (List.range 128).map (Config.freeFlash s.free)
      let ops := besideErase s (recordOps s r)
      let s := if ok then s else s.drawn
      let s := flashOps (programRecord s r bytes) ops
      serveReads (afterProgram (if ok then durable s r else formAgain s r))

/-! ## Power loss (R62, R63, R355) -/

/-- L0: the lowest issued serial without a durable SHEET record, or n (R355). -/
def lowestUnrecorded (s : State) : Nat :=
  (sheets s).foldl (fun m x => if x.2.serial != 0 && x.2.recorded.isNone then min m x.2.serial else m) s.jnl.next

/-- Every staged record is programmed, oldest first; a seal is signed on its way. -/
def flushStaged : Nat → State → State
  | 0, s => s
  | fuel + 1, s =>
    match s.jnl.staged with
    | [] => s
    | r :: rest =>
      if s.jnl.sealing && rest.isEmpty && u8 r.bytes 0 == 0x04 then flushStaged fuel (signSeal s)
      else
        let ops := recordOps s r
        flushStaged fuel (durable (flashOps (programRecord s r r.bytes) ops) r)

/-- All that is staged is programmed. -/
def flushAll (s : State) : State := flushStaged (2 * s.jnl.staged.length + 2) s

/-- Step 4 of R62: an erase is suspended (R138), the staged records are programmed, then the POWER_LOSS record and a seal. A record
that was formed while a seal was being signed is flushed behind that seal; no record that waits for room is formed any more
(R361, R378). Where the 256th record since the last seal still waits for its seal, that seal is formed ahead of the POWER_LOSS
record, so that no seal covers more than 256 (R363). -/
def powerLossFlush (s : State) (spoiled : Nat) : State :=
  let held := (formedHeld s).filter fun u => u.type != 0x04
  let staged := s.jnl.staged.length + held.length
  let s := if s.jnl.erasing.isEmpty then s else flashOps s [(0x75, 0, 0)]
  let s := s.modJnl fun j => { j with waiting := held }
  let s := flushAll (if s.jnl.sealing then signSeal s else s)
  let s := if 256 ≤ s.jnl.unsealed then signSeal (formSeal s (sealRequest 0)) else s
  let s := formOne s ⟨0x06, 0, leBytes 8 (lowestUnrecorded s) ++ leBytes 8 s.jnl.next ++ leBytes 4 spoiled ++
    leBytes 4 staged, none, 0, none, none, none⟩
  flushAll (formSeal s (sealRequest 0))

end Sys2Proof.Machine
end

