-- ==== Sys2Proof/Machine/Commands.lean ====
section
/-!
DEFINITION. What every command packet goes through (R140..R164, R172..R176): the checks of R147 in their order, the
duplicate store, the start of a command and its parking. What an opcode adds is its `OpSpec`.
-/

namespace Sys2Proof.Machine

/-- What the command reference gives one opcode (R172, R173): its number, its least and greatest length, the modes that
accept it, the reserved bits inside its layout as packet offsets with masks, the field that names a resource the part
does not enable (check 8), and what it does. -/
structure OpSpec where
  op : Nat
  min : Nat
  max : Nat
  modes : List Mode
  reserved : List (Nat × Nat)
  names : State → Cmd → Option Nat
  run : Cmd → State → Verdict

/-- Every mode except RESET (R172). -/
def allModes : List Mode := [.boot, .standby, .ready, .print, .runout, .halt, .service]

/-- No field of the opcode names a resource that a part may lack. -/
def namesNothing (_ : State) (_ : Cmd) : Option Nat := none

/-- The long opcodes (R157), and those that run to their end (R165). -/
def longOp (op : Nat) : Bool :=
  [0x10, 0x12, 0x48, 0x49, 0x50, 0x58, 0x6A, 0x6B, 0x70, 0x71, 0x74, 0x78, 0x7F].contains op
def runToEnd (op : Nat) : Bool := [0x58, 0x6A, 0x6B, 0x71, 0x74, 0x7F].contains op

/-- Ports that execute an opcode (R131, R132, R175, R356). -/
def portOk (op : Nat) (src : Source) (signed : Bool) : Bool :=
  match src with
  | .ring _ => op != 0x72 && op != 0x74
  | .mgmt => op != 0x70 && op != 0x72 && op != 0x74
  | .sup => if signed then [0x61, 0x72, 0x74].contains op
            else [0x00, 0x01, 0x02, 0x03, 0x25, 0x60, 0x70, 0x73].contains op

/-- Check 3 (R143, R144) on the 64 packet bytes. -/
def lengthFault (sp : OpSpec) (raw : List Byte) (ring : Bool) : Option Res :=
  let len := u16 raw 4
  if !bitOf (u8 raw 1) 0 then
    if 48 < len then some { status := .length, sub := 0x01, off := 4 }
    else if len < sp.min then some { status := .length, sub := 0x05, off := 4 }
    else if sp.max < len then some { status := .length, sub := 0x04, off := 4 }
    else none
  else
    let n := u32 raw 24
    let a := u64 raw 16
    if len != 12 then some { status := .length, sub := 0x16, off := 4 }
    else if n = 0 then some { status := .badParam, sub := 0x02, off := 24 }
    else if 1048576 < n then some { status := .length, sub := 0x03, off := 24 }
    else if sp.max < n then some { status := .length, sub := 0x04, off := 24 }
    else if n < sp.min then some { status := .length, sub := 0x05, off := 24 }
    else if a % 4 != 0 || decide (2 ^ 64 < a + n) then some { status := .badParam, sub := 0x09, off := 16 }
    else if !ring then some { status := .badParam, sub := 0x07, off := 1 }
    else none

/-- Check 4 (R13, R141, R142): the first reserved packet byte or flag that is not 0. -/
def reservedFault (raw : List Byte) : Option Res :=
  let from_ := if bitOf (u8 raw 1) 0 then 28 else 16 + min 48 (u16 raw 4)
  let at_ := (if u8 raw 1 / 8 != 0 then [1] else []) ++
    (([6, 7] ++ (List.range 64).filter fun k => decide (from_ ≤ k)).filter fun k => u8 raw k != 0)
  match at_ with
  | [] => none
  | k :: _ => some { status := .badParam, sub := 0x06, off := k }

/-- Checks 1 to 4 (R147). -/
def entryFault (sp : Option OpSpec) (raw : List Byte) (src : Source) (signed : Bool) : Option Res :=
  match sp with
  | none => some { status := .badOpcode, off := 0 }
  | some o =>
    if !portOk o.op src signed then some { status := .denied, sub := 0x0E, off := 0 }
    else match lengthFault o raw (match src with | .ring _ => true | _ => false) with
      | some r => some r
      | none => reservedFault raw

/-- Check 5 (R161): the answer to a packet whose sequence repeats the last one of its source. -/
def duplicate (s : State) (c : Cmd) : Option Reply :=
  if c.seq == 0 then none
  else match dupEntry s c.src with
    | none => none
    | some e =>
      if e.seq != c.seq then none
      else match e.reply with
        | some r => some { r with tag := c.tag, dup := true, restart := false, late := false }
        | none => some ((Res.mk .busy 0x0A 12 0 0 0 0 0 0).reply c)

/-- A packet that a later sequence of its source overtakes keeps its reply from the duplicate store (R161). -/
def overtaken (src : Source) (c : Cmd) (f : Fate) : Fate := if c.src == src && f == .live then .stale else f

/-- The sequence of an accepted packet is stored, in place of an older one (R161). -/
def remember (s : State) (c : Cmd) : State :=
  if c.seq == 0 then s
  else (setDup s c.src (some ⟨c.seq, none⟩)).modKtl fun k => { k with
    intake := k.intake.map fun (p : Packet) => { p with fate := overtaken c.src p.cmd p.fate }
    fetching := k.fetching.map fun (p : Packet) => { p with fate := overtaken c.src p.cmd p.fate }
    parked := k.parked.map fun (p : Parked) => { p with fate := overtaken c.src p.cmd p.fate } }

/-- The answer of checks 1 to 5 (R147), none when the packet passes them. -/
def checked (s : State) (sp : Option OpSpec) (raw : List Byte) (c : Cmd) : Option Reply :=
  match entryFault sp raw c.src c.signed with
  | some r => some (r.reply c)
  | none => duplicate s c

/-- Checks 1 to 5, made as a packet enters the intake: whether it goes on, and the state after an answer. -/
def accept (s : State) (sp : Option OpSpec) (raw : List Byte) (c : Cmd) : Bool × State :=
  match checked s sp raw c with
  | some r => (false, post s c r)
  | none => (true, remember s c)

/-! ## Start (R157, R158, R160) -/

/-- The Kettle answers: boot stage 2 complete (R55), and not out of service (R170). -/
def kettleUp (s : State) : Bool := s.sys.up && !s.ktl.dead && s.sys.mode != .reset

/-- BARRIER of a packet (R140). -/
def Cmd.barrier (c : Cmd) : Bool := bitOf c.flags.toNat 2

/-- Whether the next packet may start: no barrier is in force, no short command is still running, and a barrier of its
own finds nothing in progress (R157, R160). -/
def mayStart (s : State) (c : Cmd) : Bool :=
  s.ktl.parked.all (fun p => !Cmd.barrier p.cmd && longOp p.op.toNat) &&
  s.ktl.fetching.all (fun p => !Cmd.barrier p.cmd && longOp p.op.toNat) &&
  (!Cmd.barrier c || (s.ktl.parked.isEmpty && s.ktl.fetching.isEmpty))

/-- Long commands in progress (R158). -/
def longCount (s : State) : Nat :=
  s.ktl.parked.countP (fun p => longOp p.op.toNat) + s.ktl.fetching.countP (fun p => longOp p.op.toNat)

/-- The first reserved field of an opcode's layout that is not 0 (R174). -/
def layoutFault (sp : OpSpec) (c : Cmd) : Option Res :=
  match sp.reserved.find? fun x => (Cmd.p8 c x.1) &&& x.2 != 0 with
  | some x => some (failAt c .badParam 0x06 x.1)
  | none => none

/-- Check 6 (R147, R172). -/
def modeFault (sp : OpSpec) (s : State) : Option Res :=
  if sp.modes.contains s.sys.mode then none else some (fail .state 0x0D)

/-- Check 8 and the layout part of check 9 (R147), or none when the opcode itself decides. -/
def fieldFault (sp : OpSpec) (c : Cmd) (s : State) : Option Res :=
  match sp.names s c with
  | some off => some (failAt c .badParam 0x0F off)
  | none => layoutFault sp c

/-- A reply of a command whose deadline has passed carries LATE and raises KTL_LATE (R165, R502). -/
def deliverLate (s : State) (c : Cmd) (f : Fate) (late : Bool) (op : Nat) (r : Reply) : State :=
  if late then deliver (raise s 0x13 op) c f { r with late := true } else deliver s c f r

/-- A command that has passed its checks runs, and completes or parks. -/
def runCommand (sp : OpSpec) (c : Cmd) (f : Fate) (late : Bool) (s : State) : State :=
  match fieldFault sp c s with
  | some r => deliverLate s c f late sp.op (r.reply c)
  | none => match sp.run c s with
    | .reply t r => deliverLate t c f late sp.op (r.reply c)
    | .park t w r => t.modKtl fun k =>
        { k with parked := k.parked ++ [⟨BitVec.ofNat 8 sp.op, c, w, r.map fun x => x.reply c, late, f⟩] }

/-- The start of a command: the parking limit (R158) and check 6, or none when it goes on. R147 gives the limit no place in
its order: DESIGN CHOICE, log 98, it stands before check 6. -/
def startFault (sp : OpSpec) (s : State) : Option Res :=
  if longOp sp.op && decide (8 ≤ longCount s) then some (fail .busy 0x12) else modeFault sp s

/-- A command whose parameters are at hand starts. -/
def startCommand (sp : OpSpec) (c : Cmd) (s : State) : State :=
  match startFault sp s with
  | some r => deliver s c .live (r.reply c)
  | none => runCommand sp c .live false s

/-! ## An opcode as a command of the block (log 3) -/

/-- A packet's entry in its port's queue. -/
def queuedOf (c : Cmd) : Queued := ⟨c.tag, c.seq, bitOf c.flags.toNat 1, false⟩

/-- A packet has come to the device: its ring counts the reply it owes (R108), its port queues it (R123). -/
def arrive (s : State) (c : Cmd) : State :=
  match c.src with
  | .ring n => s.modCr n fun r => { r with awaiting := r.awaiting + 1, drained := false }
  | .mgmt => s.modMgt fun x => { x with queue := x.queue ++ [queuedOf c] }
  | .sup => s.modSup fun x => { x with queue := x.queue ++ [queuedOf c] }

/-- The packet of a command, as the intake holds it. -/
def Cmd.asPacket (c : Cmd) (op : Nat) (place : Place) : Packet :=
  let raw := Cmd.packet c op
  ⟨raw, BitVec.ofNat 8 op, c, BitVec.ofNat 64 (u64 raw 16), u32 raw 24, place, .live, false⟩

/-- Unread replies and those reserved, of a ring (R107, R108). -/
def slotsTaken (r : Ring) : Nat := (r.rhead - r.rtail).toNat + r.awaiting

/-- Whether a ring fetches its next entry: enabled, not stopped, an entry pending, and a reply slot free (R108..R110). -/
def ringFetches (r : Ring) : Bool :=
  r.en && r.err == 0 && r.head != r.tail && decide (slotsTaken r < 2 ^ r.log2n)

/-- Places of the intake that are taken (R155). -/
def placesTaken (s : State) : Nat := s.ktl.intake.countP (·.place == .held)

/-- Whether the intake takes a packet (R155). -/
def intakeRoom (s : State) : Bool := kettleUp s && decide (placesTaken s < 16)

/-- An opcode as a command of the block: the packet is accepted, and it starts at once when nothing stands before it;
otherwise it waits for PACKET_START, in the intake or, when that is full, at its SPI port; a full intake fetches no entry of a
ring. -/
def direct (sp : OpSpec) (c : Cmd) (s : State) : State :=
  if !kettleUp s then s
  else if s.ktl.intake.isEmpty && mayStart s c then
    let x := accept (arrive s c) (some sp) (Cmd.packet c sp.op) c
    if x.1 then startCommand sp c x.2 else x.2
  else if !intakeRoom s && (match c.src with | .ring _ => true | _ => false) then s
  else
    let x := accept (arrive s c) (some sp) (Cmd.packet c sp.op) c
    let place := if intakeRoom s then Place.held else .port
    if x.1 then x.2.modKtl fun k => { k with intake := k.intake ++ [Cmd.asPacket c sp.op place] } else x.2

end Sys2Proof.Machine
end

