-- ==== Sys2Proof/Machine/Guard.lean ====
section
/-!
DEFINITION. The mapped address space of the DRAM: channels (R475), coordinates (R476), guard words (R477), what has been
filled (R479), and the image of a Leaf copy (R213, R215).
-/

namespace Sys2Proof.Machine

/-! ## Addresses (R475, R476) -/

/-- Mc in bytes. -/
def mappedBytes (s : State) : Nat := s.drc.mapped * 1048576

/-- The channel of a mapped address (R475). -/
def channelOf (s : State) (a : Nat) : Fin 2 := if a < mappedBytes s then 0 else 1

/-- The channel-local address of a mapped address. -/
def localAddress (s : State) (a : Nat) : Nat := a % mappedBytes s

/-- The coordinates of a burst in a channel: rank, row, bank group, bank and column. -/
structure Coord where
  rank : Nat
  row : Nat
  group : Nat
  bank : Nat
  column : Nat
  deriving DecidableEq, Repr

/-- Row bits of a device density 0..2: 4, 8 or 16 Gb. -/
def rowBits (density : Nat) : Nat := 15 + density

/-- The coordinates of the channel-local burst address b (R476). On x16 devices bit 8 is absent and the bits above it move
down by one. -/
def burstCoord (x16 : Bool) (rows : Nat) (b : Nat) : Coord :=
  let high := if x16 then b / 2 ^ 8 else b / 2 ^ 9
  let row := fieldOf high 2 rows
  { rank := high / 2 ^ (2 + rows), row := row
    group := (fieldOf b 3 1 ^^^ fieldOf row 0 1) + (if x16 then 0 else 2 * (fieldOf b 8 1 ^^^ fieldOf row 1 1))
    bank := fieldOf high 0 2 ^^^ fieldOf row 2 2
    column := 8 * fieldOf b 0 3 + 64 * fieldOf b 4 4 }

/-- The coordinates of a mapped address, under the geometry that boot stage 3 has found. -/
def coordOf (s : State) (a : Nat) : Coord :=
  let c := s.drc.ch[channelOf s a]
  burstCoord c.x16 (rowBits c.density) (localAddress s a / 64)

/-! ## Guard word (R477) -/

/-- The CRC-32C of a burst's data and its burst address. -/
def guardCrc (data : List Byte) (a : Nat) : Word := crc32c (data ++ leBytes 5 (a / 64 % 2 ^ 36))

/-- The 64 check bits of a burst: the CRC, and its complement above it. -/
def guardWord (data : List Byte) (a : Nat) : DWord := ~~~(guardCrc data a) ++ guardCrc data a

/-- A read passes its guard when both halves agree with the CRC computed anew. -/
def guardPasses (data : List Byte) (a : Nat) (check : DWord) : Bool := check == guardWord data a

/-! ## Contents (R215, R479) -/

/-- The 64 bytes of a stored Leaf's header (R213). -/
def Leaf.header (l : Leaf) : List Byte :=
  let h := leBytes 4 0x1EAF0001 ++ leBytes 4 l.key.toNat ++ leBytes 1 l.form ++ [l.flags] ++ leBytes 2 l.width ++
    leBytes 4 l.rawLen ++ leBytes 4 l.bodyLen ++ leBytes 4 l.rawCrc.toNat ++ leBytes 4 l.bodyCrc.toNat ++ List.replicate 32 0
  h ++ leBytes 4 (crc32c h).toNat

/-- A copy of a Leaf in the Caddy (R215): header and body, and 0x00 up to a multiple of 64 bytes. -/
def Leaf.image (l : Leaf) : List Byte :=
  l.header ++ l.body ++ List.replicate ((64 - l.body.length % 64) % 64) 0

/-- Bytes of each channel that hold data and valid guards: the reserved area from boot stage 3 on, and the blocks filled since
(R479). -/
def filledBytes (s : State) : Nat := if s.cad.capPages = 0 then 0 else 2 ^ 29 + 4096 * s.cad.filledPages

/-- A mapped address whose channel serves and whose burst has been filled. -/
def dramPresent (s : State) (a : Nat) : Bool :=
  decide (a < 2 * mappedBytes s) && s.drc.ch[channelOf s a].up && decide (localAddress s a < filledBytes s)

/-- The byte at a mapped address: 0xFF where nothing is (R475, R479); else of the Leaf that lies there, or a free value, for the
spec gives no placement (log 5). -/
def dramByte (s : State) (free k a : Nat) : Byte :=
  if !dramPresent s a then 0xFF
  else match Config.leafAt (a / 64) (s.cad.leaves.map fun l => (l.job, l.key)) with
    | some (i, j) => match s.cad.leaves[i]? with
      | some l => l.image.getD (64 * j + a % 64) 0
      | none => Config.freeBar2 free k
    | none => Config.freeBar2 free k

end Sys2Proof.Machine
end

