-- ==== Sys2Proof/Machine/HostIf.lean ====
section
/-!
DEFINITION. The host interface (R99..R118): rings, registers, MSI-X, the BAR2 window, and the resets of the endpoint.
-/

namespace Sys2Proof.Machine

/-! ## The link -/

/-- An access over PCIe brings a link in L1 back to L0. -/
def linkWake (s : State) : State :=
  match s.hif.link with
  | .l1 _ => s.modHif fun h => { h with link := .up }
  | _ => s

/-- What the host does over PCIe acts once BAR0 answers (R55). -/
def overPcie (s : State) (f : State → State) : State := if s.sys.up then f (linkWake s) else s

/-- An access at a path: BAR0 and the configuration space lie behind the link. -/
def overPath (s : State) (p : Path) (f : State → State) : State :=
  match p with
  | .bar0 => overPcie s f
  | .config => overPcie s f
  | .mgmt => if s.sys.up then f s else s
  | .sup => whenUp s f

/-! ## Rings (R106..R113) -/

/-- The ring of a name, for the rings that have a tail. -/
def ringOf (s : State) : RingId → Option Ring
  | .cmd n => some s.hif.cr[n]
  | .ingest n => some s.hif.ig[n]
  | .event => none
def modRing (s : State) (r : RingId) (g : Ring → Ring) : State :=
  match r with
  | .cmd n => s.modCr n g
  | .ingest n => s.modIg n g
  | .event => s

/-- The ring's number in the detail of HIF_RING_ERR (R501). -/
def RingId.number : RingId → Nat
  | .cmd n => n.1
  | .ingest n => 4 + n.1
  | .event => 12

/-- A ring stops on an error (R109). -/
def ringStop (s : State) (r : RingId) (code : Nat) : State :=
  let s := modRing s r fun x => { x with err := code }
  raise ((s.modHif fun h => { h with ringErr := true }).stick 0x08 8) 0x01 (RingId.number r + 256 * code)

/-- A write of CFG (R106, R110, R11): VECTOR and COAL always take; LOG2_N only with EN clear and within its range; EN set
while DRAINED is 1 starts the ring from zero, and EN cleared stops its fetching. DESIGN CHOICE, log 118: a coalesced message
still owed when the ring starts anew is dropped. -/
def ringConfig (v : Nat) (r : Ring) : Ring :=
  let n := v % 16
  let r := { r with
    vector := Fin.ofNat 64 (fieldOf v 10 6), coal := fieldOf v 16 8
    log2n := if r.en || n < 4 || 12 < n then r.log2n else n }
  if bitOf v 8 then
    if r.en || !r.drained then r
    else { r with en := true, head := 0, tail := 0, rhead := 0, rtail := 0, err := 0, awaiting := 0, unsignalled := false }
  else { r with en := false }

/-- CFG of the event ring (R113). DESIGN CHOICE, log 118: enabling it zeroes HEAD and CTAIL, and keeps LOST and the lost flag. -/
def eventConfig (v : Nat) (r : EventRing) : EventRing :=
  let n := v % 16
  let r := { r with
    vector := Fin.ofNat 64 (fieldOf v 10 6), coal := fieldOf v 16 8
    log2n := if r.en || n < 6 || 14 < n then r.log2n else n }
  if bitOf v 8 then if r.en then r else { r with en := true, head := 0, ctail := 0 }
  else { r with en := false }

/-- CFG of any ring; a command ring that starts anew forgets its last sequence (R161). -/
def configRing (s : State) (r : RingId) (v : Nat) : State :=
  match r with
  | .event => s.modHif fun h => { h with ev := eventConfig v h.ev }
  | .cmd n =>
    let starts := bitOf v 8 && !s.hif.cr[n].en && s.hif.cr[n].drained
    let s := s.modCr n (ringConfig v)
    if starts then setDup s (.ring n) none else s
  | .ingest n => s.modIg n (ringConfig v)

/-- TAIL (R107, R109): more pending entries than the ring holds stop it with ERR_CODE 1. -/
def writeTail (s : State) (r : RingId) (tail : BitVec 16) : State :=
  let s := modRing s r fun x => { x with tail := tail }
  match ringOf s r with
  | some x => if x.en && x.err == 0 && decide (2 ^ x.log2n < (x.tail - x.head).toNat) then ringStop s r 1 else s
  | none => s

/-- RTAIL (R107, R109): a consumer index beyond RHEAD stops the ring with ERR_CODE 2. -/
def writeRtail (s : State) (r : RingId) (rtail : BitVec 16) : State :=
  let s := modRing s r fun x => { x with rtail := rtail }
  match ringOf s r with
  | some x => if x.en && x.err == 0 && decide (2 ^ x.log2n < (x.rhead - x.rtail).toNat) then ringStop s r 2 else s
  | none => s

/-- A word of a 64-bit field, with its reserved low bits clear. -/
def setHalf (d : DWord) (high : Bool) (low : Nat) (v : Word) : DWord :=
  if high then BitVec.ofNat 64 (d.toNat % 2 ^ 32 + 2 ^ 32 * v.toNat)
  else BitVec.ofNat 64 (hiWord d.toNat * 2 ^ 32 + v.toNat / 2 ^ low * 2 ^ low)

/-- A write of a register of a command or ingest ring at its offset (R106, R110). -/
def writeRing (s : State) (r : RingId) (o : Nat) (v : Word) : State :=
  let base := fun (high : Bool) => modRing s r fun x => if x.en then x else { x with base := setHalf x.base high 6 v }
  let rbase := fun (high : Bool) => modRing s r fun x => if x.en then x else { x with rbase := setHalf x.rbase high 5 v }
  match o with
  | 0x00 => base false
  | 0x04 => base true
  | 0x08 => configRing s r v.toNat
  | 0x0C => writeTail s r (v.setWidth 16)
  | 0x14 => rbase false
  | 0x18 => rbase true
  | 0x20 => writeRtail s r (v.setWidth 16)
  | 0x24 => modRing s r fun x => { x with wb := setHalf x.wb false 2 v }
  | 0x28 => modRing s r fun x => { x with wb := setHalf x.wb true 2 v }
  | _ => s

/-- A write of a register of the event ring (R113). -/
def writeEvent (s : State) (o : Nat) (v : Word) : State :=
  let ev := fun (g : EventRing → EventRing) => s.modHif fun h => { h with ev := g h.ev }
  match o with
  | 0x00 => ev fun x => if x.en then x else { x with base := setHalf x.base false 6 v }
  | 0x04 => ev fun x => if x.en then x else { x with base := setHalf x.base true 6 v }
  | 0x08 => configRing s .event v.toNat
  | 0x20 => ev fun x => { x with ctail := v.setWidth 16 }
  | 0x24 => ev fun x => { x with wb := setHalf x.wb false 2 v }
  | 0x28 => ev fun x => { x with wb := setHalf x.wb true 2 v }
  | _ => s

/-! ## MSI-X (R114) -/

/-- A pending message of a vector that may be sent leaves, once. -/
def sendPending (s : State) (v : Fin 64) : State :=
  if s.hif.pba.getLsbD v.1 && !s.hif.msix[v].masked && !s.hif.funcMask then
    emit (s.modHif fun h => { h with pba := h.pba &&& ~~~(1#64 <<< v.1) }) (.msix v)
  else s

/-- The mask of a vector, and the function mask. -/
def maskVector (s : State) (v : Fin 64) (m : Bool) : State :=
  sendPending (s.modHif fun h => { h with msix := updF h.msix v fun (e : MsixEntry) => { e with masked := m } }) v
def maskFunction (s : State) (m : Bool) : State :=
  (List.finRange 64).foldl sendPending (s.modHif fun h => { h with funcMask := m })

/-- A write to the MSI-X table. -/
def writeMsix (s : State) (o : Nat) (v : Word) : State :=
  let n := Fin.ofNat 64 (o / 16)
  let entry := fun (g : MsixEntry → MsixEntry) => s.modHif fun h => { h with msix := updF h.msix n g }
  match o % 16 with
  | 0 => entry fun e => { e with addr := setHalf e.addr false 2 v }
  | 4 => entry fun e => { e with addr := setHalf e.addr true 2 v }
  | 8 => entry fun e => { e with data := v }
  | _ => maskVector s n (v.getLsbD 0)

/-! ## Registers (R8..R11, R104, R127) -/

/-- HIF_BAR2_SEL (R105). -/
def writeBar2Sel (s : State) (v : Nat) : State :=
  s.modHif fun h => { h with bar2Window := v % 256, bar2En := bitOf v 8 }

/-- What a write does to the writable fields of the shared blocks: W1C flags, of which those that hardware has set in the
same cycle stay (R9), and CAD_CFG.LOW_WATER. -/
def writeShared (s : State) (o : Nat) (w : Word) : State :=
  let v : Word := BitVec.ofNat 32 (clearable s o w.toNat)
  if 0x814 ≤ o ∧ o < 0x870 ∧ o % 16 = 4 then
    let px := updN s.clk.px ((o - 0x814) / 16) fun (x : Synth) => if v.getLsbD 17 then { x with trimClamp := false } else x
    s.modClk fun c => { c with px := px }
  else if o = 0xB50 then s.modTmp fun t => { t with flags := t.flags &&& ~~~(v.setWidth 4) }
  else if o = 0xC00 then (if v.getLsbD 3 then s.modCad fun c => { c with lost := false } else s)
  else if o = 0xC04 then s.modCad fun c => { c with lowWater := w.toNat % 65536 }
  else if 0x1000 ≤ o ∧ o < 0x1600 ∧ o % 0x100 = 0x18 then
    { s with btu := updN s.btu ((o - 0x1000) / 0x100) fun (b : Station) => { b with flags := b.flags &&& ~~~(v.setWidth 5) } }
  else if 0x1600 ≤ o ∧ o < 0x1A00 ∧ o % 0x80 = 0x24 then
    { s with hdp := updN s.hdp ((o - 0x1600) / 0x80) fun (h : Head) => { h with flags := h.flags &&& ~~~(v.setWidth 5) } }
  else if o = 0x1A24 then s.modSeq fun q => { q with flags := q.flags &&& ~~~(v.setWidth 4) }
  else if 0x1C00 ≤ o ∧ o < 0x2000 ∧ o % 0x40 = 0x20 then
    { s with axs := updN s.axs ((o - 0x1C00) / 0x40) fun (a : Axis) => { a with flags := a.flags &&& ~~~(v.setWidth 7) } }
  else if 0x2000 ≤ o ∧ o < 0x2280 ∧ o % 0x40 = 0x14 then
    s.modMot fun m => { m with ch := updN m.ch ((o - 0x2000) / 0x40) fun (x : Motor) => { x with flags := x.flags &&& ~~~(v.setWidth 6) } }
  else if o = 0x2310 then s.modMot fun m => { m with flags := m.flags &&& ~~~(v.setWidth 3) }
  else if o = 0x2410 then s.modCtl fun c => { c with flags := c.flags &&& ~~~(v.setWidth 6) }
  else if o = 0x2C68 ∨ o = 0x2CA8 then
    s.modDrc fun d => { d with ch := updN d.ch ((o - 0x2C40) / 0x40) fun (c : Channel) => { c with flags := c.flags &&& ~~~(v.setWidth 5) } }
  else s

/-- A write of the shared blocks through the management port, whose value stands for the cycle (R126). -/
def mgmtShared (s : State) (o : Nat) (v : Word) : State := (writeShared s o v).modHif fun h => { h with mgmtNow := o :: h.mgmtNow }

/-- A write of the shared blocks through BAR0: in the cycle of a management-port write of the same RW field it is applied
first, so that nothing of it is left when it is given second (R126). CAD_CFG holds the one RW field that both reach. -/
def bar0Shared (s : State) (o : Nat) (v : Word) : State :=
  if o = 0xC04 && s.hif.mgmtNow.contains o then s else writeShared s o v

/-- A write of the configuration space (log 16): the BARs, of which only the address bits of their size take; the power state,
whose change keeps all ring state (R102); the function mask; and the two sizes of R99, of which unsupported ones are ignored. -/
def writeConfig (s : State) (o : Nat) (v : Word) : State :=
  match o with
  | 0x10 => s.modHif fun h => { h with bar0Base := setHalf h.bar0Base false 14 v }
  | 0x14 => s.modHif fun h => { h with bar0Base := setHalf h.bar0Base true 0 v }
  | 0x18 => s.modHif fun h => { h with bar2Base := setHalf h.bar2Base false 28 v }
  | 0x1C => s.modHif fun h => { h with bar2Base := setHalf h.bar2Base true 0 v }
  | 0x44 => s.modHif fun h => { h with d3hot := if v.toNat % 4 = 3 then true else if v.toNat % 4 = 0 then false else h.d3hot }
  | 0x50 => maskFunction s (v.getLsbD 30)
  | 0x68 => s.modHif fun h => { h with
      maxPayload := if fieldOf v.toNat 5 3 ≤ 2 then fieldOf v.toNat 5 3 else h.maxPayload
      maxRead := if fieldOf v.toNat 12 3 ≤ 5 then fieldOf v.toNat 12 3 else h.maxRead }
  | _ => s

/-- A write at a path: every field by its access code (R8), reserved bits and encodings ignored (R10, R11); offsets that
no block defines, and every offset of the supervisor port, ignore it. -/
def writeReg (s : State) (p : Path) (o : Nat) (v : Word) : State :=
  if o % 4 != 0 then s
  else match p with
    | .sup => s
    | .config => writeConfig s o v
    | .mgmt =>
      if o = 0x910 then s.modHif fun h => { h with fltSelMgmt := Fin.ofNat 256 v.toNat }
      else if 0x800 ≤ o ∧ o < 0x2E00 then mgmtShared s o v
      else if o = 0x08 then
        let t := v.toNat % 16384
        if 1 ≤ t ∧ t ≤ 10000 then s.modMgt fun x => { x with timeout := t } else s
      else s
    | .bar0 =>
      if o = 0x910 then s.modHif fun h => { h with fltSelBar0 := Fin.ofNat 256 v.toNat }
      else if 0x800 ≤ o ∧ o < 0x2E00 then bar0Shared s o v
      else if o = 0x08 then
        let v : Word := BitVec.ofNat 32 (clearable s 0x08 v.toNat)
        s.modHif fun h => { h with
          bar2Hit := h.bar2Hit && !v.getLsbD 1, bar2Write := h.bar2Write && !v.getLsbD 2, ringErr := h.ringErr && !v.getLsbD 3 }
      else if o = 0x10 then writeBar2Sel s v.toNat
      else if 0x100 ≤ o ∧ o < 0x200 then writeRing s (.cmd (Fin.ofNat 4 ((o - 0x100) / 0x40))) (o % 0x40) v
      else if 0x200 ≤ o ∧ o < 0x400 then writeRing s (.ingest (Fin.ofNat 8 ((o - 0x200) / 0x40))) (o % 0x40) v
      else if 0x400 ≤ o ∧ o < 0x440 then writeEvent s (o - 0x400) v
      else if 0x3000 ≤ o ∧ o < 0x3400 then writeMsix s (o - 0x3000) v
      else s

/-- A read at a path, and what the port answers. -/
def readOut (s : State) (p : Path) (o : Nat) : State :=
  let x := readReg s p o
  emit x.2 (.readWord p x.1)

/-! ## The BAR2 window (R115..R118) -/

/-- The bytes of a BAR2 read: 0xFF beyond the mapped DRAM; the placement of data in mapped DRAM is not given, so what
mapped memory holds is a free value (log 5). -/
def bar2Bytes (s : State) (offset len : Nat) : List Byte :=
  let start := s.hif.bar2Window * 2 ^ 28 + offset
  (List.range len).map fun k =>
    dramByte s s.free k (start + k)

/-- A guard failure of a read at a mapped address (R478): the source of its channel, and LAST_FAIL. -/
def guardRaise (s : State) (a : DWord) : State :=
  let c := channelOf s a.toNat
  let s := s.modChan c fun x => { x with guardFails := inc32 x.guardFails, lastFail := a, flags := x.flags ||| 0x01 }
  raise (s.stick (0x2C68 + 0x40 * c.1) 1) (0x25 + c.1) (fieldOf a.toNat 6 24 + 2 ^ 24 * c.1)

/-- A BAR2 read. -/
def bar2Read (s : State) (offset len : Nat) (guardFails : Bool) : State :=
  if !bar2Open s then
    emit (raise ((s.modHif fun h => { h with bar2Hit := true }).stick 0x08 2) 0x04 1) (.bar2 (List.replicate len 0xFF) false)
  else
    let t := emit (dramRequest s).drawn (.bar2 (bar2Bytes s offset len) guardFails)
    if guardFails then guardRaise t (BitVec.ofNat 64 (s.hif.bar2Window * 2 ^ 28 + offset)) else t

/-! ## Resets of the endpoint (R61, R102, R103) -/

/-- Ring state, MSI-X and the power state of the function go back to reset; replies of fetched packets are void, and
descriptors that have not reached their index entry store nothing (R224's closing rule). -/
def endpointReset (s : State) : State :=
  let lane := fun (s : State) (d : Ingest) => match d.worker with
    | some n => s.modEnc n Lane.ended
    | none => s
  let s := s.cad.ingest.foldl lane s
  let s := s.modCad fun c => { c with ingest := [] }
  let s := s.modHif fun h => { h with
    cr := Vector.replicate 4 {}, ig := Vector.replicate 8 {}, ev := {}, msix := Vector.replicate 64 {}
    pba := 0, funcMask := false, bar0Base := 0, bar2Base := 0, maxPayload := 0, maxRead := 2, d3hot := false, turn := 0 }
  let ring := fun (c : Cmd) => match c.src with | .ring _ => true | _ => false
  s.modKtl fun k => { k with
    dupRing := Vector.replicate 4 none
    intake := k.intake.map fun (p : Packet) => if ring p.cmd then { p with fate := .void } else p
    fetching := k.fetching.map fun (p : Packet) => if ring p.cmd then { p with fate := .void } else p
    parked := k.parked.map fun (p : Parked) => if ring p.cmd then { p with fate := .void } else p }

/-- The function is reached over the link. -/
def linked (s : State) : Bool := match s.hif.link with | .up => true | .l1 _ => true | _ => false

/-- A reset of the endpoint with its detail of HIF_LINK_DOWN (R501). -/
def endpointDown (s : State) (link : Link) (detail : Nat) : State :=
  raise ((endpointReset s).modHif fun h => { h with link := link }) 0x00 detail

/-! ## The commands -/

/-- RING_ENABLE (R110): a write of CFG with EN set. -/
def execRingEnable (r : RingId) (cfg : Word) (s : State) : Host.Outcome State Fault Refusal :=
  .next (overPcie s fun s => configRing s r ((cfg ||| 0x100#32).toNat))

/-- RING_DISABLE (R110): a write of CFG with EN clear. -/
def execRingDisable (r : RingId) (cfg : Word) (s : State) : Host.Outcome State Fault Refusal :=
  .next (overPcie s fun s => configRing s r ((cfg &&& ~~~(0x100#32)).toNat))

/-- RING_DRAINED (R110): the last reply of a ring with EN clear has been written. -/
def execRingDrained (r : RingId) (s : State) : Host.Outcome State Fault Refusal :=
  .next (whenUp s fun s => modRing s r fun x => if !x.en && x.awaiting == 0 then { x with drained := true } else x)

/-- RING_DOORBELL (R109). -/
def execRingDoorbell (r : RingId) (tail : BitVec 16) (s : State) : Host.Outcome State Fault Refusal :=
  .next (overPcie s fun s => writeTail s r tail)

/-- REPLY_RING_CONSUME (R109). -/
def execReplyRingConsume (r : RingId) (rtail : BitVec 16) (s : State) : Host.Outcome State Fault Refusal :=
  .next (overPcie s fun s => writeRtail s r rtail)

/-- EVENT_RING_CONSUME (R113). -/
def execEventRingConsume (ctail : BitVec 16) (s : State) : Host.Outcome State Fault Refusal :=
  .next (overPcie s fun s => s.modHif fun h => { h with ev := { h.ev with ctail := ctail } })

/-- BAR2_WINDOW_SELECT (R115). -/
def execBar2WindowSelect (value : Word) (s : State) : Host.Outcome State Fault Refusal :=
  .next (overPcie s fun s => writeBar2Sel s value.toNat)

/-- MSIX_UNMASK (R114). -/
def execMsixUnmask (t : MsixTarget) (s : State) : Host.Outcome State Fault Refusal :=
  .next (overPcie s fun s => match t with | .vector v => maskVector s v false | .function => maskFunction s false)

/-- REGISTER_WRITE (R8..R11). -/
def execRegisterWrite (path : Path) (offset : BitVec 16) (value : Word) (s : State) : Host.Outcome State Fault Refusal :=
  .next (overPath s path fun s => writeReg s path offset.toNat value)

/-- LOW_WORD_READ (R12). -/
def execLowWordRead (path : Path) (offset : BitVec 16) (s : State) : Host.Outcome State Fault Refusal :=
  .next (overPath s path fun s => readOut s path offset.toNat)

/-- MOT_BUS_PEAK_READ (R449). -/
def execMotBusPeakRead (path : Path) (s : State) : Host.Outcome State Fault Refusal :=
  .next (overPath s path fun s => readOut s path 0x2308)

/-- TMP_PEAK_READ (R544). -/
def execTmpPeakRead (path : Path) (s : State) : Host.Outcome State Fault Refusal :=
  .next (overPath s path fun s => readOut s path 0xB48)

/-- BAR2_READ (R117). -/
def execBar2Read (offset : BitVec 28) (len : Nat) (guardFails : Bool) (s : State) : Host.Outcome State Fault Refusal :=
  .next (overPcie s fun s => bar2Read s offset.toNat len guardFails)

/-- BAR2_WRITE (R116): discarded. -/
def execBar2Write (_offset : BitVec 28) (_data : List Byte) (s : State) : Host.Outcome State Fault Refusal :=
  .next (overPcie s fun s => raise ((s.modHif fun h => { h with bar2Write := true }).stick 0x08 4) 0x04 2)

/-- REPLY_COALESCE_EXPIRY (R111): one message covers every reply written by then. -/
def execReplyCoalesceExpiry (r : RingId) (s : State) : Host.Outcome State Fault Refusal :=
  .next (whenUp s fun s => match ringOf s r with
    | some x => if x.unsignalled then sendMsix (modRing s r fun y => { y with unsignalled := false }) x.vector else s
    | none => s)

/-- PERST_N_ASSERT (R61, R555): in RESET only the level is noted. -/
def execPerstNAssert (s : State) : Host.Outcome State Fault Refusal :=
  .next (
    let s := s.modHif fun h => { h with perstLow := true }
    whenUp s fun s => endpointDown s .held 1)

/-- PERST_N_DEASSERT (R555): link training starts once RST has passed. -/
def execPerstNDeassert (s : State) : Host.Outcome State Fault Refusal :=
  .next (
    let was := s.hif.perstLow
    let s := s.modHif fun h => { h with perstLow := false }
    whenUp s fun s => if was then s.modHif fun h => { h with link := .training } else s)

/-- HOT_RESET (R102): the link trains again. -/
def execHotReset (s : State) : Host.Outcome State Fault Refusal :=
  .next (whenUp s fun s => if linked s then endpointDown s .training 2 else s)

/-- FUNCTION_LEVEL_RESET (R102): the link stays trained. -/
def execFunctionLevelReset (s : State) : Host.Outcome State Fault Refusal :=
  .next (whenUp s fun s => if linked s then endpointDown s .up 3 else s)

/-- D3HOT_TO_D0 (R102): all ring state is kept. -/
def execD3hotToD0 (s : State) : Host.Outcome State Fault Refusal :=
  .next (whenUp s fun s => s.modHif fun h => { h with d3hot := false })

/-- D0_TO_D3HOT (R102). -/
def execD0ToD3hot (s : State) : Host.Outcome State Fault Refusal :=
  .next (whenUp s fun s => if linked s then s.modHif fun h => { h with d3hot := true } else s)

/-- LINK_UP (R501): training has ended with DL_Up, or the link has come back from L1. -/
def execLinkUp (s : State) : Host.Outcome State Fault Refusal :=
  .next (whenUp s fun s => match s.hif.link with
    | .held => s
    | _ => s.modHif fun h => { h with link := .up })

/-- ASPM_L1_ENTRY (R101): the device initiates L1 only in STANDBY, and L1.2 only at depth W4. -/
def execAspmL1Entry (s : State) : Host.Outcome State Fault Refusal :=
  .next (whenUp s fun s =>
    if s.sys.mode == .standby && s.hif.link == .up then s.modHif fun h => { h with link := .l1 (s.sys.depth == 4) } else s)

end Sys2Proof.Machine
end

