-- ==== Sys2Proof/Machine/Device.lean ====
section
/-! DEFINITION. Device and mode opcodes 0x00..0x06 (R177..R180, R43, R44, R49). -/

namespace Sys2Proof.Machine

/-- A result of status OK. -/
def okRes : Res := { status := .ok }

/-- NOP (R177). -/
def nopSpec : OpSpec := ⟨0x00, 0, 0, allModes, [], namesNothing, fun _ s => .reply s okRes⟩

/-- ECHO (R178): packet bytes 16..35. -/
def echoRun (c : Cmd) (s : State) : Verdict :=
  .reply s { status := .ok, w0 := Cmd.p32 c 16, w1 := Cmd.p32 c 20, w2 := Cmd.p32 c 24, w3 := Cmd.p32 c 28, w4 := Cmd.p32 c 32 }
def echoSpec : OpSpec := ⟨0x01, 0, 48, allModes, [], namesNothing, echoRun⟩

/-- Five words of a hash from byte k, in FIPS order (R178). -/
def hashWords (h : List Byte) (k : Nat) : Res :=
  { status := .ok, w0 := u32 h k, w1 := u32 h (k + 4), w2 := u32 h (k + 8), w3 := u32 h (k + 12), w4 := u32 h (k + 16) }

/-- GET_INFO (R178). -/
def infoPage (s : State) : Nat → Res
  | 0 =>
    { status := .ok, w0 := idWord s
      w1 := mask 6 (stationOn s) + 2 ^ 6 * mask 8 (headOn s) + atBit 14 8 (dramMax s) + atBit 22 1 (bit (journalMandatory s)) +
        atBit 23 1 (bit (compatForbidden s)) + atBit 24 1 (bit (servicePermitted s)) + atBit 25 1 (bit (bar2Permitted s))
      w2 := Config.romRelease.toNat
      w3 := bit s.sys.compatStrap + 2 * bit s.sys.compat + 4 * bit s.led.audit + 8 * bit (keyComplete s) + 16 * bit s.sys.pwrLoss
      w4 := if s.jnl.flashOk then ringMib s else 0 }
  | 1 => hashWords (hashBytes Config.romHash) 0
  | 2 => hashWords (hashBytes Config.romHash) 20
  | 3 => hashWords (fuseBytes s 152 4) 0
  | _ => hashWords (fuseBytes s 152 4) 20
def getInfoRun (c : Cmd) (s : State) : Verdict :=
  if 4 < Cmd.p8 c 16 then refuse s (failAt c .badParam 0x40 16) else .reply s (infoPage s (Cmd.p8 c 16))
def getInfoSpec : OpSpec := ⟨0x02, 4, 4, allModes, [(17, 0xFF), (18, 0xFF), (19, 0xFF)], namesNothing, getInfoRun⟩

/-- GET_STATUS (R178); the count of pending sources saturates in its 8 bits. -/
def getStatusRun (_ : Cmd) (s : State) : Verdict :=
  .reply s { status := .ok, w0 := modeWord s
             w1 := (highestPending s).getD 0xF + 256 * min 255 (pendingCount s)
             w2 := (sheets s).length + 65536 * openSheets s, w3 := freeMib s, w4 := fieldInt 32 s.tmp.temp }
def getStatusSpec : OpSpec := ⟨0x03, 0, 0, allModes, [], namesNothing, getStatusRun⟩

/-! ## SET_MODE (R43, R44) -/

/-- The reply of SET_MODE: W0 is the mode on completion. -/
def modeReply (s : State) (st : Status) : Res := { status := st, w0 := s.sys.mode.code }

/-- A target whose transition is not permitted, or whose preconditions are unmet (R44). -/
def modeRefused (s : State) : Res := { fail .state 0x40 with w0 := s.sys.mode.code }

/-- SET_MODE READY (R43, R53): a wake begins; one in progress goes on. -/
def setReady (s : State) : Verdict :=
  if s.sys.mode != .standby || pendingAtLeast s .runout then refuse s (modeRefused s)
  else let t := if s.sys.wake.isSome then s else hvUpdate (wakeStart s)
       .reply t (modeReply t .accepted)

/-- Whether SET_MODE STANDBY may leave the present mode (R43). -/
def mayStandby (s : State) : Bool :=
  match s.sys.mode with
  | .ready => ledgerEmpty s
  | .halt => !pendingAtLeast s .halt && !s.sys.haltUntilReset
  | .service => !s.sys.svcLock && requiredSet s
  | _ => false
def setStandby (s : State) : Verdict :=
  if mayStandby s then let t := standbyEntry s
                       .reply t (modeReply t .ok)
  else refuse s (modeRefused s)

/-- SET_MODE RUNOUT (R43, R398). -/
def setRunout (s : State) : Verdict :=
  if s.sys.mode == .ready || s.sys.mode == .print then
    let t := runoutWith (causeByCommand s)
    .reply t (modeReply t .ok)
  else refuse s (modeRefused s)

/-- SET_MODE SERVICE (R43, R44, R176): journaled; a depth of STANDBY is left at once. -/
def setService (c : Cmd) (s : State) : Verdict :=
  if !servicePermitted s then refuse s { fail .denied 0x41 with w0 := s.sys.mode.code }
  else if !((s.sys.mode == .standby || s.sys.mode == .ready) && ledgerEmpty s) then refuse s (modeRefused s)
  else match journalRefusal s false with
    | some r => refuse s r
    | none =>
      let t := (leaveDepth s s.sys.depth 0).modSys fun x => { x with wake := none, depthTarget := 0 }
      let t := journalCommand (enterMode t .service) 0x04 .ok c
      journaled s t (modeReply t .ok)

/-- SET_MODE comes last among the triggers of a cycle (R45): the detections on their way act first, and with PWRFAIL_N in the same
cycle it is evaluated against HALT, from which no command leaves then. -/
def setModeRun (c : Cmd) (s : State) : Verdict :=
  let t := recordAll s
  match Cmd.p8 c 16 with
  | 0x2 | 0x3 | 0x5 | 0x7 =>
    if coming s (· == .pwrfailNAssert) then refuse t { fail .state 0x40 with w0 := Mode.halt.code }
    else match Cmd.p8 c 16 with
      | 0x2 => setStandby t
      | 0x3 => setReady t
      | 0x5 => setRunout t
      | _ => setService c t
  | _ => refuse s (failAt c .badParam 0x42 16)
def setModeSpec : OpSpec :=
  ⟨0x04, 4, 4, [.standby, .ready, .print, .runout, .halt, .service], [(17, 0xFF), (18, 0xFF), (19, 0xFF)], namesNothing,
    setModeRun⟩

/-! ## Wake budget and event routes -/

/-- SET_WAKE_BUDGET (R48, R49, R50). -/
def setWakeBudgetRun (c : Cmd) (s : State) : Verdict :=
  let t := reselect (s.modSys fun x => { x with wakeBudget := Cmd.p32 c 16, idleTimeout := Cmd.p16 c 20 })
  .reply t { status := .ok, w0 := if t.sys.mode == .standby then selectDepth t else 0, w1 := wakeEstimate t 1
             w2 := wakeEstimate t 2, w3 := wakeEstimate t 3, w4 := wakeEstimate t 4 }
def setWakeBudgetSpec : OpSpec :=
  ⟨0x05, 8, 8, allModes, [(22, 0xFF), (23, 0xFF)], namesNothing, setWakeBudgetRun⟩

/-- SET_EVENT_ROUTE (R177, R180). -/
def setEventRouteRun (c : Cmd) (s : State) : Verdict :=
  if 8 ≤ Cmd.p8 c 17 then refuse s (failAt c .badParam 0x40 17)
  else if 64 ≤ Cmd.p8 c 18 then refuse s (failAt c .badParam 0x40 18)
  else .reply (s.modSrc (Fin.ofNat 256 (Cmd.p8 c 16)) fun x =>
    { x with route := BitVec.ofNat 3 (Cmd.p8 c 17), vector := Fin.ofNat 64 (Cmd.p8 c 18) }) okRes
def setEventRouteSpec : OpSpec := ⟨0x06, 4, 4, allModes, [(19, 0xFF)], namesNothing, setEventRouteRun⟩

/-! ## The commands -/

/-- NOP. -/
def execNop (c : Cmd) (s : State) : Host.Outcome State Fault Refusal := .next (direct nopSpec c s)
/-- ECHO. -/
def execEcho (c : Cmd) (s : State) : Host.Outcome State Fault Refusal := .next (direct echoSpec c s)
/-- GET_INFO. -/
def execGetInfo (c : Cmd) (s : State) : Host.Outcome State Fault Refusal := .next (direct getInfoSpec c s)
/-- GET_STATUS. -/
def execGetStatus (c : Cmd) (s : State) : Host.Outcome State Fault Refusal := .next (direct getStatusSpec c s)
/-- SET_MODE. -/
def execSetMode (c : Cmd) (s : State) : Host.Outcome State Fault Refusal := .next (direct setModeSpec c s)
/-- SET_WAKE_BUDGET. -/
def execSetWakeBudget (c : Cmd) (s : State) : Host.Outcome State Fault Refusal := .next (direct setWakeBudgetSpec c s)
/-- SET_EVENT_ROUTE. -/
def execSetEventRoute (c : Cmd) (s : State) : Host.Outcome State Fault Refusal := .next (direct setEventRouteSpec c s)

end Sys2Proof.Machine
end

