-- ==== Sys2Proof/Machine/Profile.lean ====
section
/-!
DEFINITION. The profile generator of the stepper axes (R412..R414, R418..R423): the velocity that it computes anew every
10 µs and the position that it integrates in every XCLK cycle, the coil angle and the microstep level. The spec gives the
profiles' shape and the resolution of 1/65,536; the phase of the 10 µs and the rounding are the model's choice (log 53).
-/

namespace Sys2Proof.Machine

/-! ## Coil angle (R409, R412) -/

/-- A quarter wave of the sine in 1/32,768: entry k is the sine of k / 1,024 of a turn, rounded. -/
def quarterSine : List Nat :=
  [0, 201, 402, 603, 804, 1005, 1206, 1407, 1608, 1809, 2009, 2210, 2411, 2611, 2811, 3012] ++
  [3212, 3412, 3612, 3812, 4011, 4211, 4410, 4609, 4808, 5007, 5205, 5404, 5602, 5800, 5998, 6195] ++
  [6393, 6590, 6787, 6983, 7180, 7376, 7571, 7767, 7962, 8157, 8351, 8546, 8740, 8933, 9127, 9319] ++
  [9512, 9704, 9896, 10088, 10279, 10469, 10660, 10850, 11039, 11228, 11417, 11605, 11793, 11980, 12167, 12354] ++
  [12540, 12725, 12910, 13095, 13279, 13463, 13646, 13828, 14010, 14192, 14373, 14553, 14733, 14912, 15091, 15269] ++
  [15447, 15624, 15800, 15976, 16151, 16326, 16500, 16673, 16846, 17018, 17190, 17361, 17531, 17700, 17869, 18037] ++
  [18205, 18372, 18538, 18703, 18868, 19032, 19195, 19358, 19520, 19681, 19841, 20001, 20160, 20318, 20475, 20632] ++
  [20788, 20943, 21097, 21251, 21403, 21555, 21706, 21856, 22006, 22154, 22302, 22449, 22595, 22740, 22884, 23028] ++
  [23170, 23312, 23453, 23593, 23732, 23870, 24008, 24144, 24279, 24414, 24548, 24680, 24812, 24943, 25073, 25202] ++
  [25330, 25457, 25583, 25708, 25833, 25956, 26078, 26199, 26320, 26439, 26557, 26674, 26791, 26906, 27020, 27133] ++
  [27246, 27357, 27467, 27576, 27684, 27791, 27897, 28002, 28106, 28209, 28311, 28411, 28511, 28610, 28707, 28803] ++
  [28899, 28993, 29086, 29178, 29269, 29359, 29448, 29535, 29622, 29707, 29792, 29875, 29957, 30038, 30118, 30196] ++
  [30274, 30350, 30425, 30499, 30572, 30644, 30715, 30784, 30853, 30920, 30986, 31050, 31114, 31177, 31238, 31298] ++
  [31357, 31415, 31471, 31527, 31581, 31634, 31686, 31737, 31786, 31834, 31881, 31927, 31972, 32015, 32058, 32099] ++
  [32138, 32177, 32214, 32251, 32286, 32319, 32352, 32383, 32413, 32442, 32470, 32496, 32522, 32546, 32568, 32590] ++
  [32610, 32629, 32647, 32664, 32679, 32693, 32706, 32718, 32729, 32738, 32746, 32753, 32758, 32762, 32766, 32767] ++
  [32768]

/-- The sine of k / 1,024 turn in 1/32,768. -/
def sineOf (k : Nat) : Int :=
  let n := k % 1024
  if n ≤ 256 then quarterSine.getD n 0
  else if n ≤ 512 then quarterSine.getD (512 - n) 0
  else if n ≤ 768 then -(quarterSine.getD (n - 512) 0 : Nat)
  else -(quarterSine.getD (1024 - n) 0 : Nat)

/-- The step of θ at a microstep level (R412). -/
def levelStep (level : Nat) : Int :=
  match level with
  | 0 => 1 | 1 => 4 | 2 => 16 | 3 => 64 | 4 => 128 | _ => 256

/-- θ: POS rounded toward minus infinity to a multiple of the level's step (R412). -/
def coilAngle (level : Nat) (pos : Int) : Int := pos / levelStep level * levelStep level

/-- The setpoints of coils A and B in 1/32,768 mA (R409). The reverse flag turns coil B's sign (log 53). -/
def coilSetpoints (reverse : Bool) (i : Nat) (theta : Int) : Int × Int :=
  let k := (theta % 1024).toNat
  (i * sineOf (k + 256), if reverse then -(i * sineOf k) else i * sineOf k)

/-! ## Velocity and position (R414, R418) -/

/-- XCLK cycles between two computations of the velocity: 10 µs (R414). -/
def velocityCycles : Nat := 2000

/-- The velocity that acceleration a [1/256 step per ms²] adds in 10 µs, in 1/65,536. -/
def velStep (a : Nat) : Int := (a * 65536 * velocityCycles / 200000 : Nat)

/-- The distance that a velocity covers in XCLK cycle k of its 10 µs, in 1/65,536 of 1/256 step; over the 10 µs the cycles'
distances add up to the velocity's, rounded down. -/
def travel (v : Int) (k : Nat) : Int := v * (k + 1) / 200000 - v * k / 200000

/-- The distance in which a velocity comes to rest at acceleration a. -/
def stopDistance (v : Int) (a : Nat) : Nat := v.natAbs * v.natAbs / (131072 * Nat.max 1 a)

/-- The velocity a trapezoidal profile aims at, with r still to go (R418): zero when it must brake or has arrived, else
the limit toward the target. -/
def aimFor (r v : Int) (vlim : Nat) (a : Nat) : Int :=
  if r = 0 then 0
  else if (decide (0 < r) == decide (0 < v)) && v != 0 && decide (r.natAbs ≤ stopDistance v a) then 0
  else if 0 < r then vlim * 65536 else -(vlim * 65536 : Nat)

/-- The velocity of the next 10 µs on the way from v to an aim, at acceleration a. -/
def speedToward (v aim : Int) (a : Nat) : Int := v + clampI (-(velStep a)) (velStep a) (aim - v)

/-- The next velocity of a trapezoidal profile with r still to go. -/
def profileSpeed (r v : Int) (vlim a : Nat) : Int := speedToward v (aimFor r v vlim a) a

/-- A distance d made toward a target r away never passes it. -/
def arrives (r d : Int) : Bool :=
  (decide (0 ≤ r) && decide (r ≤ d) && decide (0 ≤ d)) || (decide (r ≤ 0) && decide (d ≤ r) && decide (d ≤ 0))

/-- A position as an i32 (R412); past the ends it wraps (log 53). -/
def wrapPos (p : Int) : Int := (p + 2 ^ 31) % 2 ^ 32 - 2 ^ 31

/-- The axis at a fine position. -/
def Axis.at_ (x : Axis) (p : Int) : Axis := { x with pos := wrapPos (p / 65536), frac := (p % 65536).toNat }

/-- The axis with a fine velocity. -/
def Axis.withSpeed (x : Axis) (v : Int) : Axis := { x with fine := v, vel := Int.tdiv v 65536 }

/-- The axis after a distance d toward a target r away: there it rests. -/
def Axis.toward (x : Axis) (r d : Int) : Axis :=
  if arrives r d then (x.at_ (x.finePos + r)).withSpeed 0 else x.at_ (x.finePos + d)

/-- A limit of a command, or the recipe's default when it is 0, never above the axis's maximum (R418). -/
def limitOf (given default max : Nat) : Nat := min (if given = 0 then default else given) max

/-- How far a move's target is, in 1/65,536. -/
def Axis.toGo (x : Axis) : Int := x.target * 65536 - x.finePos

/-- A velocity move that a soft limit ahead will end (R418). -/
def Axis.limited (x : Axis) (m : Move) : Bool := m.limit && (decide (0 < x.toGo) == decide (0 < m.speed))

/-- The next velocity of a single-axis move. -/
def moveSpeed (e : List Byte) (x : Axis) (m : Move) : Int :=
  let a := limitOf m.alim (axADef e) (axAMax e)
  let v := limitOf m.vlim (if m.kind = 2 then axVMax e else axVDef e) (axVMax e)
  if m.kind != 2 then profileSpeed x.toGo x.fine v a
  else if x.limited m then profileSpeed x.toGo x.fine (min v m.speed.natAbs) a
  else speedToward x.fine (if m.limit then 0 else clampI (-(v : Nat)) v m.speed * 65536) a

/-! ## Geared axes (R421..R423) -/

/-- The fine velocity of the gear at the present counter rate (R421). -/
def gearSpeed (s : State) (e : List Byte) : Int := (axGear e * ppcStep s * 200000 / 2 ^ 32 : Nat)

/-- POS of a locked axis at a count (R421), in 1/65,536. -/
def gearPos (e : List Byte) (g : GearLock) (count : Nat) : Int := g.pos + (axGear e : Int) * ((count : Int) - g.count)

/-- The next velocity of the deskew correction (R422), within what the gear leaves of the axis's maximum. -/
def GearLock.paced (g : GearLock) (s : State) (e : List Byte) : GearLock :=
  { g with speed := profileSpeed g.owed g.speed (axVMax e - (gearSpeed s e).natAbs / 65536) (correctionAcc (motionBody s)) }

/-- One XCLK cycle of the deskew correction. -/
def GearLock.correct (g : GearLock) (k : Nat) : GearLock :=
  let d := travel g.speed k
  if arrives g.owed d then { g with pos := g.pos + g.owed, owed := 0, speed := 0 }
  else { g with pos := g.pos + d, owed := g.owed - d }

/-- Counts that the counter advances while the axis accelerates to its gear's velocity, in 1/2^32. -/
def gearCounts (s : State) (e : List Byte) : Nat :=
  ppcStep s * 200000 * (gearSpeed s e).natAbs / (65536 * Nat.max 1 (axAMax e))

/-- After a hold the start waits until an acceleration from now on ends where the phased lock wants the axis (R423). -/
def phaseWaits (s : State) (e : List Byte) (x : Axis) : Bool :=
  match x.phase with
  | none => false
  | some (p, t) =>
    let reach := x.finePos + stopDistance (gearSpeed s e) (axAMax e)
    x.fine == 0 && decide (p + (axGear e : Int) * ((ppc s : Int) + gearCounts s e / 2 ^ 32 - t) < reach)

/-! ## Groups and homing (R419, R420) -/

/-- The next path velocity of a group move; a group that stops brakes along its path. -/
def Line.paced (l : Line) (stopping : Bool) : Line :=
  { l with speed := (if stopping then speedToward l.speed 0 l.stop else profileSpeed ((l.len : Int) - l.gone) l.speed l.vlim l.alim).toNat }

/-- One XCLK cycle along the line of a group move. -/
def lineStep (x : Axis) (l : Line) (k : Nat) : Axis :=
  let gone := min l.len (l.gone + (travel l.speed k).toNat)
  let l := { l with gone := gone, speed := if gone = l.len then 0 else l.speed }
  let pos : Int := l.start + (if l.len = 0 then 0 else roundDiv (l.delta * gone) l.len)
  { (x.withSpeed (if l.len = 0 then 0 else l.delta * 65536 * l.speed / l.len)) with pos := pos, frac := 0, line := some l }

/-- The signed speed of a homing phase (R419). -/
def homingSpeed (e : List Byte) (h : Homing) : Int :=
  let q := axHomeSeq e h.seq
  let toward : Int := if homeNegative q then -1 else 1
  match h.phase with
  | 0 => -toward * homeSlow q
  | 1 => toward * homeFast q
  | 2 => -toward * homeSlow q
  | _ => toward * homeSlow q

/-! ## Microstep level (R413) -/

/-- The level that the velocity decides, from the level decided last. -/
def decideLevel (e : List Byte) (level : Nat) (v : Int) : Nat :=
  let f := v.natAbs * 1000
  if level < 5 && decide (axSw e level * 256 ≤ f) then level + 1
  else if 0 < level && decide (f * 256 < axSw e (level - 1) * 256 * (256 - axHyst e)) then level - 1
  else level

/-- POS lies on a multiple of 256, or has passed one on its way from `before`. -/
def alignedFrom (before now : Int) : Bool :=
  now % 256 == 0 ||
  (if before ≤ now then decide (before / 256 < now / 256) else decide ((now + 255) / 256 < (before + 255) / 256))

/-- The level decided last takes effect at an aligned position. -/
def Axis.applyLevel (before : Int) (x : Axis) : Axis := if alignedFrom before x.pos then { x with level := x.levelNext } else x

/-! ## One XCLK cycle (R414) -/

/-- Every 10 µs the velocity is computed anew, and decides the level. -/
def axisSpeed (s : State) (a : Fin 16) (x : Axis) : Axis :=
  let e := axisOf s a
  let y := match x.state with
    | .moving => match x.move with | some m => x.withSpeed (moveSpeed e x m) | none => x
    | .homing => match x.homing with | some h => x.withSpeed (speedToward x.fine (homingSpeed e h * 65536) (axAMax e)) | none => x
    | .group => { x with line := x.line.map fun (l : Line) => l.paced false }
    | .stopping => match x.line with
      | some l => { x with line := some (l.paced true) }
      | none => x.withSpeed (speedToward x.fine 0 (axStopDec e))
    | .geared => match x.gearLock with
      | none => if phaseWaits s e x then x else x.withSpeed (speedToward x.fine (gearSpeed s e) (axAMax e))
      | some g => let g := g.paced s e
                  { (x.withSpeed (gearSpeed s e + g.speed)) with gearLock := some g }
    | _ => x
  { y with levelNext := decideLevel e y.levelNext y.vel }

/-- What the velocity adds to POS in cycle k of its 10 µs. -/
def axisTravel (s : State) (a : Fin 16) (k : Nat) (x : Axis) : Axis :=
  let d := travel x.fine k
  match x.state with
  | .moving => match x.move with
    | none => x
    | some m => if m.kind != 2 || x.limited m then x.toward x.toGo d else x.at_ (x.finePos + d)
  | .homing => { (x.at_ (x.finePos + d)) with homing := x.homing.map fun h => { h with gone := h.gone + d.natAbs } }
  | .group => match x.line with | some l => lineStep x l k | none => x
  | .stopping => match x.line with | some l => lineStep x l k | none => x.at_ (x.finePos + d)
  | .geared => match x.gearLock with
    | none => x.at_ (x.finePos + d)
    | some g => let g := g.correct k
                { (x.at_ (gearPos (axisOf s a) g (ppc s))) with gearLock := some g }
  | _ => x

/-- A state in which a profile or a gear moves the axis. -/
def AxisState.moves : AxisState → Bool
  | .homing | .moving | .group | .geared | .stopping => true
  | .disabled | .idle | .fenced => false

/-- One XCLK cycle of an axis. -/
def axisCycle (s : State) (a : Fin 16) (x : Axis) : Axis :=
  if !x.state.moves then x
  else
    let k := s.now % velocityCycles
    let y := if k = 0 then axisSpeed s a x else x
    (axisTravel s a k y).applyLevel x.pos

/-- One XCLK cycle of every axis. -/
def axesCycle (s : State) : State :=
  if s.axs.any fun x => x.state.moves then { s with axs := s.axs.mapFinIdx fun k x h => axisCycle s ⟨k, h⟩ x } else s

/-! ## Bridges (R408, R409) -/

/-- XCLK cycles of a PWM period (R409, R424): the frequency is in 100 Hz. -/
def pwmCycles (e : List Byte) : Nat := 2000000 / axPwmFreq e

/-- A bridge's states (R408). -/
inductive Bridge where
  | allOff | forward | backward | lowSides
  deriving DecidableEq, Repr

/-- The levels of a bridge's two inputs X1 and X2. -/
def Bridge.levels : Bridge → Bool × Bool
  | .allOff => (false, false) | .forward => (true, false) | .backward => (false, true) | .lowSides => (true, true)

/-- The state of a coil's bridge in cycle k of a PWM period of n cycles: the pulse lies around the centre, and the off-time
that follows it, into the next period, decays as the entry's mode says (R409). -/
def bridgeAt (e : List Byte) (n : Nat) (duty : Int) (k : Nat) : Bridge :=
  let on := n * duty.natAbs / 65536
  let lead := (n - on) / 2
  if lead ≤ k && decide (k < lead + on) then (if duty < 0 then .backward else .forward)
  else
    let since := if lead + on ≤ k then k - (lead + on) else n - (lead + on) + k
    match axDecay e with
    | 0 => .lowSides
    | 1 => .allOff
    | _ => if since * 100 < axFast e * (n - on) then .allOff else .lowSides

/-- STP{a}_A1, _A2, _B1, _B2: a disabled axis drives all four low (R408). -/
def stpLevels (s : State) (a : Fin 16) : (Bool × Bool) × (Bool × Bool) :=
  let x := s.axs[a]
  let e := axisOf s a
  if x.state == .disabled || x.state == .fenced then (Bridge.allOff.levels, Bridge.allOff.levels)
  else
    let n := pwmCycles e
    let k := min (n - 1) (s.now - x.pwmAt)
    ((bridgeAt e n x.duty.1 k).levels, (bridgeAt e n x.duty.2 k).levels)

end Sys2Proof.Machine
end

