-- ==== Sys2Proof/Machine/SigmaDelta.lean ====
section
/-!
DEFINITION. The decimation filters of the sigma-delta current feeds (R409, R434..R436). A sinc filter of order n and
decimation r is n running sums over r bits; what one output adds up is written here as the weight of each bit. The spec does
not say how an output becomes a current: a level of 1 counts +1, a level of 0 counts −1, and all ones read as the
current full scale (DESIGN CHOICE, log 114).
-/

namespace Sys2Proof.Machine

/-- m (m − 1) / 2. -/
def pairs (m : Nat) : Nat := m * (m - 1) / 2

/-- The weight of bit k, newest first, in an output of a sinc² filter. -/
def sinc2Weight (r k : Nat) : Nat := (k + 1) - 2 * (k + 1 - r)

/-- The weight of bit k, newest first, in an output of a sinc³ filter. -/
def sinc3Weight (r k : Nat) : Nat := pairs (k + 2) + 3 * pairs (k + 2 - 2 * r) - 3 * pairs (k + 2 - r)

/-- The sum of the first bits, newest first, each with its weight. -/
def weigh (w : Nat → Nat) : Nat → List Bool → Int
  | _, [] => 0
  | k, b :: l => (if b then (w k : Int) else -(w k : Int)) + weigh w (k + 1) l

/-- A current [mA] from a sinc³ output with decimation r. -/
def sinc3Current (fullScale r : Nat) (bits : List Bool) : Int :=
  Int.tdiv (fullScale * weigh (sinc3Weight r) 0 (bits.take (3 * r - 2))) (r * r * r : Nat)

/-- A current [mA] from a sinc² output with decimation r. -/
def sinc2Current (fullScale r : Nat) (bits : List Bool) : Int :=
  Int.tdiv (fullScale * weigh (sinc2Weight r) 0 (bits.take (2 * r - 1))) (r * r : Nat)

/-- The bits that a filter keeps after new ones, oldest first, have come. -/
def keepBits (n : Nat) (bits old : List Bool) : List Bool := (bits.reverse ++ old).take n

/-- How many bits from the newest on hold one level. -/
def levelRun : List Bool → Nat
  | [] => 0
  | b :: l => ((b :: l).takeWhile (· == b)).length

/-- A feed has failed: with these new bits, oldest first, one level has held for 64 modulator clocks (R411, R436). -/
def feedStuck (bits old : List Bool) : Bool :=
  (bits.foldl (fun (x : Bool × Nat × Bool) b =>
    let run := if b == x.1 then x.2.1 + 1 else 1
    (b, run, x.2.2 || decide (64 ≤ run))) (old.headD false, levelRun old, false)).2.2

end Sys2Proof.Machine
end

