-- ==== Sys2Proof/Machine/Stepper.lean ====
section
/-!
DEFINITION. What one PWM period of a stepper axis measures (R409, R411, R415, R416): the coil currents, the load angle and
the stall; and the ends of a homing and of a stalled move (R416, R419).
-/

namespace Sys2Proof.Machine

/-! ## Coil currents (R409, R424, R447) -/

/-- The bits that the axis's modulator clock takes from a feed in one PWM period. -/
def axisBits (s : State) (e : List Byte) (bits : List Bool) : List Bool := bits.take (pwmCycles e / mdclkCycles s (axClock e))

/-- The coil current at the centre of a period: the filter over the bits up to there (log 114). -/
def coilCurrent (e : List Byte) (clocks : Nat) (bits old : List Bool) : Int :=
  sinc3Current (axFull e) 64 (keepBits 190 (bits.take (clocks / 2)) old)

/-! ## Load angle (R415) -/

/-- The back-EMF of a coil [µV], from its duty, the bus voltage [mV], and its current with the change since the period
before [mA]. -/
def backEmf (e : List Byte) (vbus : Nat) (duty i before : Int) : Int :=
  duty * vbus * 1000 / 65536 - axOhms e * i - axHenries e * (i - before) * 200000 / pwmCycles e

/-- The bits of an angle below a half turn, from the highest: the largest angle not beyond the vector (x, y). -/
def angleBits : Nat → Int → Int → Nat → Nat
  | 0, _, _, a => a
  | k + 1, x, y, a =>
    let b := a + 2 ^ k
    angleBits k x y (if 0 ≤ sineOf (b + 256) * y - sineOf b * x then b else a)

/-- The angle of a vector in 1/1,024 turn, rounded down. -/
def angleOf (x y : Int) : Nat :=
  if y < 0 || (y == 0 && x < 0) then 512 + angleBits 9 (-x) (-y) 0 else angleBits 9 x y 0

/-- θ less the rotor angle in 1/256 turn, from −128 to 127 (log 53). -/
def loadAngle (theta : Int) (emf : Nat) : Int := (((theta - ((emf : Int) - 256)) + 512) % 1024 - 512) / 4

/-- The load angle that a period measures; the angle of a back-EMF of zero is a free value (log 53). -/
def measuredLoad (s : State) (e : List Byte) (x : Axis) (iA iB : Int) : Int :=
  let ea := backEmf e s.mot.busV x.duty.1 iA x.iA
  let eb := backEmf e s.mot.busV x.duty.2 iB x.iB
  let eb := if axReverse e then -eb else eb
  loadAngle x.theta (if ea = 0 && eb = 0 then (Config.freeWord s.free).toNat % 1024 else angleOf ea eb)

/-! ## Stall (R416) -/

/-- Stall detection is on: by the entry, or forced by homing method 2 (R419). -/
def stallWatched (e : List Byte) (x : Axis) : Bool :=
  axStallDetect e || match x.homing with | some h => homeMethod (axHomeSeq e h.seq) == 2 | none => false

/-- The run of consecutive periods above the stall threshold. -/
def stallRunOf (e : List Byte) (x : Axis) (load : Int) : Nat :=
  if atStallSpeed e x && stallWatched e x && decide (axStallThr e < load.natAbs) then min 127 (x.stallRun + 1) else 0

/-- What a PWM period measures of an axis: the new bits, the currents, the load angle and the run toward a stall. -/
structure CoilSample where
  bitsA : List Bool
  bitsB : List Bool
  iA : Int
  iB : Int
  load : Int
  run : Nat
  deriving DecidableEq, Repr

/-- One PWM period's sample, from the levels of both feeds at the edges of the modulator clock. -/
def axisSample (s : State) (a : Fin 16) (bitsA bitsB : List Bool) : CoilSample :=
  let e := axisOf s a
  let x := s.axs[a]
  let clocks := pwmCycles e / mdclkCycles s (axClock e)
  let bA := axisBits s e bitsA
  let bB := axisBits s e bitsB
  let iA := coilCurrent e clocks bA x.feed.1
  let iB := coilCurrent e clocks bB x.feed.2
  let load := if atStallSpeed e x then measuredLoad s e x iA iB else 0
  ⟨bA, bB, iA, iB, load, stallRunOf e x load⟩

/-- An axis whose bridge is driven (R417). -/
def Axis.driven (x : Axis) : Bool := x.state != .disabled && x.state != .fenced

/-- The sample is that of a stall. -/
def CoilSample.stalls (e : List Byte) (x : Axis) (m : CoilSample) : Bool :=
  x.driven && m.run != 0 && decide (axStallFilter e ≤ m.run)

/-- A stall of the axis is still to come in this cycle (R425). -/
def stallComes (s : State) (a : Fin 16) : Bool :=
  coming s fun c => match c with
    | .axisPwmPeriod b bitsA bitsB => b == a && axPwmFreq (axisOf s a) != 0 && (axisSample s a bitsA bitsB).stalls (axisOf s a) s.axs[a]
    | _ => false

/-! ## Ends (R416, R419) -/

/-- A homing is complete: HOMED, cause DONE. -/
def homingDone (s : State) (a : Fin 16) (pos : Int) (idle : Bool) : State :=
  let s := s.modAxis a fun x => { (x.rest.at_ pos) with state := .idle, homed := true, idleI := idle }
  axisEnded s a 0x01

/-- A homing fails: the axis stops, HOME_FAIL with 1 travel exceeded, 2 a stall, 3 a sensor that did not release. -/
def homingFail (s : State) (a : Fin 16) (why : Nat) : State :=
  let id := s.axs[a].moveId
  let s := s.modAxis a fun x => { (x.stopAtOnce (axisOf s a)) with homed := false, endedId := id }
  raise (axisFlag s a 2) (0xC0 + a.1) (0x05 + 256 * why + 65536 * id.toNat)

/-- A stall that is not the end of a homing: cause STALL, the end of the move or the failure of the homing, HOMED clear,
and a path stop for an axis of the paper path (R194, R401). -/
def moveStall (s : State) (a : Fin 16) : State :=
  let x := s.axs[a]
  let s := raise (axisFlag s a 0) (0xC0 + a.1) (0x03 + 65536 * x.moveId.toNat)
  let s := if x.homing.isSome then homingFail s a 2 else stopGroup s a
  let s := s.modAxis a fun x => { x with stalled := true, homed := false, stalls := inc32 x.stalls, stallRun := 0 }
  if x.owned || pathAxis s a.1 then ownedStop s else s

/-- A stall: the expected end of homing method 2, with the current at idle at once, or else as above. -/
def axisStall (s : State) (a : Fin 16) : State :=
  let q := match s.axs[a].homing with | some h => axHomeSeq (axisOf s a) h.seq | none => []
  if homeMethod q = 2 then homingDone s a (homePos q * 65536) true else moveStall s a

/-- A homing that has gone its maximum travel fails (R419). -/
def homingTravel (s : State) (a : Fin 16) : State :=
  match s.axs[a].homing with
  | none => s
  | some h =>
    if homeTravel (axHomeSeq (axisOf s a) h.seq) * 65536 ≤ h.gone then
      homingFail s a (if h.phase = 0 || h.phase = 2 then 3 else 1)
    else s

/-- R411 takes an axis out of service: disabled and fenced whatever the severity, with its cause. -/
def axisProtect (s : State) (a : Fin 16) (cause coil flag : Nat) : State :=
  let id := s.axs[a].moveId
  let s := raise (axisFlag s a flag) (0xC0 + a.1) (cause + 256 * coil + 65536 * id.toNat)
  selfFence (fenceAxis s a) (0xC0 + a.1)

end Sys2Proof.Machine
end

