-- ==== Sys2Proof/Machine/AxisCmds.lean ====
section
/-! DEFINITION. Axis opcodes 0x30..0x34 (R192..R194, R417..R420, R426). -/

namespace Sys2Proof.Machine

/-- The axis number of a packet, as an axis; check 8 has refused one above 15. -/
def axisNumber (c : Cmd) : Fin 16 := Fin.ofNat 16 (Cmd.p8 c 16)

/-- Check 8: the device has axes 0..15 (log 47). -/
def axisNames (_ : State) (c : Cmd) : Option Nat := if 16 ≤ Cmd.p8 c 16 then some 16 else none

/-- The modes of the moving opcodes (R192). -/
def moveModes : List Mode := [.standby, .ready, .print, .service]

/-- The result of an accepted move: the axis's new identifier (R418). -/
def moveReply (s : State) (a : Fin 16) : Res := { status := .accepted, w0 := s.axs[a].moveId.toNat }

/-- Whether an axis is busy with a motion that a new command does not replace (R193, R417; log 54). -/
def axisBusy (x : Axis) (replace : Bool) : Bool :=
  match x.state with
  | .homing | .group | .stopping | .geared => true
  | .moving => !replace
  | _ => false

/-! ## AXIS_HOME (R419) -/

/-- The first phase of a homing: away from a sensor that reads active, toward it, or toward the hard stop. -/
def homingPhase (s : State) (q : List Byte) : Nat :=
  if homeMethod q = 2 then 3 else if s.seq.psn.getLsbD (homeSensor q) then 0 else 1

/-- A homing starts; method 3 needs no motion and completes at once. -/
def startHome (s : State) (a : Fin 16) (k : Nat) : State :=
  let q := axHomeSeq (axisOf s a) k
  let s := s.modAxis a fun x => { x with moveId := x.moveId + 1, stalled := false, stallRun := 0, thenDisable := false }
  if homeMethod q = 3 then
    let s := s.modAxis a fun x =>
      { x with pos := homePos q, frac := 0, target := homePos q, homed := true, idleI := false, state := .idle, move := none }
    axisEnded s a 0x01
  else s.modAxis a fun x => { x with
    state := .homing, move := none, homed := false, idleI := false
    homing := some ⟨k, homingPhase s q, 0⟩ }

def axisHomeRun (c : Cmd) (s : State) : Verdict :=
  let a := axisNumber c
  let x := s.axs[a]
  let k := Cmd.p8 c 17
  if !axEnabled (axisOf s a) then refuse s (failAt c .badParam 0x40 16)
  else if 3 < k || homeMethod (axHomeSeq (axisOf s a) k) = 0 then refuse s (failAt c .badParam 0x40 17)
  else if x.owned then refuse s (fail .state 0x42)
  else if axisBusy x false then refuse s (fail .busy 0x13)
  else if x.state == .fenced then refuse s (fail .fenced 0)
  else let t := startHome s a k
       .reply t (moveReply t a)
def axisHomeSpec : OpSpec := ⟨0x30, 4, 4, moveModes, [(18, 0xFF), (19, 0xFF)], axisNames, axisHomeRun⟩

/-! ## AXIS_MOVE (R418) -/

/-- Whether a target lies within the soft limits, which only a homed axis applies (R418). -/
def inSoft (e : List Byte) (x : Axis) (t : Int) : Bool :=
  !x.homed || (decide (axSoftMin e ≤ t) && decide (t ≤ axSoftMax e))

/-- Whether a number is an i32. -/
def isI32 (t : Int) : Bool := decide (-(2 ^ 31) ≤ t) && decide (t < 2 ^ 31)

/-- The target of a move: absolute, relative to POS, or the soft limit ahead of a homed axis's velocity move. -/
def moveTarget (e : List Byte) (x : Axis) (kind : Nat) (v : Int) : Int :=
  if kind = 0 then v
  else if kind = 1 then x.pos + v
  else if x.homed then (if v < 0 then axSoftMin e else axSoftMax e)
  else x.target

/-- A stall of the same cycle comes before the move, which is then planned from rest (R425). -/
def axisMoveRun (c : Cmd) (s : State) : Verdict :=
  let a := axisNumber c
  let x := s.axs[a]
  let e := axisOf s a
  let kind := Cmd.p8 c 17
  let v := Cmd.i32 c 20
  let t := moveTarget e x kind v
  if !axEnabled e then refuse s (failAt c .badParam 0x40 16)
  else if 2 < kind then refuse s (failAt c .badParam 0x40 17)
  else if kind != 2 && (!isI32 t || !inSoft e x t) then refuse s (failAt c .badParam 0x41 20)
  else if x.owned then refuse s (fail .state 0x42)
  else if kind == 0 && !x.homed then refuse s (fail .state 0x43)
  else if axisBusy x true then refuse s (fail .busy 0x13)
  else if x.state == .fenced then refuse s (fail .fenced 0)
  else
    let m : Move := ⟨kind, if kind = 2 then v else 0, Cmd.p32 c 24, Cmd.p32 c 28, kind == 2 && x.homed⟩
    let t := startMove (if stallComes s a then axisStall s a else s) a m t
    .reply t (moveReply t a)
def axisMoveSpec : OpSpec := ⟨0x31, 16, 16, moveModes, [(18, 0xFF), (19, 0xFF)], axisNames, axisMoveRun⟩

/-! ## AXIS_GROUP_MOVE (R420) -/

/-- The integer square root: the bits of the root from the highest down. -/
def sqrtBits : Nat → Nat → Nat → Nat
  | 0, _, r => r
  | k + 1, n, r => let t := r + 2 ^ k
                   sqrtBits k n (if t * t ≤ n then t else r)

/-- The path length in 1/65,536 of 1/256 step, from the displacements. -/
def pathLength (ds : List Int) : Nat := sqrtBits 52 (2 ^ 32 * (ds.map fun d => d.natAbs * d.natAbs).sum) 0

/-- A path limit (R420): what was asked for, or the smallest default for 0, reduced until no axis exceeds its
maximum. -/
def pathLimit (given len : Nat) (axes : List (Int × Nat × Nat)) : Nat :=
  let moving := axes.filter fun x => x.1 != 0
  let bound := fun (f : Int × Nat × Nat → Nat) =>
    (moving.map fun x => f x * len / (x.1.natAbs * 65536)).foldl min (2 ^ 64)
  min (if given = 0 then bound fun x => x.2.1 else given) (bound fun x => x.2.2)

/-- The members of a group move. -/
def groupAxes (c : Cmd) : List Nat := (List.range (Cmd.p8 c 17)).map fun k => Cmd.p8 c (18 + k)
def groupTarget (c : Cmd) (k : Nat) : Int := Cmd.i32 c (24 + 4 * k)

/-- Check 8 of a group move. -/
def groupNames (_ : State) (c : Cmd) : Option Nat :=
  if Cmd.p8 c 17 < 2 || 4 < Cmd.p8 c 17 then none
  else ((groupAxes c).findIdx? fun a => decide (16 ≤ a)).map fun k => 18 + k

/-- The group starts: every member gets its next identifier, and its line. -/
def startGroup (s : State) (c : Cmd) : State :=
  let members := (groupAxes c).zipIdx
  let data := members.map fun x =>
    let a := Fin.ofNat 16 x.1
    (groupTarget c x.2 - s.axs[a].pos, axisOf s a)
  let len := pathLength (data.map (·.1))
  let v := pathLimit (Cmd.p32 c 40) len (data.map fun x => (x.1, axVDef x.2, axVMax x.2))
  let acc := pathLimit (Cmd.p32 c 44) len (data.map fun x => (x.1, axADef x.2, axAMax x.2))
  let stop := pathLimit 0 len (data.map fun x => (x.1, axStopDec x.2, axStopDec x.2))
  members.foldl (fun s x =>
    s.modAxis (Fin.ofNat 16 x.1) fun y => { y with
      state := .group, group := Cmd.p8 c 16, target := groupTarget c x.2, moveId := y.moveId + 1, idleI := false
      stalled := false, stallRun := 0, thenDisable := false, move := some ⟨0, 0, 0, 0, false⟩
      line := some ⟨y.pos, groupTarget c x.2 - y.pos, len, 0, 0, v, acc, stop⟩ }) s

/-- The first member that satisfies a condition. -/
def groupFind (s : State) (c : Cmd) (p : Axis → List Byte → Nat → Bool) : Option Nat :=
  (groupAxes c).zipIdx.findIdx? fun x =>
    let a := Fin.ofNat 16 x.1
    p s.axs[a] (axisOf s a) x.2

/-- AXIS_GROUP_MOVE (R193). DESIGN CHOICE, log 119: an axis byte past the count that is not 0xFF is BAD_PARAM 0x40 at that byte. -/
def groupMoveRun (c : Cmd) (s : State) : Verdict :=
  let n := Cmd.p8 c 17
  let group := Cmd.p8 c 16
  if 3 < group then refuse s (failAt c .badParam 0x40 16)
  else if n < 2 || 4 < n then refuse s (failAt c .badParam 0x40 17)
  else match (List.range 4).find? fun k => decide (n ≤ k) && Cmd.p8 c (18 + k) != 0xFF with
    | some k => refuse s (failAt c .badParam 0x40 (18 + k))
    | none => match groupFind s c fun _ e _ => !axEnabled e with
      | some k => refuse s (failAt c .badParam 0x40 (18 + k))
      | none => match groupFind s c fun x e k => !inSoft e x (groupTarget c k) with
        | some k => refuse s (failAt c .badParam 0x41 (24 + 4 * k))
        | none => match (List.range n).find? fun k => ((groupAxes c).take k).contains (Cmd.p8 c (18 + k)) with
          | some k => refuse s (failAt c .badParam 0x44 (18 + k))
          | none =>
            if (groupFind s c fun x _ _ => x.owned).isSome then refuse s (fail .state 0x42)
            else if (groupFind s c fun x _ _ => !x.homed).isSome then refuse s (fail .state 0x43)
            else if (s.axs.any fun x => (x.state == .group || (x.state == .stopping && x.line.isSome)) && x.group == group) ||
                (groupFind s c fun x _ _ => axisBusy x false).isSome then refuse s (fail .busy 0x13)
            else if (groupFind s c fun x _ _ => x.state == .fenced).isSome then refuse s (fail .fenced 0)
            else
              let t := startGroup s c
              .reply t (moveReply t (Fin.ofNat 16 ((groupAxes c).foldl min 15)))
def groupMoveSpec : OpSpec :=
  ⟨0x32, 32, 32, moveModes, [(22, 0xFF), (23, 0xFF)], groupNames, groupMoveRun⟩

/-! ## AXIS_STOP (R194, R417, R420) -/

def axisStopRun (c : Cmd) (s : State) : Verdict :=
  let a := axisNumber c
  let kind := Cmd.p8 c 17
  if !axEnabled (axisOf s a) then refuse s (failAt c .badParam 0x40 16)
  else if 2 < kind then refuse s (failAt c .badParam 0x40 17)
  else if kind = 1 then
    let owned := s.axs[a].owned
    let t := stopGroup (reachedFirst s a) a
    .reply (if owned then ownedStop t else t) okRes
  else
    let t := reachedFirst s a
    if kind == 2 && t.axs[a].state == .idle then .reply (t.modAxis a (Axis.dead .disabled)) okRes
    else .reply (rampGroup t a (kind == 2)) okRes
def axisStopSpec : OpSpec := ⟨0x33, 4, 4, allModes, [(18, 0xFF), (19, 0xFF)], axisNames, axisStopRun⟩

/-! ## AXIS_QUERY (R193, R426) -/

def axisQueryRun (c : Cmd) (s : State) : Verdict :=
  let a := axisNumber c
  let x := s.axs[a]
  if !axEnabled (axisOf s a) then refuse s (failAt c .badParam 0x40 16)
  else
    let moving := match x.state with | .homing | .moving | .group | .geared | .stopping => true | _ => false
    .reply s { status := .ok, w0 := fieldInt 32 x.pos, w1 := fieldInt 32 x.vel
               w2 := bit moving + 2 * bit x.homed + 4 * bit x.stalled + 8 * bit (x.state == .fenced) + 16 * x.level
               w3 := fieldInt 32 x.load, w4 := Nat.max x.iA.natAbs x.iB.natAbs }
def axisQuerySpec : OpSpec :=
  ⟨0x34, 4, 4, allModes, [(17, 0xFF), (18, 0xFF), (19, 0xFF)], axisNames, axisQueryRun⟩

/-! ## The commands -/

/-- AXIS_HOME. -/
def execAxisHome (c : Cmd) (s : State) : Host.Outcome State Fault Refusal := .next (direct axisHomeSpec c s)
/-- AXIS_MOVE. -/
def execAxisMove (c : Cmd) (s : State) : Host.Outcome State Fault Refusal := .next (direct axisMoveSpec c s)
/-- AXIS_GROUP_MOVE. -/
def execAxisGroupMove (c : Cmd) (s : State) : Host.Outcome State Fault Refusal := .next (direct groupMoveSpec c s)
/-- AXIS_STOP. -/
def execAxisStop (c : Cmd) (s : State) : Host.Outcome State Fault Refusal := .next (direct axisStopSpec c s)
/-- AXIS_QUERY. -/
def execAxisQuery (c : Cmd) (s : State) : Host.Outcome State Fault Refusal := .next (direct axisQuerySpec c s)

end Sys2Proof.Machine
end

