-- ==== Sys2Proof/Machine/Axes.lean ====
section
/-! DEFINITION. What happens on the stepper axes without a command (R409..R425). -/

namespace Sys2Proof.Machine

/-! ## AXIS_PWM_PERIOD (R409..R416) -/

/-- The run of consecutive samples above the over-current limit. -/
def ocRunOf (e : List Byte) (i : Int) (run : Nat) : Nat := if axOverI e < i.natAbs then min 2 (run + 1) else 0

/-- The run of consecutive open-coil periods: duty at 100 %, setpoint at 25 % of the run current or more, current
below 10 % of it. -/
def openRunOf (e : List Byte) (i setpoint duty : Int) (run : Nat) : Nat :=
  if duty.natAbs = 65536 && decide (axRunI e * 8192 ≤ setpoint.natAbs) && decide (i.natAbs * 327680 < setpoint.natAbs) then
    min 16 (run + 1)
  else 0

/-- A signed duty of the next period: the PI law's result is a free value (log 27). -/
def freeSigned (n : Nat) : Int :=
  let d : Nat := min 65536 (Config.freeDuty n)
  if Config.freeSense n then -(d : Int) else d

/-- One PWM period: the currents at its centre, the protections of R411, the load angle and the stall, the level of an axis
at rest (R413), and θ and the duties of the next period. -/
def axisPwm (s : State) (a : Fin 16) (bitsA bitsB : List Bool) : State :=
  let e := axisOf s a
  let x := s.axs[a]
  if !x.driven || axPwmFreq e = 0 then s.modAxis a fun x => { x with level := 0, levelNext := 0 }
  else
    let m := axisSample s a bitsA bitsB
    let set := coilSetpoints (axReverse e) (if x.idleI then axIdleI e else axRunI e) x.theta
    let oc := (ocRunOf e m.iA x.ocRun.1, ocRunOf e m.iB x.ocRun.2)
    let op := (openRunOf e m.iA set.1 x.duty.1 x.openRun.1, openRunOf e m.iB set.2 x.duty.2 x.openRun.2)
    let level := if x.fine = 0 then 0 else x.level
    let t := s.drawn.drawn.modAxis a fun x => { x with
      iA := m.iA, iB := m.iB, load := m.load, ocRun := oc, openRun := op, stallRun := m.run
      feed := (keepBits 189 m.bitsA x.feed.1, keepBits 189 m.bitsB x.feed.2), pwmAt := s.now
      level := level, levelNext := if x.fine = 0 then 0 else x.levelNext, theta := coilAngle level x.pos
      duty := (freeSigned s.free, freeSigned (s.free + 1)) }
    if feedStuck m.bitsA x.feed.1 then axisProtect t a 0x08 0 5
    else if feedStuck m.bitsB x.feed.2 then axisProtect t a 0x08 1 5
    else if oc.1 = 2 then axisProtect t a 0x06 0 3
    else if oc.2 = 2 then axisProtect t a 0x06 1 3
    else if op.1 = 16 then axisProtect t a 0x07 0 4
    else if op.2 = 16 then axisProtect t a 0x07 1 4
    else if m.stalls e x then axisStall t a
    else homingTravel t a

/-! ## Ends of moves (R417, R418, R420) -/

/-- A stopping axis is at rest: IDLE, or DISABLED for AXIS_STOP kind 2; the move it cut ends with STOPPED. The deskew pair
holds a sheet at idle current (R423). -/
def atRest (s : State) (a : Fin 16) : State :=
  if s.axs[a].state != .stopping then s
  else
    let s := axisCut s a
    s.modAxis a fun x =>
      if x.thenDisable then x.dead .disabled
      else { x.rest with state := .idle, group := 0, idleI := x.idleI || x.gateAt.isSome }

/-- The debounced homing sensor of an axis changes (R419). At the release the axis has travelled on for the debounce time at
its present speed (log 53). -/
def homeEdge (s : State) (a : Fin 16) (active : Bool) : State :=
  let x := s.axs[a]
  match x.state, x.homing with
  | .homing, some h =>
    let q := axHomeSeq (axisOf s a) h.seq
    if homeMethod q != 1 then s
    else if h.phase = 0 && !active then s.modAxis a fun x => { x with homing := some { h with phase := 1 } }
    else if h.phase = 1 && active then s.modAxis a fun x => { x with homing := some { h with phase := 2 } }
    else if h.phase = 2 && !active then
      homingDone s a (homePos q * 65536 + x.fine * sensorDebounce s (homeSensor q) / 1000) false
    else s
  | _, _ => s

/-- A geared axis has reached its gear's velocity and locks (R421), phased after a hold (R423). -/
def gearLocks (s : State) (a : Fin 16) : State :=
  s.modAxis a fun x =>
    if x.state == .geared && x.gearLock.isNone then
      let at_ := x.phase.getD (x.finePos, ppc s)
      { x with gearLock := some ⟨at_.2, at_.1, 0, 0⟩, phase := none }
    else x

/-! ## The commands -/

/-- AXIS_PWM_PERIOD. -/
def execAxisPwmPeriod (a : Fin 16) (bitsA bitsB : List Bool) (s : State) : Host.Outcome State Fault Refusal :=
  .next (whenUp s fun s => axisPwm s a bitsA bitsB)
/-- AXIS_TARGET_REACHED. A stall of the same cycle stands before the soft limit (R425). -/
def execAxisTargetReached (a : Fin 16) (s : State) : Host.Outcome State Fault Refusal :=
  .next (whenUp s fun s => if (match s.axs[a].move with | some m => m.kind == 2 | none => false) && stallComes s a then s else targetReached s a)
/-- AXIS_AT_REST. -/
def execAxisAtRest (a : Fin 16) (s : State) : Host.Outcome State Fault Refusal := .next (whenUp s fun s => atRest s a)
/-- AXIS_IDLE_DELAY_EXPIRY (R410). -/
def execAxisIdleDelayExpiry (a : Fin 16) (s : State) : Host.Outcome State Fault Refusal :=
  .next (whenUp s fun s => s.modAxis a fun x => if x.state == .idle then { x with idleI := true } else x)
/-- HOME_SENSOR_EDGE. -/
def execHomeSensorEdge (a : Fin 16) (active : Bool) (s : State) : Host.Outcome State Fault Refusal :=
  .next (whenUp s fun s => homeEdge s a active)
/-- GEAR_LOCK. -/
def execGearLock (a : Fin 16) (s : State) : Host.Outcome State Fault Refusal := .next (whenUp s fun s => gearLocks s a)

end Sys2Proof.Machine
end

