-- ==== Sys2Proof/Machine/ClockOps.lean ====
section
/-! DEFINITION. Shared operations of the pixel synthesizers (R79..R84) and of calibration (R305). -/

namespace Sys2Proof.Machine

/-- The die temperature has moved 4.0 °C from that of a station's last calibration, so that one is due (R305). -/
def calDrifted (s : State) (k : Fin 6) : Bool := decide (16 ≤ (compTemp s - s.btu[k].calTemp).natAbs)

/-- Whether a station is inside a sheet (R82): from TOF − 2 ms to the last exposed line. -/
def insideSheet (s : State) (k : Fin 6) : Bool :=
  (sheets s).any fun x => exposureOpen s k.1 x.2 x.1 &&
    (match x.2.t with | some t => decide (t + s.btu[k].regOffset ≤ ppc s + 2 * ppcRate s) | none => false)

/-- A delay-line calibration of a station starts (R305): within a sheet it goes beam by beam. -/
def startCalibration (s : State) (k : Fin 6) : State :=
  let rolls := insideSheet s k
  s.modBtu k fun b => { b with calRunning := true, calDue := true, calRolling := rolls, calBeams := 0, calLines := [] }

/-- The window in which a rolling calibration makes its steps, from BDE + 8 µs to the predicted BDS − 4 µs [ps]. -/
def blankWindow (x : Station) : Nat := facetPeriodNs x * 1000 - x.scanTime - 12000000

/-- A calibration falls due: it starts outside a sheet, or inside one in the blanking intervals when their window is at
least 16 µs. -/
def calibrationDue (s : State) (k : Fin 6) : State :=
  if insideSheet s k && decide (blankWindow s.btu[k] < 16000000) then s.modBtu k fun x => { x with calDue := true }
  else startCalibration s k

/-- A calibration that waits starts in the next interval outside a sheet (R305). -/
def waitingCalibrations (s : State) : State :=
  (List.finRange 6).foldl (fun s k =>
    if s.btu[k].calDue && !s.btu[k].calRunning && !insideSheet s k then startCalibration s k else s) s

end Sys2Proof.Machine
end

