-- ==== Sys2Proof/Machine/StationCmds.lean ====
section
/-! DEFINITION. Station opcodes 0x50..0x52 (R79, R81, R85, R197, R198, R305, R307, R309, R311, R312, R317). -/

namespace Sys2Proof.Machine

/-- The station number of a packet; check 8 has refused one that the part does not enable. -/
def stationNumber (c : Cmd) : Fin 6 := Fin.ofNat 6 (Cmd.p8 c 16)

/-- Check 8: the part enables the station (R3, log 47). -/
def stationNames (s : State) (c : Cmd) : Option Nat := if stationOn s (Cmd.p8 c 16) then none else some 16

/-- A station that a sheet not yet completed names. -/
def stationInUse (s : State) (k : Nat) : Bool :=
  (sheets s).any fun x => (x.2.state == .admitted || x.2.open) && x.2.mask.getLsbD k

/-- Polygon motor at speed: RUNNING (R437). -/
def polygonAtSpeed (s : State) (k : Fin 6) : Bool := s.mot.ch[k.1].state == .running

/-! ## STATION_CALIBRATE (R198) -/

/-- The kinds that a packet asks for: bit k for kind k; 3 asks for all. -/
def calKinds (c : Cmd) : BitVec 3 := if Cmd.p8 c 17 == 3 then 0x7 else BitVec.ofNat 3 (2 ^ Cmd.p8 c 17)

/-- The facets of a station's polygon. -/
def calFacetsOf (s : State) (k : Fin 6) : Nat := Nat.max 1 (stFacets (stationBody s k.1))

/-- The scan times of facet label i among those that kind 1 has measured. -/
def scansOf (s : State) (k : Fin 6) (i : Nat) : List Nat :=
  let x := s.btu[k]
  let f := calFacetsOf s k
  x.calScans.reverse.zipIdx.filterMap fun (y : Nat × Nat) => if (x.calLabel + y.2) % f = i then some y.1 else none

/-- Kind 1 passes when each facet's measurements spread over less than 200 ps (R307). -/
def facetsSteady (s : State) (k : Fin 6) : Bool :=
  (List.range (calFacetsOf s k)).all fun i =>
    let l := scansOf s k i
    decide (l.foldl Nat.max 0 < l.foldl Nat.min (l.headD 0) + 200)

/-- Kind 2 passes when the last monitor sample of every beam lies within ±2 % of its setpoint (R310). -/
def beamsOnLevel (s : State) (k : Fin 6) : Bool :=
  (List.finRange 16).all fun b =>
    let v := s.btu[k].apcLast[b]
    let w := stApcSet (stationBody s k.1) b.1
    decide (50 * (v - w + (w - v)) ≤ w)

/-- Whether the measurements of the kinds that are asked for have ended: the delay lines', 64 revolutions, 256 facets. -/
def calMeasured (s : State) (k : Fin 6) (kinds : BitVec 3) : Bool :=
  let x := s.btu[k]
  (!kinds.getLsbD 0 || !x.calRunning) && (!kinds.getLsbD 1 || x.calScans.length == 64 * calFacetsOf s k) &&
  (!kinds.getLsbD 2 || x.calFacets == 256)

/-- The kinds that have passed: kind 0 when no line is too short (R306). -/
def kindsPassed (s : State) (k : Fin 6) : BitVec 3 :=
  (if s.btu[k].calShort then 0 else 1) ||| (if facetsSteady s k then 2 else 0) ||| (if beamsOnLevel s k then 4 else 0)

/-- The measurements have ended: passed kinds are remembered until the next activation (R317), a passed kind 1 stores the
averaged scan times as the station's signature (R307); a mean that is not whole is rounded down (log 113). -/
def calibrateDone (s : State) (c : Cmd) : Option (State × Res) :=
  let k := stationNumber c
  let ok := kindsPassed s k &&& calKinds c
  if !calMeasured s k (calKinds c) then none
  else some (s.modBtu k fun b => { b with
     calPassed := b.calPassed ||| ok
     signature := if ok.getLsbD 1 then some ((List.range (calFacetsOf s k)).map fun i => (scansOf s k i).sum / 64) else b.signature },
   { status := .ok, w0 := ok.toNat, w1 := fieldInt 32 (compTemp s) })

/-- The measurements of kinds 1 and 2 begin. -/
def startMeasuring (s : State) (k : Fin 6) : State :=
  s.modBtu k fun x => { x with calScans := [], calFacets := 0 }

/-- A parked STATION_CALIBRATE holds the station (R158). -/
def calibrating (s : State) (k : Nat) : Bool := s.ktl.parked.any fun p => p.op == 0x50 && Cmd.p8 p.cmd 16 == k

def stationCalibrateRun (c : Cmd) (s : State) : Verdict :=
  let k := stationNumber c
  if 3 < Cmd.p8 c 17 then refuse s (failAt c .badParam 0x42 17)
  else if Cmd.p8 c 17 != 0 && !polygonAtSpeed s k then refuse s (fail .state 0x40)
  else if stationInUse s k.1 then refuse s (fail .state 0x41)
  else if calibrating s k.1 then refuse s (fail .busy 0x13)
  else if stationFenced s k.1 then refuse s (fail .fenced 0)
  else .park (startMeasuring (if (calKinds c).getLsbD 0 then startCalibration s k else s) k) .hardware none
def stationCalibrateSpec : OpSpec :=
  ⟨0x50, 4, 4, [.standby, .ready, .service], [(18, 0xFF), (19, 0xFF)], stationNames, stationCalibrateRun⟩

/-! ## STATION_LOCK (R312) -/

/-- The setting and every trim of the facet table keep the limits of R79. -/
def lockLimits (s : State) (k : Fin 6) (b : List Byte) : Bool :=
  synthOk b 0 && (facetTrims b).all (synthOk b) && s.btu[k].trims.toList.all (synthOk b)

/-- SYNTH: the synthesizer starts, and the facets are those of the recipe (R312, R317). -/
def lockStation (s : State) (k : Fin 6) (b : List Byte) : State :=
  (startSynth s k b).modBtu k fun x => { x with
    lock := .synth, facets := stFacets b, facet := 0, facetCount := 0, goodRun := 0, badRun := 0, missRun := 0, periods := []
    identScans := [], identRounds := 0, sigOk := false, gridRef := stRegOffset b, regOffset := stRegOffset b }

def stationLockRun (c : Cmd) (s : State) : Verdict :=
  let k := stationNumber c
  let b := stationBody s k.1
  if 1 < Cmd.p8 c 17 then refuse s (failAt c .badParam 0x43 17)
  else if Cmd.p8 c 17 == 1 then
    if stationInUse s k.1 then refuse s (fail .state 0x46)
    else if calibrating s k.1 then refuse s (fail .busy 0x13)
    else .reply (if s.btu[k].lock == .off then s else releaseStation s k) okRes
  else if b.isEmpty then refuse s (fail .state 0x47)
  else if (pendLevel s (0x64 + 8 * k.1)).isSome then refuse s (fail .state 0x48)
  else if s.btu[k].lock != .off then refuse s (fail .state 0x49)
  else if !lockLimits s k b then refuse s (fail .badParam 0x43)
  else if !(sheetBody s).isEmpty && !intervalOk b (sheetBody s) then refuse s (fail .badParam 0x44)
  else if (bandFor (clockBody s) b).isNone then refuse s (fail .badParam 0x45)
  else if calibrating s k.1 then refuse s (fail .busy 0x13)
  else if stationFenced s k.1 then refuse s (fail .fenced 0)
  else .reply (lockStation s k b) { status := .accepted }
def stationLockSpec : OpSpec :=
  ⟨0x51, 4, 4, [.standby, .ready, .print, .service], [(18, 0xFF), (19, 0xFF)], stationNames, stationLockRun⟩

/-! ## STATION_QUERY (R198, R317) -/

def stationQueryRun (c : Cmd) (s : State) : Verdict :=
  let k := stationNumber c
  let b := s.btu[k]
  .reply s { status := .ok
             w0 := bit s.clk.px[k].locked + 2 * bit (b.lock == .locked) + 4 * bit (polygonAtSpeed s k) +
               8 * bit (b.calPassed == 0x7) + 16 * bit (stationFenced s k.1)
             w1 := facetPeriodNs b, w2 := fieldInt 32 b.phaseErr, w3 := b.regOffset, w4 := fieldInt 32 b.calTemp }
def stationQuerySpec : OpSpec :=
  ⟨0x52, 4, 4, allModes, [(17, 0xFF), (18, 0xFF), (19, 0xFF)], stationNames, stationQueryRun⟩

/-! ## The commands -/

/-- STATION_CALIBRATE. -/
def execStationCalibrate (c : Cmd) (s : State) : Host.Outcome State Fault Refusal := .next (direct stationCalibrateSpec c s)
/-- STATION_LOCK. -/
def execStationLock (c : Cmd) (s : State) : Host.Outcome State Fault Refusal := .next (direct stationLockSpec c s)
/-- STATION_QUERY. -/
def execStationQuery (c : Cmd) (s : State) : Host.Outcome State Fault Refusal := .next (direct stationQuerySpec c s)

end Sys2Proof.Machine
end

