-- ==== Sys2Proof/Machine/Clocks.lean ====
section
/-!
DEFINITION. What happens in the clocks without a command: reference loss and root unlock (R74, R75), lock of the pixel
synthesizers (R82, R83), and the edges that move the process-position counter (R89..R93, R571).
-/

namespace Sys2Proof.Machine

/-! ## Clock monitor (R75) -/

/-- What the clock monitor does itself: the output actions of R47, and ALIVE stopped. -/
def monitorStops (s : State) : State := (haltOutputs s).modPins fun p => { p with aliveStopped := true }

/-- Reference loss before the first root lock (R56): once the boot is held in stage 0, its cause becomes CLK_REF_LOSS. -/
def refLossHeld (s : State) : State :=
  let s := s.modClk fun c => { c with refOk := false, sclkMonitor := true }
  if s.sys.mode == .boot && s.sys.bootStage == 0 && s.sys.lcSrc then causeBy s 0xF8 else s

/-- Reference loss: after the first root lock R75, before it R56. -/
def refLoss (s : State) : State :=
  if !s.clk.refOk then s
  else if !s.clk.everLocked then refLossHeld s
  else
    let s := (monitorStops s).modClk fun c =>
      { c with rootLock := false, refOk := false, sclkRoot := false, sclkMonitor := true }
    haltForGood (raise s 0xF8 0) 0xF8

/-- Root unlock with REFCLK valid. -/
def rootUnlock (s : State) : State :=
  if !s.clk.rootLock then s
  else haltForGood (raise ((monitorStops s).modClk fun c => { c with rootLock := false, sclkRoot := false }) 0xF9 0) 0xF9

/-! ## Synthesizer lock (R82, R83, R312) -/

/-- The recipe speed of a station's polygon [0.01 rpm] (R292, R312): one facet for each 16 lines at the process speed and
resolution, rounded to nearest. Without a SHEET recipe there is none, and the value is free (log 73). -/
def recipeSpeed (s : State) (k : Fin 6) : Nat × State :=
  if (sheetBody s).isEmpty then ((Config.freeWord s.free).toNat, s.drawn)
  else
    let b := stationBody s k.1
    let num := processSpeed s * (if u8 b 2 = 0 then 1200 else 600) * 60000
    let den := 254 * 16 * Nat.max 1 (stFacets b)
    ((2 * num + den) / (2 * den), s)

/-- Whether the sheet sequencer owns the polygon motor of a station (R194). -/
def polygonOwned (s : State) (k : Fin 6) : Bool := s.seq.own && (sheets s).any fun x => x.2.open && x.2.mask.getLsbD k.1

/-- SPIN (R312): a stopped polygon is started; one that is RUNNING has had its at-speed event already (log 73). -/
def enterSpin (s : State) (k : Fin 6) : State :=
  let m : Fin 10 := Fin.ofNat 10 k.1
  let s := s.modBtu k fun x => { x with lock := .spin }
  let x := s.mot.ch[m]
  if x.state == .running then spinDone s k
  else if x.state == .stopped && moEnabled (motorOf s m) then
    let v := recipeSpeed s k
    let own := polygonOwned s k
    (startMotor v.2 m v.1).modMotor m fun x => { x with owned := own }
  else s

/-- A synthesizer reports lock. -/
def synthLocks (s : State) (k : Fin 6) : State :=
  if !s.clk.px[k].en || s.clk.px[k].locked then s
  else
    let s := s.modSynth k fun x => { x with locked := true }
    let s := s.modBtu k fun x =>
      { x with blanked := if x.lock == .locked || x.lock == .slew then false else x.blanked }
    if s.btu[k].lock == .synth then enterSpin s k else s

/-- A running synthesizer loses lock. -/
def synthUnlocks (s : State) (k : Fin 6) : State :=
  if !s.clk.px[k].en || !s.clk.px[k].locked then s
  else
    let s := (s.modSynth k fun x => { x with locked := false }).modBtu k fun x => { x with blanked := true }
    raise (spoilStation s k.1 .clock) (0x60 + 8 * k.1) s.btu[k].facet

/-! ## The process-position counter (R90..R93, R571) -/

/-- The channel levels of the Gray cycle, numbered so that a forward edge goes up by one: A leads B (log 72). -/
def grayIndex : Bool × Bool → Nat
  | (false, false) => 0 | (true, false) => 1 | (true, true) => 2 | (false, true) => 3

/-- The increment per edge of the source in use. -/
def edgeInc (s : State) : Nat := if s.clk.ppcSrc == .enc0 then s.clk.inc else s.clk.fbInc

/-- The encoder that the counter's source reads, when it is one. -/
def sourceEncoder (s : State) : Option Nat :=
  match s.clk.ppcSrc with
  | .enc0 => some 0
  | .fallbackEncoder => some s.clk.fallback
  | _ => none

/-- The configured fallback encoder while it is not the source (R571). -/
def watchedEncoder (s : State) : Option Nat :=
  if s.clk.ppcSrc == .enc0 && decide (1 ≤ s.clk.fallback) && decide (s.clk.fallback ≤ 3) then some s.clk.fallback else none

/-- Encoder loss of the source in use (R92, R93). Without a fallback the sheets in flight, those that have been picked, are
spoiled; held ones stay committed (R46, log 102). The eight intervals start anew with a new source, and the time of the last
edge of the old one is kept, from which the first interval counts: DESIGN CHOICE, log 102. -/
def encoderLoss (s : State) : State :=
  if s.clk.ppcSrc == .enc0 && s.clk.fallback != 0 && !s.clk.fbDisqualified then
    raise (s.modClk fun c => { c with
      ppcSrc := if c.fallback ≤ 3 then .fallbackEncoder else .m6, accEdge := c.acc, intervals := [] }) 0xFA 1
  else
    let s := s.modClk fun c => { c with ppcSrc := .frozen, intervals := [] }
    let s := { s with btu := s.btu.map fun (b : Station) => { b with blanked := true } }
    raise (spoilAll s Sheet.picked .encoder) 0xFA 2

/-- The interval since the last edge is recorded, the eight newest being kept. -/
def noteEdge (s : State) : State :=
  s.modClk fun c => { c with
    intervals := if c.lastEdge = 0 then c.intervals else ((s.now - c.lastEdge) :: c.intervals).take 8, lastEdge := s.now }

/-- A forward edge pays the backlash off, then advances the accumulator, which moves forward only. -/
def forwardEdge (s : State) : State :=
  let inc := edgeInc s
  (noteEdge s).modClk fun c =>
    if c.backlash != 0 then { c with backlash := c.backlash - 1 }
    else { c with accEdge := c.accEdge + inc, acc := Nat.max c.acc (c.accEdge + inc) }

/-- A backward edge adds to the backlash register (R91). -/
def backwardEdge (s : State) : State :=
  let old := s.clk.backlash
  let s := (noteEdge s).modClk fun c => { c with backlash := inc32 c.backlash }
  if old ≤ s.clk.backLimit && s.clk.backLimit < s.clk.backlash then raise s 0xFB 0 else s

/-- New channel levels at an encoder. A further quadrature error of a fallback that is disqualified already, or of one while
the counter is frozen, raises nothing: DESIGN CHOICE, log 102. -/
def encoderLevels (s : State) (n : Fin 4) (a b : Bool) : State :=
  let old := s.clk.encLevels[n]
  let s := s.modClk fun c => { c with encLevels := c.encLevels.set n.1 (a, b) n.2 }
  let d := (grayIndex (a, b) + 4 - grayIndex old) % 4
  if sourceEncoder s == some n.1 then
    match d with
    | 0 => s
    | 1 => forwardEdge s
    | 2 => encoderLoss s
    | _ => backwardEdge s
  else if watchedEncoder s == some n.1 && d == 2 && !s.clk.fbDisqualified then
    raise (s.modClk fun c => { c with fbDisqualified := true }) 0xFA 3
  else s

/-- No edge for 4 expected intervals while M6 has stayed above 5 % of its setpoint (R92). -/
def encoderSilent (s : State) : State :=
  let m := s.mot.ch[6]
  if (sourceEncoder s).isSome && !s.clk.intervals.isEmpty && decide (m.setpoint < 20 * m.speed) then encoderLoss s else s

/-! ## The commands -/

/-- CLK_REF_LOSS. -/
def execClkRefLoss (s : State) : Host.Outcome State Fault Refusal := .next (whenUp s refLoss)
/-- CLK_ROOT_UNLOCK. -/
def execClkRootUnlock (s : State) : Host.Outcome State Fault Refusal := .next (whenUp s rootUnlock)
/-- PXS_LOCK. -/
def execPxsLock (k : Fin 6) (s : State) : Host.Outcome State Fault Refusal := .next (whenUp s fun s => synthLocks s k)
/-- PXS_UNLOCK. -/
def execPxsUnlock (k : Fin 6) (s : State) : Host.Outcome State Fault Refusal := .next (whenUp s fun s => synthUnlocks s k)
/-- VCO_BAND_CHANGE: inside a sheet the synthesizer stays on its present code (R82). -/
def execVcoBandChange (k : Fin 6) (s : State) : Host.Outcome State Fault Refusal :=
  .next (whenUp s fun s => if insideSheet s k then s else changeSynth s k)
/-- ENCODER_EDGE. -/
def execEncoderEdge (n : Fin 4) (a b : Bool) (s : State) : Host.Outcome State Fault Refusal :=
  .next (whenUp s fun s => encoderLevels s n a b)
/-- ENCODER_TIMEOUT. -/
def execEncoderTimeout (s : State) : Host.Outcome State Fault Refusal :=
  .next (whenUp s fun s => giveWay s (fun i => match i with
    | .encoderEdge n _ _ => sourceEncoder s == some n.1
    | _ => false) (encoderSilent s))

end Sys2Proof.Machine
end

