-- ==== Sys2Proof/Machine/Pour.lean ====
section
/-!
DEFINITION. The Pour (R292, R293, R296..R300, R314): the pulses that a facet drives on the 16 beams of a station, in
sixteenths of a pixel after BDS.
-/

namespace Sys2Proof.Machine

/-- M(x) of R297: the cumulative magnification before a pixel. -/
def magnification (b : List Byte) (x : Nat) : Int :=
  ((List.range (x / 1024)).map (stMag b)).sum + Int.fdiv (stMag b (x / 1024) * (x % 1024 : Nat)) 1024

/-- The pulse of a pixel with a tone code (R297, R298), as its leading and trailing edge; none for a width of 0. -/
def pixelPulse (b : List Byte) (phase : Int) (beam x code : Nat) : Option (Int × Int) :=
  let w := stTone b code % 32
  let a := match stTone b code / 32 % 4 with | 0 => 0 | 1 => (16 - w) / 2 | _ => 16 - w
  let lead : Int := (16 * (stStart b + x) : Nat) + phase + stOffset b beam + magnification b x + (a : Nat)
  if w = 0 then none else some (lead, lead + (w : Nat))

/-- A pulse that begins before the one before it has ended continues it (R299). -/
def joinPulses (l : List (Int × Int)) : List (Int × Int) :=
  (l.foldl (fun acc p => match acc with
    | q :: rest => if p.1 ≤ q.2 then (q.1, max q.2 p.2) :: rest else p :: acc
    | [] => [p]) []).reverse

/-- The bands of a sheet at a station whose slots the Pour may read, with their slots' content (R274, R300): VERIFIED ones,
and the one that it exposes unless it was BLANK. -/
def shownBands (s : State) (k : Fin 6) (i : Fin 512) : List (Nat × Array Byte) :=
  s.stp.st[k].bands.filterMap fun b =>
    if b.sheet == i && (b.state == .verified || (b.state == .exposing && b.outcome != some .blank)) then
      b.slot.map fun n => (b.band, s.stp.st[k].slots[n].data.toArray)
    else none

/-- The code of pixel x of a line (R215: two pixels a byte, the even one in the low half); none outside the sheet and in a
band that is not shown. -/
def lineCode (bands : List (Nat × Array Byte)) (lines width : Nat) (d : Int) (x : Nat) : Option Nat :=
  if d < 0 || (lines : Int) ≤ d then none
  else
    let d := d.toNat
    (bands.find? fun y => y.1 == d / 32).map fun y =>
      let v := (y.2.getD (d % 32 * (width / 2) + x / 2) 0).toNat
      if x % 2 = 0 then v % 16 else v / 16

/-- The pulses of facet f of a sheet on each beam: beam b exposes line 16 f + b, moved by the zone's bow (R292, R300);
without an identity every PHASE is 0 (R307). -/
def facetPulses (s : State) (k : Fin 6) (i : Fin 512) (e : Sheet) (f : Int) : List (List (Int × Int)) :=
  let b := stationBody s k.1
  let width := getN e.widths k.1 0
  let bands := shownBands s k i
  let phase := if s.btu[k].sigOk then stPhase b s.btu[k].facet else 0
  (List.range 16).map fun beam => joinPulses ((List.range width).filterMap fun x =>
    (lineCode bands e.length width (16 * f + (beam : Nat) + stBow b (x / 1024)) x).bind (pixelPulse b phase beam x))

/-- The facet of a sheet that a facet of the grid is (R314). -/
def sheetFacet (x : Station) (grid : Int) (t : Nat) : Int := Int.fdiv (grid - (t + x.regOffset : Nat)) 256

/-- The grid value of the present facet (R313, R314). -/
def facetGrid (s : State) (k : Fin 6) : Int := (ppc s : Int) - signedOf 8 (fieldInt 8 ((ppc s : Int) - s.btu[k].gridRef))

/-- What a facet drives (R293, R296, R314), from a BDS edge or a synthetic one (R295): for every sheet whose exposure at the
station is open and that has a pulse in this facet, its pulses, with the trim in force. A sheet whose TOF came before lock was
regained is left out (R312). `fresh` says that a sheet may begin in
this facet (R315). -/
def exposeFacet (s : State) (k : Fin 6) (fresh : Bool) : State :=
  let x := s.btu[k]
  let grid := facetGrid s k
  if !x.lden || x.blanked then s
  else (sheets s).foldl (fun u y => match y.2.t with
    | none => u
    | some t =>
      let f := sheetFacet x grid t
      let p := facetPulses s k y.1 y.2 f
      if !exposureOpen s k.1 y.2 y.1 || decide (((t + x.regOffset : Nat) : Int) < x.resumeAt) || (!fresh && decide (f ≤ 0)) || p.all (·.isEmpty) then u
      else emit u (.facet k f s.clk.px[k].trim p)) s

/-- A report of a decode attempt for a station arrives in this cycle. -/
def stationReport (s : State) (k : Fin 6) : Bool :=
  coming s fun c => match c with
    | .decodeAttemptReport lane _ => match s.cdc.dec[lane].assign with | some a => a.station == k | none => false
    | _ => false

/-- A facet reads its bands: what a report of this cycle makes VERIFIED is read so (R285, R315). -/
def readFacet (s : State) (k : Fin 6) (fresh : Bool) : State :=
  if stationReport s k then s.modBtu k fun x => { x with readDue := some fresh } else exposeFacet s k fresh

end Sys2Proof.Machine
end

