-- ==== Sys2Proof/Machine/Beam.lean ====
section
/-!
DEFINITION. What happens in the beam-timing units without a command: BDS and BDE edges, the lock states (R312, R313),
facet identity (R307), trims (R308), delay-line calibration (R304, R305), laser power (R309) and the interlock (R311).
-/

namespace Sys2Proof.Machine

/-- A cause of a station with the facet label as its detail (R318). -/
def beamRaise (s : State) (k : Fin 6) (i : Nat) : State := raise s (0x60 + 8 * k.1 + i) s.btu[k].facet

/-! ## BDS_EDGE (R295, R304, R307, R312, R313) -/

/-- The facet period [ps] that the measured speed of M{s} gives; none at rest. -/
def expectedPeriod (s : State) (k : Fin 6) : Nat :=
  let d := s.mot.ch[k.1].speed * stFacets (stationBody s k.1)
  if d = 0 then 0 else 6000000000000000 / d

/-- Two BDS edges spaced within ±2 % of the expected period. -/
def periodFits (s : State) (k : Fin 6) (period : Nat) : Bool :=
  let p := expectedPeriod s k
  p != 0 && decide (50 * (period - p + (p - period)) ≤ p)

/-- The phase error (R313): the counter minus the nearest grid value, −128 to +127. -/
def phaseError (count grid : Nat) : Int := signedOf 8 (fieldInt 8 ((count : Int) - grid))

/-- A facet begins: its label and the facet count advance. -/
def Station.nextFacet (x : Station) : Station :=
  { x with facet := (x.facet + 1) % Nat.max 1 x.facets, facetCount := x.facetCount + 1 }

/-- The grid reference moves toward REG_OFFSET by at most PHASE_SLEW (R313). -/
def slewGrid (b : List Byte) (x : Station) : Station :=
  let d := clampI (-(stSlew b : Int)) (stSlew b) ((x.regOffset : Int) - x.gridRef)
  { x with gridRef := ((x.gridRef : Int) + d).toNat }

/-- The pending tap tables take effect at a BDS (R304); those completed in the same cycle wait for the following one. -/
def Station.newTaps (x : Station) (now : Nat) : Station :=
  if x.pendingSince < now then { x with taps := x.tapsPending.getD x.taps, tapsPending := none } else x

/-- The measured period and phase of a real BDS edge. -/
def Station.edge (x : Station) (now count period : Nat) : Station :=
  { x.newTaps now with
    periods := (period :: x.periods).take 16, phaseErr := phaseError count x.gridRef, missRun := 0
    bdsAt := some now, bdeAt := none, edgeAt := some now }

/-- The facets in a row within 2 counts, and in a row beyond 8. -/
def Station.runs (x : Station) : Station :=
  { x with goodRun := if x.phaseErr.natAbs ≤ 2 then x.goodRun + 1 else 0
           badRun := if 8 < x.phaseErr.natAbs then x.badRun + 1 else 0 }

/-- LOCKED (R312): the Pour is blanked no more, from the next TOF on after a loss, and a calibration that is due starts. -/
def enterLocked (s : State) (k : Fin 6) : State :=
  let g := facetGrid s k
  let s := s.modBtu k fun x => { x with
    lock := .locked, goodRun := 0, badRun := 0, blanked := false, resumeAt := if x.blanked then g else x.resumeAt }
  if s.btu[k].calDue && !s.btu[k].calRunning then startCalibration s k else s

/-- LOCKED is lost (R312). -/
def loseLock (s : State) (k : Fin 6) : State :=
  let s := s.modBtu k fun x => { x with lock := .pullIn, goodRun := 0, badRun := 0, blanked := true }
  spoilStation (beamRaise s k 3) k.1 .beamPhase

/-- The phase law's lock states after an edge. -/
def phaseLock (s : State) (k : Fin 6) : State :=
  let x := s.btu[k]
  match x.lock with
  | .pullIn | .slew => if 64 ≤ x.goodRun then enterLocked s k else s
  | .locked => if 4 ≤ x.badRun then loseLock s k else s
  | _ => s

/-- IDENT begins (R307, R308): trims are 0. -/
def enterIdent (s : State) (k : Fin 6) : State :=
  s.modBtu k fun x => { x with
    lock := .ident, sigOk := false, identScans := [], identRounds := 0, goodRun := 0, badRun := 0
    trims := Vector.replicate 12 0, scans := Vector.replicate 12 [] }

/-- A real BDS edge, with the time since the one before. -/
def bdsEdge (s : State) (k : Fin 6) (period : Nat) : State :=
  let b := stationBody s k.1
  let count := ppc s
  match s.btu[k].lock with
  | .off | .synth | .spin => s
  | .search =>
    let s := s.modBtu k fun x => (x.edge s.now count period).nextFacet
    if periodFits s k period then enterIdent s k else s
  | .ident => s.modBtu k fun x => ((slewGrid b x).edge s.now count period).nextFacet
  | .pullIn | .locked | .slew =>
    readFacet (phaseLock (s.modBtu k fun x => ((slewGrid b x).edge s.now count period).nextFacet.runs) k) k true

/-! ## BDE_EDGE (R85, R307, R308) -/

/-- The trim of a facet before it is clamped (R308): N_BD pixel periods span the mean of its scan times [ps]. -/
def trimFor (b : List Byte) (scans : List Nat) : Int :=
  let num : Nat := stNbd b * 1000000 * 2 ^ 24 * stDiv b * scans.length
  let den : Nat := 25 * vcoWord b * scans.sum
  if den = 0 then 0 else roundDiv (((num : Int) - den) * 2000000) den

/-- A new trim replaces the old one when the two differ by 2 or more. -/
def newTrim (old new : Int) : Int := if 2 ≤ (new - old).natAbs then new else old

/-- The trims are recomputed, with their clamp (R84, R308). -/
def updateTrims (s : State) (k : Fin 6) : State :=
  let b := stationBody s k.1
  let raw := fun (f : Fin 12) => if s.btu[k].scans[f].isEmpty then none else some (trimFor b s.btu[k].scans[f])
  let outside := (List.finRange 12).any fun f => match raw f with | some t => decide (10000 < t.natAbs) | none => false
  let s := if outside then (s.modSynth k fun y => { y with trimClamp := true }).stick (0x814 + 16 * k.1) 0x20000 else s
  s.modBtu k fun x => { x with trims := Vector.ofFn fun f => match raw f with
    | some t => newTrim x.trims[f] (clampI (-10000) 10000 t)
    | none => x.trims[f] }

/-- The synthesizer latches the trim of the next facet (R85). -/
def latchTrim (s : State) (k : Fin 6) : State :=
  let x := s.btu[k]
  let next := (x.facet + 1) % Nat.max 1 x.facets
  let t := getN x.trims next 0
  s.modSynth k fun y => { y with trim := t, trimFacet := next }

/-- The sums of the four scan times of each facet of a round. -/
def roundSums (scans : List Nat) (f : Nat) : List Nat :=
  (List.range f).map fun i => ((List.range 4).map fun r => scans.getD (i + r * f) 0).sum

/-- S(r) of R307 times 16, from the sums of four. -/
def signatureError (sums sig : List Nat) (f r : Nat) : Nat :=
  ((List.range f).map fun i =>
    let d : Int := (sums.getD ((i + r) % f) 0 : Nat) - (4 * sig.getD i 0 : Nat)
    d.natAbs * d.natAbs).sum

/-- The rotation with the least S(r), provided that it is at most a quarter of the next-smallest. -/
def matchSignature (sums sig : List Nat) (f : Nat) : Option Nat :=
  let e := signatureError sums sig f
  match (List.range f).find? fun r => (List.range f).all fun q => decide (e r ≤ e q) with
  | none => none
  | some r => if (List.range f).all fun q => q == r || decide (4 * e r ≤ e q) then some r else none

/-- The signature in force (R307). -/
def signatureOf (s : State) (k : Fin 6) : Option (List Nat) :=
  let b := stationBody s k.1
  match s.btu[k].signature with
  | some l => some l
  | none => if stSigOn b then some ((List.range (stFacets b)).map (stSig b)) else none

/-- PULL_IN, with the label of the present facet. -/
def enterPullIn (s : State) (k : Fin 6) (label : Nat) (ok : Bool) : State :=
  s.modBtu k fun x => { x with
    lock := .pullIn, facet := label, sigOk := ok, identScans := [], identRounds := 0, goodRun := 0, badRun := 0 }

/-- A round of four revolutions has been measured. Measured facet 0 follows, with label −r; without an identity the next
facet is labelled 0. -/
def identRound (s : State) (k : Fin 6) : State :=
  let f := Nat.max 1 s.btu[k].facets
  let sums := roundSums s.btu[k].identScans f
  match signatureOf s k with
  | none => raise (enterPullIn s k (f - 1) false) (0x67 + 8 * k.1) 0x01
  | some sig =>
    match matchSignature sums sig f with
    | some r => enterPullIn s k ((f - 1 + (f - r)) % f) true
    | none =>
      if s.btu[k].identRounds + 1 < 4 then
        s.modBtu k fun x => { x with identRounds := x.identRounds + 1, identScans := [] }
      else raise (enterPullIn s k (f - 1) false) (0x67 + 8 * k.1) 0x02

/-- The end-of-scan edge, with the time since BDS. -/
def bdeEdge (s : State) (k : Fin 6) (scan : Nat) : State :=
  let x := s.btu[k]
  let store := fun (s : State) => s.modBtu k fun x => { x with scanTime := scan, bdeAt := some s.now }
  match x.lock with
  | .off | .synth | .spin => s
  | .search => store s
  | .ident =>
    let s := latchTrim ((store s).modBtu k fun x => { x with identScans := x.identScans ++ [scan] }) k
    if 4 * Nat.max 1 x.facets ≤ s.btu[k].identScans.length then identRound s k else s
  | _ =>
    let s := (store s).modBtu k fun x => { x with scans := updN x.scans x.facet fun l => (scan :: l).take 16 }
    latchTrim (if x.facet + 1 = x.facets then updateTrims s k else s) k

/-! ## Missed edges (R295) -/

/-- A missed edge: its flag, the count, and BD_MISS with detail bit 0 set for BDE. -/
def bdMiss (s : State) (k : Fin 6) (bde : Bool) : State :=
  let s := s.modBtu k fun x => { x with
    flags := x.flags ||| (if bde then 0x02 else 0x01), bdMisses := inc32 x.bdMisses }
  raise (s.stick (0x1018 + 0x100 * k.1) (if bde then 2 else 1)) (0x61 + 8 * k.1) (bit bde)

/-- No BDS edge in its window: a synthetic BDS at the predicted time, and BD_LOST at the second in a row. An edge in the same cycle
is real (R315). -/
def bdsMissed (s : State) (k : Fin 6) : State :=
  if !s.btu[k].lock.scanning || s.btu[k].edgeAt == some s.now then s
  else giveWay s (fun c => match c with | .bdsEdge j _ => j == k | _ => false) <|
    let s := (bdMiss s k false).modBtu k fun x => { (x.newTaps s.now).nextFacet with
      missRun := x.missRun + 1, bdsAt := x.bdsAt.map (· + meanFacet x / 5000), bdeAt := none }
    if 2 ≤ s.btu[k].missRun then bdLost (exposeFacet s k false) k else readFacet s k true

/-- No BDE edge in its window: no scan time and no new trim; a round of IDENT and the revolutions of a calibration are measured
again. An edge in the same cycle comes first (R14). -/
def bdeMissed (s : State) (k : Fin 6) : State :=
  if !s.btu[k].lock.scanning || s.btu[k].bdeAt == some s.now then s
  else giveWay s (fun c => match c with | .bdeEdge j _ _ => j == k | _ => false) <|
    (bdMiss s k true).modBtu k fun x => { x with identScans := [], calScans := [] }

/-! ## Delay lines (R304, R305) -/

/-- The lowest line that cannot span 15/16 of the pixel period with 1,024 taps [fs]. -/
def shortLine (b : List Byte) (taps : List Nat) : Option Nat :=
  if b.isEmpty then none
  else (List.range taps.length).find? fun n =>
    decide (16 * 1024 * taps.getD n 0 * 25000000 * vcoWord b < 15 * stDiv b * 2 ^ 24 * 1000000000000000)

/-- A calibration completes with the delays of its 32 lines: the pending tables are written. -/
def calibrated (s : State) (k : Fin 6) (taps : List Nat) : State :=
  let temp := compTemp s
  let short := shortLine (stationBody s k.1) taps
  let s := s.modBtu k fun x => { x with
    calRunning := false, calDue := false, calTemp := temp, cals := satAdd 16 x.cals 1, tapsPending := some taps
    pendingSince := s.now, calShort := short.isSome }
  match short with
  | some n => raise s (0x66 + 8 * k.1) (0x02 + 256 * n)
  | none => s

/-- A step of a rolling calibration has measured the two lines of its beam, (facet count + 8) mod 16 (R305); lines 2b and 2b + 1
are those of beam Bb (log 113). -/
def Station.calStep (x : Station) (taps : List Nat) : Station :=
  let b := (x.facetCount + 8) % 16
  { x with
    calBeams := x.calBeams ||| (1#16 <<< b)
    calLines := (List.range 32).map fun n => (if n / 2 = b then taps else x.calLines).getD n 0 }

/-- A calibration completes, or one step of a rolling one, whose sixteenth beam completes it (R305). -/
def calibrationDone (s : State) (k : Fin 6) (taps : List Nat) : State :=
  if !s.btu[k].calRunning then s
  else if s.btu[k].calRolling then
    let s := s.modBtu k fun x => x.calStep taps
    if s.btu[k].calBeams = 0xFFFF then calibrated s k s.btu[k].calLines else s
  else calibrated s k taps

/-! ## The measurements of STATION_CALIBRATE (R307, R310) -/

/-- Whether a parked STATION_CALIBRATE asks for a kind at a station. -/
def measures (s : State) (k : Fin 6) (kind : Nat) : Bool :=
  s.ktl.parked.any fun p => p.op == 0x50 && Cmd.p8 p.cmd 16 == k.1 && (calKinds p.cmd).getLsbD kind

/-- A scan time of kind 1's 64 revolutions. -/
def measureScan (s : State) (k : Fin 6) (scan : Nat) : State :=
  if measures s k 1 && decide (s.btu[k].calScans.length < 64 * calFacetsOf s k) then
    s.modBtu k fun x => { x with
      calLabel := if x.calScans.isEmpty then x.facet else x.calLabel, calScans := scan :: x.calScans }
  else s

/-- A monitor sample of a beam, and a facet of kind 2's 256. -/
def measureBeam (s : State) (k : Fin 6) (beam : Fin 16) (code : Nat) : State :=
  let counts := measures s k 2
  s.modBtu k fun x => { x with
    apcLast := x.apcLast.set beam.1 code beam.2, calFacets := if counts then min 256 (x.calFacets + 1) else x.calFacets }

/-! ## APC_SAMPLE (R309, R310, R467) -/

/-- Consecutive updates of a beam's level at a limit. -/
def apcWatch (s : State) (k : Fin 6) (beam : Fin 16) (atLimit : Bool) : State :=
  let run := if atLimit then min 17 (s.btu[k].apcRun[beam] + 1) else 0
  let s := s.modBtu k fun x => { x with apcRun := x.apcRun.set beam.1 run beam.2 }
  if run = 16 then 
    raise ((s.modBtu k fun x => { x with flags := x.flags ||| 0x08 }).stick (0x1018 + 0x100 * k.1) 8) (0x65 + 8 * k.1) beam.1
  else s

/-- A beam's new level is sent in this blanking interval, or in the next facet when its frame cannot be complete in time (R309); not
in the cycle of an entry to HALT (R315). -/
def sendLater (s : State) (k : Fin 6) (beam : Fin 16) (level : Nat) : State :=
  if haltComes s || !ldcFits s k then
    s.modBtu k fun x => { x with apcLevel := x.apcLevel.set beam.1 level beam.2, ldcLate := x.ldcLate.erase beam ++ [beam] }
  else sendLevel s k beam level

/-- The frames that wait are sent in the blanking interval that begins. -/
def sendWaiting (s : State) (k : Fin 6) : State :=
  if !s.btu[k].lden || haltComes s then s
  else s.btu[k].ldcLate.foldl (fun s b => sendFrame s k b) (s.modBtu k fun x => { x with ldcLate := [] })

/-- A parity error in a local table (R303): it is reloaded in the blanking interval that begins, or the station is fenced. -/
def checkTables (s : State) (k : Fin 6) (x : TableCheck) : State :=
  match x with
  | .intact => s
  | .reloaded => (s.modBtu k fun x => { x with flags := x.flags ||| 0x10 }).stick (0x1018 + 0x100 * k.1) 0x10
  | .lost => raise s (0x66 + 8 * k.1) 0xFF

/-- The monitor sample goes to the beam's slot, whose new output is sent; a further sample of the same cycle replaces it, and it is
missed (R455). -/
def apcSample (s : State) (k : Fin 6) (code : Nat) : State :=
  let b := stationBody s k.1
  let beam := apcBeam s.btu[k]
  let n : Fin 160 := Fin.ofNat 160 (16 * k.1 + beam.1)
  let l := s.ctl.loops[n]
  if !s.btu[k].lden || !s.btu[k].lock.scanning || !l.en then s
  else if coming s fun c => match c with | .apcSample j _ => j == k | _ => false then missSlot s n
  else
    let e := slotEntry s l
    let raw : Int := if bitOf (entInput e) 7 then linearised (linTable (loopsBody s) (entLin e)) code else code
    let s := evaluateSlot s n code raw true
    let level := (clampI (stLevelMin b) (stLevelMax b) s.ctl.loops[n].out).toNat
    apcWatch (sendLater (measureBeam s k beam code) k beam level) k beam (level == stLevelMin b || level == stLevelMax b)

/-! ## Time-outs and the interlock (R311, R312) -/

/-- SPIN without an at-speed event; one of the same cycle is in time (R14). -/
def spinExpires (s : State) (k : Fin 6) : State :=
  if s.btu[k].lock != .spin then s
  else giveWay s (· == .atSpeedDwell (Fin.ofNat 10 k.1)) (raise (stationOff s k false) (0x63 + 8 * k.1) 0x01)

/-- SEARCH without a pair of edges; one of the same cycle is in time (R14). -/
def searchExpires (s : State) (k : Fin 6) : State :=
  if s.btu[k].lock != .search then s
  else giveWay s (fun c => match c with | .bdsEdge j p => j == k && periodFits s k p | _ => false)
    (beamRaise (stationOff s k false) k 2)

/-- The condition of R311 that has failed (1 to 4): the lowest-numbered; HALT and PWRFAIL_N are left to R47 and R62. -/
def failedCondition (s : State) (k : Fin 6) : Option Nat :=
  let x := s.btu[k]
  if x.lock.code < 3 then some 1
  else if s.sys.mode == .halt || s.sys.pwrFail then none
  else if !polygonFast s k then some 3
  else if x.lock == .search || x.lock == .ident then none
  else some 4

def laserInterlock (s : State) (k : Fin 6) : State :=
  if !s.btu[k].lden then s
  else match failedCondition s k with
    | some c => interlock s k c
    | none => s

/-- An interlock of this cycle acts ahead of a change of lock state (R315). -/
def interlockFirst (s : State) (k : Fin 6) : State :=
  if coming s (· == .laserInterlock k) then laserInterlock s k else s

/-! ## The commands -/

/-- BDS_EDGE. -/
def execBdsEdge (k : Fin 6) (period : Nat) (s : State) : Host.Outcome State Fault Refusal :=
  .next (whenUp s fun s => lightBeams (bdsEdge (interlockFirst s k) k period) k)
/-- BDE_EDGE. -/
def execBdeEdge (k : Fin 6) (scan : Nat) (tables : TableCheck) (s : State) : Host.Outcome State Fault Refusal :=
  .next (whenUp s fun s =>
    lightBeams (checkTables (sendWaiting (bdeEdge (measureScan (interlockFirst s k) k scan) k scan) k) k tables) k)
/-- BDS_WINDOW_EXPIRY. -/
def execBdsWindowExpiry (k : Fin 6) (s : State) : Host.Outcome State Fault Refusal :=
  .next (whenUp s fun s => lightBeams (bdsMissed (interlockFirst s k) k) k)
/-- BDE_WINDOW_EXPIRY. -/
def execBdeWindowExpiry (k : Fin 6) (s : State) : Host.Outcome State Fault Refusal := .next (whenUp s fun s => bdeMissed s k)
/-- DELAY_LINE_CAL_DUE. -/
def execDelayLineCalDue (k : Fin 6) (s : State) : Host.Outcome State Fault Refusal :=
  .next (whenUp s fun s => calibrationDue s k)
/-- DELAY_LINE_CAL_COMPLETE. -/
def execDelayLineCalComplete (k : Fin 6) (taps : List Nat) (s : State) : Host.Outcome State Fault Refusal :=
  .next (whenUp s fun s => calibrationDone s k taps)
/-- APC_SAMPLE. -/
def execApcSample (k : Fin 6) (code : BitVec 12) (s : State) : Host.Outcome State Fault Refusal :=
  .next (whenUp s fun s => apcSample s k code.toNat)
/-- SPIN_TIMEOUT. -/
def execSpinTimeout (k : Fin 6) (s : State) : Host.Outcome State Fault Refusal := .next (whenUp s fun s => spinExpires s k)
/-- SEARCH_TIMEOUT. -/
def execSearchTimeout (k : Fin 6) (s : State) : Host.Outcome State Fault Refusal := .next (whenUp s fun s => searchExpires (interlockFirst s k) k)
/-- LASER_INTERLOCK. -/
def execLaserInterlock (k : Fin 6) (s : State) : Host.Outcome State Fault Refusal := .next (whenUp s fun s => laserInterlock s k)

end Sys2Proof.Machine
end

