-- ==== Sys2Proof/Machine/RecipeCmds.lean ====
section
/-! DEFINITION. Recipe opcodes 0x10..0x12 (R181..R185). -/

namespace Sys2Proof.Machine

/-! ## LOAD_RECIPE (R181, R184) -/

/-- The known kinds of R182, and the instances a kind has: none for a kind without instances. -/
def knownKind (k : Nat) : Bool := recipeKinds.contains k || k == 0x0060
def kindInstances (k : Nat) : Option Nat := if k = 0x0010 then some 6 else if k = 0x0020 then some 8 else none

/-- A recipe-signer is revoked (R527): its REVOKE bit, or word 96 blank in the locked POLICY region. -/
def signerRevoked (s : State) (k : Nat) : Bool :=
  (fuseWord s 96).getLsbD k || (fuseWord s 96 == 0 && bitOf (lockInForce s) 3)

/-- A recipe-signer key hash (R527): its four KEY words; none when blank, unused (R211) or revoked. -/
def signerHash (s : State) (k : Nat) : Option (List Byte) :=
  let words := (List.range 4).map fun j => getN s.fus.latched (136 + 4 * k + j) 0
  if words.all (· == 0) || words.all (· == BitVec.allOnes 64) || signerRevoked s k then none
  else some (fuseBytes s (136 + 4 * k) 4)

/-- The length of the body that an image states (R181). -/
def imageBody (l : List Byte) : Nat := u32 l 0x0C

/-- A check of the image that fails at an image offset (R173). -/
def imageFault (st : Status) (sub at_ : Nat) : Res := { status := st, sub := sub, off := 0xFE, ext := at_ }

/-- The checks of R184 that come before the signature, in their order; check 8 of R147 reads kind and instance of a known
kind first. -/
def imageCheck (s : State) (l : List Byte) : Option Res :=
  let kind := u16 l 4
  let inst := u16 l 6
  let off := match kindInstances kind with
    | some n => decide (inst < n) && !(if kind = 0x0010 then stationOn s inst else headOn s inst)
    | none => false
  let range := match kindInstances kind with | some n => decide (n ≤ inst) | none => inst != 0xFFFF
  let b := imageBody l
  if off then some (imageFault .badParam 0x0F 0x0006)
  else if u32 l 0 != 0x5EC10001 then some (imageFault .badParam 0x42 0x00)
  else match (List.range 16).find? fun k => u8 l (0x30 + k) != 0 with
    | some k => some (imageFault .badParam 0x06 (0x30 + k))
    | none =>
      if !knownKind kind then some (imageFault .badParam 0x43 0x04)
      else if range then some (imageFault .badParam 0x43 0x06)
      else if b % 4 != 0 || b < 4 || 1048384 < b || l.length != 0xC0 + b then some (imageFault .badParam 0x44 0x0C)
      else if u32 l 8 = 0 then some (imageFault .badParam 0x47 0x08)
      else if sha256 (bytesAt l 0x40 b) != bytesAt l 0x10 32 then some (imageFault .badParam 0x45 0x10)
      else match activeRecipe s kind inst with
        | some r => if u32 l 8 ≤ r.version then some (imageFault .badParam 0x46 0x08) else none
        | none => none

/-- The checks of the key and the signature (R181, R184). -/
def signatureCheck (s : State) (l : List Byte) : Option Res :=
  let b := imageBody l
  let key := bytesAt l (0x40 + b) 64
  if !((List.range 4).any fun k => signerHash s k == some (sha256 key)) then
    some (imageFault .signature 0x40 ((0x40 + b) % 65536))
  else if !ecdsaVerify key (bytesAt l (0x80 + b) 64) (sha256 (bytesAt l 0 (0x40 + b))) then
    some (imageFault .signature 0x41 ((0x80 + b) % 65536))
  else none

/-- Store slots that a parked activation names (R185). -/
def slotHeld (s : State) (k : Nat) : Bool := s.ktl.parked.any fun p => p.op == 0x12 && (activateSlots p.cmd).contains k

/-- The store slot for an image (R184, R185): that of a loaded, inactive recipe of its kind and instance, else the first
that is empty. -/
def slotFor (s : State) (kind inst : Nat) : Option Nat :=
  match (List.range 32).find? fun k => !slotHeld s k && (match storeSlot s k with
      | some r => !r.active && r.kind == kind && r.inst == inst
      | none => false) with
  | some k => some k
  | none => (List.range 32).find? fun k => (storeSlot s k).isNone

/-- The commit of LOAD_RECIPE, once the signature has been checked. -/
def loadImage (s : State) (l : List Byte) : State × Res :=
  let kind := u16 l 4
  let inst := u16 l 6
  match signatureCheck s l with
  | some r => (s, r)
  | none => match slotFor s kind inst with
    | none => (s, fail .noResource 0x48)
    | some k =>
      let b := imageBody l
      let h := sha256Bits (bytesAt l 0 (0x40 + b))
      let r : Recipe := ⟨kind, inst, u32 l 8, h, bytesAt l 0x40 b, false⟩
      (s.modLed fun x => { x with store := updN x.store k fun _ => some r },
       { status := .ok, w0 := k, w1 := kind + 65536 * inst, w2 := u32 l 8, w3 := u32 (hashBytes h) 0, w4 := u32 (hashBytes h) 4 })

/-- LOAD_RECIPE: the image is checked, and the command parks while its signature is. -/
def loadRecipeRun (c : Cmd) (s : State) : Verdict :=
  match imageCheck s c.params with
  | some r => refuse s r
  | none => .park s .hardware none
def loadRecipeSpec : OpSpec :=
  ⟨0x10, 196, 1048576, [.boot, .standby, .ready, .print, .runout, .service], [], namesNothing, loadRecipeRun⟩

/-! ## QUERY_RECIPE (R184) -/

def queryRecipeRun (c : Cmd) (s : State) : Verdict :=
  if 1 < Cmd.p8 c 20 then refuse s (failAt c .badParam 0x40 20)
  else
    let want := Cmd.p8 c 20 == 0
    match (List.range 32).find? fun k => (match storeSlot s k with
        | some r => r.kind == Cmd.p16 c 16 && r.inst == Cmd.p16 c 18 && r.active == want
        | none => false) with
    | some k => match storeSlot s k with
      | some r =>
        let h := hashBytes r.hash
        .reply s { status := .ok, w0 := k, w1 := r.version, w2 := u32 h 0, w3 := u32 h 4, w4 := u32 h 8 }
      | none => .reply s { status := .ok, w0 := 0xFFFFFFFF }
    | none => .reply s { status := .ok, w0 := 0xFFFFFFFF }
def queryRecipeSpec : OpSpec := ⟨0x11, 8, 8, allModes, [(21, 0xFF), (22, 0xFF), (23, 0xFF)], namesNothing, queryRecipeRun⟩

/-! ## ACTIVATE_RECIPES (R182, R184, R185) -/

/-- A failure at slot byte k, with the slot in [31:16]. -/
def slotFault (c : Cmd) (sub k : Nat) : Res :=
  { status := .badParam, sub := sub, off := if c.indirect then 0xFE else 17 + k, ext := Cmd.p8 c (17 + k) }

/-- The first slot byte that is empty, named twice, or the second of a kind and instance. -/
def badSlot (s : State) (slots : List Nat) : Option Nat :=
  (List.range slots.length).find? fun k =>
    match storeSlot s (slots.getD k 32) with
    | none => true
    | some r => (slots.take k).any fun j => match storeSlot s j with
      | some q => q.kind == r.kind && q.inst == r.inst
      | none => false

/-- Whether an idle-only kind may be activated now (R182). -/
def idleOk (s : State) : Bool :=
  s.sys.mode == .boot || s.sys.mode == .standby || s.sys.mode == .service || (s.sys.mode == .ready && ledgerEmpty s)

/-- ACTIVATE_RECIPES (R184). DESIGN CHOICE, log 119: a count outside 1 to 16, and a byte past the count that is not 0xFF, are
BAD_PARAM 0x40 at that byte. -/
def activateRun (c : Cmd) (s : State) : Verdict :=
  let n := Cmd.p8 c 16
  let slots := activateSlots c
  if n < 1 || 16 < n then refuse s (failAt c .badParam 0x40 16)
  else match (List.range 16).find? fun k => decide (n ≤ k) && Cmd.p8 c (17 + k) != 0xFF with
    | some k => refuse s (slotFault c 0x40 k)
    | none => match badSlot s slots with
      | some k => refuse s (slotFault c 0x40 k)
      | none =>
        let named := slots.filterMap (storeSlot s)
        match failedRecipe s named with
        | some k => refuse s (slotFault c 0x41 k)
        | none =>
          if (named.any fun r => r.kind != 0x0060) && !idleOk s then refuse s (fail .state 0x42)
          else match journalRefusal s false with
            | some r => refuse s r
            | none =>
              let t := recordRecipes s slots
              let r : Res := { status := .ok, w0 := n }
              match journaled s t r with
              | .park t w r => .park t w r
              | .reply t r => let t := activate t slots
                              .reply t { r with w1 := bit (requiredSet t) }
def activateSpec : OpSpec :=
  ⟨0x12, 17, 17, [.boot, .standby, .ready, .print, .runout, .service], [], namesNothing, activateRun⟩

/-! ## The commands -/

/-- LOAD_RECIPE. -/
def execLoadRecipe (c : Cmd) (s : State) : Host.Outcome State Fault Refusal := .next (direct loadRecipeSpec c s)
/-- QUERY_RECIPE. -/
def execQueryRecipe (c : Cmd) (s : State) : Host.Outcome State Fault Refusal := .next (direct queryRecipeSpec c s)
/-- ACTIVATE_RECIPES. -/
def execActivateRecipes (c : Cmd) (s : State) : Host.Outcome State Fault Refusal := .next (direct activateSpec c s)

end Sys2Proof.Machine
end

