-- ==== Sys2Proof/Machine/FaultCmds.lean ====
section
/-!
DEFINITION. Fault opcodes 0x60..0x63 (R201, R202, R508, R511, R512, R518..R520), and the release of fenced units.
-/

namespace Sys2Proof.Machine

/-! ## FAULT_READ (R202) -/

/-- What FAULT_READ shows of a source. -/
def sourceWords (s : State) (k : Fin 256) (x : Src) : Res :=
  { status := .ok
    w0 := k.1 + atBit 8 1 (bit x.pend.isSome) + atBit 9 3 x.sev.toNat + atBit 12 3 (sourceFloor k.1).toNat +
      atBit 15 1 (bit (causePresent s k.1))
    w1 := x.raises, w2 := x.first.toNat, w3 := x.latest.toNat, w4 := x.position }

/-- FAULT_READ of a source. -/
def faultWords (s : State) (k : Fin 256) : Res := sourceWords s k s.flt.src[k]

/-- A source as it stood before the raises of this cycle, which FAULT_READ 0x100 shows (R523). -/
def srcBefore (s : State) (k : Fin 256) : Src := (s.flt.before.lookup k).getD s.flt.src[k]

/-- The fabric as it stood before the raises of this cycle. -/
def beforeRaises (s : State) : State :=
  s.flt.before.foldl (fun s x => s.modSrc x.1 fun _ => x.2) s

def faultReadRun (c : Cmd) (s : State) : Verdict :=
  let n := Cmd.p16 c 16
  if h : n < 256 then .reply s (faultWords s ⟨n, h⟩)
  else if n = 256 then
    match oldestPending (beforeRaises s) with
    | some k => .reply s (sourceWords s k (srcBefore s k))
    | none => .reply s { status := .ok, w0 := 0xFFFFFFFF }
  else refuse s (failAt c .badParam 0x40 16)
def faultReadSpec : OpSpec := ⟨0x60, 4, 4, allModes, [(18, 0xFF), (19, 0xFF)], namesNothing, faultReadRun⟩

/-! ## FAULT_CLEAR (R511) -/

/-- A path stop ends (R402): the paper-path axes that the sequencer still owns regear, and M6 runs at the process speed again.
What that speed is for M6 the spec does not say: the speed M6 was last given stands for it (log 39). A fenced M6 stays fenced
(R437). -/
def endPathStop (s : State) : State :=
  let s := s.modSeq fun q => { q with pathStop := none }
  let s := if s.seq.own then gearPath s else s
  if s.mot.ch[6].state == .fenced then s else startMotor s 6 s.mot.ch[6].setpoint

/-- Whether a FAULT_CLEAR of this source ends the path stop in force (R402): its own source, raised for it already. -/
def endsPathStop (s : State) (src : Nat) : Bool :=
  match s.seq.pathStop with
  | some p => p.raised && src == (if p.reason == .jam then 0xB1 else 0xB2)
  | none => false

/-- The unit of a source leaves its fenced state, and what a rule of its own has held back is released (R264, R336, R344,
R402, R417, R437, R443, R444, R466, R509). The source itself is clear already. -/
def releaseUnit (s : State) (src : Nat) : State :=
  if 0x30 ≤ src ∧ src < 0x40 then unfenceLane s (.dec (Fin.ofNat 16 (src - 0x30)))
  else if 0x40 ≤ src ∧ src < 0x4C then unfenceLane s (.enc (Fin.ofNat 12 (src - 0x40)))
  else if src = 0x56 then { s with btu := s.btu.map fun (b : Station) => { b with slotFence := false } }
  else if 0x90 ≤ src ∧ src < 0xA0 then
    let h := Fin.ofNat 8 ((src - 0x90) / 2)
    let still := (getN s.flt.src (0x90 + 2 * h.1) {}).fenced || (getN s.flt.src (0x91 + 2 * h.1) {}).fenced
    if !still then unfenceHead s h
    else if src % 2 = 0 then s.modHead h fun x => { x with cutHold := false }
    else s
  else if endsPathStop s src then endPathStop s
  else if 0xC0 ≤ src ∧ src < 0xD0 then
    s.modAxis (Fin.ofNat 16 (src - 0xC0)) fun x => if x.state == .fenced then { x with state := .disabled } else x
  else if 0xD0 ≤ src ∧ src < 0xDA then
    s.modMotor (Fin.ofNat 10 (src - 0xD0)) fun x => if x.state == .fenced then { x with state := .stopped } else x
  else if src = 0xDA then
    s.modMot fun m => { m with
      hard := false
      ch := m.ch.map fun (x : Motor) => { x with drven := x.state != .stopped && x.state != .fenced } }
  else if src = 0xDC then s.modMot fun m => { m with chopperHold := false }
  else if 0xE0 ≤ src ∧ src ≤ 0xE7 then
    let keep := ~~~(BitVec.ofNat 8 (2 ^ (src - 0xE0)))
    let s := s.modCtl fun c => { c with loops := c.loops.map fun (l : Loop) => { l with fence := l.fence &&& keep } }
    if src = 0xE6 then s.modPins fun p => { p with hvCleared := true } else s
  else s

/-- The source becomes clear (R511): its pending state, its count and its details; a coalesced entry is written first. -/
def clearSource (s : State) (k : Fin 256) : State :=
  let x := s.flt.src[k]
  let s := match x.coalesce with
    | some (some c) => postCoalesced s k c false
    | _ => s
  s.modSrc k fun x => { x with
    pend := none, raises := 0, first := 0, latest := 0, position := 0, fenced := false
    coalesce := none }

/-- Whether a source is raised in the present cycle: recorded, on its way to the fabric, or still to come (R24, log 96). -/
def raisedNow (s : State) (k : Fin 256) : Bool :=
  s.flt.src[k].raisedAt == some s.now || s.flt.inbox.any (·.src == k) ||
  coming s fun i => match i with | .faultRaise (some (n, _)) => n == k | _ => false

/-- FAULT_CLEAR of a source whose cause is not present. The CLEAR entry covers no raise: level, count and detail are 0
(log 66). A source raised in the same cycle remains pending, and its unit fenced: the clear does nothing then (R24). -/
def faultClear (s : State) (k : Fin 256) : State :=
  if raisedNow s k then s
  else
    let s := clearSource s k
    let s := if s.flt.src[k].route.getLsbD 0 then postEvent s k .log 0x40 0 0 (ppc s % 2 ^ 32) (usNow s % 2 ^ 32) else s
    settle (releaseUnit s k.1)

/-- A signed FAULT_CLEAR from the supervisor acknowledges the alarms of the source (R518). -/
def acknowledge (s : State) (k : Fin 256) : State :=
  let x := s.flt.src[k]
  let s :=
    if s.flt.alarms.contains k then
      journalEvent (s.modFlt fun f => { f with alarms := f.alarms.filter (· != k) }) 1 k.1 (x.pend.getD .log) x.latest
    else s
  if k.1 == 0xF0 then s.modSys fun y => { y with svcLock := false } else s

/-- Retired slots of the Steep, as the bits 6 × station + slot. -/
def retiredSlots (s : State) : List Nat :=
  (List.range 36).filter fun n => (getN (getN s.stp.st (n / 6) {}).slots (n % 6) {}).retired

/-- The march test of R281 has ended: each slot that passed is back in service; the source is cleared when every one
did. -/
def marchDone (s : State) (fails : BitVec 36) : State × Res :=
  let bad := (retiredSlots s).any fun n => fails.getLsbD n
  let s := s.modStp fun x => { x with st := x.st.mapFinIdx fun k (y : SteepStation) _ =>
    { y with slots := y.slots.mapFinIdx fun n (z : Slot) _ => { z with retired := z.retired && fails.getLsbD (6 * k + n) } } }
  let s := panicUpdate s
  if bad then (s, { status := .stillPresent }) else (faultClear s 0x53, { status := .ok })

def faultClearRun (c : Cmd) (s : State) : Verdict :=
  let k : Fin 256 := Fin.ofNat 256 (Cmd.p8 c 16)
  if k.1 == 0xF0 && s.sys.svcLock && c.src != .sup then refuse s (fail .denied 0x40)
  else if causePresent s k.1 then refuse s { status := .stillPresent }
  else if k.1 == 0x53 && !(retiredSlots s).isEmpty then .park s .hardware none
  else
    let t := if c.src == .sup && !raisedNow s k then acknowledge s k else s
    .reply (faultClear t k) { status := .ok }
def faultClearSpec : OpSpec :=
  ⟨0x61, 4, 4, allModes, [(17, 0xFF), (18, 0xFF), (19, 0xFF)], namesNothing, faultClearRun⟩

/-! ## FAULT_SET_SEVERITY (R202, R508, R512, R513) -/

def faultSetSeverityRun (c : Cmd) (s : State) : Verdict :=
  let n := Cmd.p16 c 16
  let l := Cmd.p8 c 18
  if 256 < n then refuse s (failAt c .badParam 0x40 16)
  else if 4 < l then refuse s (failAt c .badParam 0x42 18)
  else if n < 256 && decide (l < (sourceFloor n).toNat) then
    refuse s { failAt c .badParam 0x41 18 with ext := (sourceFloor n).toNat }
  else match journalRefusal s false with
    | some r => refuse s r
    | none =>
      let old := if n = 256 then s.flt.aliveLevel else (getN s.flt.src n {}).sev.toNat
      let t := if n = 256 then aliveUpdate (s.modFlt fun f => { f with aliveLevel := l })
               else (noteSev s (Fin.ofNat 256 n)).modSrc (Fin.ofNat 256 n) fun x => { x with sev := Level.ofNum l }
      journaled s (journalCommand t 0x62 .ok c) { status := .ok, w0 := old }
def faultSetSeveritySpec : OpSpec :=
  ⟨0x62, 4, 4, [.standby, .ready, .service], [(19, 0xFF)], namesNothing, faultSetSeverityRun⟩

/-! ## FAULT_INJECT (R519, R520) -/

/-- The injection points of kind 0 (R519). -/
def injectionPoint (n : Nat) : Bool :=
  n == 0x10 || n == 0x25 || n == 0x26 || (decide (0x30 ≤ n) && decide (n ≤ 0x4B)) || n == 0xE7

def faultInjectRun (c : Cmd) (s : State) : Verdict :=
  let n := Cmd.p8 c 16
  let kind := Cmd.p8 c 17
  if 1 < kind || (kind = 0 && !injectionPoint n) then refuse s (failAt c .badParam 0x44 17)
  else if Cmd.p16 c 18 = 0 then refuse s (failAt c .badParam 0x45 18)
  else if s.flt.inject.isSome then refuse s (fail .busy 0x13)
  else match journalRefusal s false with
    | some r => refuse s r
    | none =>
      let t := s.modFlt fun f => { f with inject := some ⟨Fin.ofNat 256 n, kind, Cmd.p16 c 18⟩ }
      journaled s (journalCommand t 0x63 .ok c) { status := .ok }
def faultInjectSpec : OpSpec := ⟨0x63, 4, 4, [.service], [], namesNothing, faultInjectRun⟩

/-! ## The commands -/

/-- FAULT_READ. -/
def execFaultRead (c : Cmd) (s : State) : Host.Outcome State Fault Refusal := .next (direct faultReadSpec c s)
/-- FAULT_CLEAR. -/
def execFaultClear (c : Cmd) (s : State) : Host.Outcome State Fault Refusal := .next (direct faultClearSpec c s)
/-- FAULT_SET_SEVERITY. -/
def execFaultSetSeverity (c : Cmd) (s : State) : Host.Outcome State Fault Refusal := .next (direct faultSetSeveritySpec c s)
/-- FAULT_INJECT. -/
def execFaultInject (c : Cmd) (s : State) : Host.Outcome State Fault Refusal := .next (direct faultInjectSpec c s)

end Sys2Proof.Machine
end

