-- ==== Sys2Proof/Machine/FaultRows.lean ====
section
/-! DEFINITION. The fabric's own events: raises, coalescing, interruptions, injection and ALIVE (R505, R513, R515, R519..R521). -/

namespace Sys2Proof.Machine

/-! ## FAULT_RAISE (R505) -/

/-- What the unit of a source without a row of its own does at the detection: an ACT_LIMIT throttle is counted (R498,
R499); a table parity failure sets PARITY, and with both copies failed the slot goes off (R470, R472). -/
def ownDetection (s : State) (src detail : Nat) : State :=
  if src = 0xED then
    { s with drc := { s.drc with ch := updN s.drc.ch (detail / 2 ^ 24) fun (c : Channel) => { c with throttles := inc32 c.throttles } } }
  else if src = 0xE7 then
    let s := (s.modCtl fun c => { c with flags := c.flags ||| 0x20 }).stick 0x2410 0x20
    if fieldOf detail 8 8 = 2 then
      (if h : detail % 256 < 160 then hvUpdate (s.modLoop ⟨detail % 256, h⟩ Loop.toOff) else s)
    else s
  else s

/-- A detection from a detector without a row of its own reaches the fabric. -/
def detected (s : State) (src : Fin 256) (detail : Word) : State :=
  if reservedSource src.1 || sourceDisabled (stationOn s) (headOn s) src.1 then s
  else
    let t := ownDetection s src.1 detail.toNat
    let r : Raise := ⟨src, detail, causeLevel s src.1 detail.toNat, false, 1⟩
    let t := if src.1 = 0xE7 then injected s 0xE7 (t.modFlt fun f => { f with inbox := f.inbox ++ [r] })
             else t.modFlt fun f => { f with inbox := f.inbox ++ [r] }
    match t.flt.inbox.getLast? with
    | some r => recordRaise (t.modFlt fun f => { f with inbox := f.inbox.dropLast }) r
    | none => t

/-- FAULT_RAISE: the fabric records a raise. -/
def execFaultRaise (ext : Option (Fin 256 × Word)) (s : State) : Host.Outcome State Fault Refusal :=
  .next (whenUp s fun s => match ext with
    | some (src, detail) => detected s src detail
    | none => recordOldest s)

/-! ## Coalescing and interruptions (R515, R521) -/

/-- EVENT_COALESCE_EXPIRY: the millisecond of a source's entry has passed; what it covers is written as one entry. -/
def execEventCoalesceExpiry (source : Fin 256) (s : State) : Host.Outcome State Fault Refusal :=
  .next (whenUp s fun s =>
    let t := s.modSrc source fun x => { x with coalesce := none }
    match s.flt.src[source].coalesce with
    | some (some c) => postCoalesced t source c false
    | _ => t)

/-- INTERRUPTION_EXPIRY: 500 µs have passed without a report of its end. -/
def execInterruptionExpiry (s : State) : Host.Outcome State Fault Refusal :=
  .next (whenUp s fun s => s.modFlt fun f => { f with interruption := none })

/-! ## Injection (R519, R520) -/

/-- One raise of an armed injection of kind 1: the source with detail 0, marked INJECTED. -/
def injectTick (s : State) : State :=
  match s.flt.inject with
  | none => s
  | some i =>
    if i.kind != 1 || i.left = 0 then s
    else
      let s := s.modFlt fun f => { f with inject := some { i with left := i.left - 1 } }
      if reservedSource i.src.1 || sourceDisabled (stationOn s) (headOn s) i.src.1 then s
      else s.modFlt fun f => { f with inbox := f.inbox ++ [⟨i.src, 0, causeLevel s i.src.1 0, true, 1⟩] }

/-- INJECT_RAISE_TICK: 10 µs have passed. -/
def execInjectRaiseTick (s : State) : Host.Outcome State Fault Refusal := .next (whenUp s injectTick)

/-- An injection whose count is used ends (R520). -/
def injectionOver (s : State) : State :=
  match s.flt.inject with
  | some i => if i.left = 0 then endInjection s else s
  | none => s

/-- FLT_INJECT: an injection ends. -/
def execFltInject (s : State) : Host.Outcome State Fault Refusal := .next (whenUp s injectionOver)

/-! ## ALIVE (R513) -/

/-- A raise of this cycle will be pending at or above the ALIVE level: ALIVE does not start its high phase (R523). -/
def aliveRaise (s : State) : Bool := s.flt.inbox.any fun r =>
  let l := (raisedLevel s r).toNat
  decide (Nat.max 1 s.flt.aliveLevel ≤ l)

/-- ALIVE_TICK: ALIVE starts, or goes on, with a high phase when every condition holds. -/
def execAliveTick (s : State) : Host.Outcome State Fault Refusal :=
  .next (whenUp s fun s => s.modPins fun p => { p with aliveRun := aliveOk s && !aliveRaise s, aliveAt := s.now })

/-- The level of ALIVE: high for the first 500 µs after a tick. -/
def aliveLevel (s : State) : Bool := s.pins.aliveRun && decide (s.now - s.pins.aliveAt < 100000)

end Sys2Proof.Machine
end

