-- ==== Sys2Proof/Machine/IngestOps.lean ====
section
/-! DEFINITION. The checks of an ingest (R213..R217, R225) and the entry of a Leaf (R222, R226..R228). -/

namespace Sys2Proof.Machine

/-! ## Choice (R219) -/

/-- The descriptor that starts next: round robin across the rings, in ring order, at most 4 in progress per ring and 16
in all. -/
def nextIngest (s : State) : Option Ingest :=
  let on := s.cad.ingest.filter Ingest.running
  if 16 ≤ on.length then none
  else ((List.range 8).map fun k => (s.cad.turn + k) % 8).findSome? fun r =>
    if 4 ≤ on.countP fun d => d.ring.1 == r then none
    else s.cad.ingest.find? fun d => d.ring.1 == r && !d.running

/-- The oldest descriptor of a ring and tag in a phase. -/
def findIngest (s : State) (ring : Fin 8) (tag : BitVec 16) (p : IngestPhase → Bool) : Option Ingest :=
  s.cad.ingest.find? fun d => d.ring == ring && igTag d.bytes == tag.toNat && p d.phase

/-- A descriptor moves to a phase. -/
def toPhase (s : State) (d : Ingest) (p : IngestPhase) : State :=
  s.modCad fun c => { c with ingest := updFirst (fun x => x == d) (fun x => { x with phase := p }) c.ingest }

/-! ## Checks at start (R216, R217, R219, R225) -/

/-- The bytes that the descriptor of a kind marks 0 or reserved. -/
def igReserved (kind : Nat) : List Nat :=
  (if kind = 0 then [28, 29, 30, 31, 32, 33, 34, 35, 36] else [31]) ++ (List.range 27).map (37 + ·)

/-- The fields of a descriptor by themselves. -/
def igFields (d : List Byte) : Option IgRes :=
  let kind := igKind d
  if 1 < kind then some (igFail .badParam 0x40 0)
  else if igFlags d / (if kind = 0 then 2 else 8) != 0 then some (igFail .badParam 0x40 1)
  else match (igReserved kind).find? fun k => u8 d k != 0 with
    | some k => some (igFail .badParam 0x06 k)
    | none =>
      if igAddr d % (if kind = 0 then 64 else 4) != 0 || decide (2 ^ 64 < igAddr d + igLen d) then
        some (igFail .badParam 0x09 8)
      else if kind = 1 && (igLevel d < 1 || 4 < igLevel d) then some (igFail .badParam 0x40 30)
      else if kind = 1 && igThreshold d != 0 && (igThreshold d < 32 || 63 < igThreshold d) then
        some (igFail .badParam 0x40 36)
      else if 2 ^ 30 ≤ (igKey d).toNat then some (igFail .badParam 0x43 24)
      else none

/-- The sheet that a descriptor names, or the refusal that R225 gives: an admitted entry of an open job. -/
def igSheet (s : State) (d : List Byte) : Except IgRes Sheet :=
  if !(s.led.jobs.any fun j => j.id == igJob d) then .error (igFail .badParam 0x44 4)
  else match findSheet s (igJob d) (keyHandle (igKey d)) with
    | none => .error (igFail .badParam 0x44 4)
    | some (_, e) =>
      if e.open then .error (igFail .state 0x4C)
      else if e.state != .admitted then .error (igFail .badParam 0x44 4)
      else .ok e

/-- The width and the raw length that a sheet gives a key (R216). -/
def sheetWidth (e : Sheet) (key : Word) : Nat := getN e.widths (keyStation key) 0
def sheetRaw (e : Sheet) (key : Word) : Nat := rawLength e.length (sheetWidth e key) (keyBand key)

/-- The station and the band of a key beside the sheet it names (R216). -/
def keyFault (s : State) (e : Sheet) (key : Word) : Option IgRes :=
  if !stationOn s (keyStation key) then some (igFail .badParam 0x0F 24)
  else if !e.mask.getLsbD (keyStation key) || decide (bandCount e.length ≤ keyBand key) then some (igFail .badParam 0x45 24)
  else none

/-- Another descriptor with the same job and key is in progress (R225). -/
def igTwin (s : State) (b : List Byte) : Bool :=
  s.cad.ingest.any fun x => x.running && igJob x.bytes == igJob b && igKey x.bytes == igKey b

/-- The checks of a raw band against its sheet (R216, R217). -/
def bandFault (s : State) (e : Sheet) (b : List Byte) : Option IgRes :=
  match keyFault s e (igKey b) with
  | some r => some r
  | none =>
    if igWidth b != sheetWidth e (igKey b) then some (igFail .badParam 0x46 28)
    else if igLen b != sheetRaw e (igKey b) then some (igFail .length 0x49 16)
    else none

/-- The checks of a descriptor when it starts. The fields of a ready-made Leaf are checked once its source has been read and
its header found good (R220, log 105). -/
def igStartFault (s : State) (d : Ingest) : Option IgRes :=
  let b := d.bytes
  if !ingestServed s.sys.mode then some (igFail .state 0x0D)
  else if 1 < igKind b then some (igFail .badParam 0x40 0)
  else match if igKind b = 1 then igFields b else none with
    | some r => some r
    | none => match igSheet s b with
      | .error r => some r
      | .ok e => match if igKind b = 1 then bandFault s e b else none with
        | some r => some r
        | none => if igTwin s b then some (igFail .busy 0x13) else none

/-! ## The header of a ready-made Leaf (R213, R214) -/

/-- The Leaf that a header and a body spell. -/
def leafOf (job : Word) (h body : List Byte) : Leaf :=
  { job := job, key := BitVec.ofNat 32 (u32 h 4), form := u8 h 8, flags := BitVec.ofNat 8 (u8 h 9), width := u16 h 0x0A
    rawLen := u32 h 0x0C, bodyLen := u32 h 0x10, rawCrc := BitVec.ofNat 32 (u32 h 0x14)
    bodyCrc := BitVec.ofNat 32 (u32 h 0x18), body := body, primary := .good, mirror := .good, doomed := false }

/-- The checks of R213 in the order of its table, then the descriptor's fields, its length and the body (R220). A station or
a band that the sheet lacks is found at the key, since no required width or length goes with it (log 105). -/
def headerFault (s : State) (e : Sheet) (d : List Byte) (l : List Byte) : Option IgRes :=
  let at_ := fun (k : Nat) => 0x40 + k
  let form := u8 l 8
  let raw := u32 l 0x0C
  let body := u32 l 0x10
  let width := u16 l 0x0A
  if u32 l 0 != 0x1EAF0001 then some (igFail .badParam 0x41 (at_ 0))
  else if u32 l 0x3C != (crc32c (padTo 0x3C l)).toNat then some (igFail .check 0x42 (at_ 0x3C))
  else match (List.range 32).find? fun k => u8 l (0x1C + k) != 0 with
    | some k => some (igFail .badParam 0x06 (at_ (0x1C + k)))
    | none =>
      if u32 l 4 != (igKey d).toNat || 2 ^ 30 ≤ (igKey d).toNat then some (igFail .badParam 0x43 (at_ 4))
      else match keyFault s e (igKey d) with
      | some r => some r
      | none =>
      if 2 < form then some (igFail .badParam 0x48 (at_ 8))
      else if u8 l 9 / (if form = 1 then 16 else 1) != 0 then some (igFail .badParam 0x48 (at_ 9))
      else if width % 2 != 0 || width < 2 || 49152 < width || width != sheetWidth e (igKey d) then
        some (igFail .badParam 0x46 (at_ 0x0A))
      else if raw != sheetRaw e (igKey d) then some (igFail .badParam 0x47 (at_ 0x0C))
      else if (if form = 0 then body != raw else if form = 1 then body < 1 || raw < body else body != 0) then
        some (igFail .badParam 0x48 (at_ 0x10))
      else if form = 0 && u32 l 0x14 != u32 l 0x18 then some (igFail .badParam 0x48 (at_ 0x14))
      else if form = 2 && u32 l 0x18 != 0 then some (igFail .badParam 0x48 (at_ 0x18))
      else match igFields d with
      | some r => some r
      | none =>
      if igLen d != 64 + body then some (igFail .length 0x49 16)
      else if u32 l 0x18 != (crc32c (bytesAt l 64 body)).toNat then some (igFail .check 0x4A (at_ 0x18))
      else none

/-! ## A Leaf made on ingest (R214, R221, R222, R256, R257) -/

/-- The body limit of an encode run (R257). -/
def bodyLimit (raw threshold : Nat) : Nat := raw * threshold / 64

/-- The threshold of a descriptor (R217). -/
def igLimit (s : State) (d : List Byte) : Nat :=
  bodyLimit (igLen d) (if igThreshold d = 0 then s.cad.threshold else igThreshold d)

/-- The lane's built-in decoder agrees with the raw band it read (R256). -/
def selfVerified (body : List Byte) (raw : Nat) (crc : Nat) : Bool :=
  let i := inflate body raw raw
  i.err == 0 && i.out.size == raw && (crc32c i.out.toList).toNat == crc

/-- Dynamic blocks that a descriptor and its lane permit (R217, R250): only E0 and E1 make them. -/
def igDynamic (d : List Byte) (n : Fin 12) : Bool := decide (n.1 < 2) && bitOf (igFlags d) 1

/-- What a lane makes of a descriptor's raw band (R249..R255). -/
def igEncoded (d : List Byte) (n : Fin 12) (raw : List Byte) : Encoded := encodeBand raw (igLevel d) (igDynamic d n)

/-- Zero detect finds the band all zero (R222). -/
def igZero (d : List Byte) (raw : List Byte) : Bool := bitOf (igFlags d) 2 && raw.all (· == 0)

/-- The Leaf of a body that a lane has made. -/
def madeLeaf (d : List Byte) (body : List Byte) (dynamic : Bool) : Leaf :=
  { job := igJob d, key := igKey d, form := 1, flags := BitVec.ofNat 8 (igLevel d + 8 * bit dynamic + 16)
    width := igWidth d, rawLen := igLen d, bodyLen := body.length, rawCrc := BitVec.ofNat 32 (igCrc d)
    bodyCrc := crc32c body, body := body, primary := .good, mirror := .good, doomed := false }

/-- The form-2 Leaf of a band of zeros (R222). -/
def zeroLeaf (d : List Byte) : Leaf :=
  { madeLeaf d [] false with form := 2, flags := 0, bodyLen := 0, bodyCrc := 0 }

/-! ## Entry (R226..R228) -/

/-- Whether channel c takes a copy of a new Leaf (R226, R228). -/
def takesCopy (s : State) (c : Fin 2) : Bool := s.drc.ch[c].up

/-- A new Leaf with the copies that the working channels hold (R226, R228); a form-2 Leaf has no pages, and counts as
mirrored once its index entry is written (R222, R229). -/
def placeLeaf (s : State) (l : Leaf) : Leaf :=
  if l.form = 2 then l else
  let on := fun (c : Nat) => takesCopy s (Fin.ofNat 2 c)
  let copy := fun (b : Bool) => if b then Copy.good else .absent
  { l with primary := copy (on (primaryChannel l.key)), mirror := copy (on (1 - primaryChannel l.key)) }

/-- Whether a channel that takes a copy lacks the pages (R225 NO_RESOURCE 0x4E). -/
def pagesShort (s : State) (l : Leaf) : Bool :=
  [(0 : Fin 2), 1].any fun c => takesCopy s c && decide (freeOn s c < l.pages)

/-- The refusal of a Leaf at its entry, when there is one (R225, R227, R231). -/
def entryRefusal (s : State) (d : Ingest) (l : Leaf) : Option IgRes :=
  match igSheet s d.bytes with
  | .error r => some r
  | .ok _ =>
    if pagesShort s l then some (igFail .noResource 0x4E)
    else if (findLeaf s l.job l.key).isNone && decide (1048576 ≤ s.cad.leaves.length) then some (igFail .noResource 0x4F)
    else none

/-- The Leaf is entered in one cycle (R227): it replaces the Leaf of its key. -/
def enterLeaf (s : State) (d : Ingest) (l : Leaf) (zero : Bool) : State :=
  let l := placeLeaf s l
  let old := findLeaf s l.job l.key
  let single := (l.primary == .absent || l.mirror == .absent)
  let s := (dramRequest s).modCad fun c => { c with
    leaves := (c.leaves.filter fun x => !(x.job == l.job && x.key == l.key)) ++ [l]
    repairs := c.repairs.filter fun r => !(r.1 == l.job && r.2.1 == l.key) }
  caddyLow (completeIngest s d
    { status := .ok, flags := bit zero + 2 * bit old.isSome + 4 * bit single, leaf := some l })

end Sys2Proof.Machine
end

