-- ==== Sys2Proof/Machine/CodecLanes.lean ====
section
/-! DEFINITION. Codec lanes: their tests and faults (R264, R265, R267), and CODEC_RUN (R208, R209, R257..R263). -/

namespace Sys2Proof.Machine

/-! ## Tests (R264, R265) -/

/-- The constant in ROM for a lane of its kind (R265): of the raw CRC that a decode lane computes, of the body CRC of an encode
lane. -/
def katConstant : LaneId → Word
  | .dec _ => Config.katRaw
  | .enc n => Config.katBody (decide (n.1 < 2))

/-- The verdict of a known-answer test (R265): the CRC that the lane computed is the constant, and an encode lane has verified
its own output. -/
def katPasses (id : LaneId) (crc : Word) (verified : Bool) : Bool :=
  crc == katConstant id && (match id with | .dec _ => true | .enc _ => verified)

/-- A known-answer test ends. A lane that fails it is raised; the fabric then fences it when its severity does. A strike given
during the test makes another due (R266). -/
def testEnded (s : State) (id : LaneId) (pass : Bool) : State :=
  if (laneAt s id).state != .test then s
  else
    let s := s.modCdc fun c => { c with katRuns := inc32 c.katRuns }
    let s := if pass then s else laneRaise s id 0x01
    encodeWaiting (modLane s id fun l => { l with
      state := if l.testDue then .test else .idle, periodic := false, testDue := false, periodicDue := false })

/-- LANE_KAT_END. -/
def execLaneKatEnd (lane : LaneId) (crc : Word) (verified : Bool) (s : State) : Host.Outcome State Fault Refusal :=
  .next (whenUp s fun s => testEnded s lane (katPasses lane crc verified))

/-- A periodic test falls due (R265): an idle lane starts it, a busy one at its next idle moment. -/
def Lane.testPeriod (l : Lane) : Lane :=
  match l.state with
  | .idle => if l.fence then l else { l with state := .test, periodic := true }
  | .steep | .ingest | .run => { l with periodicDue := true }
  | _ => l

/-- LANE_PERIODIC_TEST_DUE. -/
def execLanePeriodicTestDue (lane : LaneId) (s : State) : Host.Outcome State Fault Refusal :=
  .next (whenUp s fun s => if s.cdc.katPeriod = 0 then s else modLane s lane Lane.testPeriod)

/-! ## Lane faults (R267) -/

/-- A lane at work. -/
def LaneState.working (x : LaneState) : Bool := x == .steep || x == .ingest || x == .run

/-- A lane fault (R246, R256, R263, R267, R284): the work ends with it and goes on elsewhere. -/
def laneFault (s : State) (id : LaneId) (cause : Nat) : State :=
  let old := (laneAt s id).state
  let s := laneRaise s id cause
  let ended := fun (s : State) (outcome : Nat) =>
    modLane s id fun l => { l.ended with lastOutcome := outcome, fails := inc32 l.fails }
  match id, old with
  | .dec n, .steep => ended (migrateFrom (match s.cdc.dec[n].assign with
      | some a => if (currentBand s n a).isNone then staleReport s 4800 else s
      | none => s) n) 0x10
  | .enc n, .ingest => rerunIngest (ended s (Status.code .fenced)) n false
  | _, .run => encodeWaiting (modLane (cutRun s id { status := .fenced }) id Lane.ended)
  | _, _ => s

/-- LANE_LOCKUP: no progress for 100 µs while at work. -/
def execLaneLockup (lane : LaneId) (s : State) : Host.Outcome State Fault Refusal :=
  .next (whenUp s fun s => giveWay s (fun i => match i, lane with
    | .decodeAttemptReport k _, .dec n => k == n
    | _, _ => false) (if (laneAt s lane).state.working then laneFault s lane 0x04 else s))

/-- LANE_PARITY_ERROR: a gated lane has no memory to check, and a fenced one no work. An armed injection inverts the
parity of the read (R519). -/
def execLaneParityError (lane : LaneId) (s : State) : Host.Outcome State Fault Refusal :=
  .next (whenUp s fun s =>
    if (laneAt s lane).state == .gated || (laneAt s lane).state == .fenced then s
    else injected s (laneSource lane) (laneFault s lane 0x05))

/-! ## CODEC_RUN (R208, R209) -/

/-- The lane of a packet; check 8 has refused a number beyond 27. -/
def runLaneId (c : Cmd) : LaneId :=
  if runLane c < 16 then .dec (Fin.ofNat 16 (runLane c)) else .enc (Fin.ofNat 12 (runLane c - 16))

/-- Check 8: a lane number beyond E11 (log 47). -/
def runNames (_ : State) (c : Cmd) : Option Nat := if 27 < runLane c then some 16 else none

/-- The first byte of a resume packet among 20..31 that is not 0 (R208). -/
def resumeReserved (c : Cmd) : Option Nat := (List.range 12).map (20 + ·) |>.find? fun k => Cmd.p8 c k != 0

/-- The parameters of a start (R208, R209): bytes and fields that R209 gives no sub-reason of their own are logged
(log 64). -/
def startParams (c : Cmd) : Option Res :=
  let enc := decide (16 ≤ runLane c)
  let level := Cmd.p8 c 18
  let x := runParam c
  if 4 ≤ runFlags c then some (failAt c .badParam 0x06 19)
  else if bitOf (runFlags c) 0 && runLane c != 16 && runLane c != 17 then some (failAt c .badParam 0x40 19)
  else if (if enc then decide (level < 1) || decide (4 < level) else level != 0) then some (failAt c .badParam 0x41 18)
  else if runSourceLen c < 1 || 786432 < runSourceLen c then some (failAt c .badParam 0x43 28)
  else if !bitOf (runFlags c) 1 && runCrc c != 0 then some (failAt c .badParam 0x06 44)
  else if (if enc then x != 0 && (decide (x < 32) || decide (63 < x)) else decide (x < 1) || decide (786432 < x)) then
    some (failAt c .badParam 0x43 48)
  else if 2 ^ 64 < Cmd.p64 c 20 + runSourceLen c then some (failAt c .badParam 0x09 20)
  else none

/-- The destination of a start or a resume. -/
def destParams (c : Cmd) : Option Res :=
  if runDestLen c < 1 || 1048576 < runDestLen c then some (failAt c .badParam 0x43 40)
  else if 2 ^ 64 < runDest c + runDestLen c then some (failAt c .badParam 0x09 32)
  else none

/-- Why a lane cannot take a run now (R209, R264, R277): in use, in a test that is not abandoned, claimed by the Steep, or
fenced. -/
def laneBusy (s : State) (id : LaneId) : Option Res :=
  let l := laneAt s id
  let held := match id with | .dec _ => claimed s | .enc _ => false
  if held || laneSuspect s id || l.state.working || l.state == .gated || (l.state == .test && !l.periodic) then some (fail .busy 0x13)
  else if l.fence || l.state == .fenced then some (fail .fenced 0)
  else none

def codecRunRun (c : Cmd) (s : State) : Verdict :=
  let id := runLaneId c
  if 1 < runOp c then refuse s (failAt c .badParam 0x06 17)
  else if runOp c = 1 then
    match resumeReserved c with
    | some k => refuse s (failAt c .badParam 0x06 k)
    | none => match destParams c with
      | some r => refuse s r
      | none =>
        if (laneAt s id).saved.isNone then refuse s (failAt c .badParam 0x42 17)
        else match laneBusy s id with
          | some r => refuse s r
          | none => .park (modLane s id fun l => { l with state := .run, periodic := false }) .hardware none
  else match startParams c with
    | some r => refuse s r
    | none => match destParams c with
      | some r => refuse s r
      | none => match laneBusy s id with
        | some r => refuse s r
        | none =>
          .park (modLane s id fun l => { l.taken .run with saved := some ⟨c.params, [], [], 0, 0⟩ }) .hardware none
def codecRunSpec : OpSpec := ⟨0x78, 36, 36, [.ready, .service], [], runNames, codecRunRun⟩

/-! ## The end of a call (R257..R263) -/

/-- How a call ends: what it writes, what stays saved, and its result; none when it has not ended yet. -/
abbrev CallEnd := Option (List Byte × Option Saved × Res)

/-- A decode call (R240, R241, R260, R263): W0 counts every source byte of which a bit has been consumed. -/
def decodeCall (st c : Cmd) (v : Saved) (source : List Byte) : CallEnd :=
  let src := padTo (runSourceLen st) source
  let i := inflate src (runParam st) (v.delivered + runDestLen c)
  let out := i.out.toList
  let new := out.drop v.delivered
  let used := min (runSourceLen st) ((i.pos + 7) / 8)
  let res : Res := { status := .ok, w0 := used, w1 := new.length, w3 := (crc32c out).toNat, w4 := (crc32c src).toNat }
  if i.full then
    some (new, some { v with source := src, delivered := out.length },
      { res with status := .partially, w4 := (crc32c (src.take used)).toNat })
  else if i.err != 0 then some (new, none, { res with status := .decode, sub := i.err })
  else if bitOf (runFlags st) 1 && res.w3 != runCrc st then some (new, none, { res with status := .check, sub := 0x08 })
  else some (new, none, res)

/-- The bits that can be pending when no whole byte more can be written (R258): at least a whole byte, at most 63, and no
more than the body still has. -/
def pendingBits (pending left : Nat) : Nat := min (8 * left) (min 63 (max 8 pending))

/-- An encode call (R256..R259, R263): it ends PARTIAL only while the bits written and pending are within the body limit. How
far the lane has read ahead and how many bits stand in its accumulator are the lane's own (log 83). -/
def encodeCall (st c : Cmd) (v : Saved) (source : List Byte) (reached pending : Nat) (upset : Bool) : CallEnd :=
  let n := runSourceLen st
  let src := padTo n source
  let body := (encodeBand src (Cmd.p8 st 18) (bitOf (runFlags st) 0)).body
  let limit := bodyLimit n (if runParam st = 0 then 60 else runParam st)
  let room := v.delivered + runDestLen c
  let new := (body.take room).drop v.delivered
  let seen := src.take (max v.source.length reached)
  let res : Res := { status := .ok, w0 := n, w1 := new.length, w3 := (crc32c src).toNat, w4 := (crc32c body).toNat }
  let left := pendingBits pending (body.length - room)
  if decide (limit < body.length) && decide (8 * limit < 8 * room + left) then
    some ([], none, { status := .noshrink, w0 := seen.length, w3 := (crc32c seen).toNat })
  else if room < body.length then
    some (new, some { v with source := seen, emitted := body.take room, pending := left, delivered := room },
      { res with status := .partially, w0 := seen.length, w2 := left, w3 := (crc32c seen).toNat
                 w4 := (crc32c (body.take room)).toNat })
  else if upset || !selfVerified body n res.w3 then some (new, none, { res with status := .check, sub := 0x08 })
  else some (new, none, res)

/-- A lane's run has ended: its counters, its saved state and the bytes written (R261, R262, R268). -/
def runEnded (s : State) (id : LaneId) (dest : Nat) (new : List Byte) (v : Option Saved) (r : Res) : State :=
  let s := if new.isEmpty then s else emit s (.write (BitVec.ofNat 64 dest) new)
  let good := r.status == .ok || r.status == .partially || r.status == .noshrink
  let s := modLane s id fun l => Lane.noted id r.status { l.ended with
    saved := v, fails := if good then l.fails else inc32 l.fails, outBytes := l.outBytes + new.length }
  encodeWaiting s

/-- The hardware completion of a CODEC_RUN call; none while it goes on. A failed self-verification raises the lane's
source (R256); under CHECK and DECODE what stands in the output buffer is a free value (R151). -/
def codecDone (s : State) (c : Cmd) (source : List Byte) (reached pending : Nat) (upset : Bool) : Option (State × Res) :=
  let id := runLaneId c
  match (laneAt s id).saved with
  | none => none
  | some v =>
    let st := startOf c v
    let x := match id with
      | .dec _ => decodeCall st c v source
      | .enc _ => encodeCall st c v source reached pending upset
    match x with
    | none => none
    | some (new, keep, r) =>
      let s := match id with
        | .dec _ => s
        | .enc _ => if r.status == .check then laneRaise s id 0x02 else s
      let open_ := r.status == .check || r.status == .decode
      let new := if open_ then (List.range new.length).map (Config.freeByte s.free) else new
      let s := if open_ then s.drawn else s
      some (runEnded s id (runDest c) new keep r, r)

/-- The deadline of a running CODEC_RUN (R164, R263): PARTIAL with what the run has done so far, which stays saved. -/
def codecExpired (s : State) (c : Cmd) : State × Res :=
  let id := runLaneId c
  match (laneAt s id).saved with
  | none => (s, { status := .partially })
  | some v =>
    let x := codecSoFar s id c v
    (runEnded { s with free := s.free + 3 } id (runDest c) x.1 (some x.2.1) x.2.2, x.2.2)

/-- CODEC_RUN. -/
def execCodecRun (c : Cmd) (s : State) : Host.Outcome State Fault Refusal := .next (direct codecRunSpec c s)

end Sys2Proof.Machine
end

