-- ==== Sys2Proof/Machine/MarkOps.lean ====
section
/-!
DEFINITION. Mark formats and their images: fields of the MARKS recipe (R372, R373), the digit string and its check
digit (R374), Code 128 subset C (R375; symbol patterns of ISO/IEC 15417: PRESUMED, log 51), and the image (R376).
-/

namespace Sys2Proof.Machine

/-! ## MARKS recipe fields (R372, R373) -/

def mkCount (b : List Byte) : Nat := u8 b 0
def mkGw (b : List Byte) : Nat := u8 b 1
def mkGh (b : List Byte) : Nat := u8 b 2
/-- The 32 bytes of format k. -/
def mkFormat (b : List Byte) (k : Nat) : List Byte := bytesAt b (0x10 + 32 * k) 32
def fmSource (f : List Byte) : Nat := u8 f 0
def fmDigitsOn (f : List Byte) : Bool := bitOf (u8 f 1) 0
def fmBarsOn (f : List Byte) : Bool := bitOf (u8 f 1) 1
def fmDigits (f : List Byte) : Nat := u8 f 2
def fmCheck (f : List Byte) : Nat := u8 f 3
def fmZeros (f : List Byte) : Bool := u8 f 4 == 1
def fmDrop (f : List Byte) : Nat := u8 f 5
def fmWave (f : List Byte) : Nat := u8 f 6
def fmModule (f : List Byte) : Nat := u8 f 7
def fmBarHeight (f : List Byte) : Nat := u16 f 8
def fmGap (f : List Byte) : Nat := u16 f 0x0A
def fmOrigin (f : List Byte) : Nat := u16 f 0x0C
def fmSpacing (f : List Byte) : Nat := u8 f 0x0E
def fmOffset (f : List Byte) : Nat := u64 f 0x10
/-- Row r of the glyph of digit d: bit j is the dot at nozzle offset j. -/
def mkGlyph (b : List Byte) (d r : Nat) : Nat := u64 b (0x210 + 512 * d + 8 * r)

/-- Characters of the printed text: the digits, and the check digit when one is selected. -/
def fmCells (f : List Byte) : Nat := fmDigits f + (if fmCheck f = 0 then 0 else 1)

/-- Fire lines of an image (R376). -/
def fmLines (b f : List Byte) : Nat :=
  if fmDigitsOn f then (if fmBarsOn f then mkGh b + fmGap f + fmBarHeight f else mkGh b) else fmBarHeight f

/-- Modules of the symbol: 55 + 11P with P digit pairs (R375). -/
def fmModules (f : List Byte) : Nat := 55 + 11 * ((fmCells f + 1) / 2)

/-- One past the last logical nozzle that a field reaches (R376). -/
def fmReach (b f : List Byte) : Nat :=
  let digits := fmCells f * mkGw b + (fmCells f - 1) * fmSpacing f
  let bars := fmModules f * fmModule f
  fmOrigin f + Nat.max (if fmDigitsOn f then digits else 0) (if fmBarsOn f then bars else 0)

/-! ## Digits (R374) -/

/-- The D digits of a value, leading zeros included, most significant first. -/
def digitsOf : Nat → Nat → List Nat
  | 0, _ => []
  | n + 1, v => digitsOf n (v / 10) ++ [v % 10]

/-- The check digit of a digit string: weights run from its rightmost digit. -/
def checkDigit (kind : Nat) (ds : List Nat) : Nat :=
  let weigh := fun (x : Nat × Nat) =>
    if kind = 1 then
      (if x.2 % 2 = 0 then (if 4 < x.1 then 2 * x.1 - 9 else 2 * x.1) else x.1)
    else if x.2 % 2 = 0 then 3 * x.1 else x.1
  (10 - (ds.reverse.zipIdx.map weigh).sum % 10) % 10

/-- The printed text of a value under a format. -/
def fmText (f : List Byte) (v : Nat) : List Nat :=
  let ds := digitsOf (fmDigits f) v
  if fmCheck f = 0 then ds else ds ++ [checkDigit (fmCheck f) ds]

/-- Cells left blank: leading zeros when the format suppresses them; the units digit is never a leading zero (log 52). -/
def fmBlanks (f : List Byte) (v : Nat) : Nat :=
  if fmZeros f then 0 else ((digitsOf (fmDigits f) v).dropLast.takeWhile (· == 0)).length

/-! ## Code 128 (R375) -/

/-- Bar and space widths of the symbol characters 0..106 of ISO/IEC 15417, as decimal digits. -/
def code128 : List Nat :=
  [212222, 222122, 222221, 121223, 121322, 131222, 122213, 122312, 132212, 221213, 221312, 231212, 112232, 122132, 122231,
   113222, 123122, 123221, 223211, 221132, 221231, 213212, 223112, 312131, 311222, 321122, 321221, 312212, 322112, 322211] ++
  [212123, 212321, 232121, 111323, 131123, 131321, 112313, 132113, 132311, 211313, 231113, 231311, 112133, 112331, 132131,
   113123, 113321, 133121, 313121, 211331, 231131, 213113, 213311, 213131, 311123, 311321, 331121, 312113, 312311, 332111] ++
  [314111, 221411, 431111, 111224, 111422, 121124, 121421, 141122, 141221, 112214, 112412, 122114, 122411, 142112, 142211,
   241211, 221114, 413111, 241112, 134111, 111242, 121142, 121241, 114212, 124112, 124211, 411212, 421112, 421211, 212141] ++
  [214121, 412121, 111143, 111341, 131141, 114113, 114311, 411113, 411311, 113141, 114131, 311141, 411131, 211412, 211214,
   211232, 2331112]

/-- The modules of a symbol character: bars and spaces in turn, a bar first. -/
def charModules (v : Nat) : List Bool :=
  let n := if v = 106 then 7 else 6
  ((digitsOf n (code128.getD v 0)).zipIdx.map fun x => List.replicate x.1 (x.2 % 2 == 0)).flatten

/-- The digit pairs of a text, with a leading 0 when its length is odd. -/
def digitPairs (t : List Nat) : List Nat :=
  let t := if t.length % 2 = 1 then 0 :: t else t
  (List.range (t.length / 2)).map fun k => 10 * t.getD (2 * k) 0 + t.getD (2 * k + 1) 0

/-- The symbol check value. -/
def symbolCheck (pairs : List Nat) : Nat := (105 + (pairs.zipIdx.map fun x => (x.2 + 1) * x.1).sum) % 103

/-- The modules of the symbol, quiet zones included. -/
def symbol (t : List Nat) : List Bool :=
  let pairs := digitPairs t
  List.replicate 10 false ++ ((([105] ++ pairs ++ [symbolCheck pairs, 106]).map charModules).flatten) ++
    List.replicate 10 false

/-! ## Image (R376, R327) -/

/-- A fire line of 512 bytes: the dots that are set take a drop size. -/
def fireLine (dot : Nat → Bool) (drop : Nat) : List Byte :=
  (List.range 512).map fun k =>
    BitVec.ofNat 8 ((List.range 4).map fun j => if dot (4 * k + j) then drop * 4 ^ j else 0).sum

/-- Line r of the digits. -/
def digitLine (b f : List Byte) (v r : Nat) : List Byte :=
  let pitch := mkGw b + fmSpacing f
  let text := fmText f v
  let rows := text.map fun d => mkGlyph b d r
  let blanks := fmBlanks f v
  fireLine (fun n =>
    let x := n - fmOrigin f
    decide (fmOrigin f ≤ n) && decide (x % pitch < mkGw b) && decide (x / pitch < text.length) && decide (blanks ≤ x / pitch) &&
      bitOf (rows.getD (x / pitch) 0) (x % pitch)) (fmDrop f)

/-- A line of the bars. -/
def barLine (f : List Byte) (v : Nat) : List Byte :=
  let sym := symbol (fmText f v)
  fireLine (fun n => decide (fmOrigin f ≤ n) && sym.getD ((n - fmOrigin f) / fmModule f) false) (fmDrop f)

/-- The image of a value under format f of MARKS body b. -/
def renderImage (b f : List Byte) (v : Nat) : List (List Byte) :=
  let digits := if fmDigitsOn f then (List.range (mkGh b)).map (digitLine b f v) else []
  let gap := if fmDigitsOn f && fmBarsOn f then List.replicate (fmGap f) (zeros 512) else []
  let bars := if fmBarsOn f then List.replicate (fmBarHeight f) (barLine f v) else []
  digits ++ gap ++ bars

/-- The value of a field (R374): of the sheet's serial, or of its commit ordinal. -/
def fieldValue (f : List Byte) (e : Sheet) : Nat :=
  (if fmSource f = 0 then e.serial else fmOffset f + e.ordinal) % 10 ^ fmDigits f

end Sys2Proof.Machine
end

