-- ==== Sys2Proof/Machine/SheetCmds.lean ====
section
/-! DEFINITION. Job and sheet opcodes 0x20..0x26 (R188..R191, R229, R231, R352, R382..R387, R395, R396). -/

namespace Sys2Proof.Machine

/-! ## Jobs (R189, R191) -/

/-- The open job of an identifier. -/
def jobOf (s : State) (id : Word) : Option Job := s.led.jobs.find? (·.id == id)

/-- The JOB record (R359). -/
def jobRecord (s : State) (close : Bool) (j : Job) : State :=
  journal s 0x09 (bit close) (leBytes 4 j.id.toNat ++ leBytes 1 (bit j.audit) ++ zeros 3 ++
    (if close then leBytes 4 j.valid ++ leBytes 4 j.spoiled ++ leBytes 4 j.cancelled else []))

def openJobRun (c : Cmd) (s : State) : Verdict :=
  let id := BitVec.ofNat 32 (Cmd.p32 c 16)
  let audit := Cmd.p8 c 20 == 1
  if id == 0 || (jobOf s id).isSome then refuse s (failAt c .badParam 0x40 16)
  else if 1 < Cmd.p8 c 20 then refuse s (failAt c .badParam 0x41 20)
  else if !audit && journalMandatory s then refuse s (failAt c .denied 0x42 20)
  else if audit && !keyComplete s then refuse s (failAt c .denied 0x43 20)
  else if s.led.jobs.any fun j => j.audit != audit then refuse s (failAt c .state 0x46 20)
  else if 4 ≤ s.led.jobs.length then refuse s (fail .noResource 0x44)
  else match journalRefusal s false with
    | some r => refuse s r
    | none =>
      let j : Job := ⟨id, audit, 0, 0, 0, 0, false⟩
      let t := s.modLed fun l => { l with jobs := l.jobs ++ [j], audit := audit }
      let t := jobRecord t false j
      journaled s t { status := .ok, w0 := t.led.jobs.length }
def openJobSpec : OpSpec :=
  ⟨0x20, 8, 8, [.standby, .ready, .print], [(21, 0xFF), (22, 0xFF), (23, 0xFF)], namesNothing, openJobRun⟩

def closeJobRun (c : Cmd) (s : State) : Verdict :=
  let id := BitVec.ofNat 32 (Cmd.p32 c 16)
  match jobOf s id with
  | none => refuse s (failAt c .badParam 0x40 16)
  | some j =>
    if (sheets s).any fun x => x.2.job == id then refuse s (fail .state 0x41)
    else match journalRefusal s true with
      | some r => refuse s r
      | none =>
        let rest := s.led.jobs.filter fun x => x.id != id
        let t := s.modLed fun l => { l with jobs := rest, audit := rest.any (·.audit) }
        journaled s (jobRecord t true j) { status := .ok, w0 := j.valid, w1 := j.spoiled, w2 := j.cancelled }
def closeJobSpec : OpSpec :=
  ⟨0x24, 4, 4, [.standby, .ready, .print, .runout, .halt], [], namesNothing, closeJobRun⟩

/-! ## ADMIT_SHEET (R382..R385, R395) -/

/-- The descriptor fields of R382 by their offset; block byte k is packet byte 16 + k. -/
def sdMedia (d : List Byte) : Nat := u8 d 0x06
def sdMask (d : List Byte) : Nat := u8 d 0x07
def sdLength (d : List Byte) : Nat := u32 d 0x08
def sdSpeed (d : List Byte) : Nat := u16 d 0x0C
def sdSide (d : List Byte) : Nat := u8 d 0x0E
def sdDest (d : List Byte) : Nat := u8 d 0x0F
def sdSpoilDest (d : List Byte) : Nat := u8 d 0x10
def sdLead (d : List Byte) : Nat := u8 d 0x11
def sdPartner (d : List Byte) : BitVec 16 := BitVec.ofNat 16 (u16 d 0x12)
def sdWidth (d : List Byte) (k : Nat) : Nat := u16 d (0x14 + 2 * k)
/-- The 32 bytes of mark field k (R383). -/
def sdMark (d : List Byte) (k : Nat) : List Byte := bytesAt d (0x20 + 32 * k) 32
def mfKind (m : List Byte) : Nat := u8 m 0x00
def mfHead (m : List Byte) : Nat := u8 m 0x01
def mfFormat (m : List Byte) : Nat := u8 m 0x02
def mfWave (m : List Byte) : Nat := u8 m 0x03
def mfPos (m : List Byte) : Nat := u32 m 0x04
def mfLines (m : List Byte) : Nat := u16 m 0x08
def mfImage (m : List Byte) : Nat := u64 m 0x10

/-- Whether a mark field has a kind that R383 defines, other than none. -/
def mfUsed (m : List Byte) : Bool := decide (1 ≤ mfKind m) && decide (mfKind m ≤ 3)

/-- K of a mark field (R383). -/
def mfK (s : State) (m : List Byte) : Nat :=
  if mfKind m = 2 then mfLines m else fmLines (marksBody s) (mkFormat (marksBody s) (mfFormat m))

/-- The latched memory of the head that a field will use (R343). -/
def mfMem (s : State) (m : List Byte) : Option HeadMem := (getN s.hdp (fieldHead s (mfHead m)) {}).mem

/-- The last fire instant of a field after T + HEAD_OFFSET [counts] (R384): POS + (K + ROW_GAP − 1) × P. -/
def mfLast (s : State) (m : List Byte) : Int :=
  let gap := match mfMem s m with | some x => x.rowGap | none => 0
  (mfPos m : Int) + ((mfK s m + gap : Nat) - 1 : Int) * (firePitch s : Int)

/-- Whether the format of a kind 1 or 3 field is one that R376 admits. -/
def mfFormatOk (s : State) (m : List Byte) : Bool :=
  let b := marksBody s
  let f := mkFormat b (mfFormat m)
  !b.isEmpty && decide (mfFormat m < mkCount b) && fmSource f == (if mfKind m = 1 then 0 else 1) &&
  (match mfMem s m with | some x => decide (fmReach b f ≤ x.nozzles) | none => true)

/-- The route condition of R395. -/
def routeOk (s : State) (d : List Byte) : Bool :=
  ((List.range 6).all fun k => !bitOf (sdMask d) k ||
    decide (stRegOffset (stationBody s k) + 16 * sdLength d ≤ divDecide s)) &&
  (List.range 4).all fun k =>
    let m := sdMark d k
    !mfUsed m || (mfMem s m).isNone || decide ((hdOffset (headBody s (fieldHead s (mfHead m))) : Int) + mfLast s m < divDecide s)

/-- Whether a static image was read: `reads` holds the reads of the kind 2 fields in field order. -/
def imageRead (c : Cmd) (d : List Byte) (k : Nat) : Option (List Byte) :=
  let n := (List.range k).countP fun j => mfKind (sdMark d j) == 2
  match c.reads[n]? with
  | some (.ok l) => some l
  | _ => none

/-- Whether the side-A sheet that a side-B descriptor names is one that R385 accepts: a cancelled one takes no side B, which would
be cancelled with it. -/
def partnerOk (s : State) (job : Word) (d : List Byte) : Bool :=
  match findSheet s job (sdPartner d) with
  | some (_, a) => a.open && !a.cancel && a.duplex == 1 && a.dest == duplexReturn s
  | none => false

/-- The conditions on mark field k, each with its descriptor offset, true where the field fails (R376, R383, R384). -/
def markFaults (s : State) (c : Cmd) (audit : Bool) (d : List Byte) (k : Nat) : List (Nat × Bool) :=
  let m := sdMark d k
  let o := 0x20 + 32 * k
  let kind := mfKind m
  let static_ := kind == 2
  [(o, decide (3 < kind) || (kind == 1 && !audit)),
   (o + 1, if kind = 0 then mfHead m != 0 else (getN s.hdp (mfHead m) {}).state == .absent),
   (o + 2, if kind = 1 || kind = 3 then !mfFormatOk s m else mfFormat m != 0),
   (o + 3, if static_ then decide (3 < mfWave m) else mfWave m != 0),
   (o + 4, kind != 0 && decide ((16 * sdLength d : Nat) ≤ mfLast s m)),
   (o + 8, if static_ then !within 1 384 (mfLines m) else mfLines m != 0),
   (o + 0x10, if static_ then mfImage m % 64 != 0 || (imageRead c d k).isNone else mfImage m != 0)]

/-- The conditions of BAD_PARAM 0x42 in offset order (R382, R384). -/
def descriptorFaults (s : State) (c : Cmd) (audit : Bool) (job : Word) (d : List Byte) : List (Nat × Bool) :=
  let media := sdMedia d
  let class_ := decide (media < 16) && bitOf (mediaFlags s media) 0
  let permits := fun (x : Nat) => decide (x ≤ 7) && bitOf (mediaDests s media) x && bitOf (destFlags s x) 0
  let marked := (List.range 4).any fun k => mfKind (sdMark d k) != 0
  [(0x06, !class_),
   (0x07, decide (64 ≤ sdMask d) || (sdMask d == 0 && !marked)),
   (0x08, !within 1 65536 (sdLength d) || decide (mediaMaxLen s media < sdLength d) || !routeOk s d),
   (0x0C, sdSpeed d != processSpeed s),
   (0x0E, decide (2 < sdSide d) || (sdSide d != 0 && !bitOf (mediaFlags s media) 1)),
   (0x0F, !permits (sdDest d)),
   (0x10, !(permits (sdSpoilDest d) && bitOf (destFlags s (sdSpoilDest d)) 1)),
   (0x11, !([0, 2, 3, 4].contains (sdLead d))),
   (0x12, if sdSide d = 2 then !partnerOk s job d else sdPartner d != 0)] ++
  ((List.range 6).map fun k =>
    (0x14 + 2 * k, if bitOf (sdMask d) k then sdWidth d k % 2 != 0 || !within 2 49152 (sdWidth d k) else sdWidth d k != 0)) ++
  ((List.range 4).map (markFaults s c audit d)).flatten

/-- Check 8: a station or a head that the part does not enable (R4). -/
def admitNames (s : State) (c : Cmd) : Option Nat :=
  let d := c.params
  match (List.range 6).find? fun k => bitOf (sdMask d) k && !stationOn s k with
  | some _ => some (16 + 0x07)
  | none => match (List.range 4).find? fun k =>
      let m := sdMark d k
      mfUsed m && (decide (8 ≤ mfHead m) || !headOn s (mfHead m)) with
    | some k => some (16 + 0x20 + 32 * k + 1)
    | none => none

/-- A mark field as the ledger holds it: the head that fires it is fixed at admission (R343), and a static image is
copied (R383). -/
def markOf (s : State) (c : Cmd) (d : List Byte) (k : Nat) : Mark :=
  let m := sdMark d k
  let f := mkFormat (marksBody s) (mfFormat m)
  let image := if mfKind m = 2 then
      (imageRead c d k).map fun l => (List.range (mfLines m)).map fun n => bytesAt l (512 * n) 512
    else none
  { kind := mfKind m, head := mfHead m, by_ := if mfKind m = 0 then 0 else fieldHead s (mfHead m)
    format := mfFormat m, wave := if mfKind m = 2 then mfWave m else fmWave f, pos := mfPos m
    lines := if mfKind m = 0 then 0 else mfK s m, image := image, run := .waiting, fired := 0, missed := false, dropped := false }

/-- The entry that admission claims (R387). -/
def admitted (s : State) (c : Cmd) (job : Word) (handle : BitVec 16) (d : List Byte) : Sheet :=
  { job := job, handle := handle, media := sdMedia d, mask := BitVec.ofNat 6 (sdMask d), length := sdLength d
    duplex := sdSide d, dest := sdDest d, spoilDest := sdSpoilDest d, lead := sdLead d, partner := sdPartner d
    widths := Vector.ofFn fun k => sdWidth d k.1, marks := (List.range 4).map (markOf s c d), state := .admitted
    cancel := false, order := 0, since := none, ordinal := 0, serial := 0, t := none, spoil := none, spoilCycle := 0, spoilMore := 0, outcomes := []
    route := none, windows := [], recorded := none, recipeIdx := 0, digest := 0, overHead := none, formed := false, hold := false
    gated := false }

/-- A station or a firing head of the descriptor is fenced (R189, R510). -/
def admitFenced (s : State) (d : List Byte) : Bool :=
  ((List.range 6).any fun k => bitOf (sdMask d) k && stationFenced s k) ||
  (List.range 4).any fun k =>
    let m := sdMark d k
    mfUsed m && (getN s.hdp (fieldHead s (mfHead m)) {}).state == .fenced

/-- A planned speed above the limit of a head that would fire (R340). -/
def admitTooFast (s : State) (d : List Byte) : Bool :=
  (List.range 4).any fun k =>
    let m := sdMark d k
    mfUsed m && (match mfMem s m with
      | some x => overHeadSpeed (headBody s (fieldHead s (mfHead m))) x (sdSpeed d)
      | none => false)

/-- Admission refused under R367: JNL_FULL is raised at the first refusal (R381). -/
def admitFull (s : State) : Verdict :=
  let t := s.modJnl fun j => { j with fullRaised := true }
  .reply (if s.jnl.fullRaised then s else raise t 0xA2 0) (fail .noResource 0x46)

def admitSheetRun (c : Cmd) (s : State) : Verdict :=
  let d := c.params
  let job := BitVec.ofNat 32 (u32 d 0)
  let handle := BitVec.ofNat 16 (u16 d 4)
  match jobOf s job with
  | none => refuse s (failAt c .badParam 0x40 16)
  | some j =>
    if (findSheet s job handle).isSome then refuse s (failAt c .badParam 0x41 20)
    else match (descriptorFaults s c j.audit job d).find? (·.2) with
      | some x => refuse s (failAt c .badParam 0x42 (16 + x.1))
      | none =>
        if admitTooFast s d then refuse s (failAt c .badParam 0x43 (16 + 0x0C))
        else if admitFenced s d then refuse s (fail .fenced 0)
        else match (List.finRange 512).find? fun i => (s.led.entries[i]).isNone with
          | none => refuse s (fail .noResource 0x45)
          | some i =>
            if jnlOn s && ringFull s then admitFull s
            else
              let e := admitted s c job handle d
              let t := s.modLed fun l => { l with entries := l.entries.set i.1 (some e) i.2 }
              .reply (t.modJnl fun j => { j with fullRaised := false }) { status := .ok, w0 := i.1, w1 := handle.toNat }

/-- The reserved bytes of the descriptor (R382, R383) as packet bytes. -/
def admitReserved : List (Nat × Nat) :=
  (((List.range 4).map fun k =>
      ([0x0A, 0x0B, 0x0C, 0x0D, 0x0E, 0x0F, 0x18, 0x19, 0x1A, 0x1B, 0x1C, 0x1D, 0x1E, 0x1F].map fun o =>
        (16 + 0x20 + 32 * k + o, 0xFF))).flatten) ++
  (List.range 96).map fun k => (16 + 0xA0 + k, 0xFF)
def admitSheetSpec : OpSpec := ⟨0x21, 256, 256, [.ready, .print], admitReserved, admitNames, admitSheetRun⟩

/-! ## COMMIT_SHEET (R229, R352, R374, R387) -/

/-- The first band that is not resident with its mirror, and the sub-reason (R229). -/
def missingLeaf (s : State) (e : Sheet) : Option (Nat × Nat) :=
  (List.range 6).findSome? fun k =>
    if !e.mask.getLsbD k then none
    else (List.range (bandCount e.length)).findSome? fun n =>
      match findLeaf s e.job (leafKey e.handle k n) with
      | none => some (0x42, k * 2048 + n)
      | some l =>
        if l.form = 2 || (l.primary == .good && l.mirror == .good) then none
        else if l.primary != .good && l.mirror != .good then some (0x42, k * 2048 + n)
        else some (0x43, k * 2048 + n)

/-- The data digest (R360): CRC-32C over the raw CRCs, stations and bands ascending. -/
def dataDigest (s : State) (e : Sheet) : Word :=
  crc32c ((List.range 6).map fun k =>
    if !e.mask.getLsbD k then []
    else ((List.range (bandCount e.length)).map fun n =>
      match findLeaf s e.job (leafKey e.handle k n) with
      | some l => leBytes 4 l.rawCrc.toNat
      | none => []).flatten).flatten

/-- A band as it joins its station's sequence (R272). -/
def newBand (i : Fin 512) (e : Sheet) (lead k n : Nat) : Band :=
  { sheet := i, job := e.job, key := leafKey e.handle k n, band := n, lead := lead, state := .wait, slot := none
    deadline := none, lanes := [], mirror := false, failed := none, waiting := false, migrating := false, outcome := none }

/-- The bands of a sheet join the sequences of its stations (R272). -/
def joinSequences (s : State) (i : Fin 512) (e : Sheet) : State :=
  let lead := if e.lead = 0 then s.stp.lead else e.lead
  (List.finRange 6).foldl (fun s k =>
    if e.mask.getLsbD k.1 then s.modSteep k fun x =>
      { x with bands := x.bands ++ (List.range (bandCount e.length)).map (newBand i e lead k.1) }
    else s) s

/-- SER_WRAP (R374): the first commit in a job whose serial is 10^D or more, for a serial field with D below 20. -/
def serialWraps (s : State) (e : Sheet) (serial : Nat) : Bool :=
  e.marks.any fun m => m.kind == 1 &&
    let d := fmDigits (mkFormat (marksBody s) m.format)
    decide (d < 20) && decide (10 ^ d ≤ serial)

/-- Whether the side-A sheet of a side-B sheet has been spoiled already, in the ledger or since (R385). -/
def partnerSpoiled (s : State) (e : Sheet) : Bool :=
  e.duplex == 2 && match findSheet s e.job e.partner with
    | some (_, a) => a.spoil.isSome
    | none => match s.led.history.find? fun p => p.job == e.job && p.handle == e.partner with
      | some p => p.spoiled
      | none => false

/-- The commit step: serial, order, digest and the station band sequences. -/
def commitSheet (s : State) (i : Fin 512) (e : Sheet) (j : Job) : State :=
  let serial := if j.audit then s.jnl.next else 0
  let digest := dataDigest s e
  let wraps := serialWraps s e serial && !j.wrapped
  let s := if j.audit then s.modJnl fun x => { x with next := x.next + 1 } else s
  let order := s.led.commits + 1
  let s := s.modLed fun l => { l with
    commits := order
    jobs := updFirst (·.id == j.id) (fun x => { x with commits := x.commits + 1, wrapped := x.wrapped || wraps }) l.jobs }
  let recipe := s.led.recipeRecord % 2 ^ 32
  let s := s.modSheet i fun e => { e with
    state := .committed, serial := serial, order := order, since := some s.now, ordinal := j.commits + 1, digest := digest, recipeIdx := recipe }
  let s := joinSequences s i e
  let s := if wraps then raise s 0xA7 0 else s
  let s := (List.range 6).foldl (fun s k => if e.mask.getLsbD k && stationFenced s k then spoil s i .fenced else s) s
  let s := if partnerSpoiled s e then spoil s i .duplex else s
  reserveCheck (if s.seq.own then ownPolygons s else s)

/-- H for the commit step: a RESERVE record that becomes durable in this cycle counts already (R378, log 96). -/
def highNow (s : State) : Nat :=
  match s.jnl.staged with
  | r :: rest =>
    if u8 r.bytes 0 == 0x02 && programmable s r rest && coming s (· == .recordProgramComplete true) then u64 r.bytes 0x28
    else s.jnl.high
  | [] => s.jnl.high

def commitSheetRun (c : Cmd) (s : State) : Verdict :=
  let job := BitVec.ofNat 32 (Cmd.p32 c 16)
  match findSheet s job (BitVec.ofNat 16 (Cmd.p16 c 20)), jobOf s job with
  | some (i, e), some j =>
    if e.state != .admitted then refuse s (fail .state 0x41)
    else if !mirrorOn s then refuse s (fail .noResource 0x44)
    else match missingLeaf s e with
      | some (sub, at_) => refuse s (fail .noResource sub at_)
      | none =>
        if j.audit && (!s.jnl.anchored || decide (highNow s < s.jnl.next)) then .reply (raise s 0xA5 0) (fail .busy 0x45)
        else
          let serial := if j.audit then s.jnl.next else 0
          .reply (commitSheet s i e j) { status := .ok, w0 := serial % 2 ^ 32, w1 := serial / 2 ^ 32, w2 := i.1 }
  | _, _ => refuse s (failAt c .badParam 0x40 16)
def commitSheetSpec : OpSpec :=
  ⟨0x22, 8, 8, [.ready, .print, .runout], [(22, 0xFF), (23, 0xFF)], namesNothing, commitSheetRun⟩

/-! ## CANCEL_SHEET (R21, R191, R385, R387, R396) -/

/-- One sheet is cancelled: an admitted one is freed; a committed one loses its bands and Leaves, and goes on to its
spoil destination when it has been picked, else its SHEET record is formed. -/
def cancelOne (s : State) (i : Fin 512) (e : Sheet) : State :=
  if e.state == .admitted then freeEntry s i
  else
    let s := abandon s i
    let s := freeLeaves s fun l => l.job == e.job && keyHandle l.key == e.handle
    if e.picked then s.modSheet i fun e => { e with cancel := true }
    else
      let s := s.modSheet i fun e => { e with state := .cancelled, cancel := true }
      let s := s.modLed fun l => { l with
        jobs := updFirst (·.id == e.job) (fun (j : Job) => { j with cancelled := j.cancelled + 1 }) l.jobs }
      recordSheet s i

/-- Whether a sheet can still be cancelled (R21, R396). -/
def Sheet.cancellable (e : Sheet) : Bool := (e.state == .admitted || e.state == .committed) && !e.cancel

/-- A sheet is cancelled, with the side-B sheets that name it (R385). -/
def cancelSheetNow (s : State) (i : Fin 512) (e : Sheet) : State :=
  let backs := if e.duplex == 1 then
      (sheets s).filter fun x => x.2.duplex == 2 && x.2.job == e.job && x.2.partner == e.handle && x.2.cancellable
    else []
  settle (panicUpdate (releaseUnits (((i, e) :: backs).foldl (fun s x => cancelOne s x.1 x.2) s)))

def cancelSheetRun (c : Cmd) (s : State) : Verdict :=
  match findSheet s (BitVec.ofNat 32 (Cmd.p32 c 16)) (BitVec.ofNat 16 (Cmd.p16 c 20)) with
  | none => refuse s (failAt c .badParam 0x40 16)
  | some (i, e) =>
    if !e.cancellable || gateComes s i then refuse s (fail .state 0x41)
    else if e.state == .admitted then .reply (cancelSheetNow s i e) { status := .ok, w0 := 0 }
    else match journalRefusal s true with
      | some r => refuse s r
      | none => journaled s (cancelSheetNow s i e) { status := .ok, w0 := 1 }
def cancelSheetSpec : OpSpec :=
  ⟨0x23, 8, 8, [.ready, .print, .runout, .halt], [(22, 0xFF), (23, 0xFF)], namesNothing, cancelSheetRun⟩

/-! ## QUERY_SHEET (R190) -/

/-- The number of a ledger state. -/
def SheetState.code : SheetState → Nat
  | .admitted => 0 | .committed => 1 | .pastGate => 2 | .completed => 3 | .cancelled => 4

/-- The words of a sheet, in the ledger or freed. -/
def sheetWords (state : Nat) (completed : Bool) (sp : Option Spoil) (serial mirror blank : Nat) (recorded : Option Nat) : Res :=
  { status := .ok
    w0 := state + (if completed && sp.isSome then 0x3000 else 0) + 65536 * (match sp with | some r => r.code | none => 0)
    w1 := serial % 2 ^ 32, w2 := serial / 2 ^ 32, w3 := min 65535 mirror + 65536 * min 65535 blank
    w4 := match recorded with | some n => n % 2 ^ 32 | none => 0xFFFFFFFF }

def querySheetRun (c : Cmd) (s : State) : Verdict :=
  let job := BitVec.ofNat 32 (Cmd.p32 c 16)
  let handle := BitVec.ofNat 16 (Cmd.p16 c 20)
  .reply s (match findSheet s job handle with
    | some (_, e) =>
      sheetWords e.state.code (e.state == .completed) e.spoil e.serial e.mirrors e.exposedBlank e.recorded
    | none => match s.led.history.find? fun p => p.job == job && p.handle == handle with
      | some p => sheetWords (if p.cancelled then 4 else 3) true p.spoil p.serial p.mirror p.blank p.recorded
      | none => { status := .ok, w0 := 0xFF, w4 := 0xFFFFFFFF })
def querySheetSpec : OpSpec := ⟨0x25, 8, 8, allModes, [(22, 0xFF), (23, 0xFF)], namesNothing, querySheetRun⟩

/-! ## EVICT_LEAVES (R189, R191, R231) -/

/-- Whether a key lies in the stations and bands that the command names. -/
def evictKey (c : Cmd) (key : Word) : Bool :=
  let first := Cmd.p16 c 24
  let count := Cmd.p16 c 26
  keyHandle key == BitVec.ofNat 16 (Cmd.p16 c 20) && bitOf (Cmd.p8 c 22) (keyStation key) &&
  decide (first ≤ keyBand key) && (count == 0 || decide (keyBand key < first + count))

def evictLeavesRun (c : Cmd) (s : State) : Verdict :=
  let job := BitVec.ofNat 32 (Cmd.p32 c 16)
  let first := Cmd.p16 c 24
  match findSheet s job (BitVec.ofNat 16 (Cmd.p16 c 20)) with
  | none => refuse s (failAt c .badParam 0x40 16)
  | some (_, e) =>
    if 2047 < first || 2048 < first + Cmd.p16 c 26 then refuse s (failAt c .badParam 0x41 24)
    else if e.open then refuse s (fail .state 0x42)
    else
      let named := fun (l : Leaf) => l.job == job && evictKey c l.key
      let gone := s.cad.leaves.filter named
      let t := freeLeaves s named
      let t := (s.cad.ingest.filter fun d => d.running && igJob d.bytes == job && evictKey c (igKey d.bytes)).foldl
        (fun t d => completeIngest t d (igFail .state 0x4D)) t
      .reply (encodeWaiting t) { status := .ok, w0 := gone.length, w1 := 4 * (gone.map fun l => l.held 0 + l.held 1).sum }
/-- The station mask names a station the part does not enable (check 8). -/
def evictNames (s : State) (c : Cmd) : Option Nat :=
  if (List.range 6).any fun k => bitOf (Cmd.p8 c 22) k && !stationOn s k then some 22 else none
def evictLeavesSpec : OpSpec :=
  ⟨0x26, 12, 12, [.standby, .ready, .print, .runout, .halt, .service], [(22, 0xC0), (23, 0xFF)], evictNames, evictLeavesRun⟩

/-! ## The commands -/

/-- OPEN_JOB. -/
def execOpenJob (c : Cmd) (s : State) : Host.Outcome State Fault Refusal := .next (direct openJobSpec c s)
/-- ADMIT_SHEET. -/
def execAdmitSheet (c : Cmd) (s : State) : Host.Outcome State Fault Refusal := .next (direct admitSheetSpec c s)
/-- COMMIT_SHEET. -/
def execCommitSheet (c : Cmd) (s : State) : Host.Outcome State Fault Refusal := .next (direct commitSheetSpec c s)
/-- CANCEL_SHEET. -/
def execCancelSheet (c : Cmd) (s : State) : Host.Outcome State Fault Refusal := .next (direct cancelSheetSpec c s)
/-- CLOSE_JOB. -/
def execCloseJob (c : Cmd) (s : State) : Host.Outcome State Fault Refusal := .next (direct closeJobSpec c s)
/-- QUERY_SHEET. -/
def execQuerySheet (c : Cmd) (s : State) : Host.Outcome State Fault Refusal := .next (direct querySheetSpec c s)
/-- EVICT_LEAVES. -/
def execEvictLeaves (c : Cmd) (s : State) : Host.Outcome State Fault Refusal := .next (direct evictLeavesSpec c s)

end Sys2Proof.Machine
end

