-- ==== Sys2Proof/Machine/Caddy.lean ====
section
/-! DEFINITION. Ingest and Caddy commands (R213..R235, R256, R478, R480). -/

namespace Sys2Proof.Machine

/-! ## Descriptors (R108, R109, R218, R219) -/

/-- A descriptor has been fetched: it is accepted, or answered at once in a mode that serves no ingest (R218, R219). -/
def descriptorFetched (s : State) (ring : Fin 8) (r : Fetch) : State :=
  if !ringFetches s.hif.ig[ring] then s
  else match r with
    | .ok l =>
      let s := s.modIg ring fun x => { x with head := x.head + 1, awaiting := x.awaiting + 1, drained := false }
      let d : Ingest := ⟨ring, padTo 64 l, .queued, none, []⟩
      let s := s.modCad fun c => { c with ingest := c.ingest ++ [d] }
      if ingestServed s.sys.mode then s else completeIngest s d (igFail .state 0x0D)
    | _ => ringStop s (.ingest ring) 3

/-- INGEST_DESCRIPTOR_FETCHED. -/
def execIngestDescriptorFetched (ring : Fin 8) (r : Fetch) (s : State) : Host.Outcome State Fault Refusal :=
  .next (overPcie s fun s => descriptorFetched s ring r)

/-- A descriptor starts (R219..R221): it is refused, or its source is read; a raw band first needs a lane. -/
def startIngest (s : State) (d : Ingest) : State :=
  let s := s.modCad fun c => { c with turn := (d.ring.1 + 1) % 8 }
  match igStartFault s d with
  | some r => completeIngest s d r
  | none =>
    let s := toPhase s d (.reading none)
    if igKind d.bytes = 1 then takeEncodeLane s { d with phase := .reading none } else s

/-- INGEST_START. -/
def execIngestStart (s : State) : Host.Outcome State Fault Refusal :=
  .next (whenUp s fun s => match nextIngest s with | some d => startIngest s d | none => s)

/-! ## Sources (R220, R221) -/

/-- The source of a ready-made Leaf has been read (R213, R220, R225). -/
def leafRead (s : State) (d : Ingest) (l : List Byte) : State :=
  match findSheet s (igJob d.bytes) (keyHandle (igKey d.bytes)) with
  | none => completeIngest s d (igFail .badParam 0x44 4)
  | some (_, e) => match headerFault s e d.bytes l with
    | some r => completeIngest s d r
    | none => toPhase s d (.writing (leafOf (igJob d.bytes) l (bytesAt l 64 (u32 l 0x10))) false)

/-- A raw band has been read by its lane (R221 step 4, R222). -/
def bandRead (s : State) (d : Ingest) (n : Fin 12) (l : List Byte) : State :=
  let band := padTo (igLen d.bytes) l
  if (crc32c band).toNat != igCrc d.bytes then encodeWaiting (completeIngest s d (igFail .check 0x4B 32))
  else toPhase s d (.read n band)

/-- The read of a source ends (R220 step 1, R231). -/
def sourceRead (s : State) (d : Ingest) (r : Fetch) : State :=
  match r with
  | .ok l => match d.worker with
    | some n => bandRead s d n l
    | none => leafRead s d l
  | _ => encodeWaiting (completeIngest s d (igFail .badParam 0x08 8))

/-- A source that can be read: of a ready-made Leaf, or of a raw band that has its lane. -/
def readable (d : Ingest) : Bool :=
  match d.phase with
  | .reading l => igKind d.bytes == 0 || l.isSome
  | _ => false

/-- INGEST_SOURCE_READ_DONE. -/
def execIngestSourceReadDone (ring : Fin 8) (tag : BitVec 16) (r : Fetch) (s : State) : Host.Outcome State Fault Refusal :=
  .next (overPcie s fun s =>
    match s.cad.ingest.find? fun d => d.ring == ring && igTag d.bytes == tag.toNat && readable d with
    | some d => sourceRead s d r
    | none => s)

/-! ## Encode lanes (R221..R223, R256, R257) -/

/-- A self-verify failure (R256): the lane's source is raised, and the descriptor runs again on another lane. -/
def selfVerifyFailed (s : State) (n : Fin 12) : State :=
  let s := laneRaise s (.enc n) 0x02
  let s := s.modEnc n fun l => { l.ended with lastOutcome := Status.code .check, fails := inc32 l.fails }
  rerunIngest s n true

/-- A lane has made a body (R214, R221, R222, R257): it is released, and both copies of the Leaf are written. -/
def bodyMade (s : State) (d : Ingest) (n : Fin 12) (zero : Bool) (e : Encoded) : State :=
  let s := laneDone s d .ok
  let s := s.modEnc n fun l => { l with outBytes := l.outBytes + e.body.length }
  encodeWaiting (toPhase s d (.writing (if zero then zeroLeaf d.bytes else madeLeaf d.bytes e.body e.dynamic) zero))

/-- A whole band has been encoded (R256, R257): the body limit, the lane's own check, the Leaf. -/
def bandEncoded (s : State) (d : Ingest) (n : Fin 12) (raw : List Byte) (upset : Bool) : State :=
  let e := igEncoded d.bytes n raw
  if igLimit s d.bytes < e.body.length then encodeWaiting (completeIngest s d (igFail .noshrink 0))
  else if upset || !selfVerified e.body (igLen d.bytes) (igCrc d.bytes) then selfVerifyFailed s n
  else bodyMade s d n (igZero d.bytes raw) e

/-- An encode lane ends its band: after the whole of it, or because a bit of the part read so far fell at the limit. -/
def encodeEnded (s : State) (d : Ingest) (n : Fin 12) (e : EncodeEnd) : State :=
  match d.phase, e with
  | .read _ raw, .whole upset => bandEncoded s d n raw upset
  | .reading _, .early part =>
    if decide (part.length < igLen d.bytes) && decide (8 * igLimit s d.bytes < partBits part (igLevel d.bytes) (igDynamic d.bytes n))
    then encodeWaiting (completeIngest s d (igFail .noshrink 0))
    else s
  | _, _ => s

/-- ENCODE_BAND_END: the descriptor that the lane works on. -/
def execEncodeBandEnd (lane : Fin 12) (e : EncodeEnd) (s : State) : Host.Outcome State Fault Refusal :=
  .next (whenUp s fun s => match s.cad.ingest.find? fun d => d.worker == some lane with
    | some d => encodeEnded s d lane e
    | none => s)

/-- A COMMIT_SHEET still to come in this cycle commits the sheet of a descriptor (R227): the commit takes effect first. -/
def commitComes (s : State) (d : Ingest) : Bool :=
  coming s fun i => match i with
    | .commitSheet c => match findSheet (direct commitSheetSpec c s) (igJob d.bytes) (keyHandle (igKey d.bytes)) with
      | some (_, e) => e.open
      | none => false
    | _ => false

/-- An EVICT_LEAVES still to come in this cycle ends a descriptor (R231). -/
def evictComes (s : State) (d : Ingest) : Bool :=
  coming s fun i => match i with
    | .evictLeaves c => !((direct evictLeavesSpec c s).cad.ingest.contains d)
    | _ => false

/-- The Leaf of a descriptor is entered, or refused (R225, R227). -/
def leafEntry (s : State) (d : Ingest) (l : Leaf) (zero : Bool) : State :=
  if evictComes s d then s
  else if commitComes s d then completeIngest s d (igFail .state 0x4C)
  else match entryRefusal s d l with
    | some r => completeIngest s d r
    | none => enterLeaf s d l zero

/-- LEAF_ENTRY (R227). -/
def execLeafEntry (ring : Fin 8) (tag : BitVec 16) (s : State) : Host.Outcome State Fault Refusal :=
  .next (whenUp s fun s =>
    match findIngest s ring tag fun p => match p with | .writing .. => true | _ => false with
    | some d => match d.phase with
      | .writing l zero => leafEntry s d l zero
      | _ => s
    | none => s)

/-- A happening that completes a descriptor in the cycle in which it acts (R14, R218). -/
def ingestEnds (s : State) (d : Ingest) : Instr → Bool
  | .leafEntry ring tag => ring == d.ring && tag.toNat == igTag d.bytes && (match d.phase with | .writing .. => true | _ => false)
  | .encodeBandEnd lane e => d.worker == some lane && !((encodeEnded s d lane e).cad.ingest.any fun x => x.bytes == d.bytes)
  | .ingestSourceReadDone ring tag r =>
    ring == d.ring && tag.toNat == igTag d.bytes && readable d && !((sourceRead s d r).cad.ingest.any fun x => x.bytes == d.bytes)
  | .ingestStart => nextIngest s == some d && (igStartFault s d).isSome
  | _ => false

/-- INGEST_DEADLINE_EXPIRY: nothing is stored (R218), and a completion of the same cycle is in time (R14). -/
def execIngestDeadlineExpiry (ring : Fin 8) (tag : BitVec 16) (s : State) : Host.Outcome State Fault Refusal :=
  .next (whenUp s fun s =>
    match s.cad.ingest.find? fun d => d.ring == ring && igTag d.bytes == tag.toNat && igDeadline d.bytes != 0 with
    | some d => giveWay s (ingestEnds s d)
        (encodeWaiting (completeIngest s d (igFail .timeout (if d.running then 0x0C else 0x0B))))
    | none => s)

/-! ## Guard failures (R232, R233, R478, R480) -/

/-- The copy of a Leaf on channel c becomes x. -/
def Leaf.setCopy (l : Leaf) (c : Nat) (x : Copy) : Leaf :=
  if c == primaryChannel l.key then { l with primary := x } else { l with mirror := x }

/-- Update the Leaf of a job and key. -/
def modLeaf (s : State) (job key : Word) (g : Leaf → Leaf) : State :=
  s.modCad fun c => { c with leaves := updFirst (fun l => l.job == job && l.key == key) g c.leaves }

/-- Bands of a lost Leaf that wait to be decoded go to BLANK at once (R274). -/
def blankLost (s : State) (job key : Word) : State :=
  (List.finRange 6).foldl (fun s k =>
    match s.stp.st[k].bands.findIdx? fun b => b.job == job && b.key == key && b.state == .wait with
    | some i => blankBand s k i .steepLost 0
    | none => s) s

/-- Every copy of a Leaf is bad (R232, R478): a committed sheet keeps it and finds it unreadable, any other loses it. -/
def leafLost (s : State) (l : Leaf) : State :=
  let committed := match findSheet s l.job (keyHandle l.key) with | some (_, e) => e.open | none => false
  let s := (s.stick 0xC00 8).modCad fun c => { c with
    lost := true, lostKey := l.key, lostJob := l.job
    repairs := c.repairs.filter fun r => !(r.1 == l.job && r.2.1 == l.key) }
  let s := raise (raise s 0x21 l.key.toNat) 0x27 0
  if committed then blankLost s l.job l.key else freeLeaves s fun x => x.job == l.job && x.key == l.key

/-- The band of a Leaf has been exposed. -/
def bandExposed (s : State) (l : Leaf) : Bool :=
  s.stp.st.any fun x => x.bands.any fun b => b.job == l.job && b.key == l.key && b.state == .done

/-- A copy of a Leaf is marked bad (R232): with the other copy good, a repair starts when `repair` allows one. -/
def copyBad (s : State) (job key : Word) (c : Fin 2) (repair : Bool) : State :=
  match findLeaf s job key with
  | none => s
  | some l =>
    if l.form = 2 || l.copyOn c.1 != .good then s
    else
      let s := modLeaf s job key fun l => l.setCopy c.1 .bad
      if l.copyOn (1 - c.1) == .good then
        (if bandExposed s l then freeLeaves s fun x => x.job == job && x.key == key
         else if repair then s.modCad fun x => { x with repairs := x.repairs ++ [(job, key, c)] }
         else s)
      else leafLost s (l.setCopy c.1 .bad)

/-- CADDY_REPAIR_COMPLETE (R233): a failure in the good copy stops the repair. -/
def execCaddyRepairComplete (job key : Word) (good : Bool) (s : State) : Host.Outcome State Fault Refusal :=
  .next (whenUp s fun s => match s.cad.repairs.find? fun r => r.1 == job && r.2.1 == key with
    | some (_, _, c) =>
      if good then
        let s := modLeaf s job key fun l => l.setCopy c.1 .good
        let s := s.modCad fun x => { x with repaired := inc32 x.repaired, repairs := x.repairs.erase (job, key, c) }
        raise s 0x20 0
      else copyBad s job key (Fin.rev c) false
    | none => s)

/-- What the requester does with a failed read (R478). -/
def guardRecovery (s : State) : GuardTarget → State
  | .leafCopy job key c => copyBad s job key c true
  | .indexCopy _ _ => raise s 0x23 0
  | .recipeCopy slot otherGood => if otherGood then raise s 0x12 slot.1 else raise s 0x27 0
  | .other otherGood => if otherGood then s else raise s 0x27 0

/-- GUARD_FAILURE (R478, R480); an armed injection inverts the check of a health-scan read (R519). -/
def execGuardFailure (t : GuardTarget) (addr : DWord) (data : List Byte) (check : DWord) (scan : Bool) (s : State) :
    Host.Outcome State Fault Refusal :=
  .next (whenUp s fun s => if guardPasses data addr.toNat check then s else
    let s := if scan then injected s (0x25 + (channelOf s addr.toNat).1) (guardRaise s addr) else guardRaise s addr
    let s := if scan then s.modDrc fun d => { d with scanFails := satAdd 16 d.scanFails 1 } else s
    guardRecovery s t)

end Sys2Proof.Machine
end

