-- ==== Sys2Proof/Machine/Dram.lean ====
section
/-! DEFINITION. The DRAM controller: opcodes 0x58..0x5A and its events (R474..R499). -/

namespace Sys2Proof.Machine

/-! ## Rates (R474, R484) -/

/-- The data rates of the codes 0..6 [MT/s]. -/
def rateList : List Nat := [1600, 1866, 2133, 2400, 2666, 2933, 3200]
def rateOf (code : Nat) : Nat := rateList.getD code 1600

/-- The rates that training visits (R482, R496): those of the recipe's mask, 1600 MT/s without a recipe. -/
def maskRates (s : State) : List Nat :=
  if recipeOn s 0x0003 then (List.range 7).filter fun k => bitOf (drRates (dramBody s)) k else [0]

/-- A channel is lost in this cycle by a third replay that fails (R497): it comes before a change of rate. -/
def lossComes (s : State) (c : Fin 2) : Bool :=
  coming s fun i => match i with | .dramAlert d a => d == c && a.third && !a.retrain | _ => false

/-- Whether both channels serve with stored results for a rate (R484, R497). -/
def rateStored (s : State) (code : Nat) : Bool :=
  (List.finRange 2).all fun c => s.drc.ch[c].up && s.drc.ch[c].stored.getLsbD code && !lossComes s c

/-- The change of rate of one channel (R484): its owed refreshes go first, and it passes through self-refresh. -/
def Channel.rateChange (c : Channel) : Channel :=
  if !c.up then c
  else if c.sr then { c with owed := 0 } else { c with owed := 0, srEntries := inc32 c.srEntries }

/-- A rate change is applied, or found to lack stored results (R484, R200). -/
def applyRate (s : State) (code : Nat) (deferred : Bool) : State × Res :=
  if !rateStored s code then (s, fail .state 0x44)
  else
    let s := s.modDrc fun d => { d with rate := code, ch := d.ch.map Channel.rateChange }
    (raise s 0xEE (code + 256 * bit deferred), { status := .ok, w0 := rateOf code })

/-! ## Loss of a channel (R58, R483, R495) -/

/-- A channel is lost: its copies of Leaves are bad and are not repaired, and with the other lost as well the device goes
to HALT until reset. -/
def loseChannel (s : State) (c : Fin 2) : State :=
  if !s.drc.ch[c].up then s
  else
    let s := s.modChan c fun x => { x with up := false }
    let s := s.modCad fun x => { x with repairs := x.repairs.filter fun r => r.2.2 != c }
    let s := s.cad.leaves.foldl (fun s l => copyBad s l.job l.key c false) s
    let s := caddyLow s
    if s.drc.ch.any (·.up) then s else haltForGood (raiseAt s 0xE8 0 .halt) 0xE8

/-! ## Training (R482, R483) -/

/-- Steps of one rate: write leveling, read gate, eye centring and ZQ long calibration for each rank in turn, or eye
centring alone (R481, R482). -/
def stepCount (c : Channel) (kind : Nat) : Nat := (if kind = 0 then 4 else 1) * Nat.max 1 c.ranks

/-- The rates that a training visits on a channel. -/
def trainRates (s : State) (kind : Nat) : List Nat := if kind = 0 then maskRates s else [s.drc.rate]

/-- The training goes on at the next channel of the mask after c, or has ended. -/
def nextChannel (s : State) (t : Training) (from_ : Nat) : Option Training :=
  ((List.finRange 2).find? fun c => decide (from_ ≤ c.1) && t.mask.getLsbD c.1).map fun c =>
    { t with channel := c, rate := (trainRates s t.kind).headD 0, step := 0, retried := false }

/-- The parked DRAM_TRAIN completes (R200). -/
def trainReply (s : State) (t : Training) : State :=
  let s := s.modDrc fun d => { d with
    training := none, ch := if t.passed == 3 then d.ch.map fun (c : Channel) => { c with up := true } else d.ch }
  let r : Res := { status := if t.passed == t.mask then .ok else .noResource, sub := if t.passed == t.mask then 0 else 0x42
                   w0 := t.passed.toNat, w1 := rateOf s.drc.rate }
  let s := match s.ktl.parked.findIdx? fun p => p.op == 0x58 with
    | some k => (match s.ktl.parked[k]? with | some p => finishParked s k (r.reply p.cmd) | none => s)
    | none => s
  reselect s

/-- The training goes on, or ends. -/
def trainOn (s : State) (t : Option Training) (last : Training) : State :=
  match t with
  | some x => s.modDrc fun d => { d with training := some x }
  | none => trainReply s last

/-- A channel has passed: kind 0 brings a lost channel back (R58). -/
def channelPassed (s : State) (t : Training) : State :=
  let s := s.modChan t.channel fun c => { c with
    up := c.up || t.kind == 0, trainPasses := satAdd 8 c.trainPasses 1 }
  let t := { t with passed := t.passed ||| BitVec.ofNat 2 (2 ^ t.channel.1) }
  trainOn s (nextChannel s t (t.channel.1 + 1)) t

/-- A step has passed. -/
def stepPassed (s : State) (t : Training) : State :=
  if t.step + 1 < stepCount s.drc.ch[t.channel] t.kind then
    trainOn s (some { t with step := t.step + 1, retried := false }) t
  else
    let s := s.modChan t.channel fun c => { c with stored := c.stored ||| BitVec.ofNat 7 (2 ^ t.rate) }
    match (trainRates s t.kind).find? fun k => decide (t.rate < k) with
    | some k => if t.kind = 0 then trainOn s (some { t with rate := k, step := 0, retried := false }) t
                else channelPassed s t
    | none => channelPassed s t

/-- A step has failed twice (R483). -/
def stepFailed (s : State) (t : Training) : State :=
  let n := (Config.trainStep t.kind t.step).toNat
  let s := s.modChan t.channel fun c => { c with trainFail := n }
  let s := raise s 0xE8 (n + 256 * t.rate + 2 ^ 24 * t.channel.1)
  let s :=
    if t.kind != 0 then s
    else if t.rate = s.drc.rate then loseChannel s t.channel
    else s.modChan t.channel fun c => { c with stored := c.stored &&& ~~~(BitVec.ofNat 7 (2 ^ t.rate)) }
  trainOn s (nextChannel s t (t.channel.1 + 1)) t

/-- A deferred rate change is applied at the end of a step (R484, R497). -/
def deferredRate (s : State) : State :=
  match s.drc.ratePend with
  | none => s
  | some code =>
    let x := applyRate (s.modDrc fun d => { d with ratePend := none }) code true
    match x.1.ktl.parked.findIdx? fun p => p.op == 0x59 with
    | some k => (match x.1.ktl.parked[k]? with | some p => finishParked x.1 k (x.2.reply p.cmd) | none => x.1)
    | none => x.1

/-- DRAM_TRAIN_STEP_END: a failed step is retried once. -/
def execDramTrainStepEnd (ok : Bool) (s : State) : Host.Outcome State Fault Refusal :=
  .next (whenUp s fun s => match s.drc.training with
    | none => s
    | some t => let s := s.modDrc fun d => { d with stepAt := some s.now }
      deferredRate (
      if ok then stepPassed s t
      else if t.retried then stepFailed s t
      else s.modDrc fun d => { d with training := some { t with retried := true } }))

/-- DRAM_TRAIN (R199, R200): in STANDBY the device holds depth W1 while it runs. -/
def dramTrainRun (c : Cmd) (s : State) : Verdict :=
  let mask := Cmd.p8 c 16
  if mask = 0 || 3 < mask then refuse s (failAt c .badParam 0x40 16)
  else if 1 < Cmd.p8 c 17 then refuse s (failAt c .badParam 0x40 17)
  else if s.drc.training.isSome then refuse s (fail .busy 0x13)
  else
    let s := if s.sys.mode == .standby && decide (1 < s.sys.depth) then
        hvUpdate ((leaveDepth s s.sys.depth 1).modSys fun x => { x with depth := 1, depthTarget := 0 })
      else s.modSys fun x => { x with depthTarget := 0 }
    let s := dramRequest s
    let t : Training := ⟨BitVec.ofNat 2 mask, Cmd.p8 c 17, 0, 0, 0, false, 0⟩
    .park (s.modDrc fun d => { d with training := nextChannel s t 0 }) .hardware none
def dramTrainSpec : OpSpec := ⟨0x58, 4, 4, [.standby, .service], [(18, 0xFF), (19, 0xFF)], namesNothing, dramTrainRun⟩

/-- DRAM_SET_RATE (R199, R200, R484): a step that runs defers the change, and the reply with it; one that ends in
this cycle does not (R497). -/
def dramSetRateRun (c : Cmd) (s : State) : Verdict :=
  match rateList.findIdx? fun r => r == Cmd.p16 c 16 with
  | none => refuse s (failAt c .badParam 0x43 16)
  | some code =>
    if recipeOn s 0x0003 && decide (drBin (dramBody s) < code) then refuse s (failAt c .badParam 0x43 16)
    else if s.drc.training.isSome && s.drc.stepAt != some s.now then .park (s.modDrc fun d => { d with ratePend := some code }) .hardware none
    else let x := applyRate s code false
         .reply x.1 x.2
def dramSetRateSpec : OpSpec := ⟨0x59, 4, 4, [.standby, .service], [(18, 0xFF), (19, 0xFF)], namesNothing, dramSetRateRun⟩

/-- DRAM_QUERY (R200, R475, R498). -/
def dramQueryRun (c : Cmd) (s : State) : Verdict :=
  if 1 < Cmd.p8 c 16 then refuse s (failAt c .badParam 0x40 16)
  else if 1 < Cmd.p8 c 17 then refuse s (failAt c .badParam 0x40 17)
  else
    let x := s.drc.ch[Fin.ofNat 2 (Cmd.p8 c 16)]
    .reply s (
      if Cmd.p8 c 17 = 0 then
        { status := .ok, w0 := rateOf s.drc.rate, w1 := if x.up then s.drc.mapped else 0, w2 := 1024 * x.gib - s.drc.mapped
          w3 := fieldInt 32 x.temp, w4 := x.owed % 8 + 8 * bit x.doubled }
      else { status := .ok, w0 := x.guardFails, w1 := x.parityReplays, w2 := x.crcReplays, w3 := x.throttles, w4 := x.srEntries })
def dramQuerySpec : OpSpec := ⟨0x5A, 4, 4, allModes, [(18, 0xFF), (19, 0xFF)], namesNothing, dramQueryRun⟩

/-! ## Refresh and temperature (R491..R493) -/

/-- The cap of owed refreshes. -/
def owedCap (c : Channel) : Nat := if c.doubled then 2 else 4

/-- A refresh falls due (R491): without a waiting Class A or B request every owed refresh is issued; with the cap reached
already, one is forced to make room. One that has joined a catch-up run of this cycle is done (R497). -/
def Channel.refreshDue (now : Nat) (c : Channel) (waiting : Bool) : Channel :=
  if !c.up || c.sr || c.joined == some now then c
  else if !waiting then { c with owed := 0 }
  else if owedCap c ≤ c.owed then { c with forced := inc32 c.forced }
  else { c with owed := c.owed + 1 }

/-- A channel whose owed count has reached the cap issues a forced refresh (R491). -/
def Channel.force (c : Channel) : Channel :=
  if c.up && !c.sr && decide (owedCap c ≤ c.owed) then { c with owed := c.owed - 1, forced := inc32 c.forced } else c

/-- The forced refreshes of one XCLK cycle. -/
def refreshCycle (s : State) : State :=
  if s.drc.ch.any fun c => decide (owedCap c ≤ c.owed) then s.modDrc fun d => { d with ch := d.ch.map Channel.force } else s

/-- A refresh that would be forced falls due in this cycle (R497). -/
def refreshComes (s : State) (c : Fin 2) : Bool :=
  s.drc.ch[c].owed == 3 && coming s fun i => match i with | .refreshDue d true => d == c | _ => false

/-- REFRESH_DUE. -/
def execRefreshDue (c : Fin 2) (waiting : Bool) (s : State) : Host.Outcome State Fault Refusal :=
  .next (whenUp s fun s => s.modChan c fun x => x.refreshDue s.now waiting)

/-- The temperature table of the recipe (R496). -/
def dramTable (b : List Byte) : List (Nat × Int) := (List.range 16).map fun k => (u16 b (0x20 + 4 * k), i16 b (0x22 + 4 * k))

/-- A channel enters the doubled-rate range (R491, R493): with more refreshes owed than the new cap, they are issued in one
run, which a forced refresh of this cycle joins (R497). -/
def enterDoubled (s : State) (c : Fin 2) : State :=
  let x := s.drc.ch[c]
  if x.doubled then s
  else
    let joins := refreshComes s c
    let run := if 2 < x.owed then x.owed + bit joins else 0
    let s := s.modChan c fun x => { x with
      joined := if joins then some s.now else none, doubled := true, owed := if run = 0 then x.owed else 0, forced := satAdd 32 x.forced run }
    raise s 0xEB (1 + 256 * run + 2 ^ 24 * c.1)

/-- A good reading [0.25 °C] (R492): the doubled rate from 85.0 °C until below 83.0 °C, DRC_TEMP at 95.0 °C. -/
def dramReading (s : State) (c : Fin 2) (t : Int) : State :=
  let old := s.drc.ch[c]
  let s := if 380 ≤ t then s.stick (0x2C68 + 0x40 * c.1) 8 else s
  let s := s.modChan c fun x => { x with
    temp := t, broken := false, flags := if 380 ≤ t then x.flags ||| 0x08 else x.flags }
  let s := if 380 ≤ t ∧ old.temp < 380 then raise s 0xEC (2 + 2 ^ 24 * c.1) else s
  if 340 ≤ t then enterDoubled s c
  else if t < 332 ∧ old.doubled then
    raise (s.modChan c fun x => { x with doubled := false }) 0xEB (2 + 2 ^ 24 * c.1)
  else s

/-- A broken or absent sensor (R492). -/
def dramSensorLost (s : State) (c : Fin 2) : State :=
  let was := s.drc.ch[c].broken
  let s := (s.modChan c fun x => { x with broken := true, flags := x.flags ||| 0x10 }).stick (0x2C68 + 0x40 * c.1) 0x10
  enterDoubled (if was then s else raise s 0xEC (1 + 2 ^ 24 * c.1)) c

/-- DRAM_TEMP_SAMPLE: before a recipe is active there is nothing to convert with. A code outside the table has no stated
value (log 36). -/
def execDramTempSample (c : Fin 2) (code : BitVec 12) (s : State) : Host.Outcome State Fault Refusal :=
  .next (whenUp s fun s =>
    let b := dramBody s
    if b.isEmpty then s
    else if u8 b (0x16 + c.1) == 0xFF || code == 0 || code == 4095 then dramSensorLost s c
    else dramReading s c ((between (dramTable b) code.toNat).getD (Config.freeLinear (bytesAt b 0x20 64) code.toNat)))

/-! ## Replays (R494, R495) -/

/-- One replay. -/
def replayed (s : State) (c : Fin 2) (parity : Bool) : State :=
  let s := s.modChan c fun x => { x with
    parityReplays := if parity then inc32 x.parityReplays else x.parityReplays
    crcReplays := if parity then x.crcReplays else inc32 x.crcReplays, flags := x.flags ||| 0x02 }
  raise (s.stick (0x2C68 + 0x40 * c.1) 2) 0xE9 ((if parity then 1 else 2) + 2 ^ 24 * c.1)

/-- A third replay has failed: the channel trains anew at the rate in force, and resumes or is lost. -/
def replayFailed (s : State) (c : Fin 2) (retrain : Bool) : State :=
  let s := (s.modChan c fun x => { x with flags := x.flags ||| 0x04 }).stick (0x2C68 + 0x40 * c.1) 4
  let s := raise s 0xEA ((if retrain then 1 else 2) + 2 ^ 24 * c.1)
  if retrain then s.modChan c fun x => { x with trainPasses := satAdd 8 x.trainPasses 1 } else loseChannel s c

/-- DRAM_ALERT. -/
def execDramAlert (c : Fin 2) (a : Alert) (s : State) : Host.Outcome State Fault Refusal :=
  .next (whenUp s fun s =>
    if !s.drc.ch[c].up then s
    else let t := replayed s c a.parity
         if a.third then replayFailed t c a.retrain else t)

/-! ## Self-refresh, calibration, fill and scan (R479, R480, R485, R490) -/

/-- A request of the channels comes in this cycle (R497): a window read, a block of the fill, or training. -/
def requestComes (s : State) : Bool :=
  coming s fun i => match i with | .bar2Read .. | .dramFillBlock | .dramTrain _ => true | _ => false

/-- SELF_REFRESH_IDLE: not while a committed sheet has not completed or a head is MARKING, nor with a request of the same
cycle. -/
def execSelfRefreshIdle (c : Fin 2) (s : State) : Host.Outcome State Fault Refusal :=
  .next (whenUp s fun s => if claimed s || s.hdp.any (·.state == .marking) || requestComes s then s else s.modChan c selfRefresh)

/-- ZQ_CAL_DUE. -/
def execZqCalDue (c : Fin 2) (s : State) : Host.Outcome State Fault Refusal :=
  .next (whenUp s fun s => s.modChan c fun x => if x.up && !x.sr then { x with zqCals := x.zqCals + 1 } else x)

/-- DRAM_FILL_BLOCK: 2 MiB more of each serving channel are filled, from the end of boot stage 3 on. -/
def execDramFillBlock (s : State) : Host.Outcome State Fault Refusal :=
  .next (whenUp s fun s =>
    if s.drc.fillDone || s.cad.capPages = 0 || decide (2 ≤ s.sys.depth) then s
    else
      let pages := s.cad.filledPages + 512
      let s := dramRequest s
      let s := s.modCad fun x => { x with filledPages := pages }
      s.modDrc fun d => { d with fill := d.fill + 2 * d.ch.toList.countP (·.up)
                                 fillDone := decide (1024 * 128 + pages ≥ 256 * d.mapped) })

/-- HEALTH_SCAN_PASS_END. -/
def execHealthScanPassEnd (s : State) : Host.Outcome State Fault Refusal :=
  .next (whenUp s fun s =>
    if !s.drc.fillDone || s.drc.ch.any (·.sr) then s
    else
      let n := s.drc.scanFails
      raise (s.modDrc fun d => { d with scans := inc32 d.scans, scanFails := 0 }) 0x28 n)

/-! ## The opcodes -/

/-- DRAM_TRAIN. -/
def execDramTrain (c : Cmd) (s : State) : Host.Outcome State Fault Refusal := .next (direct dramTrainSpec c s)
/-- DRAM_SET_RATE. -/
def execDramSetRate (c : Cmd) (s : State) : Host.Outcome State Fault Refusal := .next (direct dramSetRateSpec c s)
/-- DRAM_QUERY. -/
def execDramQuery (c : Cmd) (s : State) : Host.Outcome State Fault Refusal := .next (direct dramQuerySpec c s)

end Sys2Proof.Machine
end

