-- ==== Sys2Proof/Machine/FuseOps.lean ====
section
/-!
DEFINITION. The fuse array (R526..R538): SECDED words, REDIRECT entries, boot sense, and what a burn does.
-/

namespace Sys2Proof.Machine

/-! ## SECDED words (R531) -/

/-- The positions of the data bits d0..d63: all but the powers of two. -/
def secdedPos : List Nat := (List.range 72).filter fun p => !([0, 1, 2, 4, 8, 16, 32, 64] : List Nat).contains p

/-- The exclusive or of a list of bits. -/
def parity (l : List Bool) : Bool := l.foldl xor false

/-- The check bits of a data word, c0 lowest. -/
def secdedChecks (d : BitVec 64) : Byte :=
  let c := (List.range 7).map fun k => parity ((secdedPos.zipIdx.filter fun x => x.1.testBit k).map fun x => d.getLsbD x.2)
  let all := parity ((List.range 64).map d.getLsbD ++ c)
  BitVec.ofNat 8 (mask 7 (fun k => c.getD k false) + 128 * bit all)

/-- A word of 72 bits: 64 data bits and 8 check bits above them. -/
def fuseRow (d : BitVec 64) (c : Byte) : BitVec 72 := BitVec.ofNat 72 (d.toNat + 2 ^ 64 * c.toNat)
def rowData (r : BitVec 72) : BitVec 64 := r.setWidth 64
def rowChecks (r : BitVec 72) : Byte := BitVec.ofNat 8 (r.toNat / 2 ^ 64)

/-- Decode of a read: the corrected row, none when it is uncorrectable. -/
def secdedDecode (r : BitVec 72) : Option (BitVec 72) :=
  let d := rowData r
  let c := rowChecks r
  let syn := (secdedChecks d ^^^ c).toNat % 128
  let odd := parity ((List.range 72).map r.getLsbD)
  if !odd then (if syn = 0 then some r else none)
  else if syn = 0 then some (fuseRow d (c ^^^ 0x80))
  else match secdedPos.findIdx? (· == syn) with
    | some k => some (fuseRow (d ^^^ (1#64 <<< k)) c)
    | none =>
      if syn ≤ 64 then some (fuseRow d (c ^^^ BitVec.ofNat 8 syn)) else none

/-- Words with SECDED (R526): POLICY, KEY and CUSTOMER. -/
def secdedWord (w : Nat) : Bool := decide (96 ≤ w) && decide (w < 239)

/-- The region of a word (R526, R536); LOCK has none. -/
def fuseRegion (w : Nat) : Option Nat :=
  if w < 16 then some 0 else if w < 32 then some 1 else if w < 96 then some 2 else if w < 128 then some 3
  else if w < 160 then some 4 else if w < 239 then some 5 else if w = 239 then none else some 7

/-- A word's region is locked (R536). -/
def regionLocked (s : State) (w : Nat) : Bool := match fuseRegion w with | some r => bitOf (lockInForce s) r | none => false

/-! ## REDIRECT (R533) -/

/-- A REDIRECT entry: unused, malformed, or the word it names. -/
inductive Redirect where
  | unused | malformed | word (w : Nat)
  deriving DecidableEq, Repr

/-- An entry read as R533 says. -/
def redirectOf (e : BitVec 64) : Redirect :=
  let n := e.toNat
  if n = 0 then .unused
  else if 65536 ≤ n ∨ n / 256 % 256 ≠ 255 - n % 256 ∨ 239 ≤ n % 256 then .malformed
  else .word (n % 256)

/-- The spare row that governs a word: the valid entry with the highest k. -/
def governingSpare (entry : Nat → BitVec 64) (w : Nat) : Option Nat :=
  (List.range 16).reverse.find? fun k => redirectOf (entry k) == .word w

/-! ## Boot sense (R537, R538) -/

/-- The two reads of a row: at the normal and at the tightened reference. -/
def rowReads (s : State) (weak : List (Nat × BitVec 72)) (r : Nat) : BitVec 72 × BitVec 72 :=
  let n := getN s.fus.rows r 0
  (n, n &&& ~~~(((weak.filter fun x => x.1 == r).map (·.2)).foldl (· ||| ·) 0))

/-- What a word resolves to, from the two reads of its row: its row, or none for an uncorrectable word. -/
def resolveWord (w : Nat) (reads : BitVec 72 × BitVec 72) : Option (BitVec 72) :=
  if secdedWord w then
    match secdedDecode reads.1 with
    | some r => some r
    | none => secdedDecode reads.2
  else some (fuseRow (rowData reads.1) 0)

/-- The part codes of R527. -/
def knownPart (n : Nat) : Bool := n == 0x8640 || n == 0x8620 || n == 0x8610

/-- Restrictive value of a wire (R529). -/
def restrictive (i : Nat) : Bool := i == 22 || i == 23

/-- Restrictive wires of an NL8610 after an integrity failure (R538): S0, S1, H0, H1, 16 GiB. -/
def fallbackWires : BitVec 26 := BitVec.ofNat 26 (0x3 + 2 ^ 6 * 0x3 + 2 ^ 14 * 16 + 2 ^ 22 * 0x3)

/-- Everything the sense of boot stage 1 finds. -/
structure Sensed where
  latched : Vector (BitVec 64) 256
  checks : Vector Byte 256
  marginal : BitVec 272
  redirected : BitVec 256
  uncorrectable : List Nat
  failing : List Nat
  wires : BitVec 26
  undecided : BitVec 26

/-- Steps 1 to 6 of R537. -/
def senseArray (s : State) (weak : List (Nat × BitVec 72)) : Sensed :=
  let reads := rowReads s weak
  let marg := fun (r : Nat) => (reads r).1 != (reads r).2
  let entry := fun (k : Nat) => rowData (reads (240 + k)).1
  let rowOf := fun (w : Nat) => match governingSpare entry w with | some k => 256 + k | none => w
  let value := Vector.ofFn fun (w : Fin 256) => resolveWord w.1 (reads (rowOf w.1))
  let latched := value.map fun o => rowData (o.getD 0)
  let a := reads (rowOf 16)
  let b := reads (rowOf 17)
  let weakPair := fun (i : Nat) => a.1.getLsbD i != a.2.getLsbD i || b.1.getLsbD i != b.2.getLsbD i
  let pair := fun (i : Nat) => (a.1.getLsbD i, b.1.getLsbD i)
  let decided := fun (i : Nat) => !weakPair i && (pair i).1 != (pair i).2
  let conflict := (List.range 26).any fun i => !weakPair i && (pair i).1 && (pair i).2
  let check := crc32c (((List.range 15).map fun w => leBytes 8 (getN latched w 0).toNat).flatten)
  let bad15 := (getN latched 15 0) != BitVec.ofNat 64 (check.toNat + 2 ^ 32 * (~~~check).toNat)
  let unc := (List.range 256).filter fun w => (getN value w none).isNone
  { latched := latched
    checks := value.map fun o => rowChecks (o.getD 0)
    marginal := BitVec.ofNat 272 (mask 272 marg)
    redirected := BitVec.ofNat 256 (mask 256 fun w => rowOf w != w)
    uncorrectable := unc
    failing :=
      (if knownPart ((getN latched 0 0).toNat % 65536) then [] else [0]) ++ (if bad15 then [15] else []) ++
      (if conflict then [16] else []) ++ (unc.filter fun w => decide (w < 160)) ++
      ((List.range 16).filter fun k => redirectOf (entry k) == .malformed).map (240 + ·)
    wires := BitVec.ofNat 26 (mask 26 fun i => if decided i then (pair i).1 else restrictive i)
    undecided := BitVec.ofNat 26 (mask 26 fun i => !decided i) }

/-- The word that a valid REDIRECT entry maps to a spare row, 0xFF when the row is unused (R544). -/
def spareTarget (x : Sensed) (k : Nat) : Nat := match redirectOf (getN x.latched (240 + k) 0) with | .word w => w | _ => 0xFF

/-- The raises of the sense (R537, R544). -/
def senseRaises (x : Sensed) (s : State) : State :=
  let s := ((List.range 256).filter fun w => x.marginal.getLsbD w).foldl (fun s w => raise s 0xF1 (w + 0x100)) s
  let s := ((List.range 16).filter fun k => x.marginal.getLsbD (256 + k)).foldl (fun s k =>
    raise s 0xF1 (k + 0x400 + 65536 * spareTarget x k)) s
  let s := x.uncorrectable.foldl (fun s w => raise s 0xF1 (w + 0x300)) s
  match x.failing with
  | [] => s
  | w :: _ => raise s 0xF0 (x.failing.foldl Nat.min w)

/-- Boot sense: every value is latched, the wires are driven, and the effective part is known. -/
def senseFuses (s : State) (weak : List (Nat × BitVec 72)) : State :=
  let x := senseArray s weak
  let bad := !x.failing.isEmpty
  let code := (getN x.latched 0 0).toNat % 65536
  let down := bad && code != 0x8640
  senseRaises x (s.modFus fun f => { f with
    latched := x.latched, checks := x.checks, marginal := x.marginal, redirected := x.redirected, shadows := []
    wires := if down then fallbackWires else x.wires
    undecided := x.undecided, part := if down then 0x8610 else BitVec.ofNat 16 code
    sensed := true, integrity := bad, margins := (List.range 272).countP fun r => x.marginal.getLsbD r
    senseFresh := true, resensing := false, resenseDue := none })

/-! ## Burning (R533, R534) -/

/-- Set bits of a row of the array; a burn never clears one (R526). -/
def burnRow (s : State) (r : Nat) (bits : BitVec 72) : State :=
  s.modFus fun f => { f with rows := updN f.rows r fun x => x ||| bits }

/-- The row behind a word now: the spare row of its governing entry, or its own. -/
def rowBehind (s : State) (w : Nat) : Nat :=
  match governingSpare (fun k => getN s.fus.latched (240 + k) 0) w with | some k => 256 + k | none => w

/-- A burn that reads back as intended leaves the row so; one that does not leaves what reads back, and of the rest a free
value (log 67). -/
def burnTo (s : State) (r : Nat) (want back : BitVec 72) : State :=
  if back = want then burnRow s r want
  else (burnRow s r ((back &&& want) ||| (Config.freeFuse s.free &&& want))).drawn

/-- The latched value of a word becomes a row. -/
def latchRow (s : State) (w : Nat) (r : BitVec 72) : State :=
  s.modFus fun f => { f with latched := updN f.latched w fun _ => rowData r, checks := updN f.checks w fun _ => rowChecks r }

/-- The REDIRECT entry for a word (R533). -/
def redirectEntry (w : Nat) : BitVec 64 := BitVec.ofNat 64 (w + 256 * (255 - w))

/-- The spare rows from k on are tried in turn (R534 steps 3 to 5). The entry of a row tried is no longer blank, so the row
is not taken again. -/
def trySpares (w : Nat) (want : BitVec 72) : List Nat → List (BitVec 72) → State → State × Bool
  | [], _, s => (s, false)
  | k :: ks, back, s =>
    let e := fuseRow (redirectEntry w) 0
    let a := back.getD 0 want
    let b := back.getD 1 e
    let s := burnTo (burnTo s (256 + k) want a) (240 + k) e b
    let s := raise (latchRow s (240 + k) (b &&& e)) 0xF3 w
    if a = want ∧ b = e then
      (latchRow (s.modFus fun f => { f with redirected := f.redirected ||| (1#256 <<< w) }) w want, true)
    else trySpares w want ks (back.drop 2) s

/-- Spare rows not yet used; none with REDIRECT locked. -/
def freeSpares (s : State) : List Nat :=
  if bitOf (lockInForce s) 7 then [] else (List.range 16).filter fun k => fuseWord s (Fin.ofNat 256 (240 + k)) == 0

/-- The full content a word is to have after a burn of bits: the old data, the new bits and, on a SECDED word, the check
bits (R532). -/
def intendedRow (s : State) (w : Nat) (bits : BitVec 64) : BitVec 72 :=
  let d := getN s.fus.latched w 0 ||| bits
  fuseRow d (if secdedWord w then secdedChecks d else 0)

/-- A burn of a word: the state after it, and whether it reads back. -/
def burnWord (s : State) (w : Nat) (bits : BitVec 64) (back : List (BitVec 72)) : State × Bool :=
  let want := intendedRow s w bits
  let a := back.getD 0 want
  let s := burnTo s (rowBehind s w) want a
  if a = want then (latchRow s w want, true) else trySpares w want (freeSpares s) (back.drop 1) s

end Sys2Proof.Machine
end

