-- ==== Sys2Proof/Machine/FuseCmds.lean ====
section
/-! DEFINITION. Fuse opcodes 0x68..0x6B and PROVISION 0x7F (R203, R204, R210, R211, R370, R534..R536). -/

namespace Sys2Proof.Machine

/-! ## FUSE_READ (R204) -/

/-- W2 of FUSE_READ: check bits, marginal, redirected, frozen, shadowed. -/
def fuseState (s : State) (w : Fin 256) : Nat :=
  let f := s.fus
  let m := f.marginal.getLsbD w.1 || f.marginal.getLsbD (rowBehind s w.1)
  f.checks[w].toNat + atBit 8 1 (bit m) + atBit 9 1 (bit (f.redirected.getLsbD w.1)) +
  atBit 10 1 (bit (secdedWord w.1 && f.checks[w] != 0)) + atBit 11 1 (bit (f.shadows.any (·.1 == w)))

/-- What FUSE_READ answers of a word. -/
def fuseWords (s : State) (w : Fin 256) : Res :=
  let d := (fuseWord s w).toNat
  { status := .ok, w0 := loWord d, w1 := hiWord d, w2 := fuseState s w, w3 := lockInForce s }

/-- What FUSE_READ shows of a word: of one that a burn or a clear of shadows of this cycle changes, what stood before (R543). -/
def fuseWordsBefore (s : State) (w : Fin 256) : Res :=
  match s.fus.before.lookup w with
  | some l => { status := .ok, w0 := l.getD 0 0, w1 := l.getD 1 0, w2 := l.getD 2 0, w3 := l.getD 3 0 }
  | none => fuseWords s w

/-- What words show is noted before they change. -/
def noteWords (s : State) (l : List (Fin 256)) : State :=
  s.modFus fun f => { f with before := f.before ++ l.map fun w =>
    let r := fuseWordsBefore s w
    (w, [r.w0, r.w1, r.w2, r.w3]) }

def fuseReadRun (c : Cmd) (s : State) : Verdict :=
  let w := Cmd.p8 c 16
  if 128 ≤ w ∧ w < 132 then refuse s (failAt c .denied 0x40 16) else .reply s (fuseWordsBefore s (Fin.ofNat 256 w))
def fuseReadSpec : OpSpec := ⟨0x68, 4, 4, allModes, [(17, 0xFF), (18, 0xFF), (19, 0xFF)], namesNothing, fuseReadRun⟩

/-! ## FUSE_SHADOW (R535) -/

def fuseShadowRun (c : Cmd) (s : State) : Verdict :=
  let w := Cmd.p8 c 17
  let set := Cmd.p8 c 16 == 0
  if 1 < Cmd.p8 c 16 then refuse s (failAt c .badParam 0x06 16)
  else if set && (w == 16 || fuseRegion w == some 4) then refuse s (failAt c .denied 0x41 17)
  else if set && regionLocked s w then refuse s (failAt c .denied 0x42 17)
  else match journalRefusal s false with
    | some r => refuse s r
    | none =>
      let k : Fin 256 := Fin.ofNat 256 w
      let t := (if set then s else noteWords s (s.fus.shadows.map (·.1))).modFus fun f => { f with
        shadows := if set then f.shadows.filter (·.1 != k) ++ [(k, BitVec.ofNat 64 (Cmd.p64 c 20))] else [] }
      journaled s (journalCommand t 0x69 .ok c) { status := .ok }
def fuseShadowSpec : OpSpec := ⟨0x69, 12, 12, [.service], [(18, 0xFF), (19, 0xFF)], namesNothing, fuseShadowRun⟩

/-! ## FUSE_BURN (R534) -/

/-- A SECDED word is frozen once any of its check bits reads 1 (R532). -/
def wordFrozen (s : State) (w : Nat) : Bool := secdedWord w && getN s.fus.checks w 0 != 0

def fuseBurnRun (c : Cmd) (s : State) : Verdict :=
  let w := Cmd.p8 c 16
  if Cmd.p64 c 20 = 0 then refuse s (failAt c .badParam 0x45 20)
  else if 239 ≤ w then refuse s (failAt c .badParam 0x45 16)
  else if fuseRegion w == some 4 then refuse s (failAt c .denied 0x44 16)
  else if regionLocked s w then refuse s (failAt c .denied 0x42 16)
  else if wordFrozen s w then refuse s (failAt c .denied 0x43 16)
  else if fuseBusy s then refuse s (fail .busy 0x13)
  else match journalRefusal s false with
    | some r => refuse s r
    | none => .park s .hardware none
def fuseBurnSpec : OpSpec := ⟨0x6A, 12, 12, [.service], [(17, 0xFF), (18, 0xFF), (19, 0xFF)], namesNothing, fuseBurnRun⟩

/-- The burn has ended, with what read back. -/
def fuseBurnDone (s : State) (c : Cmd) (back : List (BitVec 72)) : State × Res :=
  let w := Cmd.p8 c 16
  let s := noteWords s [Fin.ofNat 256 w]
  let x := burnWord s w (BitVec.ofNat 64 (Cmd.p64 c 20)) back
  let s := x.1
  if x.2 then
    let d := (getN s.fus.latched w 0).toNat
    (journalCommand s 0x6A .ok c, { status := .ok, w0 := loWord d, w1 := hiWord d, w2 := fuseState s (Fin.ofNat 256 w) })
  else (journalCommand s 0x6A .noResource c, fail .noResource 0x46)

/-! ## FUSE_LOCK_REGION (R536) -/

def fuseLockRun (c : Cmd) (s : State) : Verdict :=
  let r := Cmd.p8 c 16
  if 7 < r ∨ r = 6 then refuse s (failAt c .badParam 0x42 16)
  else if bitOf (lockInForce s) r then refuse s (failAt c .state 0x41 16)
  else if fuseBusy s then refuse s (fail .busy 0x13)
  else match journalRefusal s false with
    | some r => refuse s r
    | none => .park s .hardware none
def fuseLockSpec : OpSpec := ⟨0x6B, 4, 4, [.service], [(17, 0xFF), (18, 0xFF), (19, 0xFF)], namesNothing, fuseLockRun⟩

/-- A region's bit is burned in word 239; it counts as locked even when it is marginal (R537). -/
def lockRegion (s : State) (r : Nat) : State :=
  let b := fuseRow (1#64 <<< r) 0
  (burnRow s 239 b).modFus fun f => { f with latched := updN f.latched 239 fun d => d ||| (1#64 <<< r) }

/-- The lock has been burned. -/
def fuseLockDone (s : State) (c : Cmd) : State × Res :=
  let r := Cmd.p8 c 16
  let t := journalCommand (lockRegion (noteWords s [239]) r) 0x6B .ok c
  if regionIncomplete s r then (raise t 0xF2 r, { status := .ok, sub := 0x40 }) else (t, { status := .ok })

/-! ## PROVISION (R210, R211) -/

/-- The bytes of the block at an offset. -/
def blockBytes (c : Cmd) (k n : Nat) : List Byte := bytesAt c.params k n

def provisionRun (c : Cmd) (s : State) : Verdict :=
  let addr := Cmd.p64 c 16
  if bitOf (lockInForce s) 4 || (List.range 32).any fun k => getN s.fus.latched (128 + k) 0 != 0 then
    refuse s (fail .denied 0x40)
  else if zeroAt c.params 0x10 32 then refuse s (failAt c .badParam 0x42 (16 + 0x10))
  else if zeroAt c.params 0x30 32 then refuse s (failAt c .badParam 0x42 (16 + 0x30))
  else if addr = 0 ∨ addr % 64 ≠ 0 then refuse s (failAt c .badParam 0x43 16)
  else if fuseBusy s then refuse s (fail .busy 0x13)
  else if !s.jnl.flashOk then refuse s (fail .noResource 0x7F)
  else .park s .hardware none
def provisionSpec : OpSpec :=
  ⟨0x7F, 176, 176, [.service], (List.range 8).map fun k => (24 + k, 0xFF), namesNothing, provisionRun⟩

/-- Words of the KEY region from a byte string, eight bytes a word. -/
def burnKey (s : State) (w : Nat) (l : List Byte) : State :=
  (List.range (l.length / 8)).foldl (fun s k =>
    let d := BitVec.ofNat 64 (u64 l (8 * k))
    let r := fuseRow d (secdedChecks d)
    latchRow (burnRow s (rowBehind s (w + k)) r) (w + k) r) s

/-- The bytes of KEY words 128..156 (R211): the private key, the supervisor hash and the signer hashes of the block, all ones for
an unused slot, the hash of the public key, and the serial base. -/
def keyBytes (c : Cmd) (key : Nat) : List Byte :=
  let signer := fun (k : Nat) =>
    let h := blockBytes c (0x30 + 32 * k) 32
    if h.all (· == 0) then List.replicate 32 0xFF else h
  beBytes 32 key ++ blockBytes c 0x10 32 ++ signer 0 ++ signer 1 ++ signer 2 ++ signer 3 ++ sha256 (ecPublic key) ++ leBytes 8 64

/-- A PROVISION is interrupted (R211): nothing has been burned yet, or the words up to one of them, and of that one any bits; KEY
stays unlocked. How far it has come, the key drawn and the last word's bits are free values (log 68). -/
def provisionCut (s : State) (c : Cmd) : State :=
  let n := (Config.freeWord s.free).toNat % 30
  if n = 0 then s.drawn
  else
    let l := keyBytes c ((Config.freeNonce s.free).toNat + 2 ^ 128 * (Config.freeNonce (s.free + 1)).toNat)
    let s' := burnKey s 128 (l.take (8 * (n - 1)))
    let d := BitVec.ofNat 64 (u64 l (8 * (n - 1)))
    let w := 127 + n
    let r := Config.freeFuse s.free &&& fuseRow d (secdedChecks d)
    (latchRow (burnRow s' (rowBehind s' w) r) w r).drawn.drawn

/-- A new ring (R370): nothing of the old one is retained, the collection log is erased, and the serial authority starts at
64 with nothing reserved. -/
def newRing (s : State) : State :=
  let s := s.modJnl fun j => { j with
    provisioned := true, anchored := true, sealing := false, staged := [], waiting := [], next := 64, high := 63
    newest := none, oldest := 0, nextIdx := 0, sealIdx := 0, sealed := false, unsealed := 0, chain := 0, coll := none
    collSeq := 0, collSector := 0, collUsed := 0, boots := 0, inFlight := none, grouped := false, readServed := false }
  [0, 1].foldl (fun s c => if sectorBlank s c then s else queueErase s c) s

/-- The entropy source has answered (R211): without health nothing is burned; otherwise the keys are burned, KEY is locked,
the public key goes to the host and the PROVISION record starts the ring. The burns are taken to read back (log 68). -/
def provisionDone (s : State) (c : Cmd) (healthy : Bool) (key : BitVec 256) : State × Res :=
  if !healthy then (s, fail .noResource 0x41)
  else
    let pub := ecPublic key.toNat
    let s := burnKey s 128 (keyBytes c key.toNat)
    let s := emit s (.write (BitVec.ofNat 64 (Cmd.p64 c 16)) pub)
    let s := newRing (lockRegion s 4)
    let s := requestRecord s ⟨0x0D, 0, pub, none, 0, some 63, none, none⟩
    (eraseAhead (reserveCheck s), hashWords (sha256 pub) 0)

/-! ## The commands -/

/-- FUSE_READ. -/
def execFuseRead (c : Cmd) (s : State) : Host.Outcome State Fault Refusal := .next (direct fuseReadSpec c s)
/-- FUSE_SHADOW. -/
def execFuseShadow (c : Cmd) (s : State) : Host.Outcome State Fault Refusal := .next (direct fuseShadowSpec c s)
/-- FUSE_BURN. -/
def execFuseBurn (c : Cmd) (s : State) : Host.Outcome State Fault Refusal := .next (direct fuseBurnSpec c s)
/-- FUSE_LOCK_REGION. -/
def execFuseLockRegion (c : Cmd) (s : State) : Host.Outcome State Fault Refusal := .next (direct fuseLockSpec c s)
/-- PROVISION. -/
def execProvision (c : Cmd) (s : State) : Host.Outcome State Fault Refusal := .next (direct provisionSpec c s)

end Sys2Proof.Machine
end

