-- ==== Sys2Proof/Machine/HeadCmds.lean ====
section
/-! DEFINITION. Head opcodes 0x48..0x4A (R197, R198, R321..R324, R326, R333, R343..R345). -/

namespace Sys2Proof.Machine

/-- The head number of a packet; check 8 has refused one that the part does not enable. -/
def headNumber (c : Cmd) : Fin 8 := Fin.ofNat 8 (Cmd.p8 c 16)

/-- Check 8: the part enables the head (R3, log 47), or every head of a mask. -/
def headNames (s : State) (c : Cmd) : Option Nat := if headOn s (Cmd.p8 c 16) then none else some 16
def headMaskNames (s : State) (c : Cmd) : Option Nat :=
  if (List.range 8).any fun h => bitOf (Cmd.p8 c 16) h && !headOn s h then some 16 else none

/-- A head that a mark field of a sheet not yet completed names or fires on. -/
def headInUse (s : State) (h : Nat) : Bool :=
  (sheets s).any fun x => (x.2.state == .admitted || x.2.open) &&
    x.2.marks.any fun m => m.kind != 0 && (m.head == h || m.by_ == h)

/-- Whether a parked command works on a head (R158). -/
def headServed (s : State) (h : Nat) : Bool :=
  s.ktl.parked.any fun p => (p.op == 0x48 && bitOf (Cmd.p8 p.cmd 16) h) || (p.op == 0x49 && Cmd.p8 p.cmd 16 == h)

/-! ## HEAD_SCAN (R321..R324, R326, R344) -/

/-- A list strictly monotonic. -/
def monotonic (l : List Nat) : Bool := ascending l || ascending l.reverse

/-- The thermistor table of a head memory. -/
def memTable (m : List Byte) : List Nat := (List.range 16).map fun k => u16 m (0x14 + 2 * k)

/-- The checks of a head memory in their order, each with the field number that SCAN reports (R323, R348): true where it
holds. -/
def memChecks (m : List Byte) : List (Nat × Bool) :=
  [(0x03, u32 m 0x00 == 0x4D0D0001),
   (0x10, u32 m 0xFC == (crc32c (padTo 0xFC m)).toNat),
   (0x04, u16 m 0x04 == 1),
   (0x05, within 2 2048 (u16 m 0x06) && u16 m 0x06 % 2 == 0),
   (0x06, decide (u8 m 0x08 ≤ 16)),
   (0x07, decide (u8 m 0x09 ≤ 64)),
   (0x08, within 100 5000 (u16 m 0x0A)),
   (0x09, decide (0 ≤ i16 m 0x0C) && decide (i16 m 0x0C ≤ 600)),
   (0x0A, within 4 400 (u16 m 0x0E) && decide ((u16 m 0x0E : Int) < i16 m 0x0C)),
   (0x0B, u32 m 0x10 != 0),
   (0x0C, (memTable m).all (within 1 4094) && monotonic (memTable m))]

/-- The field number of the first check that fails. -/
def memFault (m : List Byte) : Option Nat := ((memChecks m).find? fun x => !x.2).map Prod.fst

/-- What the pacer latches of a head memory (R322). -/
def latchOf (m : List Byte) : HeadMem :=
  { nozzles := u16 m 0x06, rank := u8 m 0x08, rowGap := u8 m 0x09, stbMax := u16 m 0x0A, limit := i16 m 0x0C
    hyst := u16 m 0x0E, duty := u32 m 0x10, table := memTable m, serial := bytesAt m 0x40 16 }

/-- Whether the active HEAD recipe of a head, when there is one, passes R326 under a head memory. -/
def recipeFits (s : State) (h : Nat) (m : HeadMem) : Bool :=
  let b := headBody s h
  b.isEmpty || headOk h (headOn s (hdPartner b)) (some m) b

/-- The state after a scan (R344): ABSENT and IDLE take the outcome; the other states stay (log 59). -/
def HeadState.scanned (x : HeadState) (ok : Bool) : HeadState :=
  match x with
  | .absent | .idle => if ok then .idle else .absent
  | y => y

/-- The scan of one head (R323, R324, R326). A failed memory latches nothing, and the head keeps the serial latched last
(log 59). -/
def scanHead (s : State) (h : Fin 8) (answer : Option (List Byte)) : State :=
  match answer with
  | none => s.modHead h fun x => { x with scan := 2, state := x.state.scanned false }
  | some m => match memFault m with
    | some n =>
      raise (s.modHead h fun x => { x with scan := n, state := x.state.scanned false }) (0x91 + 2 * h.1) 0x01
    | none =>
      let new := latchOf m
      let other := s.hdp[h].mem.any fun o => o.serial != new.serial
      let ok := recipeFits s h.1 new
      let s := s.modHead h fun x => { x with
        scan := 1, mem := some new, state := x.state.scanned ok
        dead := if other then [] else x.dead, deadNext := if other then [] else x.deadNext
        noTakeover := x.noTakeover && !other }
      if other then raise s (0x91 + 2 * h.1) 0x101 else s

/-- Every head of the mask in turn; W0 counts the heads that answered, W1 those whose memory failed (log 60). -/
def headScanDone (s : State) (c : Cmd) (mems : List (Option (List Byte))) : State × Res :=
  let hs := (List.finRange 8).filter fun h => bitOf (Cmd.p8 c 16) h.1
  let answer := fun (h : Fin 8) => mems.getD h.1 none
  (hs.foldl (fun s h => scanHead s h (answer h)) s,
   { status := .ok, w0 := hs.countP fun h => (answer h).isSome
     w1 := hs.countP fun h => match answer h with | some m => (memFault m).isSome | none => false })

/-- The read of a head's memory begins (R321, R323): head 2p answers at 0x50, head 2p + 1 at 0x51. -/
def readMemory (s : State) (h : Fin 8) : State :=
  emit s (.i2c (Fin.ofNat 4 (h.1 / 2)) (0x50 + h.1 % 2) 0 256 s.hdp[h].i2cFast)

def headScanRun (c : Cmd) (s : State) : Verdict :=
  let hs := (List.finRange 8).filter fun h => bitOf (Cmd.p8 c 16) h.1
  if hs.any fun h => headInUse s h.1 then refuse s (fail .state 0x40)
  else if hs.any fun h => headServed s h.1 then refuse s (fail .busy 0x13)
  else if hs.any fun h => s.hdp[h].state == .fenced then refuse s (fail .fenced 0)
  else .park (hs.foldl readMemory s) .hardware none
def headScanSpec : OpSpec :=
  ⟨0x48, 4, 4, [.standby, .ready, .service], [(17, 0xFF), (18, 0xFF), (19, 0xFF)], headMaskNames, headScanRun⟩

/-! ## HEAD_MAINTAIN (R345) -/

/-- A capping move has ended: the head changes state (R344, R345). -/
def capMoveDone (s : State) (h : Fin 8) : State :=
  match s.hdp[h].capMove with
  | some cap => capHead (s.modHead h fun x => { x with capMove := none }) h cap
  | none => s

def headMaintainRun (c : Cmd) (s : State) : Verdict :=
  let h := headNumber c
  let x := s.hdp[h]
  let action := Cmd.p8 c 17
  let count := Cmd.p16 c 18
  if 2 < action then refuse s (failAt c .badParam 0x41 17)
  else if (action == 2) == (count == 0) then refuse s (failAt c .badParam 0x41 18)
  else if headInUse s h.1 then refuse s (fail .state 0x40)
  else if x.state == .held then refuse s (fail .state 0x42)
  else if action == 2 && x.state != .idle then refuse s (fail .state 0x43)
  else if x.capMove.isSome || headServed s h.1 then refuse s (fail .busy 0x13)
  else if x.state == .fenced then refuse s (fail .fenced 0)
  else if action == 2 then .park s .hardware none
  else if x.state != (if action == 0 then .idle else .capped) then .reply s okRes
  else
    let t := startCap s h (action == 0)
    if t.hdp[h].capMove.isSome then .park t .hardware none else .reply t okRes
def headMaintainSpec : OpSpec := ⟨0x49, 4, 4, [.standby, .ready, .print, .service], [], headNames, headMaintainRun⟩

/-! ## HEAD_MARK_DEAD (R333) -/

/-- A change of a dead-nozzle map. -/
def markNozzle (l : List Nat) (x : Nat × Bool) : List Nat := if x.2 then (if l.contains x.1 then l else x.1 :: l) else l.erase x.1

/-- Whether logical nozzle n of a head with `count` nozzles lives under a map. -/
def nozzleLives (dead : List Nat) (count n : Nat) : Bool := decide (n < count) && !dead.contains n

/-- A dead nozzle without a living neighbour (R333). -/
def noNeighbour (dead : List Nat) (count n : Nat) : Bool :=
  dead.contains n && !(decide (1 ≤ n) && nozzleLives dead count (n - 1)) && !nozzleLives dead count (n + 1)

/-- The nozzle count of a head; 2,048 before a scan has latched one (log 62). -/
def nozzleCount (x : Head) : Nat := match x.mem with | some m => m.nozzles | none => 2048

/-- The changes that wait take effect: outside a sheet (R333, R346; log 62). -/
def Head.settleDead (x : Head) : Head :=
  let dead := x.deadNext.foldl markNozzle x.dead
  { x with dead := dead, deadNext := [], noTakeover := dead.any fun n => noNeighbour dead (nozzleCount x) n }

/-- The same for a head of the state, unless a sheet is at it. -/
def settleHead (s : State) (h : Fin 8) : State :=
  if s.hdp[h].deadNext.isEmpty || insideSheetAt s h.1 then s else s.modHead h Head.settleDead

/-- And for every head. -/
def settleHeads (s : State) : State := (List.finRange 8).foldl settleHead s

/-- One cycle of a spit (R345), under the duty-window limiter in compatibility (R337): a new window when one has begun. -/
def spitCycle (s : State) (h : Fin 8) (b : List Byte) (mem : HeadMem) (drops : List Nat) (n : Nat) : State :=
  let ns := fun (k : Nat) => 2 * k * pMinNs b mem / 1000000
  let s := if n != 0 && ns n != ns (n - 1) then s.modHead h fun x => { x with dutyFires := [], dutyDrops := 0 } else s
  let strobe := fun (s : State) (drops : List Nat) =>
    emit (s.modHead h fun x => { (dutyCount b x drops) with fires := inc32 x.fires, lastStrobe := some s.now })
      (fireOut h b (hdSpitWave b) n drops)
  if !s.sys.compat then strobe s drops
  else
    let d := dutyLimit b mem s.hdp[h] drops
    let suppress := fun (s : State) (count : Nat) =>
      raise ((s.modHead h fun x => { x with flags := x.flags ||| 0x08, suppressed := satAdd 32 x.suppressed count }).stick
        (0x1624 + 0x80 * h.1) 8) (0x91 + 2 * h.1) (0x06 + 65536 * n)
    let s := if d.2.1 = 0 then s else suppress s d.2.1
    if d.2.2 then suppress s 1 else strobe s d.1

/-- A spit (R345): every living nozzle fires the largest drop under the spit waveform, n times at f_max / 2. It lies outside a
sheet, so that waiting changes of the dead-nozzle map take effect before it (R333). -/
def spit (s : State) (h : Fin 8) (n : Nat) : State :=
  let s := settleHead s h
  let b := headBody s h.1
  match s.hdp[h].mem with
  | none => s
  | some mem =>
    let drops := slotDrops b mem.nozzles fun _ k => if s.hdp[h].dead.contains k then 0 else 3
    (List.range n).foldl (fun s k => spitCycle s h b mem drops k) s

/-- HEAD_MAINTAIN resumes when its move or its spit has ended. A head that has left IDLE meanwhile has fired nothing (R345), nor has
any in HALT, where strobes are suppressed (R47, log 109). -/
def headMaintainDone (s : State) (c : Cmd) : State × Res :=
  let h := headNumber c
  if Cmd.p8 c 17 == 2 then
    (match s.hdp[h].state with
     | .idle => if s.sys.mode == .halt then (s, fail .state 0x0D) else (spit s h (Cmd.p16 c 18), okRes)
     | .held => (s, fail .state 0x42)
     | .fenced => (s, fail .fenced 0)
     | _ => (s, fail .state 0x43))
  else (capMoveDone s h, okRes)

def headMarkDeadRun (c : Cmd) (s : State) : Verdict :=
  let h := headNumber c
  let n := Cmd.p16 c 18
  let kill := Cmd.p8 c 17 == 0
  if 1 < Cmd.p8 c 17 then refuse s (failAt c .badParam 0x43 17)
  else if nozzleCount s.hdp[h] ≤ n then refuse s (failAt c .badParam 0x43 18)
  else if headServed s h.1 then refuse s (fail .busy 0x13)
  else match journalRefusal s false with
    | some r => refuse s r
    | none =>
      let t := settleHead (s.modHead h fun x => { x with deadNext := x.deadNext ++ [(n, kill)] }) h
      let y := t.hdp[h]
      let dead := y.deadNext.foldl markNozzle y.dead
      let lone := kill && [n - 1, n, n + 1].any fun k => noNeighbour dead (nozzleCount y) k
      let t := journalCommand t 0x4A .ok c
      journaled s t { status := .ok, sub := if lone then 0x44 else 0, w0 := dead.length }
def headMarkDeadSpec : OpSpec := ⟨0x4A, 4, 4, [.standby, .ready, .print, .service], [], headNames, headMarkDeadRun⟩

/-! ## The commands -/

/-- HEAD_SCAN. -/
def execHeadScan (c : Cmd) (s : State) : Host.Outcome State Fault Refusal := .next (direct headScanSpec c s)
/-- HEAD_MAINTAIN. -/
def execHeadMaintain (c : Cmd) (s : State) : Host.Outcome State Fault Refusal := .next (direct headMaintainSpec c s)
/-- HEAD_MARK_DEAD. -/
def execHeadMarkDead (c : Cmd) (s : State) : Host.Outcome State Fault Refusal := .next (direct headMarkDeadSpec c s)

end Sys2Proof.Machine
end

