-- ==== Sys2Proof/Machine/JournalCmds.lean ====
section
/-!
DEFINITION. Journal and serial opcodes 0x70..0x74 (R205..R207, R356, R363, R366, R369), and the journal writer's own
events (R362..R364, R367, R368).
-/

namespace Sys2Proof.Machine

/-! ## JOURNAL_READ (R206, R207, R369) -/

/-- Whether a record index is retained and durable. -/
def retained (s : State) (i : Nat) : Bool :=
  match s.jnl.newest with
  | some n => decide (s.jnl.oldest ≤ i) && decide (i ≤ n)
  | none => false

def journalReadRun (c : Cmd) (s : State) : Verdict :=
  let first := Cmd.p64 c 16
  let count := Cmd.p16 c 24
  let dest := Cmd.p64 c 28
  let sup := c.src == .sup
  let newest := s.jnl.newest.getD 0
  let n := min count (newest + 1 - first)
  if !retained s first then refuse s (failAt c .badParam 0x40 16)
  else if count = 0 || decide ((if sup then 32 else 8192) < count) then refuse s (failAt c .badParam 0x41 24)
  else if (if sup then dest != 0 else dest = 0 || decide (2 ^ 64 < dest + 128 * n)) then refuse s (failAt c .badParam 0x42 28)
  else
    let x := serveRead s c 0 n
    if x.2 = n then .reply x.1 (readResult x.1 n) else .park x.1 (.read x.2 n) none
def journalReadSpec : OpSpec := ⟨0x70, 20, 20, allModes, [(26, 0xFF), (27, 0xFF)], namesNothing, journalReadRun⟩

/-! ## JOURNAL_SEAL (R206, R207, R363, R378) -/

/-- The index of the newest seal, formed or durable; 0 before the first. -/
def newestSeal (s : State) : Nat :=
  match s.jnl.staged.reverse.find? fun r => u8 r.bytes 0 == 0x04 with
  | some r => r.idx
  | none => s.jnl.sealIdx

/-- The ticket of a seal that waits to be formed; one that nobody waits for yet gets a ticket. -/
def sealTicket (s : State) : State × Option Nat :=
  match s.jnl.waiting.find? fun u => u.type == 0x04 with
  | none => (s, none)
  | some u =>
    if u.ticket != 0 then (s, some u.ticket)
    else
      let t := s.jnl.tickets + 1
      (s.modJnl fun j => { j with
         tickets := t, waiting := updFirst (fun u => u.type == 0x04) (fun u => { u with ticket := t }) j.waiting }, some t)

def journalSealRun (_ : Cmd) (s : State) : Verdict :=
  if s.jnl.provisioned && !s.jnl.flashOk then refuse s (fail .noResource 0x7F)
  else match sealTicket s with
    | (t, some k) => .park t (.record k) (some { status := .ok })
    | (_, none) =>
      let t := requestSeal s
      if s.jnl.tickets < t.jnl.tickets then .park t (.record t.jnl.tickets) (some { status := .ok })
      else .reply s { status := .ok, w0 := loWord (newestSeal s), w1 := hiWord (newestSeal s) }
def journalSealSpec : OpSpec :=
  ⟨0x71, 0, 0, [.standby, .ready, .print, .runout, .halt, .service], [], namesNothing, journalSealRun⟩

/-! ## JOURNAL_COLLECTED (R206, R366) -/

/-- Where the next collection-log entry goes: the sector, and the entries it holds already. A full sector gives way to the
other one. -/
def logPlace (s : State) : Nat × Nat :=
  if 256 ≤ s.jnl.collUsed then (1 - s.jnl.collSector, 0) else (s.jnl.collSector, s.jnl.collUsed)

/-- The address of the next collection-log entry. -/
def logAddr (s : State) : Nat := 4096 * (logPlace s).1 + 16 * (logPlace s).2

/-- The collection-log entry for index k is programmed; with 192 entries used the other sector is erased. -/
def logCollected (s : State) (k : Nat) : State :=
  let j := s.jnl
  let sector := (logPlace s).1
  let used := (logPlace s).2
  let entry := leBytes 8 k ++ leBytes 4 (j.collSeq + 1)
  let entry := entry ++ leBytes 4 (crc32c entry).toNat
  let other := 1 - sector
  let ops := besideErase s (programOps (logAddr s) 16 ++ [(0xEC, logAddr s, 16)])
  let t := flashOps (s.modJnl fun j => { j with
    coll := some k, collSeq := wrap32 j.collSeq, collSector := sector, collUsed := used + 1
    flash := flashProgram j.flash (logAddr s) entry }) ops
  if used + 1 == 192 && !sectorBlank s other then queueErase t other else t

def journalCollectedRun (c : Cmd) (s : State) : Verdict :=
  let k := Cmd.p64 c 16
  let below := match s.jnl.coll with | some old => decide (k < old) | none => false
  if !s.jnl.sealed || decide (s.jnl.sealIdx < k) || below then refuse s (failAt c .badParam 0x40 16)
  else
    let t := lowCheck (eraseAhead (raise (logCollected s k) 0xA8 0))
    .reply t { status := .ok, w0 := freeWord t }
def journalCollectedSpec : OpSpec := ⟨0x72, 8, 8, allModes, [], namesNothing, journalCollectedRun⟩

/-! ## SERIAL_QUERY (R206) -/

def serialQueryRun (_ : Cmd) (s : State) : Verdict :=
  let j := s.jnl
  .reply s { status := .ok, w0 := loWord j.next, w1 := hiWord j.next, w2 := loWord j.high, w3 := hiWord j.high
             w4 := j.reservations }
def serialQuerySpec : OpSpec := ⟨0x73, 0, 0, allModes, [], namesNothing, serialQueryRun⟩

/-! ## SERIAL_ANCHOR (R206, R356) -/

/-- The least base that an anchor may name: above every serial reserved, one in flight included (R351, log 69), and at
least 64. -/
def anchorFloor (s : State) : Nat :=
  if s.jnl.anchored then (match s.jnl.inFlight with | some b => b + 64 | none => s.jnl.high + 1) else 64

/-- The records and the effect of an anchor. -/
def anchorAt (s : State) (base : Nat) (packet : List Byte) : State :=
  let j := s.jnl
  let s := if j.anchored && decide (j.next ≤ j.high) then journal s 0x03 3 (pairPayload j.next j.high) else s
  let s := s.modJnl fun j => { j with high := base - 1, next := base, anchored := true }
  requestRecord s ⟨0x0C, bit (!j.anchored), pairPayload base j.high ++ sha256 packet, none, 0, some (base - 1), none, none⟩

def serialAnchorRun (c : Cmd) (s : State) : Verdict :=
  let base := Cmd.p64 c 16
  if base % 64 != 0 || decide (base < anchorFloor s) then refuse s (failAt c .badParam 0x40 16)
  else if !s.led.jobs.isEmpty then refuse s (fail .state 0x41)
  else match journalRefusal s false with
    | some r => refuse s r
    | none =>
      let t := anchorAt s base (Cmd.packet c 0x74)
      let ticket := t.jnl.tickets
      let u := reserveCheck t
      if !jnlOn s then .reply u { status := .ok }
      else if !ticketFormed t ticket then .park s .room none
      else if audited s then .park u (.record ticket) (some { status := .ok })
      else
        let i := (ticketIndex t ticket).getD 0
        .reply u { status := .ok, w0 := loWord i, w1 := hiWord i }
def serialAnchorSpec : OpSpec := ⟨0x74, 8, 8, [.standby, .service], [], namesNothing, serialAnchorRun⟩

/-! ## The commands -/

/-- JOURNAL_READ. -/
def execJournalRead (c : Cmd) (s : State) : Host.Outcome State Fault Refusal := .next (direct journalReadSpec c s)
/-- JOURNAL_SEAL. -/
def execJournalSeal (c : Cmd) (s : State) : Host.Outcome State Fault Refusal := .next (direct journalSealSpec c s)
/-- JOURNAL_COLLECTED. -/
def execJournalCollected (c : Cmd) (s : State) : Host.Outcome State Fault Refusal := .next (direct journalCollectedSpec c s)
/-- SERIAL_QUERY. -/
def execSerialQuery (c : Cmd) (s : State) : Host.Outcome State Fault Refusal := .next (direct serialQuerySpec c s)
/-- SERIAL_ANCHOR. -/
def execSerialAnchor (c : Cmd) (s : State) : Host.Outcome State Fault Refusal := .next (direct serialAnchorSpec c s)

/-! ## The journal writer -/

/-- RECORD_PROGRAM_COMPLETE (R362, R368): a freed ledger entry may end PRINT or RUNOUT (R43). -/
def execRecordProgramComplete (readBackOk : Bool) (s : State) : Host.Outcome State Fault Refusal :=
  .next (whenUp s fun s => settle (programHead s readBackOk))

/-- SEAL_AGE_EXPIRY (R363): the oldest unsealed record is 60 s old. -/
def execSealAgeExpiry (s : State) : Host.Outcome State Fault Refusal :=
  .next (whenUp s fun s => if s.jnl.unsealed = 0 then s else requestSeal s)

/-- SEAL_SIGNED (R364). -/
def execSealSigned (s : State) : Host.Outcome State Fault Refusal := .next (whenUp s signSeal)

/-- SECTOR_ERASE_COMPLETE (R138, R367): of the sector under erase, not while PWRFAIL_N holds the erase suspended. -/
def execSectorEraseComplete (sector : Nat) (s : State) : Host.Outcome State Fault Refusal :=
  .next (whenUp s fun s =>
    if s.jnl.erasing.head? == some sector && !s.sys.pwrFail then eraseAhead (eraseDone s sector) else s)

end Sys2Proof.Machine
end

