-- ==== Sys2Proof/Machine/LoopCmds.lean ====
section
/-! DEFINITION. Loop opcodes 0x40..0x43 (R195, R196, R451..R454, R461..R464, R467). -/

namespace Sys2Proof.Machine

/-- The slot of a packet; check 8 has refused one above 159. -/
def slotNumber (c : Cmd) : Fin 160 := Fin.ofNat 160 (Cmd.p8 c 16)
/-- Check 8: the engine has slots 0..159 (log 47). -/
def slotNames (_ : State) (c : Cmd) : Option Nat := if 160 ≤ Cmd.p8 c 16 then some 16 else none

/-! ## LOOP_SET (R452, R453, R461) -/

/-- The phases that an outer slot may take: the frame of every n-th evaluation of its inner (R461). -/
def phaseAllowed (s : State) (e : List Byte) (ph : Nat) : Bool :=
  if entRatio e = 0 then true
  else let i := getN s.ctl.loops (entInner e) {}
       ph % Nat.max 1 i.k == i.phase

/-- The outer condition of R461. -/
def outerOk (s : State) (e : List Byte) (k : Nat) : Bool :=
  entRatio e == 0 || (let i := getN s.ctl.loops (entInner e) {}
                      i.en && k == entRatio e * i.k)

/-- A slot as LOOP_SET leaves it: disabled, or enabled in off. -/
def setSlot (entry k phase : Nat) (on : Bool) (old : Loop) : Loop :=
  { ({} : Loop) with en := on, entry := entry, k := k, phase := phase, fence := old.fence, missed := old.missed }

def loopSetRun (c : Cmd) (s : State) : Verdict :=
  let n := slotNumber c
  let b := loopsBody s
  let entry := Cmd.p16 c 18
  let period := Cmd.p32 c 20
  let k := period / 20
  let e := loopEntry b entry
  if laserSlot s n.1 then refuse s (failAt c .badParam 0x41 16)
  else if 1 < Cmd.p8 c 17 then refuse s (failAt c .badParam 0x41 17)
  else if Cmd.p8 c 17 = 0 then
    let t := hvUpdate (idleRefs (s.modLoop n fun l => { (setSlot l.entry l.k 0 false l) with out := entOutOff (slotEntry s l) }))
    .reply t { status := .ok, w0 := rateSum t }
  else if b.isEmpty || loopEntries b ≤ entry || entKind e = 3 then refuse s (failAt c .badParam 0x41 18)
  else if period % 20 != 0 || !within 20 1000000 period || !outerOk s e k then refuse s (failAt c .badParam 0x42 20)
  else
    let cost := entryCost b e
    let others := (timerSlots s).filter fun x => x.1 != n.1
    let best := bestPhase others n.1 cost k (phaseAllowed s e)
    let sum := evalRate (eventReserve s) ((n.1, cost, k, 0) :: others)
    if rateExceeds sum || 160 < best.2 + eventReserve s then refuse s (fail .noResource 0x40)
    else
      let t := hvUpdate (idleRefs (s.modLoop n fun l => setSlot entry k best.1 true l))
      .reply t { status := .ok, w0 := sum.1 / sum.2 }
def loopSetSpec : OpSpec := ⟨0x40, 8, 8, [.standby, .ready, .service], [], slotNames, loopSetRun⟩

/-! ## LOOP_SETPOINT (R458, R461) -/

/-- A setpoint with its ramp is taken over; a cascaded inner slot stores it (R461). -/
def Loop.setpointTo (l : Loop) (v : Int) (ramp : Nat) : Loop :=
  if l.cascade then { l with stored := some (v, ramp) } else { l with rTarget := v, ramp := ramp, stored := none }

/-- A frame starts in this cycle: a setpoint is used from the following one (R471). -/
def frameComes (s : State) : Bool := coming s fun i => match i with | .loopFrame .. => true | _ => false

def loopSetpointRun (c : Cmd) (s : State) : Verdict :=
  let n := slotNumber c
  let l := s.ctl.loops[n]
  let e := slotEntry s l
  let v := Cmd.i32 c 20
  if !l.en then refuse s (fail .state 0x45)
  else if v < entSpMin e || entSpMax e < v then refuse s (failAt c .badParam 0x44 20)
  else .reply (s.modLoop n fun l =>
    if frameComes s then { l with spNext := some (v, Cmd.p32 c 24) } else l.setpointTo v (Cmd.p32 c 24)) okRes
def loopSetpointSpec : OpSpec :=
  ⟨0x41, 12, 12, [.standby, .ready, .print, .runout, .service], [(17, 0xFF), (18, 0xFF), (19, 0xFF)], slotNames, loopSetpointRun⟩

/-! ## LOOP_MODE (R462..R464) -/

/-- A law that the request names. -/
def requestedLaw (k : Nat) : LoopMode := if k = 3 then .lawB else .lawA

def loopModeRun (c : Cmd) (s : State) : Verdict :=
  let n := slotNumber c
  let l := s.ctl.loops[n]
  let e := slotEntry s l
  let k := Cmd.p8 c 17
  if 3 < k || (k = 3 && entLaw e true = 0xFF) then refuse s (failAt c .badParam 0x46 17)
  else if !l.en || l.fence != 0 then refuse s (fail .state 0x45)
  else if k = 0 then .reply (hvUpdate (s.modLoop n Loop.toOff)) okRes
  else if k = 1 then
    let t := s.modLoop n fun l => { l with mode := .manual, manual := Cmd.i32 c 20, pending := none, slew := none }
    let t := if entKind e == 2 && l.mode == .off then hvLeavesOff t else t
    .reply (hvUpdate t) okRes
  else if l.mode == requestedLaw k then .reply (s.modLoop n fun l => { l with pending := none }) okRes
  else .reply (s.modLoop n fun l => { l with pending := some ⟨requestedLaw k, 0, false⟩ }) { status := .accepted }
def loopModeSpec : OpSpec :=
  ⟨0x42, 8, 8, [.standby, .ready, .print, .service], [(18, 0xFF), (19, 0xFF)], slotNames, loopModeRun⟩

/-! ## LOOP_QUERY (R196, R463, R472) -/

def loopQueryRun (c : Cmd) (s : State) : Verdict :=
  let l := s.ctl.loops[slotNumber c]
  .reply s { status := .ok, w0 := fieldInt 32 l.y, w1 := fieldInt 32 l.r, w2 := fieldInt 32 l.out
             w3 := l.mode.code + 16 * bit (l.pending.isSome || l.slew.isSome) + 32 * bit l.sat, w4 := l.missed }
def loopQuerySpec : OpSpec :=
  ⟨0x43, 4, 4, allModes, [(17, 0xFF), (18, 0xFF), (19, 0xFF)], slotNames, loopQueryRun⟩

/-! ## The commands -/

/-- LOOP_SET. -/
def execLoopSet (c : Cmd) (s : State) : Host.Outcome State Fault Refusal := .next (direct loopSetSpec c s)
/-- LOOP_SETPOINT. -/
def execLoopSetpoint (c : Cmd) (s : State) : Host.Outcome State Fault Refusal := .next (direct loopSetpointSpec c s)
/-- LOOP_MODE. -/
def execLoopMode (c : Cmd) (s : State) : Host.Outcome State Fault Refusal := .next (direct loopModeSpec c s)
/-- LOOP_QUERY. -/
def execLoopQuery (c : Cmd) (s : State) : Host.Outcome State Fault Refusal := .next (direct loopQuerySpec c s)

end Sys2Proof.Machine
end

