-- ==== Sys2Proof/Machine/MotorCmds.lean ====
section
/-! DEFINITION. Motor opcodes 0x38..0x3B (R192..R194, R437, R443, R445, R446, R449). -/

namespace Sys2Proof.Machine

/-- The channel number of a packet; check 8 has refused one that the part does not enable. -/
def motorNumber (c : Cmd) : Fin 10 := Fin.ofNat 10 (Cmd.p8 c 16)

/-- Check 8: the part enables the channel (R3). -/
def motorNames (s : State) (c : Cmd) : Option Nat :=
  if 10 ≤ Cmd.p8 c 16 || !motorOn s (Cmd.p8 c 16) then some 16 else none

/-- M8 or M9 under a mode of its speed input (R445). -/
def underSpdcmd (s : State) (m : Fin 10) : Bool :=
  let b := motorBody s
  decide (8 ≤ m.1) && !b.isEmpty && spdMode b (m.1 - 8) != 0

/-- MOTOR_START (R193). DESIGN CHOICE, log 119: a channel that is COASTING or BRAKING counts as already running, BUSY 0x13. -/
def motorStartRun (c : Cmd) (s : State) : Verdict :=
  let m := motorNumber c
  let e := motorOf s m
  let x := s.mot.ch[m]
  if !moEnabled e then refuse s (failAt c .badParam 0x40 16)
  else if moMaxSpeed e < Cmd.p32 c 20 then refuse s (failAt c .badParam 0x40 20)
  else if x.state != .stopped && x.state != .fenced then refuse s (fail .busy 0x13)
  else if x.owned then refuse s (fail .state 0x42)
  else if underSpdcmd s m then refuse s (fail .state 0x43)
  else if x.state == .fenced then refuse s (fail .fenced 0)
  else .reply (startMotor s m (Cmd.p32 c 20)) { status := .accepted }
def motorStartSpec : OpSpec :=
  ⟨0x38, 8, 8, [.standby, .ready, .print, .service], [(17, 0xFF), (18, 0xFF), (19, 0xFF)], motorNames, motorStartRun⟩

/-- MOTOR_STOP suspends the control of a speed input (R446). -/
def suspendInput (s : State) (m : Fin 10) : State :=
  if underSpdcmd s m then s.modMotor m fun x => { x with suspended := true, lowSince := none } else s

def motorStopRun (c : Cmd) (s : State) : Verdict :=
  let m := motorNumber c
  let x := s.mot.ch[m]
  let kind := Cmd.p8 c 17
  if !moEnabled (motorOf s m) then refuse s (failAt c .badParam 0x40 16)
  else if 1 < kind then refuse s (failAt c .badParam 0x40 17)
  else if kind == 0 && x.owned then refuse s (fail .state 0x42)
  else if kind == 0 then .reply (suspendInput (controlledStop s m) m) okRes
  else
    let t := suspendInput (coast s m) m
    .reply (if x.owned then ownedStop t else t) okRes
def motorStopSpec : OpSpec :=
  ⟨0x39, 4, 4, [.standby, .ready, .print, .runout, .halt, .service], [(18, 0xFF), (19, 0xFF)], motorNames, motorStopRun⟩

/-- A channel that runs toward or at its setpoint, which MOTOR_SET_SPEED may move. -/
def MotorState.runs : MotorState → Bool
  | .catching | .aligning | .ramping | .running => true
  | _ => false

/-- A channel cause is raised (R450), with a flag of MOT FLAGS when it has one. -/
def motorRaise (s : State) (m : Fin 10) (cause value flag : Nat) : State :=
  let s := if flag < 6 then
      (s.modMotor m fun x => { x with flags := x.flags ||| BitVec.ofNat 6 (2 ^ flag) }).stick (0x2014 + 0x40 * m.1) (2 ^ flag)
    else s
  raise s (0xD0 + m.1) (cause + 256 * value)

/-- At-speed dwell (R437): the speed has been within the band for the dwell; not with a loss of synchronism (R448). -/
def atSpeed (s : State) (m : Fin 10) : State :=
  let x := s.mot.ch[m]
  if x.state == .ramping && !x.openLoop && inBand (motorOf s m) x.speed x.setpoint && !coming s (· == .lossOfSynchronism m) then
    let s := motorRaise (motorSlotKeep (s.modMotor m fun x => { x with state := .running, restarts := 0 }) m) m 0x01 0 6
    if h : m.1 < 6 then spinDone s ⟨m.1, h⟩ else s
  else s

/-- AT_SPEED stands before a new setpoint of the same cycle (R448). -/
def speedReached (s : State) (m : Fin 10) : State := if coming s (· == .atSpeedDwell m) then atSpeed s m else s

def motorSetSpeedRun (c : Cmd) (s : State) : Verdict :=
  let m := motorNumber c
  let e := motorOf s m
  let x := s.mot.ch[m]
  if !moEnabled e then refuse s (failAt c .badParam 0x40 16)
  else if moMaxSpeed e < Cmd.p32 c 20 then refuse s (failAt c .badParam 0x40 20)
  else if !x.state.runs && x.state != .fenced then refuse s (fail .state 0x41)
  else if x.owned then refuse s (fail .state 0x42)
  else if underSpdcmd s m then refuse s (fail .state 0x43)
  else if x.state == .fenced then refuse s (fail .fenced 0)
  else .reply (setSpeed (speedReached s m) m (Cmd.p32 c 20)) okRes
def motorSetSpeedSpec : OpSpec :=
  ⟨0x3A, 8, 8, [.standby, .ready, .print, .runout, .service], [(17, 0xFF), (18, 0xFF), (19, 0xFF)], motorNames, motorSetSpeedRun⟩

def motorQueryRun (c : Cmd) (s : State) : Verdict :=
  let m := motorNumber c
  let x := s.mot.ch[m]
  if !moEnabled (motorOf s m) then refuse s (failAt c .badParam 0x40 16)
  else .reply s { status := .ok, w0 := x.speed, w1 := x.setpoint, w2 := x.state.code, w3 := x.peak, w4 := s.mot.busV }
def motorQuerySpec : OpSpec :=
  ⟨0x3B, 4, 4, allModes, [(17, 0xFF), (18, 0xFF), (19, 0xFF)], motorNames, motorQueryRun⟩

/-! ## The commands -/

/-- MOTOR_START. -/
def execMotorStart (c : Cmd) (s : State) : Host.Outcome State Fault Refusal := .next (direct motorStartSpec c s)
/-- MOTOR_STOP. -/
def execMotorStop (c : Cmd) (s : State) : Host.Outcome State Fault Refusal := .next (direct motorStopSpec c s)
/-- MOTOR_SET_SPEED. -/
def execMotorSetSpeed (c : Cmd) (s : State) : Host.Outcome State Fault Refusal := .next (direct motorSetSpeedSpec c s)
/-- MOTOR_QUERY. -/
def execMotorQuery (c : Cmd) (s : State) : Host.Outcome State Fault Refusal := .next (direct motorQuerySpec c s)

end Sys2Proof.Machine
end

