-- ==== Sys2Proof/Machine/Table.lean ====
section
/-! DEFINITION. The opcode table of the command reference (R172): the specification of each defined opcode. -/

namespace Sys2Proof.Machine

/-- Device, recipe and sheet opcodes. -/
def sheetOpcodes : List OpSpec :=
  [nopSpec, echoSpec, getInfoSpec, getStatusSpec, setModeSpec, setWakeBudgetSpec, setEventRouteSpec, loadRecipeSpec,
   queryRecipeSpec, activateSpec, openJobSpec, admitSheetSpec, commitSheetSpec, cancelSheetSpec, closeJobSpec,
   querySheetSpec, evictLeavesSpec]

/-- Axis, motor, loop, head and station opcodes. -/
def engineOpcodes : List OpSpec :=
  [axisHomeSpec, axisMoveSpec, groupMoveSpec, axisStopSpec, axisQuerySpec, motorStartSpec, motorStopSpec,
   motorSetSpeedSpec, motorQuerySpec, loopSetSpec, loopSetpointSpec, loopModeSpec, loopQuerySpec, headScanSpec,
   headMaintainSpec, headMarkDeadSpec, stationCalibrateSpec, stationLockSpec, stationQuerySpec]

/-- DRAM, fault, fuse, journal and codec opcodes. -/
def systemOpcodes : List OpSpec :=
  [dramTrainSpec, dramSetRateSpec, dramQuerySpec, faultReadSpec, faultClearSpec, faultSetSeveritySpec, faultInjectSpec,
   fuseReadSpec, fuseShadowSpec, fuseBurnSpec, fuseLockSpec, journalReadSpec, journalSealSpec, journalCollectedSpec,
   serialQuerySpec, serialAnchorSpec, codecRunSpec, provisionSpec]

/-- Every defined opcode. -/
def opcodes : List OpSpec := sheetOpcodes ++ engineOpcodes ++ systemOpcodes

/-- The specification of an opcode byte; none when it is undefined (check 1 of R147). -/
def opSpecOf (op : Nat) : Option OpSpec := opcodes.find? fun o => o.op == op

end Sys2Proof.Machine
end

