-- ==== Sys2Proof/Machine/Intake.lean ====
section
/-!
DEFINITION. The Kettle's intake (R112, R140, R145, R155..R160): packets from rings and SPI ports, and the start of a
packet whatever its opcode.
-/

namespace Sys2Proof.Machine

/-- The command that 64 packet bytes spell (R140): an indirect packet has its parameters once its block has been read. -/
def cmdOf (src : Source) (raw : List Byte) (signed : Bool) : Cmd :=
  let indirect := bitOf (u8 raw 1) 0
  { src := src, flags := raw.getD 1 0, tag := BitVec.ofNat 16 (u16 raw 2), deadline := BitVec.ofNat 32 (u32 raw 8)
    seq := BitVec.ofNat 32 (u32 raw 12), params := if indirect then [] else bytesAt raw 16 (min 48 (u16 raw 4))
    indirect := indirect, block := if indirect then bytesAt raw 16 48 else [], signed := signed, reads := [] }

/-- A packet as the intake holds it. -/
def packetOf (src : Source) (raw : List Byte) (signed : Bool) (place : Place) : Packet :=
  ⟨raw, raw.getD 0 0, cmdOf src raw signed, BitVec.ofNat 64 (u64 raw 16), u32 raw 24, place, .live, false⟩

/-- A packet is accepted (R156): checks 1 to 5 of R147, and its place in acceptance order. -/
def enter (s : State) (src : Source) (raw : List Byte) (place : Place) : State :=
  let p := packetOf src raw false place
  let x := accept s (opSpecOf p.op.toNat) raw p.cmd
  if x.1 then x.2.modKtl fun k => { k with intake := k.intake ++ [p] } else x.2

/-- Whether an accepted packet waits at an SPI port for a place (R155). -/
def atPort (src : Source) (p : Packet) : Bool := p.place == .port && p.cmd.src == src
def waitsAt (s : State) (src : Source) : Bool := s.ktl.intake.any (atPort src)

/-- The oldest packet at an SPI port takes a place; the turn goes on to `turn`. -/
def takePlace (s : State) (src : Source) (turn : Nat) : State :=
  s.modKtl fun k => { k with turn := turn, intake := updFirst (atPort src) (fun p => { p with place := .held }) k.intake }

/-- One SPI packet takes a place, the supervisor port, the management port and the rings in their turns (R155). While it is
the turn of the rings and one fetches, its entry keeps the last free place (log 99). -/
def placeOne (s : State) : State :=
  let ring := s.hif.cr.toList.any ringFetches
  let sup := waitsAt s .sup
  let mgmt := waitsAt s .mgmt
  if !intakeRoom s then s
  else if s.ktl.turn = 2 && ring && decide (15 ≤ placesTaken s) then s
  else if s.ktl.turn = 1 then (if mgmt then takePlace s .mgmt 2 else if sup then takePlace s .sup 1 else s)
  else if sup then takePlace s .sup 1
  else if mgmt then takePlace s .mgmt 2
  else s

/-- The intake takes what waits at the SPI ports as far as it has room. -/
def fillIntake (s : State) : State := iter placeOne s.ktl.intake.length s

/-- A started packet goes on: it waits for its indirect block (R145), or runs. -/
def proceed (sp : OpSpec) (p : Packet) (reads : List Fetch) (s : State) : State :=
  match startFault sp s with
  | some r => deliver s p.cmd p.fate (r.reply p.cmd)
  | none =>
    if p.cmd.indirect then s.modKtl fun k => { k with fetching := k.fetching ++ [p] }
    else runCommand sp { p.cmd with reads := reads } p.fate false s

/-- The next packet in acceptance order starts (R157, R160), once it stands in the intake. -/
def startNext (s : State) (reads : List Fetch) : State :=
  match s.ktl.intake with
  | [] => s
  | p :: rest =>
    if !kettleUp s || p.place != .held || !mayStart s p.cmd then s
    else
      let s := s.modKtl fun k => { k with intake := rest }
      fillIntake (match opSpecOf p.op.toNat with | some sp => proceed sp p reads s | none => s)

/-- The block of the packet that has waited longest has been read (R145), or a read of it has failed. -/
def blockFetched (s : State) (r : Fetch) (reads : List Fetch) : State :=
  match s.ktl.fetching with
  | [] => s
  | p :: rest =>
    let s := s.modKtl fun k => { k with fetching := rest }
    match r, opSpecOf p.op.toNat with
    | .ok l, some sp =>
      runCommand sp { p.cmd with params := padTo p.blockLen l, reads := reads } p.fate p.late s
    | _, _ => deliverLate s p.cmd p.fate p.late p.op.toNat ((Res.mk .badParam 0x08 0xFE 0 0 0 0 0 0).reply p.cmd)

/-! ## Command rings (R108..R112) -/

/-- An entry of a command ring has been fetched (R109, R112, R156). -/
def entryFetched (s : State) (n : Fin 4) (r : Fetch) : State :=
  if !ringFetches s.hif.cr[n] || !intakeRoom s then s
  else match r with
    | .ok l =>
      let s := s.modCr n fun x => { x with head := x.head + 1, awaiting := x.awaiting + 1, drained := false }
      let s := s.modHif fun h => { h with turn := (n.1 + 1) % 4 }
      fillIntake (enter (s.modKtl fun k => { k with turn := 0 }) (.ring n) (padTo 64 l) .held)
    | _ => ringStop s (.cmd n) 3

/-! ## The commands -/

/-- RING_ENTRY_FETCHED (R112): the ring whose turn it is among those that fetch; at another ring nothing happens. -/
def execRingEntryFetched (ring : Fin 4) (r : Fetch) (s : State) : Host.Outcome State Fault Refusal :=
  .next (overPcie s fun s =>
    let order := (List.range 4).map fun k => Fin.ofNat 4 (s.hif.turn + k)
    match order.find? fun n => ringFetches s.hif.cr[n] with
    | some n => if n = ring then entryFetched s ring r else s
    | none => s)

/-- PACKET_START. -/
def execPacketStart (reads : List Fetch) (s : State) : Host.Outcome State Fault Refusal := .next (startNext s reads)

/-- INDIRECT_BLOCK_FETCHED. -/
def execIndirectBlockFetched (r : Fetch) (reads : List Fetch) (s : State) : Host.Outcome State Fault Refusal :=
  .next (if kettleUp s then blockFetched s r reads else s)

end Sys2Proof.Machine
end

