-- ==== Sys2Proof/Machine/Spi.lean ====
section
/-! DEFINITION. The two SPI targets (R119..R134, R171, R369, R516): frames, queues, replies and signed frames. -/

namespace Sys2Proof.Machine

/-! ## Frames (R120, R121, R129) -/

/-- Whether a target answers frames at all: the management port from the end of boot stage 2 (R127), the supervisor port
in every mode but RESET (R129). -/
def portAnswers (s : State) : SpiPort → Bool
  | .mgmt => s.sys.up
  | .sup => s.sys.mode != .reset

/-- The register path of a port. -/
def SpiPort.path : SpiPort → Path
  | .mgmt => .mgmt
  | .sup => .sup

/-- The packet source of a port. -/
def SpiPort.source : SpiPort → Source
  | .mgmt => .mgmt
  | .sup => .sup

/-- A discarded frame (R121, R501): FRAME_ERR, or CRC_ERR. -/
def badFrame (s : State) (p : SpiPort) (crc : Bool) : State :=
  let s := s.modSpi p fun x => if crc then { x with crcErr := true } else { x with frameErr := true }
  raise s 0x05 (bit (p == .sup) + 2 * bit crc)

/-- A frame of the instruction, with exactly n bytes. -/
def frameIs (frame : List Byte) (instr n : Nat) : Bool := u8 frame 0 == instr && frame.length == n

/-- Whether the CRC that the master sent at the end of a write frame holds. -/
def crcOk (frame : List Byte) : Bool := crc8 frame.dropLast == frame.getLast?.getD 0

/-- What a frame that reaches an answering target does. -/
def onFrame (s : State) (p : SpiPort) (good : Bool) (f : State → State) : State :=
  if !portAnswers s p then s else if good then f s else badFrame s p false

/-- The answer of a read frame: the turnaround, the data, and the CRC over the whole frame, `head` being what the master
has sent before (log 50). -/
def answer (s : State) (p : SpiPort) (head data : List Byte) : State :=
  emit s (.miso p (0xFF :: data ++ [crc8 (head ++ 0xFF :: data)]))

/-! ## Registers (R120, R126, R127, R130) -/

/-- The head of a register frame: a COUNT of at most 63, an address that is a multiple of n (R119, R120). -/
def registerHead (frame : List Byte) (n : Nat) : Bool := u16 frame 1 % n == 0 && decide (u8 frame 3 ≤ 63)

/-- Words of a frame to consecutive registers. -/
def writeWords (p : Path) (a : Nat) : List Byte → Nat → State → State
  | _, 0, s => s
  | l, n + 1, s => writeWords p (a + 4) (l.drop 4) n (writeReg s p a (BitVec.ofNat 32 (u32 l 0)))

/-- Consecutive registers read in order: their bytes, and the state with what the reads change. -/
def readWords (p : Path) (a : Nat) : Nat → State → List Byte × State
  | 0, s => ([], s)
  | n + 1, s =>
    let x := readReg s p a
    let y := readWords p (a + 4) n x.2
    (leBytes 4 x.1.toNat ++ y.1, y.2)

/-- WRITE_REG. -/
def writeFrame (s : State) (frame : List Byte) : State :=
  let n := u8 frame 3 + 1
  onFrame s .mgmt (frameIs frame 0x02 (5 + 4 * n) && registerHead frame 4) fun s =>
    if crcOk frame then writeWords .mgmt (u16 frame 1) (frame.drop 4) n s else badFrame s .mgmt true

/-- READ_REG. -/
def readFrame (s : State) (p : SpiPort) (frame : List Byte) : State :=
  let n := u8 frame 3 + 1
  onFrame s p (frameIs frame 0x0B (6 + 4 * n) && registerHead frame 4) fun s =>
    let x := readWords (SpiPort.path p) (u16 frame 1) n s
    answer x.2 p (frame.take 4) x.1

/-! ## Status (R122, R125, R516) -/

/-- EVENT of a port. -/
def portEvent (s : State) (p : SpiPort) : Bool :=
  s.flt.src.toList.any fun x => match x.pend with
    | none => false
    | some l => match p with
      | .mgmt => x.route.getLsbD 1
      | .sup => decide (Level.fence.toNat ≤ l.toNat) || x.route.getLsbD 2

/-- The port status byte. -/
def portStatus (s : State) (p : SpiPort) : Nat :=
  let x := s.spi p
  bit (!x.replies.isEmpty) + 2 * bit x.queueFull + 4 * bit x.frameErr + 8 * bit x.crcErr + 16 * bit s.sys.up +
  32 * bit (portEvent s p)

/-- MG_INT_N or SP_INT_N is driven low (R125). -/
def portInterrupt (s : State) (p : SpiPort) : Bool := !(s.spi p).replies.isEmpty || portEvent s p

/-- READ_STATUS clears the sticky bits it has shown. -/
def statusFrame (s : State) (p : SpiPort) (frame : List Byte) : State :=
  onFrame s p (frameIs frame 0x05 4) fun s =>
    answer (s.modSpi p fun x => { x with frameErr := false, crcErr := false }) p (frame.take 1) (leBytes 1 (portStatus s p))

/-! ## Packets and replies (R123, R124, R128, R162, R171) -/

/-- Packets of a port that await their reply. -/
def queued (x : Spi) : List Queued := x.queue.filter fun q => !q.timed

/-- A packet reaches a port: it is discarded when the port takes none, answered when its tag is queued, and otherwise
queued and handed on. -/
def takePacket (s : State) (p : SpiPort) (packet : List Byte) (go : State → State) : State :=
  let x := s.spi p
  if !s.sys.up || decide (4 ≤ (queued x).length) then s.modSpi p fun x => { x with queueFull := true }
  else
    let s := s.modSpi p fun x => { x with queueFull := false }
    let c := cmdOf (SpiPort.source p) packet false
    if (queued x).any fun q => q.tag == c.tag then
      s.modSpi p fun x => { x with replies := x.replies ++ [(fail .busy 0x14).reply c] }
    else go (s.modSpi p fun x => { x with queue := x.queue ++ [queuedOf c] })

/-- SUBMIT. -/
def submitFrame (s : State) (p : SpiPort) (frame : List Byte) : State :=
  onFrame s p (frameIs frame 0x20 66) fun s =>
    if !crcOk frame then badFrame s p true
    else
      let packet := bytesAt frame 1 64
      takePacket s p packet fun s => if kettleUp s then fillIntake (enter s (SpiPort.source p) packet .port) else s

/-- Bytes of a reply on a port (R128, R171). -/
def portReply (s : State) (p : SpiPort) (r : Reply) : List Byte :=
  if p == .mgmt && s.sys.compat then r.short else r.bytes

/-- Length of a reply on a port. -/
def replyLength (s : State) (p : SpiPort) : Nat := if p == .mgmt && s.sys.compat then 16 else 32

/-- FETCH_REPLY: the oldest completed reply, or 0xFF bytes. -/
def fetchFrame (s : State) (p : SpiPort) (frame : List Byte) : State :=
  onFrame s p (frameIs frame 0x21 (3 + replyLength s p)) fun s =>
    match (s.spi p).replies with
    | [] => answer s p (frame.take 1) (List.replicate (replyLength s p) 0xFF)
    | r :: rest => answer (s.modSpi p fun x => { x with replies := rest }) p (frame.take 1) (portReply s p r)

/-- Whether a happening completes the packet of a source and tag (R14): the start of a short one, the end of its block or of
its hardware, or the durability of the record that it waits for. -/
def completes (s : State) (src : Source) (tag : BitVec 16) (i : Instr) : Bool :=
  let is := fun (c : Cmd) => c.src == src && c.tag == tag
  match i with
  | .packetStart _ => s.ktl.intake.head?.any fun p => is p.cmd && !p.cmd.indirect && !longOp p.op.toNat
  | .indirectBlockFetched _ _ => s.ktl.fetching.head?.any fun p => is p.cmd && !longOp p.op.toNat
  | .parkedCommandResume k _ => s.ktl.parked[k]?.any fun p => is p.cmd && p.wait == .hardware
  | .recordProgramComplete _ => s.ktl.parked.any fun p => is p.cmd &&
      (match p.wait with | .record t => s.jnl.staged.head?.any fun r => r.ticket == t | _ => false)
  | .dramTrainStepEnd _ => s.drc.training.isSome && s.ktl.parked.any fun p => is p.cmd && p.op == 0x58
  | _ => false

/-- The reply timeout of a queued packet (R124): a TIMEOUT reply, and none for the command later. -/
def portTimeout (s : State) (p : SpiPort) (tag : BitVec 16) : State :=
  let due := fun (q : Queued) => q.tag == tag && q.reply && !q.timed
  match (s.spi p).queue.find? due with
  | none => s
  | some q =>
    let r : Reply := { tag := tag, status := .timeout, detail := BitVec.ofNat 32 (fail .timeout 0x15).detail, seq := q.seq }
    s.modSpi p fun x => { x with
      queue := updFirst due (fun q => { q with timed := true }) x.queue, replies := x.replies ++ [r] }

/-! ## Signed frames (R131, R133, R134) -/

/-- The frame at the head enters verification: it is checked against the present nonce, and a new one is drawn. -/
def startVerify (s : State) : State :=
  match s.sup.signed with
  | [] => s
  | f :: rest =>
    (s.modSup fun x => { x with
      signed := { f with nonce := x.nonce } :: rest, nonce := Config.freeNonce s.free }).drawn

/-- SUBMIT_SIGNED: the packet is accepted with its frame (R156), and stands before those accepted later (log 99). -/
def signedFrame (s : State) (frame : List Byte) : State :=
  onFrame s .sup (frameIs frame 0x31 194) fun s =>
    if !crcOk frame then badFrame s .sup true
    else
      let packet := bytesAt frame 1 64
      takePacket s .sup packet fun s =>
        let f : SignedFrame := ⟨packet, bytesAt frame 65 64, bytesAt frame 129 64, 0⟩
        let first := s.sup.signed.isEmpty
        let s := s.modSup fun x => { x with signed := x.signed ++ [f] }
        let s := s.modKtl fun k => { k with intake := k.intake ++ [packetOf .sup packet true .verifying] }
        if first then startVerify s else s

/-- The supervisor key hash of the KEY fuses (R527); none when a word of it is blank. -/
def supervisorHash (s : State) : Option (List Byte) :=
  if (List.range 4).any fun k => getN s.fus.latched (132 + k) 0 == 0 then none else some (fuseBytes s 132 4)

/-- The checks of a signed frame (R133). -/
def frameVerified (s : State) (f : SignedFrame) : Bool :=
  supervisorHash s == some (sha256 f.key) &&
  ecdsaVerify f.key f.sig (sha256 (f.packet ++ leBytes 16 f.nonce.toNat))

/-- The oldest packet whose signature is being verified leaves its place in acceptance order. -/
def dropVerifying (s : State) : State :=
  s.modKtl fun k => { k with intake := k.intake.eraseP (·.place == .verifying) }

/-- Whether the supervisor port has accepted a packet with a sequence after the oldest one in verification. -/
def laterSequence (s : State) : Bool :=
  (s.ktl.intake.dropWhile (·.place != .verifying)).any fun p => p.place != .verifying && p.cmd.src == .sup && p.cmd.seq != 0

/-- The oldest packet whose signature has been verified waits for a place in the intake: checks 1 to 5 of R147 are made now.
Its sequence is stored unless one accepted later stands there already (R161). -/
def admitVerified (s : State) (f : SignedFrame) : State :=
  let c := cmdOf .sup f.packet true
  match checked s (opSpecOf (u8 f.packet 0)) f.packet c with
  | some r => dropVerifying (post s c r)
  | none =>
    let later := laterSequence s
    let p := packetOf .sup f.packet true .port
    (if later then s else remember s c).modKtl fun k => { k with
      intake := updFirst (·.place == .verifying)
        (fun (_ : Packet) => if later then { p with fate := .stale } else p) k.intake }

/-- The verification of the head frame ends: its packet goes on, or its reply is SIGNATURE; the next frame follows. -/
def verified (s : State) : State :=
  match s.sup.signed with
  | [] => s
  | f :: rest =>
    let s := s.modSup fun x => { x with signed := rest }
    let s :=
      if frameVerified s f then admitVerified s f
      else dropVerifying (replySpi (raise s 0x06 0) .sup ((Res.mk .signature 0 0xFF 0 0 0 0 0 0).reply (cmdOf .sup f.packet true)) true)
    fillIntake (startVerify s)

/-! ## The journal buffer (R369) -/

/-- READ_JBUF: 16-byte multiples of the 4 KiB buffer; beyond its records it reads 0. -/
def jbufFrame (s : State) (frame : List Byte) : State :=
  let n := u8 frame 3 + 1
  onFrame s .sup (frameIs frame 0x30 (6 + 4 * n) && registerHead frame 16) fun s =>
    answer s .sup (frame.take 4) (bytesAt s.sup.jbuf (u16 frame 1) (4 * n))

/-! ## The commands -/

/-- WRITE_REG. -/
def execWriteReg (frame : List Byte) (s : State) : Host.Outcome State Fault Refusal := .next (writeFrame s frame)

/-- READ_REG. -/
def execReadReg (port : SpiPort) (frame : List Byte) (s : State) : Host.Outcome State Fault Refusal :=
  .next (readFrame s port frame)

/-- READ_STATUS. -/
def execReadStatus (port : SpiPort) (frame : List Byte) (s : State) : Host.Outcome State Fault Refusal :=
  .next (statusFrame s port frame)

/-- SUBMIT. -/
def execSubmit (port : SpiPort) (frame : List Byte) (s : State) : Host.Outcome State Fault Refusal :=
  .next (submitFrame s port frame)

/-- FETCH_REPLY. -/
def execFetchReply (port : SpiPort) (frame : List Byte) (s : State) : Host.Outcome State Fault Refusal :=
  .next (fetchFrame s port frame)

/-- READ_JBUF. -/
def execReadJbuf (frame : List Byte) (s : State) : Host.Outcome State Fault Refusal := .next (jbufFrame s frame)

/-- SUBMIT_SIGNED. -/
def execSubmitSigned (frame : List Byte) (s : State) : Host.Outcome State Fault Refusal := .next (signedFrame s frame)

/-- SIGNATURE_VERIFIED: the verification of the frame that has waited longest ends. -/
def execSignatureVerified (s : State) : Host.Outcome State Fault Refusal := .next (whenUp s verified)

/-- SPI_REPLY_TIMEOUT. -/
def execSpiReplyTimeout (port : SpiPort) (tag : BitVec 16) (s : State) : Host.Outcome State Fault Refusal :=
  .next (whenUp s fun s => giveWay s (completes s (SpiPort.source port) tag) (portTimeout s port tag))

end Sys2Proof.Machine
end

