-- ==== Sys2Proof/Machine/Kettle.lean ====
section
/-! DEFINITION. Parked commands, deadlines and restarts of the Kettle (R157, R163..R170). -/

namespace Sys2Proof.Machine

/-! ## Hardware completions (R157, R176) -/

/-- What a parked command does when its hardware has ended: nothing when the completion is not its own, or, for a
CODEC_RUN, when the run goes on. -/
def resumed (s : State) (op : Nat) (c : Cmd) (d : Resume) : Option (State × Res) :=
  match op, d with
  | 0x10, .verified => some (loadImage s c.params)
  | 0x48, .headMemories mems => some (headScanDone s c mems)
  | 0x49, .headDone => some (headMaintainDone s c)
  | 0x50, .calibrated => calibrateDone s c
  | 0x61, .march fails => some (marchDone s fails)
  | 0x6A, .burned back => some (fuseBurnDone s c back)
  | 0x6B, .burned _ => some (fuseLockDone s c)
  | 0x78, .codec source reached pending upset => codecDone s c source reached pending upset
  | 0x7F, .entropy healthy key => some (provisionDone s c healthy key)
  | _, _ => none

/-- Opcodes whose record is asked for when their hardware has ended (R176). -/
def recordsAtEnd (op : Nat) : Bool := op == 0x6A || op == 0x6B || op == 0x7F

/-- A command whose hardware has ended completes once its record is formed, and in audited printing durable (R176, R362). -/
def journaledEnd (before s : State) (r : Res) : Verdict :=
  if !jnlOn s || decide (s.jnl.tickets ≤ before.jnl.tickets) then .reply s r
  else if audited before || audited s then .park s (.record s.jnl.tickets) (some r)
  else if ticketFormed s s.jnl.tickets then .reply s r
  else .park s (.formed s.jnl.tickets) (some r)

/-- A commit step that waits for room in the staging buffer is tried again (R362). -/
def retryRoom (s : State) : State :=
  match s.ktl.parked.findIdx? fun p => p.wait == .room with
  | none => s
  | some k => match s.ktl.parked[k]? with
    | none => s
    | some p => match opSpecOf p.op.toNat with
      | some sp => runCommand sp p.cmd p.fate p.late (s.modKtl fun x => { x with parked := x.parked.eraseIdx k })
      | none => s

/-- A parked command goes on: it completes, or waits further for its record. -/
def resumeParked (s : State) (k : Nat) (d : Resume) : State :=
  match s.ktl.parked[k]? with
  | none => s
  | some p =>
    if p.wait != .hardware then s
    else match resumed s p.op.toNat p.cmd d with
      | none => s
      | some (t, r) =>
        if recordsAtEnd p.op.toNat then
          match journaledEnd s t r with
          | .park t w _ => t.modKtl fun x =>
              { x with parked := updAt (fun q => { q with wait := w, reply := some (r.reply p.cmd) }) k x.parked }
          | .reply t r => finishParked t k (r.reply p.cmd)
        else finishParked t k (r.reply p.cmd)

/-! ## Deadlines (R163..R166) -/

/-- Whether a command is the one named and has a deadline. -/
def expires (src : Source) (tag : BitVec 16) (c : Cmd) : Bool := c.src == src && c.tag == tag && c.deadline != 0

/-- What a command that is stopped while its hardware works leaves behind: its unit is free again, and a calibration asked
for is not made. -/
def withdraw (s : State) (op : Nat) (c : Cmd) : State :=
  if op = 0x49 then s.modHead (headNumber c) fun x => { x with capMove := none }
  else if op = 0x50 then
    let k := stationNumber c
    if (calKinds c).getLsbD 0 then s.modBtu k fun b => { b with calRunning := false, calDue := calDrifted s k } else s
  else if op = 0x59 then s.modDrc fun d => { d with ratePend := none }
  else s

/-- The deadline of a parked command: a run-to-end one goes on and is late; CODEC_RUN ends in part; one that has committed and
waits for its record goes on (log 49), and ACTIVATE_RECIPES commits only with its record (R185); every other one ends without
effect. -/
def parkedExpired (s : State) (k : Nat) (p : Parked) : State :=
  if runToEnd p.op.toNat then s.modKtl fun x => { x with parked := updAt (fun q => { q with late := true }) k x.parked }
  else match p.wait with
    | .record _ | .formed _ => if p.op == 0x12 then finishParked s k ((fail .timeout 0x0C).reply p.cmd) else s
    | .hardware =>
      if p.op == 0x78 then
        let x := codecExpired s p.cmd
        finishParked x.1 k (x.2.reply p.cmd)
      else finishParked (withdraw s p.op.toNat p.cmd) k ((fail .timeout 0x0C).reply p.cmd)
    | _ => finishParked s k ((fail .timeout 0x0C).reply p.cmd)

/-- The deadline of a packet that waits for its indirect block. -/
def fetchExpired (s : State) (k : Nat) (p : Packet) : State :=
  if runToEnd p.op.toNat then
    s.modKtl fun x => { x with fetching := updAt (fun q => { q with late := true }) k x.fetching }
  else
    deliver (s.modKtl fun x => { x with fetching := x.fetching.eraseIdx k }) p.cmd p.fate
      ((fail .timeout 0x0C).reply p.cmd)

/-- A packet in verification leaves the line with its frame; the next frame's verification starts. -/
def dropFrame (s : State) (j : Nat) : State :=
  let s := s.modSup fun x => { x with signed := x.signed.eraseIdx j }
  if j = 0 then startVerify s else s

/-- The deadline of a packet that has not started. -/
def waitExpired (s : State) (k : Nat) (p : Packet) : State :=
  let before := (s.ktl.intake.take k).countP (·.place == .verifying)
  let s := s.modKtl fun x => { x with intake := x.intake.eraseIdx k }
  let s := if p.place == .verifying then dropFrame s before else s
  fillIntake (deliver s p.cmd p.fate ((fail .timeout 0x0B).reply p.cmd))

/-- A deadline expires: before the start, while the block is read, or while the command is parked. -/
def deadline (s : State) (src : Source) (tag : BitVec 16) : State :=
  match s.ktl.intake.findIdx? fun p => expires src tag p.cmd with
  | some k => (match s.ktl.intake[k]? with | some p => waitExpired s k p | none => s)
  | none => match s.ktl.fetching.findIdx? fun p => expires src tag p.cmd with
    | some k => (match s.ktl.fetching[k]? with | some p => fetchExpired s k p | none => s)
    | none => match s.ktl.parked.findIdx? fun p => expires src tag p.cmd with
      | some k => (match s.ktl.parked[k]? with | some p => parkedExpired s k p | none => s)
      | none => s

/-! ## Restarts (R167..R170) -/

/-- The reply of a packet that a restart interrupted. -/
def restartReply (c : Cmd) (op : Nat) : Reply :=
  { (fail .busy (if runToEnd op then 0x11 else 0x10)).reply c with restart := true }

/-- The reply of a parked command at a restart (R169, log 49): the logged reply of one that has committed and waits for
its record alone. ACTIVATE_RECIPES commits only with its record (R185). -/
def parkedRestart (s : State) (p : Parked) : Reply :=
  match p.wait, p.reply with
  | .record t, some r =>
    if p.op == 0x12 then restartReply p.cmd 0x12
    else if p.op == 0x71 || p.op == 0x74 then
      match ticketIndex s t with
      | some i => { r with restart := true, w0 := BitVec.ofNat 32 i, w1 := BitVec.ofNat 32 (i / 2 ^ 32) }
      | none => restartReply p.cmd p.op.toNat
    else { r with restart := true }
  | .formed _, some r =>
    if p.op == 0x12 || p.op == 0x74 then restartReply p.cmd p.op.toNat else { r with restart := true }
  | _, _ => restartReply p.cmd p.op.toNat

/-- What the hardware of an interrupted command keeps: bits already burned stay burned, which of them is free (log 67);
a started CODEC_RUN is gone, and a resumed one stays saved. -/
def interruptParked (s : State) (p : Parked) : State :=
  let c := p.cmd
  if p.wait != .hardware then s
  else match p.op.toNat with
    | 0x6A =>
      let want := intendedRow s (Cmd.p8 c 16) (BitVec.ofNat 64 (Cmd.p64 c 20))
      (burnRow s (rowBehind s (Cmd.p8 c 16)) (Config.freeFuse s.free &&& want)).drawn
    | 0x6B => (burnRow s 239 (Config.freeFuse s.free &&& fuseRow (1#64 <<< Cmd.p8 c 16) 0)).drawn
    | 0x7F => provisionCut s c
    | 0x78 => modLane s (runLaneId c) fun l => { l.ended with saved := if runOp c = 0 then none else l.saved }
    | op => withdraw s op c

/-- Step 5 of a restart for one parked command, and for one that waited for its indirect block. -/
def replyParked (s : State) (p : Parked) : State := deliverLate (interruptParked s p) p.cmd p.fate p.late p.op.toNat (parkedRestart s p)
def replyFetching (s : State) (p : Packet) : State :=
  deliverLate s p.cmd p.fate p.late p.op.toNat (restartReply p.cmd p.op.toNat)

/-- A restart: every packet that was running or parked gets its reply; the intake goes on. -/
def restart (s : State) : State :=
  let parked := s.ktl.parked
  let fetching := s.ktl.fetching
  let s := s.modKtl fun k => { k with parked := [], fetching := [], restarts := s.now :: k.restarts }
  let s := fetching.foldl replyFetching (parked.foldl replyParked s)
  fillIntake (raise s 0x11 (parked.length + fetching.length))

/-- The Kettle stays out of service, and the device in HALT, until reset (R57, R170). -/
def kettleDead (s : State) (detail : Nat) : State :=
  haltForGood ((raise s 0x10 detail).modKtl fun k => { k with dead := true }) 0x10

/-- XCLK cycles of the 10 s of R170. -/
def restartWindow : Nat := 2000000000

/-- A trigger with its detail of KTL_LOCKSTEP (R502): the fourth within 10 s is raised at HALT alone (R170), a failed
self-test raises it once more there. -/
def kettleTrigger (s : State) (detail : Nat) (selfTest : Bool) : State :=
  if !kettleUp s then s
  else
    let s := s.modKtl fun k => { k with restarts := k.restarts.filter fun t => decide (s.now - t ≤ restartWindow) }
    if 3 ≤ s.ktl.restarts.length then kettleDead s 5
    else
      let s := raise s 0x10 detail
      if selfTest then restart s else kettleDead s 4

/-! ## The commands -/

/-- PARKED_COMMAND_RESUME. -/
def execParkedCommandResume (k : Nat) (d : Resume) (s : State) : Host.Outcome State Fault Refusal :=
  .next (if kettleUp s then resumeParked s k d else s)

/-- PACKET_DEADLINE_EXPIRY. -/
def execPacketDeadlineExpiry (src : Source) (tag : BitVec 16) (s : State) : Host.Outcome State Fault Refusal :=
  .next (if kettleUp s then giveWay s (completes s src tag) (deadline s src tag) else s)

/-- KETTLE_LOCKSTEP_MISMATCH: one that an injection causes carries its mark (R519). -/
def execKettleLockstepMismatch (selfTest : Bool) (s : State) : Host.Outcome State Fault Refusal :=
  .next (injected s 0x10 (kettleTrigger s 1 selfTest))

/-- KETTLE_WATCHDOG_EXPIRY. -/
def execKettleWatchdogExpiry (selfTest : Bool) (s : State) : Host.Outcome State Fault Refusal :=
  .next (kettleTrigger s 2 selfTest)

end Sys2Proof.Machine
end

