-- ==== Sys2Proof/Machine/Boot.lean ====
section
/-!
DEFINITION. Reset, the boot stages 0 to 3, power loss, and the standby events (R38, R43, R48..R66, R71, R475, R481, R537,
R548, R552..R555). The journal scan of stage 4 is in Machine/Scan.lean.
-/

namespace Sys2Proof.Machine

/-! ## Reset (R41, R66, R71, R552, R553, R555) -/

/-- What a reset leaves of the page that is being programmed (R66, R139): any bits of its records programmed or not, a free value
(log 24). -/
def cutProgram (s : State) : List (Nat × Byte) :=
  match s.jnl.staged with
  | [] => s.jnl.flash
  | r :: rest =>
    if programmable s r rest then
      flashProgram s.jnl.flash (recordAddr s r.idx)
        (((pageGroup s).map (·.bytes)).flatten.zipIdx.map fun (x : Byte × Nat) => x.1 ||| Config.freeFlash s.free x.2)
    else s.jnl.flash

/-- The state in RESET: every register at its reset value. The fuse array, the journal flash with its sectors left partly
erased, the PWRLOSS latch, what was sensed at power-on reset, and the levels at balls stay. -/
def resetState (s : State) (flash : List (Nat × Byte)) : State :=
  { State.reset with
    pending := s.pending, free := s.free, out := s.out
    sys := { pwrLossLatch := s.sys.pwrLossLatch }
    pins := { bankLost := s.pins.bankLost, hvOk := s.pins.hvOk, tap := s.pins.tap, tdo := s.pins.tdo, tapDead := s.pins.tapDead }
    clk := { cmos := s.clk.cmos, encLevels := s.clk.encLevels }
    hif := { perstLow := s.hif.perstLow }
    jnl := { flash := flash, erasing := s.jnl.erasing.take 1 }
    fus := { rows := s.fus.rows } }

/-- RST_N falls: a burn under way keeps the bits it has burned, a program under way is cut (R66, R169). -/
def enterReset (s : State) : State :=
  if s.sys.mode == .reset then s
  else
    let s := s.ktl.parked.foldl (fun t p =>
      if p.op == 0x6A || p.op == 0x6B || p.op == 0x7F then interruptParked t p else t) s
    (resetState s (cutProgram s)).drawn

/-- POWER_ON_RESET: the reference mode is sensed too (R71): a ball tied low selects CMOS mode. The test port starts afresh
(log 12). -/
def execPowerOnReset (xoLow : Bool) (s : State) : Host.Outcome State Fault Refusal :=
  .next (((enterReset s).modClk fun c => { c with cmos := xoLow }).modPins fun p =>
    { p with tap := .testLogicReset, tdo := false, tapDead := false })

/-- RST_N_ASSERT. -/
def execRstNAssert (s : State) : Host.Outcome State Fault Refusal := .next (enterReset s)

/-! ## Power loss (R47, R62..R65, R355, R570) -/

/-- Committed sheets that have not completed. -/
def openOnes (s : State) : List (Fin 512 × Sheet) := (sheets s).filter fun x => x.2.open

/-- Step 3 stops the encode lanes: a CODEC_RUN ends there as on entry to STANDBY, PARTIAL (log 109). -/
def stopEncodes (s : State) : State :=
  (List.finRange 12).foldl (fun s n =>
    if s.cdc.enc[n].state == .run then (standbyRun s (.enc n)).modEnc n Lane.ended else s) s

/-- Steps 1 to 3: outputs, sheets marked with POWER, head strobes suppressed, mode HALT, drives disabled, lanes stopped. -/
def powerStops (s : State) : State :=
  let s := haltOutputs (haltFromStandby s)
  let s := (openOnes s).foldl (fun s x => cancelMarks (spoil s x.1 .power) x.1) s
  let s := if s.sys.mode == .halt then s
    else enterMode (causeBy (s.modSys fun x => { x with wake := none, depthTarget := 0 }) 0xFC) .halt
  let s := s.modSys fun x => { x with haltUntilReset := true }
  stopEncodes (stopIngest (abandonAll (overAxes s disableAxis)))

/-- Power-loss handling: the flush and its latch come only once boot stage 4 has completed (R570). The whole of it, 4 ms
by R62, is one command here. -/
def powerLoss (s : State) : State :=
  let stage4 := decide (5 ≤ s.sys.bootStage)
  let ended := s.sys.mode != .boot
  let spoiled := (openOnes s).length
  let s := powerStops ((raise s 0xFC 0).modSys fun x => { x with pwrFail := true })
  if !stage4 then s
  else
    let on := jnlOn s
    let s := if on then powerLossFlush s spoiled else s
    if on || ended then s.modSys fun x => { x with pwrLossLatch := true } else s

/-- PWRFAIL_N_ASSERT: once begun it is carried to its end and is not begun again (R64). -/
def execPwrfailNAssert (s : State) : Host.Outcome State Fault Refusal :=
  .next (whenUp s fun s => if s.sys.pwrFail then s else powerLoss s)

/-! ## Stage 0 (R38, R55, R56, R65, R100, R134, R548) -/

/-- The level a strap is sampled at: one that changes in its window reads either level (R548). -/
def strap (s : State) : StrapLevel → Bool × State
  | .low => (false, s)
  | .high => (true, s)
  | .changing => (Config.freeStrap s.free, s.drawn)

/-- BOOT begins: straps, nonce, PWRLOSS, and the link when PERST_N is high already. -/
def release (s : State) (compat sris : StrapLevel) : State :=
  let a := strap s compat
  let b := strap a.2 sris
  let s := b.2.modSys fun x => { x with
    mode := .boot, bootStage := 0, compatStrap := a.1, compat := a.1, sris := b.1, pwrLoss := x.pwrLossLatch
    pwrLossLatch := false }
  let s := s.modClk fun c => { c with refOk := true }
  let s := s.modHif fun h => { h with link := if h.perstLow then .held else .training }
  let s := (s.modSup fun x => { x with nonce := Config.freeNonce s.free }).drawn
  { s with now := 0 }

/-- RESET_RELEASE: PWRFAIL_N found low ends the boot in HALT (R65). -/
def execResetRelease (compat sris : StrapLevel) (pwrfailLow : Bool) (s : State) : Host.Outcome State Fault Refusal :=
  .next (
    if s.sys.mode != .reset then s
    else
      let t := release s compat sris
      if pwrfailLow then powerLoss t else t)

/-- Boot goes on while the device is in BOOT at a stage. -/
def atStage (s : State) (k : Nat) : Bool := s.sys.mode == .boot && s.sys.bootStage == k
def toStage (s : State) (k : Nat) : State := s.modSys fun x => { x with bootStage := k }

/-- ROOT_PLL_LOCK: stage 1 begins; a boot that R56 holds at stage 0 stays there. -/
def execRootPllLock (s : State) : Host.Outcome State Fault Refusal :=
  .next (
    if !atStage s 0 || s.sys.lcSrc then s
    else toStage (s.modClk fun c => { c with rootLock := true, everLocked := true, sclkRoot := true }) 1)

/-- ROOT_PLL_LOCK_TIMEOUT: LAST_CAUSE names the clock source that holds the boot. -/
def execRootPllLockTimeout (refLost : Bool) (s : State) : Host.Outcome State Fault Refusal :=
  .next (
    if !atStage s 0 then s
    else giveWay s (fun i => i == .rootPllLock) <| causeBy (s.modClk fun c => { c with refOk := c.refOk && !refLost, sclkMonitor := c.sclkMonitor || refLost })
      (if refLost || !s.clk.refOk then 0xF8 else 0xF9))

/-! ## Stages 1 and 2 (R2, R39, R55, R57, R537, R552, R556) -/

/-- FUSE_SENSE: the outputs leave high impedance, the effective setting is known (R39), and a locked KEY region closes
the test port. -/
def execFuseSense (weak : List (Nat × BitVec 72)) (s : State) : Host.Outcome State Fault Refusal :=
  .next (
    if !atStage s 1 then s
    else
      let s := senseFuses s weak
      let s := s.modSys fun x => { x with hiZ := false, compat := x.compatStrap && !compatForbidden s }
      let s := s.modPins fun p => { p with tapDead := bitOf (lockBits s) 4 }
      toStage s 2)

/-- ROM_SELF_CHECK: BAR0 and the ports answer, or the device is in HALT until reset. -/
def execRomSelfCheck (pass : Bool) (s : State) : Host.Outcome State Fault Refusal :=
  .next (
    if !atStage s 2 then s
    else if pass then toStage (s.modSys fun x => { x with up := true }) 3
    else kettleDead s 3)

/-! ## Stage 3 (R58, R475, R479, R481) -/

/-- A channel as boot training leaves it: trained at 1600 MT/s, with results stored for that rate (R481, R482). -/
def trained (g : Option Geometry) (c : Channel) : Channel :=
  match g with
  | none => c
  | some x => { c with up := true, gib := x.gib, ranks := x.ranks, x16 := x.x16, density := x.density.1, stored := c.stored ||| 1 }

/-- Mc [MiB] (R475): the least of what the channels that serve have, and half the part's maximum. -/
def mappedMib (s : State) (gs : List (Option Geometry)) : Nat :=
  ((gs.filterMap fun g => g.map fun (x : Geometry) => 1024 * x.gib)).foldl Nat.min (512 * dramMax s)

/-- The Caddy and the controller at the end of stage 3: the reserved 512 MiB of each channel are filled, the rest is not
(R234, R479). -/
def mapDram (s : State) (gs : List (Option Geometry)) : State :=
  let mc := mappedMib s gs
  let n := gs.countP (·.isSome)
  let s := s.modDrc fun d => { d with mapped := mc, rate := 0, fill := 512 * n, fillDone := decide (mc ≤ 512) }
  s.modCad fun c => { c with leaves := [], repairs := [], capPages := n * 256 * (mc - 512), filledPages := 0 }

/-- The raise of a channel that failed its boot training (R58, R499): the step is not given, a free value. -/
def bootFailed (s : State) (c : Nat) (l : Level) : State :=
  (raiseAt s 0xE8 ((Config.freeWord s.free).toNat % 256 + 2 ^ 24 * c) l).drawn

/-- DRAM_BOOT_TRAINING: with one channel the boot goes on without mirroring; with none the device is in HALT. -/
def execDramBootTraining (ch0 ch1 : Option Geometry) (s : State) : Host.Outcome State Fault Refusal :=
  .next (
    if !atStage s 3 then s
    else
      let s := (s.modChan 0 (trained ch0)).modChan 1 (trained ch1)
      match ch0, ch1 with
      | none, none => haltForGood (bootFailed s 0 .halt) 0xE8
      | _, _ =>
        let s := if ch0.isNone then bootFailed s 0 .log else if ch1.isNone then bootFailed s 1 .log else s
        toStage (ungateLanes (mapDram s [ch0, ch1])) 4)

/-! ## Standby events (R48, R50..R52) -/

/-- READY_IDLE_TIMEOUT. -/
def execReadyIdleTimeout (s : State) : Host.Outcome State Fault Refusal :=
  .next (if s.sys.mode == .ready && ledgerEmpty s && s.sys.idleTimeout != 0 then standbyEntry s else s)

/-- STANDBY_DEPTH_ENTRY: every depth down to the one selected, not while DRAM_TRAIN holds W1 (R199). -/
def execStandbyDepthEntry (s : State) : Host.Outcome State Fault Refusal :=
  .next (
    if s.sys.mode == .standby && s.sys.wake.isNone && s.drc.training.isNone && decide (s.sys.depth < s.sys.depthTarget) then
      let goal := s.sys.depthTarget
      let new := [1, 2, 3, 4].filter fun d => decide (s.sys.depth < d) && decide (d ≤ goal)
      hvUpdate (new.foldl enterDepth (s.modSys fun x => { x with depthTarget := 0 }))
    else s)

/-- The last eight measured wakes. -/
def addWake (l : List Nat) (ms : Nat) : List Nat := (ms :: l).take 8

/-- A measured wake is recorded under its depth; one from W4 updates its bin (R51, R52). R52 does not say how a difference that
is no multiple of 4 rounds: DESIGN CHOICE, log 101, down. -/
def recordWake (s : State) (w : Wake) (ms : Nat) : State :=
  let old := heatUp s w.bin
  let learned : Nat := ((old : Int) + Int.fdiv ((ms : Int) - old) 4).toNat
  s.modSys fun x => match w.fromDepth with
    | 1 => { x with wakes1 := addWake x.wakes1 ms }
    | 2 => { x with wakes2 := addWake x.wakes2 ms }
    | 3 => { x with wakes3 := addWake x.wakes3 ms }
    | 4 => { x with bins := updN x.bins w.bin fun _ => some learned }
    | _ => x

/-- WAKE_COMPLETE: heads that were uncapped are IDLE (R344), and the device is in READY, unless a fault at RUNOUT or above
has become pending (R43, log 70). -/
def execWakeComplete (ms : Nat) (s : State) : Host.Outcome State Fault Refusal :=
  .next (match s.sys.wake with
    | none => s
    | some w =>
      if s.sys.mode != .standby || pendingAtLeast s .runout then s
      else
        let s := recordWake s w ms
        let s := (List.finRange 8).foldl (fun s h => if s.hdp[h].capMove == some false then capMoveDone s h else s) s
        enterReady (s.modSys fun x => { x with wake := none, depth := 0 }))

end Sys2Proof.Machine
end

