-- ==== Sys2Proof/Machine/EngineRows.lean ====
section
/-! DEFINITION. What happens in the control engine without a command: frames (R455), mains crossings (R465) and the
high-voltage watch (R466). -/

namespace Sys2Proof.Machine

/-! ## LOOP_FRAME (R452, R455, R458..R463) -/

/-- The outputs of the last frame take effect (R455). -/
def applyOutputs (s : State) : State :=
  (List.finRange 160).foldl (fun s n =>
    if (s.ctl.loops[n]).outNext.isNone then s
    else (applyOut s s.ctl.loops[n]).modLoop n fun l => { l with outNext := none }) s

/-- Whether an outer slot in a law mode drives slot n (R461). -/
def drivenByOuter (s : State) (n : Nat) : Bool :=
  s.ctl.loops.any fun l => l.en && l.mode.law && entRatio (slotEntry s l) != 0 && entInner (slotEntry s l) == n

/-- An inner slot whose outer has left law mode takes its own setpoint back, under its own ramp (R461). -/
def releaseInners (s : State) : State :=
  (List.finRange 160).foldl (fun s n =>
    if (s.ctl.loops[n]).cascade && !drivenByOuter s n.1 then
      s.modLoop n fun l => match l.stored with
        | some (r, p) => { l with rTarget := r, ramp := p, stored := none, cascade := false }
        | none => { l with cascade := false }
    else s) s

/-- The slots due in the frame: outer slots first, the others in ascending order (R455). -/
def dueSlots (s : State) : List (Fin 160) :=
  let due := (List.finRange 160).filter fun n =>
    let l := s.ctl.loops[n]
    l.en && l.k != 0 && s.ctl.frame % l.k == l.phase
  let outer := fun (n : Fin 160) => entRatio (slotEntry s s.ctl.loops[n]) != 0
  due.filter outer ++ due.filter fun n => !outer n

/-- The input of a slot (R465..R468, R470): the ADC code, and the raw value behind y. -/
def slotInput (s : State) (n : Fin 160) (ain : List (BitVec 12)) : Nat × Int :=
  let e := slotEntry s s.ctl.loops[n]
  if entKind e = 4 then (1, ((getN s.mot.ch (entTarget e) {}).speed : Int))
  else
    let code := (ain.getD (entInput e % 128) 0).toNat
    (code, if bitOf (entInput e) 7 then linearised (linTable (loopsBody s) (entLin e)) code else code)

/-- Frames for which every enabled fuser zone has been within its band, 25,000 of them being 500 ms (R390). -/
def fuserWatch (s : State) : State :=
  let low := s.ctl.loops.any fun l =>
    l.en && entKind (slotEntry s l) == 1 && decide (entTarget (slotEntry s l) < 4) && decide (l.y < l.r - fuserBand s)
  s.modSeq fun q =>
    if low then { q with fuserReady := false, fuserFrames := 0 }
    else if q.fuserReady then q
    else { q with fuserFrames := q.fuserFrames + 1, fuserReady := decide (25000 ≤ q.fuserFrames + 1) }

/-- A mains edge of the same cycle still adds the fuser outputs that stand before the frame (R471). -/
def keepZones (s : State) : State :=
  if coming s fun i => match i with | .mainsZcEdge _ => true | _ => false then s.modCtl fun c => { c with zoneOld := some c.zone }
  else s

/-- The setpoints that came in the cycle of the frame's start are taken over after it (R471). -/
def takeSetpoints (s : State) : State :=
  (List.finRange 160).foldl (fun s n => match (s.ctl.loops[n]).spNext with
    | some x => s.modLoop n fun l => { l.setpointTo x.1 x.2 with spNext := none }
    | none => s) s

/-- A frame of 20 µs: the conversions of AIN0..63 and the slots whose evaluation does not finish in it. -/
def loopFrame (s : State) (ain : List (BitVec 12)) (late : List (Fin 160)) : State :=
  let s := keepZones s
  let s := releaseInners (applyOutputs s)
  let s := (dueSlots s).foldl (fun s n =>
    if late.contains n then missSlot s n
    else let x := slotInput s n ain
         evaluateSlot s n x.1 x.2 false) s
  -- a new temperature of zone Z0 changes the estimate of W4 (R50, R51)
  takeSetpoints (reselectChanged ((fuserWatch s).modCtl fun c => { c with frame := c.frame + 1 }))

/-! ## Mains (R465) -/

/-- Mains are lost: HTR0..3 stay off; CTL_MAINS once, with 1 for no edge and 2 for the frequency. -/
def mainsLost (s : State) (why : Nat) : State :=
  let had := s.ctl.mains
  let s := s.modCtl fun c =>
    { c with mains := false, mainsRun := 0, htr := Vector.replicate 4 false, htrNext := none, flags := if had then c.flags ||| 0x4 else c.flags }
  if had then raise (s.stick 0x2410 4) 0xE5 why else s

/-- An edge adds each zone's output to its accumulator, which drives HTR for the half-cycle when it reaches 65,536. -/
def mainsDeliver (s : State) : State :=
  let on := s.sys.mode != .halt && !s.sys.pwrFail
  let delay := 200 * zcDelay (loopsBody s)
  s.modCtl fun c =>
    let zone := c.zoneOld.getD c.zone
    let sum := fun (z : Fin 4) => c.acc[z] + (if on then zone[z] else 0)
    let htr := Vector.ofFn fun z => on && decide (65536 ≤ sum z)
    let c := { c with zoneOld := none, acc := Vector.ofFn fun z => if 65536 ≤ sum z then sum z - 65536 else sum z }
    if delay = 0 then { c with htr := htr, htrNext := none } else { c with htrNext := some (htr, s.now + delay) }

/-- HTR0..3 change level ZC_DELAY after the edge (R465). -/
def htrCycle (s : State) : State := match s.ctl.htrNext with
  | some (htr, t) => if t ≤ s.now then s.modCtl fun c => { c with htr := htr, htrNext := none } else s
  | none => s

/-- A zero crossing, with the half-cycle it ends. -/
def mainsEdge (s : State) (half : Nat) : State :=
  let s := s.modCtl fun c => { c with halfCycle := min 65535 half }
  if !within 7500 11100 half then mainsLost s 2
  else
    let s := s.modCtl fun c =>
      { c with mainsRun := min 8 (c.mainsRun + 1), mains := c.mains || decide (8 ≤ c.mainsRun + 1) }
    if s.ctl.mains then mainsDeliver s else s

/-! ## High voltage (R466) -/

/-- HV_OK has been low for more than 5 ms after HV_SETTLE. -/
def hvFault (s : State) : State :=
  if !s.ctl.hven || s.pins.hvOk then s
  else
    let s := (slotsOff s [2]).modPins fun p => { p with hvBlocked := true, hvCleared := false }
    let s := s.modCtl fun c => { c with hven := false, flags := c.flags ||| 0x8 }
    raise (s.stick 0x2410 8) 0xE6 s.sys.mode.code

/-! ## The commands -/

/-- LOOP_FRAME. -/
def execLoopFrame (ain : List (BitVec 12)) (late : List (Fin 160)) (s : State) : Host.Outcome State Fault Refusal :=
  .next (whenUp s fun s => loopFrame s ain late)
/-- MAINS_ZC_EDGE. -/
def execMainsZcEdge (half : Nat) (s : State) : Host.Outcome State Fault Refusal := .next (whenUp s fun s => mainsEdge s half)
/-- MAINS_LOSS_TIMEOUT; an edge of the same cycle is in time (R14). -/
def execMainsLossTimeout (s : State) : Host.Outcome State Fault Refusal := .next (whenUp s fun s =>
  giveWay s (fun i => match i with | .mainsZcEdge half => within 7500 11100 half | _ => false) (mainsLost s 1))
/-- HV_OK_TIMEOUT. -/
def execHvOkTimeout (s : State) : Host.Outcome State Fault Refusal := .next (whenUp s hvFault)

end Sys2Proof.Machine
end

