-- ==== Sys2Proof/Machine/FuseTemp.lean ====
section
/-! DEFINITION. The die temperature monitor and the background re-sense of the fuse array (R539..R543). -/

namespace Sys2Proof.Machine

/-! ## Conversion (R527, R540) -/

/-- The offset and the slope of TRIM word 32. -/
def diodeTrim (s : State) : Int × Nat :=
  let w := (fuseWord s 32).toNat
  (signedOf 16 w, w / 2 ^ 16 % 2 ^ 16)

/-- The die temperature of a diode code [0.25 °C]: offset + slope × code, the slope being in 2^−16 °C. -/
def dieConvert (s : State) (code : BitVec 16) : Int :=
  (diodeTrim s).1 + roundShift (((diodeTrim s).2 * code.toNat * 4 : Nat) : Int) 16

/-- The temperature of a sample, none when it finds the sensor broken (R540). -/
def dieSample (s : State) (code : Option (BitVec 16)) : Option Int :=
  match code with
  | none => none
  | some c =>
    let t := dieConvert s c
    if fuseWord s 32 = 0 ∨ t < -220 ∨ 600 < t then none else some t

/-! ## Levels (R541) -/

/-- A level entered at or above its threshold and left below it by more than 2 °C. -/
def level (old : Bool) (threshold t : Int) : Bool := decide (threshold ≤ t) || (old && decide (threshold - 8 ≤ t))

/-- The throttle step of a sample. -/
def throttleStep (old : Nat) (t : Int) : Nat :=
  (if level (decide (1 ≤ old)) 400 t then 1 else 0) + (if level (decide (2 ≤ old)) 420 t then 1 else 0) +
  (if level (decide (3 ≤ old)) 440 t then 1 else 0)

/-- A change of the throttle step: TMP_THROTTLE, and its flag when a step is entered. -/
def throttleTo (s : State) (step : Nat) : State :=
  let old := s.tmp.step
  if old = step then s
  else
    let s := s.modTmp fun x => { x with step := step, flags := if old < step then x.flags ||| 0x2 else x.flags }
    raise (if old < step then s.stick 0xB50 2 else s) 0xF5 step

/-- The sample is found broken (R540): 110.00 °C in force, none of the actions of R541 beyond step 3. -/
def brokenSample (s : State) : State :=
  let was := s.tmp.broken
  let s := (s.stick 0xB50 8).modTmp fun x => { x with
    temp := 440, broken := true, warn := true, hot := false, trip := false, flags := x.flags ||| 0x8 }
  let s := throttleTo s 3
  if was then s else raise s 0xF4 2

/-- TMP_WARN at entry to the warning level. -/
def warnEntered (s : State) : State := raise ((s.modTmp fun x => { x with flags := x.flags ||| 0x1 }).stick 0xB50 1) 0xF4 1

/-- Entry to the hot level: TMP_HOT, and the RUNOUT trigger of R43 unless the same sample trips, which is the later mode of
R45. -/
def hotEntered (s : State) (trips : Bool) : State :=
  let s := raise ((s.modTmp fun x => { x with flags := x.flags ||| 0x4 }).stick 0xB50 4) 0xF6 0
  if trips then s else runoutEntry s 0xF6

/-- A good sample: every action whose threshold it crosses. -/
def goodSample (s : State) (t : Int) : State :=
  let old := s.tmp
  let warn := level (old.warn && !old.broken) 380 t
  let hot := level old.hot 480 t
  let trip := level old.trip 500 t
  let s := s.modTmp fun x => { x with
    temp := t, good := t, peak := max x.peak t, broken := false, warn := warn, hot := hot, trip := trip }
  let s := if warn && !(old.warn && !old.broken) then warnEntered s else s
  let s := throttleTo s (throttleStep old.step t)
  let s := if hot && !old.hot then hotEntered s (trip && !old.trip) else s
  if trip && !old.trip then raise s 0xF7 0 else s

/-! ## What follows a sample (R542, R81, R305) -/

/-- A pixel synthesizer whose column the die has left has a change due. -/
def columnsWatch (s : State) : State :=
  (List.finRange 6).foldl (fun s k =>
    if s.clk.px[k].en && columnLeft s.clk.px[k].column (compTemp s) then s.modSynth k fun x => { x with changeDue := true }
    else s) s

/-- Whether a temperature is 8 °C or more from a station's last calibration. -/
def calFar (b : Station) (t : Int) : Bool := decide (32 ≤ (t - b.calTemp).natAbs)

/-- The die has moved 4 °C from a station's last calibration: one falls due (R88, R305). -/
def calibrationsDrift (s : State) : State :=
  (List.finRange 6).foldl (fun s k =>
    if stationOn s k.1 && s.btu[k].cals != 0 && calDrifted s k && !s.btu[k].calDue && !s.btu[k].calRunning then calibrationDue s k
    else s) s

/-- A calibration that has fallen due and not run when the die reaches 8 °C from the last one (R305). -/
def calibrationsWatch (before : Int) (s : State) : State :=
  (List.finRange 6).foldl (fun s k =>
    let b := s.btu[k]
    if b.calDue && !b.calRunning && calFar b (compTemp s) && !calFar b before then raise s (0x66 + 8 * k.1) 0x01 else s) s

/-- The die has moved 20 °C from the temperature of the last sense, or has crossed a 20 °C multiple since the good sample before
(R539). -/
def resenseMoved (s : State) (before t : Int) : Bool :=
  decide (80 ≤ (t - s.fus.senseTemp).natAbs) || before / 80 != t / 80

/-- A good sample makes a re-sense due, or is the first one after the boot sense, which it dates (log 117). -/
def resenseWatch (s : State) (before t : Int) : State :=
  if s.fus.senseFresh then s.modFus fun f => { f with senseTemp := t, senseFresh := false }
  else if resenseMoved s before t then s.modFus fun f => { f with resensing := true }
  else s

/-- One sample of the monitor. Before boot stage 1 has sensed word 32 it has no trim, and does nothing (log 117). -/
def dieTempSample (s : State) (code : Option (BitVec 16)) : State :=
  if !s.fus.sensed then s else
  let before := compTemp s
  let s := match code with
    | some c => s.modTmp fun x => { x with raw := c }
    | none => s
  let s := match dieSample s code with
    | some t => resenseWatch (goodSample s t) before t
    | none => brokenSample s
  let s := s.modTmp fun x => { x with throttleMs := if x.step = 0 then x.throttleMs else inc32 x.throttleMs }
  let w := (fuseWord s 33).toNat
  let t := compTemp s
  let s := s.modTmp fun x => { x with adcRef := (w % 2 ^ 16, w / 2 ^ 16 % 2 ^ 16, t) }
  calibrationsWatch before (calibrationsDrift (columnsWatch s))

/-- DIE_TEMP_SAMPLE. -/
def execDieTempSample (code : Option (BitVec 16)) (s : State) : Host.Outcome State Fault Refusal :=
  .next (whenUp s fun s => dieTempSample s code)

/-! ## Re-sense (R539) -/

/-- A background re-sense that is due ends: each difference from the reads behind a latched value is raised and counted. One that
is due while a burn runs starts when the burn ends (R543). It changes no latched value and no wire. -/
def resense (s : State) (differs : List (Fin 256)) : State :=
  if !s.fus.resensing then s
  else if fuseBusy s then s.modFus fun f => { f with resenseDue := some differs }
  else
    let t := compTemp s
    let s := s.modFus fun f => { f with
      differences := satAdd 16 f.differences differs.length, resenses := satAdd 16 f.resenses 1, senseTemp := t
      resensing := false }
    differs.foldl (fun s w => raise s 0xF1 (w.1 + 0x200)) s

/-- A re-sense that has waited for a burn starts. -/
def waitingResense (s : State) : State :=
  match s.fus.resenseDue with
  | some l => if fuseBusy s then s else resense (s.modFus fun f => { f with resenseDue := none }) l
  | none => s

/-- FUSE_RESENSE. -/
def execFuseResense (differs : List (Fin 256)) (s : State) : Host.Outcome State Fault Refusal :=
  .next (whenUp s fun s => resense s differs)

end Sys2Proof.Machine
end

