-- ==== Sys2Proof/Machine/Heads.lean ====
section
/-!
DEFINITION. What happens at the marking heads without a command: line fetches (R329), fire instants (R328, R330..R333,
R337, R338), the strobe watchdog (R334..R336), temperature (R341, R342) and the rendering of images (R377).
-/

namespace Sys2Proof.Machine

/-! ## The field that a head fires -/

/-- The waiting fields of head h with a scheduled T, and the count of their fire instant 0 (R330). -/
def waitingFields (s : State) (h : Nat) : List ((Fin 512 × Nat) × Nat) :=
  let off := hdOffset (headBody s h)
  ((sheets s).map fun x => match x.2.t with
    | none => []
    | some t => if !x.2.open then [] else (List.range 4).filterMap fun k => match x.2.marks[k]? with
      | some m => if m.kind != 0 && m.by_ == h && m.run == .waiting then some ((x.1, k), t + off + m.pos) else none
      | none => none).flatten

/-- The field being fired, or the waiting field that is due first. -/
def currentField (s : State) (h : Fin 8) : Option (Fin 512 × Nat) :=
  match s.hdp[h].field with
  | some f => some f
  | none => ((waitingFields s h.1).foldl (fun (m : Option ((Fin 512 × Nat) × Nat)) x => match m with
      | some y => if x.2 < y.2 then some x else m
      | none => some x) none).map Prod.fst

/-- A mark of a sheet. -/
def markAt (s : State) (i : Fin 512) (k : Nat) : Option Mark := match s.led.entries[i] with
  | some e => e.marks[k]?
  | none => none
def modMark (s : State) (i : Fin 512) (k : Nat) (g : Mark → Mark) : State :=
  s.modSheet i fun e => { e with marks := updAt g k e.marks }

/-- The next fire instant of a field. -/
def MarkRun.instant : MarkRun → Nat
  | .running n => n
  | _ => 0

/-- The field at a head ends: MARKING goes back to IDLE (R344), and waiting changes of the dead-nozzle map take effect when the
sheet has no further field there (R333). -/
def endField (s : State) (h : Fin 8) : State :=
  settleHead (s.modHead h fun (x : Head) => { x with
    field := none, fifo := [], fifoFor := none, delay := [], state := if x.state == .marking then .idle else x.state }) h

/-- A field that its head does not fire, or not to its end, with the reason of its sheet (R342, R344). -/
def skipField (s : State) (h : Fin 8) (i : Fin 512) (k : Nat) (r : Spoil) : State :=
  spoil (endField (modMark s i k fun m => { m with run := .done, missed := true }) h) i r

/-- The field being fired breaks off. -/
def breakField (s : State) (h : Fin 8) : State :=
  match s.hdp[h].field with
  | some f => endField (modMark s f.1 f.2 fun m => { m with run := .done, missed := true }) h
  | none => s

/-! ## MARK_LINE_FETCH (R329, R377, R478) -/

/-- A line that is unavailable: it fires blank, and its sheet is spoiled. -/
def lineUnavailable (s : State) (h : Fin 8) (i : Fin 512) (k line : Nat) : State :=
  let s := (s.modHead h fun x => { x with flags := x.flags ||| 0x10 }).stick (0x1624 + 0x80 * h.1) 0x10
  let s := spoil (modMark s i k fun m => { m with missed := true }) i .headData
  raise s (0x91 + 2 * h.1) (0x07 + 65536 * line)

/-- The line that the feed fetches next for a field. -/
def nextLine (x : Head) (m : Mark) : Nat :=
  match x.fifo.getLast? with
  | some l => Nat.max (l.1 + 1) m.run.instant
  | none => m.run.instant

/-- A fetch of the next line into the FIFO, with the state of its two copies. -/
def fetchLine (s : State) (h : Fin 8) (good0 good1 : Bool) : State :=
  match currentField s h with
  | none => s
  | some (i, k) => match markAt s i k with
    | none => s
    | some m =>
      let s := s.modHead h fun x => if x.fifoFor == some (i, k) then x else { x with fifo := [], fifoFor := some (i, k) }
      let n := nextLine s.hdp[h] m
      if m.lines ≤ n || 32 ≤ s.hdp[h].fifo.length then s
      else
        let push := fun (s : State) (l : Option (List Byte)) => s.modHead h fun x => { x with fifo := x.fifo ++ [(n, l)] }
        match m.image with
        | none => lineUnavailable (raise (push s none) 0xA9 i.1) h i k n
        | some img =>
          if good0 || good1 then push s (some (img.getD n []))
          else lineUnavailable (raise (push s none) 0x27 0) h i k n

/-! ## FIRE_INSTANT (R328, R330..R333, R337, R338) -/

/-- The drop of logical nozzle n in a fire line (R327). -/
def dropOf (line : List Byte) (n : Nat) : Nat := fieldOf (u8 line (n / 4)) (2 * (n % 4)) 2

/-- The neighbour that takes over the drop of dead nozzle n in line l (R333). -/
def takeoverOf (dead : List Nat) (count l n : Nat) : Option Nat :=
  let below := decide (1 ≤ n) && nozzleLives dead count (n - 1)
  let above := nozzleLives dead count (n + 1)
  if l % 2 = 0 then (if below then some (n - 1) else if above then some (n + 1) else none)
  else (if above then some (n + 1) else if below then some (n - 1) else none)

/-- A line's drops by logical nozzle after the takeover (R333). -/
def takenOver (dead : List Nat) (count l : Nat) (line : List Byte) : List Nat :=
  (List.range count).map fun n =>
    if dead.contains n then 0
    else
      let from_ := fun (d : Nat) => if dead.contains d && takeoverOf dead count l d == some n then dropOf line d else 0
      Nat.max (dropOf line n) (Nat.max (if n = 0 then 0 else from_ (n - 1)) (from_ (n + 1)))

/-- The drops of both rows at an instant: the leading row fires line `instant`, the lagging row the line ROW_GAP before
it (R328). -/
def rowDrops (b : List Byte) (mem : HeadMem) (delay : List (Nat × List Nat)) (instant : Nat) : List Nat :=
  let line := fun (l : Nat) => match delay.find? fun d => d.1 == l with | some d => d.2 | none => []
  let lead := line instant
  let lag := if mem.rowGap ≤ instant then line (instant - mem.rowGap) else []
  slotDrops b mem.nozzles fun rowB n => (if rowB == hdUpstream b then lead else lag).getD n 0

/-- A suppression by the limiter (R337). -/
def dutySuppress (s : State) (h : Fin 8) (i : Fin 512) (instant count : Nat) : State :=
  let s := s.modHead h fun x => { x with flags := x.flags ||| 0x08, suppressed := satAdd 32 x.suppressed count }
  raise (spoil (s.stick (0x1624 + 0x80 * h.1) 8) i .headDuty) (0x91 + 2 * h.1) (0x06 + 65536 * instant)

/-- The strobe of a cycle. -/
def strobe (s : State) (h : Fin 8) (i : Fin 512) (k wave instant : Nat) (drops : List Nat) : State :=
  let b := headBody s h.1
  let s := s.modHead h fun x => { (dutyCount b x drops) with fires := inc32 x.fires, lastStrobe := some s.now }
  emit (modMark s i k fun m => { m with fired := m.fired + 1 }) (fireOut h b wave instant drops)

/-- An instant less than P_min after the last strobe is dropped (R338), the head's source being raised once for a sheet. -/
def dropInstant (s : State) (h : Fin 8) (i : Fin 512) (k instant : Nat) : State :=
  let again := (s.led.entries[i]).any fun e => e.marks.any fun m => m.dropped && m.by_ == h.1
  let s := s.modSheet i fun e => { e with overHead := some (e.overHead.getD h) }
  let s := s.modHead h fun x => { x with
    dropped := inc32 x.dropped, lastDrop := (instant, i.1), flags := x.flags ||| 0x02 }
  let s := s.stick (0x1624 + 0x80 * h.1) 2
  let s := spoil (modMark s i k fun m => { m with dropped := true, missed := true }) i .headOverspeed
  if again then s else raise s (0x91 + 2 * h.1) (0x04 + 65536 * instant)

/-- One fire cycle: the leading row's line leaves the FIFO into the delay buffer, and the cycle is strobed. -/
def fireCycle (s : State) (h : Fin 8) (mem : HeadMem) (i : Fin 512) (k : Nat) (m : Mark) (instant : Nat) : State :=
  let b := headBody s h.1
  let x := s.hdp[h]
  let got := if x.fifoFor == some (i, k) then x.fifo.find? fun l => l.1 == instant else none
  let s := if instant < m.lines && got.isNone then lineUnavailable s h i k instant else s
  let line := match got with | some (_, some d) => d | _ => []
  let s := s.modHead h fun y => { y with
    fifo := y.fifo.filter fun l => decide (instant < l.1)
    delay := if instant < m.lines then ((instant, takenOver y.dead mem.nozzles instant line) :: y.delay).take 65 else y.delay }
  let drops := rowDrops b mem s.hdp[h].delay instant
  if !s.sys.compat then strobe s h i k m.wave instant drops
  else
    let d := dutyLimit b mem s.hdp[h] drops
    let s := if d.2.1 = 0 then s else dutySuppress s h i instant d.2.1
    if d.2.2 then dutySuppress (modMark s i k fun m => { m with missed := true }) h i instant 1
    else strobe s h i k m.wave instant d.1

/-- A fire instant that the head fires or drops; the last one ends the field. -/
def fireOrDrop (s : State) (h : Fin 8) (mem : HeadMem) (i : Fin 512) (k : Nat) (m : Mark) (instant : Nat) : State :=
  let s := if instant = 0 then (settleHead s h).modHead h fun x => { x with state := .marking, field := some (i, k), delay := [] } else s
  let early := (s.hdp[h].lastStrobe).any fun t => shorterThan (headBody s h.1) mem 1 1 ((s.now - t) * 5)
  let s := if early then dropInstant s h i k instant else fireCycle s h mem i k m instant
  if m.lines + mem.rowGap ≤ instant + 1 then endField (modMark s i k fun m => { m with run := .done }) h
  else modMark s i k fun m => { m with run := .running (instant + 1) }

/-- Head strobes are suppressed: in HALT, and in the cycle of its entry or of power-loss step 1 (R47, R62, R346). -/
def strobesOff (s : State) : Bool :=
  s.sys.mode == .halt || haltComes s

/-- The count of the next fire instant of a field (R330). -/
def instantCount (s : State) (h : Fin 8) (e : Sheet) (m : Mark) : Nat :=
  e.t.getD 0 + hdOffset (headBody s h.1) + m.pos + m.run.instant * firePitch s

/-- The estimated position reaches the next fire instant of the head's field. -/
def fireInstant (s : State) (h : Fin 8) : State :=
  if strobesOff s then s
  else match currentField s h with
  | none => s
  | some (i, k) => match s.led.entries[i], markAt s i k with
    | some e, some m =>
      let n := m.run.instant
      if !trackReached s.clk (instantCount s h e m) then s
      else match s.hdp[h].state, s.hdp[h].mem with
        | .held, _ => skipField s h i k .headTemp
        | .fenced, _ => skipField s h i k (if s.hdp[h].cutHold then .headStrobe else .headUnavailable)
        | .idle, some mem => fireOrDrop s h mem i k m n
        | .marking, some mem => fireOrDrop s h mem i k m n
        | _, _ => skipField s h i k .headUnavailable
    | _, _ => s

/-! ## STROBE_CUT (R334..R336) -/

/-- The watchdog's conditions for a strobe whose high time and whose distance from the rising edge before it are given in XCLK
cycles of 5 ns: longer than the latched STB_MAX [10 ns], or nearer than 0.9 × P_min. -/
def strobeBad (b : List Byte) (mem : HeadMem) (high spacing : Nat) : Bool :=
  decide (2 * mem.stbMax < high) || shorterThan b mem 9 10 (5 * spacing)

/-- The watchdog reads a strobe back and cuts it when a condition holds; the strobe of an absent head it holds low. -/
def strobeCut (s : State) (h : Fin 8) (high spacing : Nat) : State :=
  match s.hdp[h].mem with
  | none => s
  | some mem =>
    if s.hdp[h].state == .absent || !strobeBad (headBody s h.1) mem high spacing then s
    else
      let s := breakField (spoilHead s h.1 .headStrobe) h
      let s := s.modHead h fun x => { x with cuts := inc32 x.cuts, flags := x.flags ||| 0x01, cutHold := true }
      let s := raise (s.stick (0x1624 + 0x80 * h.1) 1) (0x90 + 2 * h.1) (high / 2)
      selfFence (fenceHead s h) (0x90 + 2 * h.1)

/-! ## HEAD_TEMP_SAMPLE (R341, R342) -/

/-- A fire cycle of the head is still to come in this cycle, its LAT raised already (R346). -/
def cycleComes (s : State) (h : Fin 8) : Bool := coming s (· == .fireInstant h)

/-- A thermistor sample; a fire cycle of the same XCLK cycle completes first (R342, R346). A broken thermistor reads as at or above
the limit: how far above is free (log 74). -/
def tempSample (s : State) (h : Fin 8) (code : Nat) : State :=
  match s.hdp[h].mem with
  | none => s
  | some mem =>
    let s := if cycleComes s h then fireInstant s h else s
    let broken := code == 0 || code == 4095
    let s := if broken then
        raise ((s.modHead h fun x => { x with temp := mem.limit + ((Config.freeWord s.free).toNat % 1024 : Nat) }).drawn)
          (0x91 + 2 * h.1) 0x03
      else s.modHead h fun x => { x with temp := headTemp mem.table code }
    let t := s.hdp[h].temp
    match s.hdp[h].state with
    | .idle | .marking =>
      if decide (t < mem.limit) then s
      else
        let s := breakField (spoilHead s h.1 .headTemp) h
        let s := raise ((s.modHead h fun x => { x with flags := x.flags ||| 0x04 }).stick (0x1624 + 0x80 * h.1) 4) (0x91 + 2 * h.1) 0x02
        headLeaves s h .held
    | .held => if t < mem.limit - mem.hyst then s.modHead h fun x => { x with state := .idle, moved := false } else s
    | _ => s

/-! ## DUTY_WINDOW_TICK, HEAD_CAP_MOVE_DONE and MARK_RENDER -/

/-- A new duty window (R337). -/
def dutyWindow (s : State) : State :=
  { s with hdp := s.hdp.map fun (x : Head) => { x with dutyFires := [], dutyDrops := 0 } }

/-- The images of the kinds 1 and 3 of a committed sheet are complete on both channels. -/
def renderMarks (s : State) (i : Fin 512) : State :=
  let b := marksBody s
  s.modSheet i fun e =>
    if !e.open then e
    else { e with marks := e.marks.map fun (m : Mark) =>
      if (m.kind == 1 || m.kind == 3) && m.image.isNone then
        let f := mkFormat b m.format
        { m with image := some (renderImage b f (fieldValue f e)) }
      else m }

/-! ## The commands -/

/-- FIRE_INSTANT. -/
def execFireInstant (h : Fin 8) (s : State) : Host.Outcome State Fault Refusal := .next (whenUp s fun s => fireInstant s h)
/-- STROBE_CUT. -/
def execStrobeCut (h : Fin 8) (high spacing : Nat) (s : State) : Host.Outcome State Fault Refusal :=
  .next (whenUp s fun s => strobeCut s h high spacing)
/-- MARK_LINE_FETCH. -/
def execMarkLineFetch (h : Fin 8) (good0 good1 : Bool) (s : State) : Host.Outcome State Fault Refusal :=
  .next (whenUp s fun s => fetchLine s h good0 good1)
/-- HEAD_TEMP_SAMPLE. -/
def execHeadTempSample (h : Fin 8) (code : BitVec 12) (s : State) : Host.Outcome State Fault Refusal :=
  .next (whenUp s fun s => tempSample s h code.toNat)
/-- DUTY_WINDOW_TICK. -/
def execDutyWindowTick (s : State) : Host.Outcome State Fault Refusal := .next (whenUp s dutyWindow)
/-- HEAD_CAP_MOVE_DONE. -/
def execHeadCapMoveDone (h : Fin 8) (s : State) : Host.Outcome State Fault Refusal := .next (whenUp s fun s => capMoveDone s h)
/-- MARK_RENDER. -/
def execMarkRender (i : Fin 512) (s : State) : Host.Outcome State Fault Refusal := .next (whenUp s fun s => renderMarks s i)

end Sys2Proof.Machine
end

