-- ==== Sys2Proof/Machine/Gates.lean ====
section
/-!
DEFINITION. The bridge outputs of the brushless channels (R428..R430): which of the six gates each step drives, and the dead
time between the two of a phase.
-/

namespace Sys2Proof.Machine

/-- The PWM period [ns]. -/
def motorPwmNs (e : List Byte) : Nat := if moPwmFreq e = 0 then 0 else 10000000 / moPwmFreq e

/-- The phases that a step drives, U 0, V 1, W 2: the one whose high side switches, and the one whose low side is on
(R430). -/
def stepPhases : Nat → Option (Nat × Nat)
  | 1 => some (0, 1) | 2 => some (0, 2) | 3 => some (1, 2) | 4 => some (1, 0) | 5 => some (2, 0) | 6 => some (2, 1)
  | _ => none

/-- The step energised: for a negative command the one three places ahead (R435). -/
def Motor.drivenStep (x : Motor) : Nat :=
  if !x.state.driving || x.step = 0 then 0 else if x.current < 0 then (x.step + 2) % 6 + 1 else x.step

/-- The pulse of the present PWM period, centre-aligned, is on; one shorter than 50 ns is not emitted (R566). -/
def pulseOn (s : State) (e : List Byte) (x : Motor) : Bool :=
  let t := 5 * (s.now - x.pwmAt)
  let lead := (motorPwmNs e - x.onNs) / 2
  decide (50 ≤ x.onNs) && decide (lead ≤ t) && decide (t < lead + x.onNs)

/-- What a channel asks of gate k, in the order UH, UL, VH, VL, WH, WL: nothing outside the driving states and under R444, all
low sides before ALIGNING (R437), else its step. -/
def gateAsked (s : State) (m : Fin 10) (k : Fin 6) : Bool :=
  let x := s.mot.ch[m]
  if s.mot.hard || !x.state.driving then false
  else if x.lowSides then k.1 % 2 == 1
  else match stepPhases x.drivenStep with
    | none => false
    | some (h, l) => (k.1 == 2 * h && pulseOn s (motorOf s m) x) || k.1 == 2 * l + 1

/-- The other gate of the same phase. -/
def otherGate (k : Fin 6) : Fin 6 := match k with | 0 => 1 | 1 => 0 | 2 => 3 | 3 => 2 | 4 => 5 | 5 => 4

/-- A gate output (R428): high when asked for, not while the phase's other output is asked for, and only once the dead time
has passed since that one turned off. -/
def gateLevel (s : State) (m : Fin 10) (k : Fin 6) : Bool :=
  gateAsked s m k && !gateAsked s m (otherGate k) &&
  match s.mot.ch[m].gateOn[otherGate k] with
  | some t => decide (moDead (motorOf s m) ≤ 5 * (s.now - t - 1)) && decide (t < s.now)
  | none => true

/-- One XCLK cycle of the gates: which of them are high is kept for the dead time. -/
def gatesCycle (s : State) : State :=
  if s.mot.ch.any fun x => x.state.driving then
    s.modMot fun b => { b with ch := b.ch.mapFinIdx fun m x hm =>
      { x with gateOn := x.gateOn.mapFinIdx fun k t hk => if gateLevel s ⟨m, hm⟩ ⟨k, hk⟩ then some s.now else t } }
  else s

end Sys2Proof.Machine
end

