-- ==== Sys2Proof/Machine/MotorRows.lean ====
section
/-! DEFINITION. What happens on the brushless channels, their bus and their speed inputs without a command
(R428..R446). -/

namespace Sys2Proof.Machine

/-! ## Speed (R432, R438, R439) -/

/-- The mean of the step periods measured. -/
def meanPeriod (x : Motor) : Nat := if x.periods.isEmpty then 0 else x.periods.sum / x.periods.length

/-- The speed [0.01 rpm] of a step period [ns]: 60 / (pole pairs × 6 × period). -/
def speedOf (e : List Byte) (period : Nat) : Nat := if period = 0 then 0 else 1000000000000 / (Nat.max 1 (moPoles e) * period)

/-- The step period [ns] of a forced speed. -/
def forcedPeriod (e : List Byte) (x : Motor) : Nat :=
  if x.forced = 0 then 0 else 1000000000000 / (Nat.max 1 (moPoles e) * x.forced)

/-! ## Transitions -/

/-- Synchronised with the back-EMF, in closed-loop RAMPING: the speed-loop slot takes over (R439, R464, R468). -/
def closeLoop (s : State) (m : Fin 10) : State :=
  motorSlotLaw (s.modMotor m fun x => { x with state := .ramping, openLoop := false, matchRun := 0, losRun := 0 }) m

/-- ALIGNING energises step 1 at the align current; its slot is in manual at the ramp current (R439, R468). -/
def beginAlign (s : State) (m : Fin 10) : State :=
  let e := motorOf s m
  motorSlotManual (s.modMotor m fun x => { x.idle with state := .aligning, step := 1, current := moAlignI e, periods := [] })
    m (moRampI e)

/-- Loss of synchronism (R440). -/
def loseSync (s : State) (m : Fin 10) : State :=
  let s := (coast s m).modMotor m fun x => { x with lost := true, losCount := inc32 x.losCount }
  motorRaise s m 0x04 0 0

/-- A braking channel below the sensorless minimum (R437): forward it coasts; backward all low sides go on at the brake
current for the align time. -/
def brakeEnd (s : State) (m : Fin 10) : State :=
  let e := motorOf s m
  let x := s.mot.ch[m]
  if x.state != .braking || decide (moSensorless e ≤ x.speed) then s
  else if x.reverse then s.modMotor m fun x => { x with lowSides := true }
  else coast s m

/-! ## MOTOR_ZERO_CROSSING (R431, R432, R438..R440) -/

/-- The crossing matches the forced timing: within ±25 % of the forced step period, above the sensorless minimum. -/
def crossingMatches (e : List Byte) (x : Motor) (stepNs : Nat) : Bool :=
  let p := forcedPeriod e x
  decide (moSensorless e < x.forced) && decide (3 * p ≤ 4 * stepNs) && decide (4 * stepNs ≤ 5 * p)

/-- A step period beyond the LOS tolerance of the prediction. -/
def beyondTolerance (e : List Byte) (x : Motor) (stepNs : Nat) : Bool :=
  let p := predictedStep x
  p != 0 && decide (moLosTol e * p < 100 * (stepNs - p + (p - stepNs)))

/-- The step after a step: 1 to 6, or 6 down to 1 for a reversed channel. -/
def nextStep (e : List Byte) (k : Nat) : Nat := if moReverse e then (if k ≤ 1 then 6 else k - 1) else (if 6 ≤ k then 1 else k + 1)

/-- The step during which a phase crosses in a direction (R430). A channel that runs the steps backward sees each crossing the
other way (log 115). -/
def crossingStep (e : List Byte) (phase : Fin 3) (rising : Bool) : Nat :=
  match phase, rising != moReverse e with
  | 2, false => 1 | 1, true => 2 | 0, false => 3 | 2, true => 4 | 1, false => 5 | _, _ => 6

/-- The comparator is read (R431): by a channel that does not drive, always; else on the floating phase, for the level of its
step, past the blanking, and in a period with an on-time of the minimum window or more. -/
def crossingRead (e : List Byte) (x : Motor) (phase : Fin 3) (rising : Bool) (since : Nat) : Bool :=
  !x.state.driving || x.step == 0 ||
    (x.step == crossingStep e phase rising && decide (moBlank e * predictedStep x ≤ 100 * since) && decide (moWindow e ≤ x.onNs))

/-- A crossing of a channel in CATCHING (R438): its step, the direction against the crossing before it, and the spacing. -/
def Motor.caught (e : List Byte) (x : Motor) (k stepNs : Nat) : Motor :=
  { x with
    crossings := x.crossings + 1, seen := k
    periods := if x.crossings = 0 then [] else (stepNs :: x.periods).take 6
    forward := if x.seen = 0 then x.forward else nextStep e x.seen == k }

/-- A crossing, by the two samples between which it lies [ns since the crossing before it] and the time since the last
commutation [ns]: the step period ends at the samples' midpoint (R431). -/
def zeroCrossing (s : State) (m : Fin 10) (phase : Fin 3) (rising : Bool) (prev last since : Nat) : State :=
  let e := motorOf s m
  let x := s.mot.ch[m]
  let stepNs := (prev + last) / 2
  let measure := fun (x : Motor) =>
    let y := { x with periods := (stepNs :: x.periods).take 6 }
    { y with speed := speedOf e (meanPeriod y) }
  if !crossingRead e x phase rising since then s
  else match x.state with
  | .stopped | .fenced | .aligning => s
  | .catching => s.modMotor m fun x => x.caught e (crossingStep e phase rising) stepNs
  | .coasting => s.modMotor m measure
  | .braking => brakeEnd (s.modMotor m measure) m
  | .ramping | .running =>
    if x.openLoop then
      let run := if crossingMatches e x stepNs then min 6 (x.matchRun + 1) else 0
      let s := s.modMotor m fun x => { (measure x) with matchRun := run }
      if run = 6 && decide (moHandover e ≤ x.forced) then closeLoop s m else s
    else
      let run := if beyondTolerance e x stepNs then x.losRun + 1 else 0
      let s := s.modMotor m fun x => { (measure x) with losRun := run }
      if run = 6 then loseSync s m else s

/-! ## MOTOR_COMMUTATION (R430, R432, R439) -/

def commutate (s : State) (m : Fin 10) : State :=
  let e := motorOf s m
  s.modMotor m fun x =>
    if x.step = 0 || !x.state.driving || x.state == .aligning then x
    else
      let k := nextStep e x.step
      let turn := k == (if moReverse e then 6 else 1)
      { x with
        step := k, peak := if turn then x.peakNow else x.peak, peakNow := if turn then 0 else x.peakNow
        forced := if x.openLoop then x.forced + moRampAcc e * 100 * forcedPeriod e x / 1000000000 else x.forced }

/-! ## MOTOR_PWM_PERIOD (R433..R436) -/

/-- The next period's on-time [ns] for a duty [1/65,536], what is left of its group, the average duty, and whether the
floor acted (R433). A group is finished before a new duty counts. -/
def pulseOf (e : List Byte) (x : Motor) (d : Nat) : Nat × (Nat × Nat) × Nat × Bool :=
  let tp := motorPwmNs e
  let w := moWindow e
  if x.shift.1 != 0 then (x.shift.2, (x.shift.1 - 1, x.shift.2), x.duty, false)
  else if w * 65536 ≤ d * tp || tp = 0 then (d * tp / 65536, (0, 0), d, false)
  else if 8 * d * tp < w * 65536 then (w, (7, 0), min 65536 ((w * 65536 + 8 * tp - 1) / (8 * tp)), true)
  else
    let k := (w * 65536 + d * tp - 1) / (d * tp)
    (w, (k - 1, (k * d * tp / 65536 - w) / (k - 1)), d, false)

/-! ## Phase currents (R434..R436) -/

/-- A pass over the feeds of one PWM period: the bits, newest first, the clock, the bits since the last sinc² output, the
runs above the trip current, the phase that trips, and the clock that cuts the pulse. -/
structure FeedScan where
  u : List Bool
  v : List Bool
  clock : Nat
  since : Nat
  run : Nat × Nat × Nat
  trip : Option Nat
  cut : Option Nat
  deriving DecidableEq, Repr

/-- One run of outputs above the trip current. -/
def tripRun (e : List Byte) (i : Int) (run : Nat) : Nat := if moTripI e < i.natAbs then min 2 (run + 1) else 0

/-- One modulator clock: with every eighth bit there is a sinc² output of each phase; W is −(U + V). -/
def FeedScan.bit (e : List Byte) (pwm : Nat) (x : FeedScan) (b : Bool × Bool) : FeedScan :=
  let y := { x with u := b.1 :: x.u, v := b.2 :: x.v, clock := x.clock + 1, since := (x.since + 1) % 8 }
  if y.since != 0 then y
  else
    let iU := sinc2Current (moFull e) 8 y.u
    let iV := sinc2Current (moFull e) 8 y.v
    let run := (tripRun e iU y.run.1, tripRun e iV y.run.2.1, tripRun e (-(iU + iV)) y.run.2.2)
    let trip := if run.1 = 2 then some 0 else if run.2.1 = 2 then some 1 else if run.2.2 = 2 then some 2 else none
    let i := match pwm with | 0 => iU | 1 => iV | _ => -(iU + iV)
    { y with run := run, trip := y.trip.or trip, cut := y.cut.or (if pwm < 3 && decide (moLimitI e < i.natAbs) then some y.clock else none) }

/-- The feeds of one PWM period. -/
def scanFeeds (e : List Byte) (x : Motor) (bits : List (Bool × Bool)) : FeedScan :=
  bits.foldl (FeedScan.bit e (match stepPhases x.drivenStep with | some p => p.1 | none => 3))
    ⟨x.feed.1, x.feed.2, 0, x.feedAt, x.ocRun, none, none⟩

/-- The phase currents U and V at the centre of a period. -/
def phaseCurrents (e : List Byte) (x : Motor) (half : List (Bool × Bool)) : Int × Int :=
  (sinc3Current (moFull e) 32 (keepBits 94 (half.map (·.1)) x.feed.1),
   sinc3Current (moFull e) 32 (keepBits 94 (half.map (·.2)) x.feed.2))

/-- R436: gates and DRVEN low, FENCED, at every severity. -/
def motorProtect (s : State) (m : Fin 10) (cause value flag : Nat) : State :=
  selfFence (fenceChannel (motorRaise s m cause value flag) m) (0xD0 + m.1)

/-- One PWM period: the phase currents, the protections, and the next duty, which the spec leaves to the implementation
(log 27). -/
def motorPwm (s : State) (m : Fin 10) (bitsU bitsV : List Bool) : State :=
  let e := motorOf s m
  let x := s.mot.ch[m]
  if x.state == .stopped || x.state == .fenced then s
  else
    let clocks := motorPwmNs e / (5 * mdclkCycles s (moClock e))
    let bits := (bitsU.zip bitsV).take clocks
    let i := phaseCurrents e x (bits.take (clocks / 2))
    let scan := scanFeeds e x bits
    let peak := Nat.max x.peakNow (Nat.max i.1.natAbs (Nat.max i.2.natAbs (i.1 + i.2).natAbs))
    let drives := x.state.driving && x.step != 0
    let d := pulseOf e x (min 65536 (Config.freeDuty s.free))
    let floor := drives && d.2.2.2
    let s := s.drawn.modMotor m fun x => { x with
      ocRun := scan.run, feed := (scan.u.take 93, scan.v.take 93), feedAt := scan.since, cutAt := scan.cut
      peakNow := peak, pwmAt := s.now, flags := if floor then x.flags ||| 0x10 else x.flags
      duty := if drives then d.2.2.1 else 0, onNs := if drives then d.1 else 0, shift := if drives then d.2.1 else (0, 0) }
    let s := if floor then s.stick (0x2014 + 0x40 * m.1) 0x10 else s
    if feedStuck (bits.map (·.1)) x.feed.1 then motorProtect s m 0x07 0 3
    else if feedStuck (bits.map (·.2)) x.feed.2 then motorProtect s m 0x07 1 3
    else match scan.trip with
      | some p => motorProtect s m 0x06 p 2
      | none => s

/-! ## Timers (R437..R440) -/

/-- A MOTOR_STOP of the channel arrives in this cycle (R448). -/
def stopComes (s : State) (m : Fin 10) : Bool :=
  coming s fun c => match c with | .motorStop p => Cmd.p8 p 16 == m.1 | _ => false

/-- The end of the 20 ms of catch-spin (R438); a MOTOR_STOP of the same cycle applies instead (R448). -/
def catchDecision (s : State) (m : Fin 10) : State :=
  let e := motorOf s m
  let x := s.mot.ch[m]
  if x.state != .catching || stopComes s m then s
  else
    let v := if x.crossings < 3 then 0 else speedOf e (meanPeriod x)
    let s := s.modMotor m fun x => { x with speed := v }
    if x.forward && decide (moCatch e ≤ v) && v != 0 then
      motorRaise (closeLoop (s.modMotor m fun x => { x with step := x.seen }) m) m 0x03 0 6
    else if !x.forward && decide (moReverseThr e < v) then
      if noRegen s then s.modMotor m fun x => { x with crossings := 0, periods := [], seen := 0 }
      else motorRaise (s.modMotor m fun x =>
        { x with state := .braking, reverse := true, lowSides := false, current := moBrakeI e }) m 0x03 1 6
    else motorRaise (beginAlign s m) m 0x03 2 6

/-- The align time has elapsed: the open-loop ramp begins (R439), or, after the braking of a backward motor, ALIGNING
(R437). -/
def alignElapsed (s : State) (m : Fin 10) : State :=
  let e := motorOf s m
  let x := s.mot.ch[m]
  if x.state == .braking && x.lowSides then beginAlign s m
  else if x.state != .aligning then s
  else s.modMotor m fun x =>
    { x with state := .ramping, openLoop := true, forced := moStart e, current := moRampI e, matchRun := 0 }

/-- Ramp timeout (R437); a crossing of the same cycle that ends the ramp comes first (R14). -/
def rampTimeout (s : State) (m : Fin 10) : State :=
  let x := s.mot.ch[m]
  giveWay s (fun c => match c with
    | .motorZeroCrossing j p r a b t => j == m && !(zeroCrossing s m p r a b t).mot.ch[m].openLoop
    | _ => false) <|
  if x.state == .ramping && x.openLoop then motorRaise (coast s m) m 0x05 0 1 else s

/-- A crossing of the channel arrives in this cycle: it is in time (R14). -/
def crossingComes (s : State) (m : Fin 10) : Bool :=
  coming s fun c => match c with
    | .motorZeroCrossing j p r _ _ t => j == m && crossingRead (motorOf s m) s.mot.ch[m] p r t
    | _ => false

/-- No crossing within two predicted step periods (R440). -/
def losTimeout (s : State) (m : Fin 10) : State :=
  let x := s.mot.ch[m]
  if (x.state == .running || (x.state == .ramping && !x.openLoop)) && !crossingComes s m then loseSync s m else s

/-- 100 ms after a loss of synchronism, with restarts remaining (R437, R440). -/
def losRestart (s : State) (m : Fin 10) : State :=
  let e := motorOf s m
  let x := s.mot.ch[m]
  if x.state == .coasting && x.lost && moRestart e && decide (x.restarts < moRestarts e) then
    s.modMotor m fun x =>
      { x.idle with state := .catching, lost := false, restarts := x.restarts + 1, periods := [], drven := !s.mot.hard }
  else s

/-- No crossing for the stop timeout: the channel is at rest (R437). -/
def coastStopped (s : State) (m : Fin 10) : State :=
  if s.mot.ch[m].state != .coasting || crossingComes s m then s
  else motorRaise (s.modMotor m fun x =>
    { x.idle with state := .stopped, lost := false, speed := 0, periods := [], drven := false, ocRun := (0, 0, 0) }) m 0x02 0 6

/-! ## Bus watch (R441..R444) -/

/-- Every channel in BRAKING coasts with cause BUS_COAST (R443). -/
def brakingCoasts (s : State) : State :=
  overMotors s fun s m => if s.mot.ch[m].state == .braking then motorRaise (coast s m) m 0x08 0 5 else s

/-- BRK_GATE after a conversion (R441): high at brake-on; low at brake-off once the minimum on-time has passed. -/
def chopper (b : List Byte) (m : Motors) (v : Nat) : Motors :=
  let on := m.brk && !(decide (v ≤ busBrakeOff b) && decide (busMinOn b ≤ m.brkOn)) || decide (busBrakeOn b ≤ v)
  { m with brk := on, brkOn := if on then (if m.brk then m.brkOn + 1 else 0) else 0
           brkTime := if m.brk then inc32 m.brkTime else m.brkTime }

/-- The bus has reached the hard limit (R444): gates and DRVEN low, BUS_OV, HALT, at every severity. -/
def busHardLimit (s : State) : State :=
  let s := overMotors s coast
  let s := s.modMot fun m => { m with hard := true, ch := m.ch.map fun (x : Motor) => { x with drven := false } }
  haltEntry (raiseAt s 0xDA 0 .halt) 0xDA

/-- One conversion of the bus voltage each microsecond, with the level at BRK_FB. -/
def busSample (s : State) (code : BitVec 12) (fb : Bool) : State :=
  let b := motorBody s
  let v := busMillivolts b code.toNat
  let s := s.modMot fun m => { m with busV := v, busPeak := Nat.max m.busPeak v, brkFb := fb }
  if b.isEmpty then s
  else
    let s := s.modMot fun m => chopper b m v
    let s := if decide (v ≤ busBrakeOff b) then s.modMot fun m => { m with softHold := false } else s
    let s := if decide (busSoft b ≤ v) && !s.mot.softHold then
        brakingCoasts (raise ((s.modMot fun m => { m with softHold := true, flags := m.flags ||| 0x1 }).stick 0x2310 1) 0xDB 0)
      else s
    if decide (busHard b ≤ v) && !s.mot.hard then busHardLimit s else s

/-- The bus has been below the undervoltage threshold for 100 µs (R441); a sample of the same cycle above it is in time (R14). -/
def busUndervoltage (s : State) : State :=
  let b := motorBody s
  if b.isEmpty || decide (busUv b ≤ s.mot.busV) || coming s fun c => match c with
      | .busSample code _ => decide (busUv b ≤ busMillivolts b code.toNat)
      | _ => false then s
  else raise (((overMotors s coast).modMot fun m => { m with flags := m.flags ||| 0x4 }).stick 0x2310 4) 0xDD 0

/-- A chopper fault (R443), where its half of the condition stands, and no sample of the same cycle ends it (R14). -/
def chopperFault (s : State) (c : ChopperCause) : State :=
  let b := motorBody s
  let stands := s.mot.brk && !(coming s fun i => match i, c with
      | .busSample _ fb, .noFeedback => fb
      | .busSample code _, .noFall => decide (busMillivolts b code.toNat < busBrakeOn b)
      | _, _ => false) && (match c with
    | .noFeedback => !s.mot.brkFb
    | .noFall => decide (busBrakeOn b ≤ s.mot.busV))
  if !stands then s
  else
    let s := (s.modMot fun m => { m with chopperHold := true, flags := m.flags ||| 0x2 }).stick 0x2310 2
    raise (brakingCoasts s) 0xDC (match c with | .noFeedback => 1 | .noFall => 2)

/-! ## Speed inputs (R445, R446) -/

/-- Channel M8 or M9 of a speed input. -/
def spdChannel (n : Fin 2) : Fin 10 := ⟨8 + n.1, by omega⟩

/-- The modes in which a speed input may start its channel (log 57): those that accept MOTOR_START. -/
def spdStarts (m : Mode) : Bool := m == .standby || m == .ready || m == .print || m == .service

/-- A suspended input takes control again once it has read below the start speed for 100 ms. -/
def spdResume (s : State) (m : Fin 10) (set : Nat) : State :=
  s.modMotor m fun x =>
    if !x.suspended then x
    else if moStart (motorOf s m) ≤ set then { x with lowSince := none }
    else match x.lowSince with
      | none => { x with lowSince := some s.now }
      | some t => if decide (20000000 ≤ s.now - t) then { x with suspended := false, lowSince := none } else x

/-- A reading of a speed input, averaged over its filter time, as a fraction of full scale (R445). -/
def spdUpdate (s : State) (n : Fin 2) (fraction : Nat) : State :=
  let b := motorBody s
  let m := spdChannel n
  let e := motorOf s m
  if b.isEmpty || spdMode b n.1 = 0 then s
  else
    let set := min (moMaxSpeed e) (spdFull b n.1 * min 65536 fraction / 65536)
    let s := s.modMot fun x => { x with spdcmd := x.spdcmd.set n.1 set n.2 }
    let s := spdResume s m set
    let x := s.mot.ch[m]
    if x.suspended || !moEnabled e then s
    else if x.state == .stopped then (if decide (moStart e < set) && spdStarts s.sys.mode then startMotor s m set else s)
    else if !x.state.runs then s
    else if set < moSensorless e then controlledStop s m
    else setSpeed s m set

/-- The input is lost (R446): a controlled stop with its cause; not with a MOTOR_STOP (R448) or a reading (R14) of the same cycle. -/
def spdDropout (s : State) (n : Fin 2) : State :=
  let b := motorBody s
  let m := spdChannel n
  if b.isEmpty || spdMode b n.1 = 0 || s.mot.ch[m].suspended || stopComes s m || (coming s fun c => match c with
      | .spdcmdUpdate k _ => k == n
      | _ => false) then s
  else motorRaise (controlledStop s m) m 0x09 0 6

/-! ## The commands -/

/-- MOTOR_ZERO_CROSSING. -/
def execMotorZeroCrossing (m : Fin 10) (phase : Fin 3) (rising : Bool) (prev last since : Nat) (s : State) :
    Host.Outcome State Fault Refusal :=
  .next (whenUp s fun s => zeroCrossing s m phase rising prev last since)
/-- MOTOR_COMMUTATION. -/
def execMotorCommutation (m : Fin 10) (s : State) : Host.Outcome State Fault Refusal := .next (whenUp s fun s => commutate s m)
/-- MOTOR_PWM_PERIOD. -/
def execMotorPwmPeriod (m : Fin 10) (bitsU bitsV : List Bool) (s : State) : Host.Outcome State Fault Refusal :=
  .next (whenUp s fun s => motorPwm s m bitsU bitsV)
/-- CATCH_WINDOW_EXPIRY. -/
def execCatchWindowExpiry (m : Fin 10) (s : State) : Host.Outcome State Fault Refusal := .next (whenUp s fun s => catchDecision s m)
/-- ALIGN_TIME_EXPIRY. -/
def execAlignTimeExpiry (m : Fin 10) (s : State) : Host.Outcome State Fault Refusal := .next (whenUp s fun s => alignElapsed s m)
/-- RAMP_TIMEOUT. -/
def execRampTimeout (m : Fin 10) (s : State) : Host.Outcome State Fault Refusal := .next (whenUp s fun s => rampTimeout s m)
/-- AT_SPEED_DWELL. -/
def execAtSpeedDwell (m : Fin 10) (s : State) : Host.Outcome State Fault Refusal := .next (whenUp s fun s => atSpeed s m)
/-- LOSS_OF_SYNCHRONISM. -/
def execLossOfSynchronism (m : Fin 10) (s : State) : Host.Outcome State Fault Refusal := .next (whenUp s fun s => losTimeout s m)
/-- LOS_RESTART_DELAY. -/
def execLosRestartDelay (m : Fin 10) (s : State) : Host.Outcome State Fault Refusal := .next (whenUp s fun s => losRestart s m)
/-- COAST_STOP_TIMEOUT. -/
def execCoastStopTimeout (m : Fin 10) (s : State) : Host.Outcome State Fault Refusal := .next (whenUp s fun s => coastStopped s m)
/-- BUS_SAMPLE. -/
def execBusSample (code : BitVec 12) (fb : Bool) (s : State) : Host.Outcome State Fault Refusal :=
  .next (whenUp s fun s => busSample s code fb)
/-- BUS_UNDERVOLTAGE_EXPIRY. -/
def execBusUndervoltageExpiry (s : State) : Host.Outcome State Fault Refusal := .next (whenUp s busUndervoltage)
/-- CHOPPER_FEEDBACK_TIMEOUT. -/
def execChopperFeedbackTimeout (c : ChopperCause) (s : State) : Host.Outcome State Fault Refusal :=
  .next (whenUp s fun s => chopperFault s c)
/-- SPDCMD_UPDATE. -/
def execSpdcmdUpdate (n : Fin 2) (fraction : Nat) (s : State) : Host.Outcome State Fault Refusal :=
  .next (whenUp s fun s => spdUpdate s n fraction)
/-- SPDCMD_DROPOUT. -/
def execSpdcmdDropout (n : Fin 2) (s : State) : Host.Outcome State Fault Refusal := .next (whenUp s fun s => spdDropout s n)

end Sys2Proof.Machine
end

