-- ==== Sys2Proof/Machine/PinsTap.lean ====
section
/-! DEFINITION. Bank supplies (R554, R555) and the test access port (R556). -/

namespace Sys2Proof.Machine

/-! ## Bank supplies -/

/-- A bank's supply falls below 1.7 V: its outputs are high-impedance, and the levels its inputs deliver are undefined. Of
those that State holds, HV_OK is on bank G and BRK_FB on bank E (R545). The device takes no action of its own. -/
def bankLoss (s : State) (b : Fin 8) : State :=
  let s := s.modPins fun p => { p with bankLost := p.bankLost.set b.1 true b.2 }
  if b = 6 then
    let v := Config.freeStrap s.free
    (s.modPins fun p => { p with hvOk := v }).drawn
  else if b = 4 then
    let v := Config.freeStrap s.free
    (s.modMot fun m => { m with brkFb := v }).drawn
  else s

/-- The supply returns: outputs are driven again. -/
def bankReturn (s : State) (b : Fin 8) : State := s.modPins fun p => { p with bankLost := p.bankLost.set b.1 false b.2 }

/-- VDDIO_BANK_LOSS. It acts in mode RESET too. -/
def execVddioBankLoss (bank : Fin 8) (s : State) : Host.Outcome State Fault Refusal := .next (bankLoss s bank)
/-- VDDIO_BANK_RETURN. -/
def execVddioBankReturn (bank : Fin 8) (s : State) : Host.Outcome State Fault Refusal := .next (bankReturn s bank)

/-! ## Test access port (R556; the controller of IEEE 1149.1, log 12) -/

/-- The controller's next state. -/
def Tap.next (t : Tap) (tms : Bool) : Tap :=
  match t, tms with
  | .testLogicReset, true => .testLogicReset
  | .testLogicReset, false => .runTestIdle
  | .runTestIdle, true => .selectDr
  | .runTestIdle, false => .runTestIdle
  | .selectDr, true => .selectIr
  | .selectDr, false => .captureDr
  | .captureDr, true => .exit1Dr
  | .captureDr, false => .shiftDr
  | .shiftDr, true => .exit1Dr
  | .shiftDr, false => .shiftDr
  | .exit1Dr, true => .updateDr
  | .exit1Dr, false => .pauseDr
  | .pauseDr, true => .exit2Dr
  | .pauseDr, false => .pauseDr
  | .exit2Dr, true => .updateDr
  | .exit2Dr, false => .shiftDr
  | .updateDr, true => .selectDr
  | .updateDr, false => .runTestIdle
  | .selectIr, true => .testLogicReset
  | .selectIr, false => .captureIr
  | .captureIr, true => .exit1Ir
  | .captureIr, false => .shiftIr
  | .shiftIr, true => .exit1Ir
  | .shiftIr, false => .shiftIr
  | .exit1Ir, true => .updateIr
  | .exit1Ir, false => .pauseIr
  | .pauseIr, true => .exit2Ir
  | .pauseIr, false => .pauseIr
  | .exit2Ir, true => .updateIr
  | .exit2Ir, false => .shiftIr
  | .updateIr, true => .selectDr
  | .updateIr, false => .runTestIdle

/-- Whether the controller shifts a register to TDO. -/
def Tap.shifts (t : Tap) : Bool := t == .shiftDr || t == .shiftIr

/-- An edge at the port. Once KEY has read locked at a boot sense the port is dead (R556). The chain only observes; what it
shifts out is not given by the spec, and is a free value. -/
def tapEdge (s : State) (tms trstN : Bool) : State :=
  if s.pins.tapDead then s
  else if !trstN then s.modPins fun p => { p with tap := .testLogicReset }
  else if s.pins.tap.shifts then
    let v := Config.freeStrap s.free
    (s.modPins fun p => { p with tap := p.tap.next tms, tdo := v }).drawn
  else s.modPins fun p => { p with tap := p.tap.next tms }

/-- TEST_ACCESS_PORT_TCK_EDGE. The level at TDI goes into the chain, which the spec does not describe. -/
def execTestAccessPortTckEdge (tms _tdi trstN : Bool) (s : State) : Host.Outcome State Fault Refusal :=
  .next (tapEdge s tms trstN)

end Sys2Proof.Machine
end

