-- ==== Sys2Proof/Machine/Scan.lean ====
section
/-!
DEFINITION. Boot stage 4 (R59, R60, R137, R138, R354, R357..R359, R365, R366, R370): the scan of the journal flash, and
the records formed before any serial is issued. How the scan finds the ring and sorts its damage is log 71.
-/

namespace Sys2Proof.Machine

/-! ## Reading the ring -/

/-- What the scan reads from: the slots of the ring, its content, and the sectors that cannot be read. -/
structure RingView where
  slots : Nat
  flash : List (Nat × Byte)
  unreadable : List Nat

/-- Slot of a record index; whether it lies in an unreadable sector, or reads fully erased. -/
def RingView.slot (v : RingView) (i : Nat) : Nat := i % v.slots
def RingView.bad (v : RingView) (i : Nat) : Bool := v.unreadable.contains (2 + v.slot i / 32)
def RingView.blank (v : RingView) (i : Nat) : Bool :=
  !v.bad i && !(v.flash.any fun x => decide (8192 ≤ x.1) && (x.1 - 8192) / 128 == v.slot i)
def RingView.record (v : RingView) (i : Nat) : List Byte := flashRead v.flash (8192 + 128 * v.slot i) 128

/-- The fields of a record that the scan uses (R357). -/
def recType (r : List Byte) : Nat := u8 r 0
def recIndex (r : List Byte) : Nat := u64 r 8
def recHigh (r : List Byte) : Nat := u64 r 0x18
def recUnused (r : List Byte) : Nat := u8 r 2
def recChain (r : List Byte) : List Byte := bytesAt r 0x60 32

/-- A whole record of index i: a known type, layout version 1, its own index. -/
def wholeRecord (r : List Byte) (i : Nat) : Bool :=
  decide (1 ≤ recType r) && decide (recType r ≤ 0x0D) && u8 r 1 == 1 && recIndex r == i

/-- The chain hash of a record after a previous chain hash (R358). -/
def chained (prev r : List Byte) : Bool := recChain r == sha256 (prev ++ bytesAt r 0 96)

/-- The numbers of the ring slots that hold anything. -/
def usedSlots : List (Nat × Byte) → List Nat
  | [] => []
  | x :: t =>
    let rest := usedSlots t
    if x.1 < 8192 then rest
    else let q := (x.1 - 8192) / 128
         match rest with
         | y :: _ => if y = q then rest else q :: rest
         | [] => [q]

/-- The index at which the ring begins: 0 when slot 0 holds the first record of a ring (R358), else the lowest index of a
whole record; none without one. -/
def ringStart (v : RingView) (used : List Nat) : Option Nat :=
  let first := v.record 0
  if used.contains 0 && !v.bad 0 && wholeRecord first 0 && chained (zeros 32) first then some 0
  else
    let ok := used.filterMap fun q =>
      let r := v.record q
      let i := recIndex r
      if !v.bad q && i != 0 && v.slot i == q && wholeRecord r i then some i else none
    match ok with
    | [] => none
    | i :: t => some (t.foldl Nat.min i)

/-! ## Walking the chain (R59) -/

/-- What the walk has found: the newest valid record and the one before it, the highest index, and the newest valid seal; of the
damage since that seal, the cause of the lowest damaged slot (0 none) and the last valid record before it; and whether damaged
slots stand since the newest valid record. -/
structure Walk where
  last : List Byte
  before : List Byte
  high : Nat
  sealAt : Option Nat
  damage : Nat
  intact : List Byte
  broken : Bool

/-- A valid record of index i joins the walk; a seal closes what was damaged before it. -/
def Walk.valid (w : Walk) (i : Nat) (r : List Byte) : Walk :=
  let seals := recType r == 0x04
  { last := r, before := w.last, high := i, sealAt := if seals then some i else w.sealAt
    damage := if seals then 0 else w.damage, intact := if seals then [] else w.intact, broken := false }

/-- A damaged slot of index i (R59). -/
def Walk.damaged (w : Walk) (i cause : Nat) : Walk :=
  { w with high := i, broken := true, damage := if w.damage = 0 then cause else w.damage
           intact := if w.damage = 0 then w.last else w.intact }

/-- The record that the next one follows in the chain: a GAP record follows the last valid record before the first damaged slot
since the last seal (R59). -/
def Walk.previous (w : Walk) : List Byte := if w.damage = 0 then w.last else w.intact

/-- Whether a whole record continues the walk. -/
def Walk.accepts (w : Walk) (r : List Byte) : Bool :=
  let gap := recType r == 0x07 && chained (recChain w.previous) r
  if w.broken then gap else gap || chained (recChain w.last) r

/-- The cause of a damaged slot (R59): unreadable, torn, or a whole record that does not follow in the chain, which is
torn too when nothing follows it. -/
def damageOf (v : RingView) (i : Nat) (r : List Byte) : Nat :=
  if v.bad i then 4 else if wholeRecord r i && !v.blank (i + 1) then 3 else 1

/-- The walk from index i, at most `fuel` records on. -/
def walkRing (v : RingView) : Nat → Nat → Walk → Walk
  | 0, _, w => w
  | fuel + 1, i, w =>
    if v.blank i then w
    else
      let r := v.record i
      if !v.bad i && wholeRecord r i && w.accepts r then walkRing v fuel (i + 1) (w.valid i r)
      else walkRing v fuel (i + 1) (w.damaged i (damageOf v i r))

/-- The scan of a ring: where it begins and what the walk finds; none when no valid record is there. -/
def scanRing (v : RingView) : Option (Nat × Walk) :=
  let used := usedSlots v.flash
  match ringStart v used with
  | none => none
  | some i =>
    let r := v.record i
    let w : Walk := ⟨r, [], i, if recType r = 0x04 then some i else none, 0, [], false⟩
    some (i, walkRing v (min (v.slots - 1) (used.length + 32 * v.unreadable.length)) (i + 1) w)

/-! ## The collection log (R366) -/

/-- The valid entry of the highest sequence: its index, sequence, and place 0..511. -/
def logEntry (flash : List (Nat × Byte)) (unreadable : List Nat) : Option (Nat × Nat × Nat) :=
  (List.range 512).foldl (fun m j =>
    let e := flashRead flash (16 * j) 16
    if unreadable.contains (j / 256) || e.all (· == 0xFF) || u32 e 12 != (crc32c (bytesAt e 0 12)).toNat then m
    else match m with
      | some x => if x.2.1 < u32 e 8 then some (u64 e 0, u32 e 8, j) else m
      | none => some (u64 e 0, u32 e 8, j)) none

/-- K: none without an entry, or with one that names an index the ring does not have. -/
def restoreLog (s : State) (unreadable : List Nat) (high : Option Nat) : State :=
  match logEntry s.jnl.flash unreadable with
  | none => s
  | some (k, q, j) =>
    let ours := match high with | some h => decide (k ≤ h) | none => false
    s.modJnl fun x => { x with
      coll := if ours then some k else none, collSeq := q, collSector := j / 256, collUsed := j % 256 + 1 }

/-! ## The records of a boot (R354, R359) -/

/-- The BOOT record's flags and payload (R359). -/
def bootFlags (s : State) (unanchored : Bool) : Nat :=
  bit s.sys.pwrLoss + 2 * bit s.sys.compat + 4 * bit s.sys.compatStrap + 8 * bit (s.fus.margins != 0) +
  16 * bit s.fus.integrity + 32 * bit unanchored
def bootRecord (s : State) (newest : Option Nat) : State :=
  journal s 0x05 (bootFlags s !s.jnl.anchored)
    (hashBytes Config.romHash ++ leBytes 2 s.fus.part.toNat ++ leBytes 1 (fieldOf (fuseWord s 0).toNat 16 8) ++ zeros 5 ++
     leBytes 8 (newest.getD (2 ^ 64 - 1)))

/-- The detail of JNL_EVENT for a GAP cause (R381); it names none for an unreadable sector, which counts as FLASH
(log 71). -/
def gapEvent (cause : Nat) : Nat := match cause with | 1 => 0x02 | 2 => 0x03 | 3 => 0x04 | _ => 0x01

/-- The one GAP record of a boot (R59): from the first record after the last valid seal to the highest index found. -/
def bootGap (s : State) (start : Nat) (w : Walk) : State :=
  let first := match w.sealAt with | some i => i + 1 | none => start
  let cause := if w.damage != 0 then w.damage else if first ≤ w.high then 2 else 0
  if cause = 0 then s
  else raiseJournal (journal s 0x07 cause (pairPayload first w.high)) (gapEvent cause)

/-- The VOID records and the first reservation (R354). -/
def bootVoids (s : State) (w : Walk) : State :=
  let flushed := w.damage == 0 && recType w.last == 0x04 && recType w.before == 0x06
  let h := recHigh w.last
  let l := if flushed then u64 w.before 0x20 else h + 1 - recUnused w.last
  let s := if l ≤ h then journal s 0x03 1 (pairPayload l h) else s
  let s := s.modJnl fun j => { j with high := h + 64, next := h + 65 }
  reserveCheck (journal s 0x03 2 (pairPayload (h + 1) (h + 64)))

/-- A ring with a valid record: the serial authority goes on from its header. It is anchored unless H is 0, as in a ring whose boots
have found no anchor so far: such a ring stays unanchored (R351, DEDUCED, log 110). -/
def resumeRing (s : State) (start : Nat) (w : Walk) : State :=
  let h := recHigh w.last
  let i := recIndex w.last
  let s := s.modJnl fun j => { j with
    anchored := h != 0, boots := u32 w.last 4 + 1, high := h, next := h + 1 - recUnused w.last, newest := some i
    oldest := start, nextIdx := w.high + 1, chain := BitVec.ofNat 256 (leAt (recChain w.previous) 0 32)
    sealIdx := w.sealAt.getD 0, sealed := w.sealAt.isSome, unsealed := 0 }
  let t := bootRecord (bootGap s start w) (some i)
  if h = 0 then raiseJournal t 0x06 else bootVoids t w

/-- A ring without one: unanchored, with a BOOT record as index 0. -/
def freshRing (s : State) : State :=
  let s := s.modJnl fun j => { j with
    anchored := false, boots := 1, high := 0, next := 1, newest := none, oldest := 0, nextIdx := 0, chain := 0 }
  raiseJournal (bootRecord s none) 0x06

/-! ## The scan -/

/-- The capacity that SFDP confirms meets R135. -/
def capacityOk (c : Nat) : Bool := (List.range 6).any fun k => c == 2 ^ (26 + k)

/-- KEY words that are all burned with a hash that does not match (R370). -/
def keyMismatch (s : State) : Bool :=
  ((List.range 29).all fun k => getN s.fus.latched (128 + k) 0 != 0) && !keyMatches s

/-- The scan of an available flash on a provisioned device. -/
def scanFlash (s : State) (unreadable : List Nat) : State :=
  let v : RingView := ⟨ringSlots s, s.jnl.flash, unreadable⟩
  match scanRing v with
  | none => freshRing (restoreLog s unreadable none)
  | some (start, w) => resumeRing (restoreLog s unreadable (some w.high)) start w

/-- The end of stage 4: the recipe wait, or SERVICE under R60. -/
def endStage4 (s : State) : State :=
  if s.fus.integrity && s.fus.part == 0x8640 then
    enterMode (s.modSys fun x => { x with svcLock := true, bootStage := 7 }) .service
  else toStage s 5

/-- JOURNAL_SCAN: a sector left partly erased is erased again first (R138). -/
def execJournalScan (capacity : Option Nat) (unreadable : List Nat) (s : State) : Host.Outcome State Fault Refusal :=
  .next (
    if !atStage s 4 then s
    else
      let size := capacity.getD 0
      let ok := capacityOk size
      let s := flashOps s ([(0x66, 0, 0), (0x99, 0, 0), (0x5A, 0, 0)] ++
        (if ok then (s.jnl.erasing.map eraseOps).flatten else []) ++
        (if ok && keyComplete s then [(0xEC, 0, size)] else []))
      let s := s.modJnl fun j => { j with
        flashOk := ok, capacity := if ok then size else 0, provisioned := keyComplete s
        flash := j.erasing.foldl flashErase j.flash, erasing := [] }
      let s := if keyMismatch s then raiseJournal s 0x07 else s
      let s := if !ok then raiseJournal s 0x01
        else if s.jnl.provisioned then eraseAhead (scanFlash s unreadable)
        else s
      endStage4 s)

end Sys2Proof.Machine
end

