-- ==== Sys2Proof/Machine/SheetFlow.lean ====
section
/-!
DEFINITION. What the sheet sequencer does without a command: the pick (R388..R390, R397), the gate (R391), deskew (R422),
the sensor windows and jams (R400), the route (R393), completion (R394) and the path stops (R401).
-/

namespace Sys2Proof.Machine

/-! ## SHEET_PICK (R194, R273, R388, R389, R421) -/

/-- The first pick takes ownership (R194): M6, the polygons of the stations named, and the paper-path axes, of which those
with a gear go to GEARED. -/
def takeUnits (s : State) : State :=
  gearPath ((ownPolygons (s.modSeq fun q => { q with own := true })).modMotor 6 fun x => { x with owned := true })

/-- The window of an enabled sensor for a sheet with T (R400); the gate sensor's is T ± GATE_TOL. -/
def windowOf (s : State) (t k : Nat) : Window :=
  if k == gateSensor s then ⟨k, (t : Int) - gateTol s, (t : Int) + gateTol s, none, false⟩
  else ⟨k, (t : Int) + sensorStart s k, (t : Int) + sensorEnd s k, none, false⟩

/-- A sensor that serves a destination. -/
def sensorServes (s : State) (k d : Nat) : Bool := bitOf (sensorFlags s k) 0 && bitOf (sensorDests s k) d

/-- The windows that open at the pick: the gate's, and those of the sensors that serve both the destination and the spoil
destination. A sheet picked again from the hold has passed the sensors whose window is over (log 76). -/
def pickWindows (s : State) (e : Sheet) (t : Nat) : List Window :=
  ((List.range 32).filter fun k => k == gateSensor s || (sensorServes s k e.dest && sensorServes s k e.spoilDest)).map
    (windowOf s t) |>.filter fun w => !e.hold || decide ((ppc s : Int) ≤ w.stop)

/-- Verify deadlines (R273): for band n, 32 lines before its first line, at TOF + 512 (n − 1). -/
def scheduleBands (s : State) (i : Fin 512) (t : Nat) : State :=
  s.modStp fun x => { x with st := x.st.mapFinIdx fun k y _ => { y with bands := y.bands.map fun (b : Band) =>
    if b.sheet == i && b.state != .done then
      { b with deadline := some (t + (getN s.btu k {}).regOffset + 512 * b.band - 512) }
    else b } }

/-- The next lock of the deskew pair is phased to the new T of the sheet it holds (R423). -/
def phasePair (s : State) (t : Nat) : State :=
  overAxes s fun s a => s.modAxis a fun x => match x.gateAt with
    | some p => { x with gateAt := none, phase := some (p, t) }
    | none => x

/-- The pick of a sheet. -/
def pickSheet (s : State) (i : Fin 512) (e : Sheet) : State :=
  let t := pickT s e
  let w := pickWindows s e t
  let s := s.modSheet i fun e => { e with t := some t, windows := w, hold := false }
  let s := scheduleBands s i t
  let s := s.modSeq fun q => { q with
    lastEnd := some (t + 16 * e.length), ends := ((e.order, t + 16 * e.length) :: q.ends).take 513, waitRaised := none, pauseRaised := 0, headWaited := none }
  let s := takeUnits (if e.hold then phasePair s t else s)
  panicUpdate (if s.sys.mode == .ready then enterMode s .print else s)

/-- A raise that moves the mode to RUNOUT or beyond stands before the fabric in this cycle: it comes before a pick (R45,
R404). -/
def runoutStands (s : State) : Bool := s.flt.inbox.any fun r => decide (Level.toNat .runout ≤ (raisedLevel s r).toNat)

/-- The next committed sheet is picked when nothing delays it. -/
def sheetPick (s : State) : State :=
  match nextPick s with
  | none => s
  | some (i, e) =>
    if waitCode s = 0 && !runoutStands s then pickSheet s i e else s

/-- A sheet has waited more than 1 s: SEQ_PICK_WAIT once. -/
def pickWait (s : State) : State :=
  if waitCode s = 0 || s.seq.waitRaised == nextOrder s then s
  else raise (s.modSeq fun q => { q with waitRaised := nextOrder s }) 0xB5 0

/-- A pause of R390 has lasted more than 1 ms: SEQ_PAUSE once for its cause. -/
def pickPause (s : State) : State :=
  let w := waitCode s
  if !within 2 5 w || s.seq.pauseRaised == w then s
  else raise ((s.modSeq fun q => { q with pauseRaised := w, flags := q.flags ||| 0x4 }).stick 0x1A24 4) 0xB3 w

/-- HEAD_WAIT has elapsed: the sheet is picked although its head is HELD. -/
def headWait (s : State) : State := if waitCode s = 5 then s.modSeq fun q => { q with headWaited := nextOrder s } else s

/-! ## Deskew (R422) -/

/-- SKEW of the right axis: 1 clamped, 2 scaled, 3 no second edge. -/
def skew (s : State) (why : Nat) : State :=
  let a : Fin 16 := Fin.ofNat 16 (deskewRight (motionBody s))
  raise ((s.modAxis a fun x => { x with flags := x.flags ||| 0x40 }).stick (0x1C20 + 0x40 * a.1) 0x40)
    (0xC0 + a.1) (0x09 + 256 * why + 65536 * (s.axs[a].moveId).toNat)

/-- The leading-edge timestamp of a sheet at a sensor. -/
def Sheet.leadAt (e : Sheet) (k : Nat) : Option Nat := match e.windows.find? fun w => w.sensor == k with
  | some w => w.lead
  | none => none
def Sheet.watched (e : Sheet) (k : Nat) : Bool := e.windows.any fun w => w.sensor == k

/-- The largest share [1/256 step] that a symmetric profile moves in `counts` of the counter (R422): a × τ² / 4, or, where
the velocity left beside the gear limits it, v × τ − v² / a; none when the counter rests. -/
def largestShare (s : State) (e : List Byte) (counts : Nat) : Option Nat :=
  let rate := ppcRate s
  if rate = 0 then none
  else
    let a := correctionAcc (motionBody s)
    let v := axVMax e - (gearSpeed s e).natAbs / 65536
    if a * counts ≤ 2 * v * rate then some (a * counts * counts / (4 * rate * rate))
    else some (v * counts / rate - v * v / Nat.max 1 a)

/-- A share of the correction joins what the axis still owes. -/
def oweShare (s : State) (a : Nat) (share : Int) : State :=
  s.modAxis (Fin.ofNat 16 a) fun x => { x with gearLock := x.gearLock.map fun g => { g with owed := g.owed + share * 65536 } }

/-- The second edge of the pair has been recorded: the correction. -/
def deskewSheet (s : State) (t tL tR : Nat) : State :=
  let b := motionBody s
  let e := axisOf s (Fin.ofNat 16 (deskewRight b))
  if t < ppc s + deskewEnd b then s
  else
    let raw : Int := (tR : Int) - tL
    let delta := clampI (-(deskewMax b : Nat)) (deskewMax b : Nat) raw
    let d := roundDiv ((axGear e : Int) * delta) 65536
    let cut := match largestShare s e (t - deskewEnd b - ppc s) with
      | some m => if m < (d - Int.fdiv d 2).natAbs then some m else none
      | none => none
    let d2 : Int := match cut with
      | some m => if d < 0 then -(2 * m : Nat) else (2 * m : Nat)
      | none => d
    let s := s.modAxis (Fin.ofNat 16 (deskewRight b)) fun x => { x with deskewDelta := delta, deskewD := d2 }
    let s := oweShare (oweShare s (deskewRight b) (d2 - Int.fdiv d2 2)) (deskewLeft b) (-(Int.fdiv d2 2))
    let s := if delta == raw then s else skew s 1
    if cut.isSome then skew s 2 else s

/-- Deskew after a leading edge at sensor k. -/
def deskewEdge (s : State) (i : Fin 512) (k : Nat) : State :=
  let b := motionBody s
  if b.isEmpty || !(k == deskewSensorL b || k == deskewSensorR b) then s
  else match s.led.entries[i] with
    | some e => match e.t, e.leadAt (deskewSensorL b), e.leadAt (deskewSensorR b) with
      | some t, some l, some r => deskewSheet s t l r
      | _, _, _ => s
    | none => s

/-- An edge at a deskew sensor is still to come in this cycle (R425): the second edge counts, and the correction is then
scaled. -/
def deskewComes (s : State) : Bool :=
  let b := motionBody s
  coming s fun c => match c with
    | .paperSensorEdge k true => (k.1 == deskewSensorL b || k.1 == deskewSensorR b) && (expectedAt s k.1).isSome
    | _ => false

/-- DESKEW_DEADLINE: T − DESKEW_END without the second edge. -/
def deskewLate (s : State) : State :=
  if deskewComes s then s else
  let b := motionBody s
  let due := (sheets s).find? fun x => x.2.state == .committed && !b.isEmpty &&
    x.2.watched (deskewSensorL b) && x.2.watched (deskewSensorR b) &&
    !((x.2.leadAt (deskewSensorL b)).isSome && (x.2.leadAt (deskewSensorR b)).isSome) &&
    (match x.2.t with | some t => decide (t ≤ ppc s + deskewEnd b) | none => false)
  if due.isSome then skew s 3 else s

/-! ## Windows and jams (R400, R401, R404) -/

/-- The sheet that is passing a sensor: its leading edge seen, its trailing edge not. -/
def passingAt (s : State) (k : Nat) : Option (Fin 512 × Sheet × Nat) :=
  (sheets s).findSome? fun x =>
    if !x.2.picked then none
    else match x.2.windows.find? fun w => w.sensor == k && w.lead.isSome && !w.trailed with
      | some w => some (x.1, x.2, w.lead.getD 0)
      | none => none

/-- A change of a sheet's window at a sensor. -/
def modWindow (s : State) (i : Fin 512) (k : Nat) (g : Window → Window) : State :=
  s.modSheet i fun e => { e with windows := updFirst (fun w => w.sensor == k) g e.windows }

/-- The first sensor of the route chosen for a sheet: of the sensors that serve it alone, that of the earliest window; its
exit sensor when there is none. -/
def firstOfRoute (s : State) (e : Sheet) (d : Nat) : Nat :=
  let own := (List.range 32).filter fun k => sensorServes s k d && !(sensorServes s k e.dest && sensorServes s k e.spoilDest)
  (own.foldl (fun (m : Option Nat) k => match m with
    | some y => if sensorStart s k < sensorStart s y then some k else m
    | none => some k) none).getD (destExit s d)

/-- A diverter axis that is stalled or not at its position for a destination (R401). -/
def diverterWrong (s : State) (d : Nat) : Bool :=
  (List.range 4).any fun n =>
    let a := diverterAxis s n
    a != 0xFF && (let x := getN s.axs a {}
                  x.stalled || x.pos != destPos s d n)

/-- The gate (R391): the commit point is passed. -/
def passGate (s : State) (i : Fin 512) (k : Nat) : State :=
  if k != gateSensor s then s
  else s.modSheet i fun e => if e.state == .committed then { e with state := .pastGate, gated := true } else e

/-- A leading edge in its window. -/
def leadingEdge (s : State) (i : Fin 512) (e : Sheet) (k : Nat) : State :=
  let now := ppc s
  let s := modWindow s i k fun w => { w with lead := some now }
  let s := deskewEdge (passGate s i k) i k
  match e.route with
  | some d => if k == firstOfRoute s e d && diverterWrong s d then pathStop s .divert 0 0 i.1 1 else s
  | none => s

/-- An edge that changes a sensor's level at a sensor that is evaluated. -/
def edgeSeen (s : State) (k : Nat) (paper : Bool) : Bool :=
  s.seq.psn.getLsbD k != paper && !(sheetBody s).isEmpty && (bitOf (sensorFlags s k) 0 || k == gateSensor s)

/-- A jam: its sensor, its kind and the ledger index of the sheet. -/
abbrev Jam := Nat × Nat × Nat

/-- The jam that an edge is (R400): EARLY, LATE, STRAY at a leading edge, SHORT, STUCK at a trailing one. -/
def edgeJam (s : State) (k : Nat) (paper : Bool) : Option Jam :=
  if paper then
    match expectedAt s k with
    | some (i, _, w) =>
      if (ppc s : Int) < w.start then some (k, 2, i.1) else if w.stop < (ppc s : Int) then some (k, 1, i.1) else none
    | none => if (passingAt s k).isSome then none else some (k, 5, 0)
  else match passingAt s k with
    | some (i, e, lead) =>
      let due := lead + 16 * e.length
      let tol := tailTol s e.media
      if ppc s + tol < due then some (k, 4, i.1) else if due + tol < ppc s then some (k, 3, i.1) else none
    | none => none

/-- The jams of windows that have ended without their edge: LATE and STUCK, lowest sensor first. -/
def endedWindows (s : State) : List Jam :=
  ((List.range 32).map fun k => (sheets s).filterMap fun x =>
    if !x.2.picked then none
    else match x.2.windows.find? fun w => w.sensor == k with
      | none => none
      | some w => match w.lead with
        | none => if w.stop < (ppc s : Int) then some (k, 1, x.1.1) else none
        | some l => if !w.trailed && decide (l + 16 * x.2.length + tailTol s x.2.media < ppc s) then some (k, 3, x.1.1) else none).flatten

/-- The jams still to come in this cycle: of edges, and of windows that end. -/
def jamsComing (s : State) : List Jam :=
  let edges := s.pending.filterMap fun c => match c with
    | .paperSensorEdge k paper => if edgeSeen s k.1 paper then edgeJam s k.1 paper else none
    | _ => none
  if coming s fun c => match c with | .sensorWindowExpiry _ => true | _ => false then edges ++ endedWindows s else edges

/-- All jams of one cycle, those given and those to come, make one path stop, which names the lowest sensor and counts them
(R404): one jam for each sensor. -/
def jamStop (s : State) (jams : List Jam) : State :=
  let all := jams ++ jamsComing s
  let at_ := (List.range 32).filterMap fun k => all.find? fun x => x.1 == k
  match at_ with
  | [] => s
  | j :: _ => pathStop s .jam j.1 j.2.1 j.2.2 at_.length

/-- A trailing edge in its window: the sheet has left the sensor; at the exit sensor of its route it completes (R394). -/
def trailingEdge (s : State) (i : Fin 512) (e : Sheet) (k : Nat) : State :=
  let s := modWindow s i k fun w => { w with trailed := true }
  match e.route with
  | some d => if k == destExit s d && e.state == .pastGate then completeSheet s i else s
  | none => s

/-- A debounced edge at a paper sensor, `paper` for a leading edge. -/
def sensorEdge (s : State) (k : Fin 32) (paper : Bool) : State :=
  let on : BitVec 32 := 1#32 <<< k.1
  let t := s.modSeq fun q => { q with psn := if paper then q.psn ||| on else q.psn &&& ~~~on }
  if s.seq.psn.getLsbD k.1 == paper then s
  else if !edgeSeen s k.1 paper || !windowsOpen s then t
  else match edgeJam s k.1 paper with
    | some j => jamStop t [j]
    | none =>
      if paper then (match expectedAt t k.1 with
        | some (i, e, _) => leadingEdge t i e k.1
        | none => t)
      else match passingAt t k.1 with
        | some (i, e, _) => trailingEdge t i e k.1
        | none => t

/-- SENSOR_WINDOW_EXPIRY at a sensor. -/
def windowExpires (s : State) (k : Nat) : State :=
  if windowsOpen s && ((endedWindows s).any fun x => x.1 == k) then jamStop s (endedWindows s) else s

/-! ## ROUTE_DECISION (R393) -/

/-- The diverters move to the positions of a destination. -/
def moveDiverters (s : State) (d : Nat) : State :=
  (List.range 4).foldl (fun s n => if diverterAxis s n == 0xFF then s else ownMove s (diverterAxis s n) (destPos s d n)) s

/-- The route of a sheet is fixed, its diverters move, and the windows that serve it alone open (R400). -/
def fixRoute (s : State) (i : Fin 512) (e : Sheet) : State :=
  let d := if e.spoil.isSome || e.cancel then e.spoilDest else e.dest
  let t := e.t.getD 0
  let more := ((List.range 32).filter fun k => k != gateSensor s && sensorServes s k d &&
    !(sensorServes s k e.dest && sensorServes s k e.spoilDest)).map (windowOf s t)
  moveDiverters (s.modSheet i fun e => { e with route := some d, windows := e.windows ++ more }) d

/-- Every picked sheet whose count T + DIV_DECIDE has been reached; in HALT no diverter moves (R62, R403). -/
def routeDecision (s : State) : State :=
  if s.sys.mode == .halt then s
  else (sheets s).foldl (fun s x => match x.2.t with
    | some t => if x.2.open && x.2.route.isNone && decide (t + divDecide s ≤ ppc s) then fixRoute s x.1 x.2 else s
    | none => s) s

/-- M6 has been out of its tolerance for 2 ms with a sheet picked (R401). -/
def mainDriveOut (s : State) : State :=
  if m6InTolerance s || !((sheets s).any fun x => x.2.picked) then s else pathStop s .mainDrive 0 0 0 1

/-! ## The commands -/

/-- SHEET_PICK. -/
def execSheetPick (s : State) : Host.Outcome State Fault Refusal := .next (whenUp s sheetPick)
/-- PICK_WAIT_EXPIRY. -/
def execPickWaitExpiry (s : State) : Host.Outcome State Fault Refusal := .next (whenUp s pickWait)
/-- PICK_PAUSE_EXPIRY. -/
def execPickPauseExpiry (s : State) : Host.Outcome State Fault Refusal := .next (whenUp s pickPause)
/-- HEAD_WAIT_EXPIRY. -/
def execHeadWaitExpiry (s : State) : Host.Outcome State Fault Refusal := .next (whenUp s headWait)
/-- PAPER_SENSOR_EDGE. -/
def execPaperSensorEdge (k : Fin 32) (paper : Bool) (s : State) : Host.Outcome State Fault Refusal :=
  .next (whenUp s fun s => settle (sensorEdge s k paper))
/-- DESKEW_DEADLINE. -/
def execDeskewDeadline (s : State) : Host.Outcome State Fault Refusal := .next (whenUp s deskewLate)
/-- SENSOR_WINDOW_EXPIRY. -/
def execSensorWindowExpiry (k : Fin 32) (s : State) : Host.Outcome State Fault Refusal :=
  .next (whenUp s fun s => settle (windowExpires s k.1))
/-- ROUTE_DECISION. -/
def execRouteDecision (s : State) : Host.Outcome State Fault Refusal := .next (whenUp s routeDecision)
/-- MAIN_DRIVE_TOLERANCE_EXPIRY. -/
def execMainDriveToleranceExpiry (s : State) : Host.Outcome State Fault Refusal :=
  .next (whenUp s fun s => settle (mainDriveOut s))

end Sys2Proof.Machine
end

