-- ==== Sys2Proof/Machine/SteepFlow.lean ====
section
/-! DEFINITION. The Steep's commands: assignment, reports, deadlines, exposure and slot-read errors (R272..R287). -/

namespace Sys2Proof.Machine

/-! ## Assignment (R272, R275, R276, R281, R284) -/

/-- The last raw line pitch of a band time, in process-position counts: 32 lines of 16 counts (R273, R314). -/
def bandCounts : Nat := 512

/-- A copy that an attempt can read: a form-2 Leaf has none to read (R243). -/
def Leaf.readable (l : Leaf) (mirror : Bool) : Bool := l.form == 2 || (if mirror then l.mirror else l.primary) == .good

/-- The copy of a first attempt: the primary one, or the other when that is bad (R275). -/
def firstCopy (s : State) (b : Band) : Bool :=
  match findLeaf s b.job b.key with
  | some l => !l.readable false && l.readable true
  | none => false

/-- The copy of a second attempt: the one not read, or the same when that is bad (R275). -/
def secondCopy (s : State) (b : Band) : Bool :=
  match findLeaf s b.job b.key with
  | some l => if l.readable (!b.mirror) then !b.mirror else b.mirror
  | none => b.mirror

/-- The first band of a station that waits for its first attempt, when R272 lets it start: the band ahead has started or
entered BLANK, the slot lead + 2 places earlier has been freed, and a slot is free. -/
def nextFirst (s : State) (k : Fin 6) : Option Nat :=
  let x := s.stp.st[k]
  match x.bands.findIdx? fun b => b.state == .wait with
  | none => none
  | some i => match x.bands[i]? with
    | none => none
    | some b =>
      let back := leadOf x b + 2
      let early := if back ≤ i then (match x.bands[i - back]? with | some p => p.state == .done | none => true) else true
      if early && x.slots.any (fun y => !y.busy && !y.retired) then some i else none

/-- Work of the Steep: a station, a band of its sequence, and what it waits for. -/
structure Work where
  station : Fin 6
  band : Nat
  first : Bool
  deriving DecidableEq, Repr

/-- Bands of every station that satisfy a condition, in station order. -/
def bandsWhere (s : State) (p : Band → Bool) : List Work :=
  ((List.finRange 6).map fun k => (s.stp.st[k].bands.zipIdx.filter fun x => p x.1).map fun x => (⟨k, x.2, false⟩ : Work)).flatten

/-- A band without a deadline comes after every band with one. -/
def workBefore (s : State) (a b : Work) : Bool :=
  let d := fun (w : Work) => match s.stp.st[w.station].bands[w.band]? with | some x => x.deadline | none => none
  match d a, d b with
  | some x, some y => decide (x ≤ y)
  | some _, none => true
  | none, some _ => false
  | none, none => true

/-- Waiting work in the order of R276. Ties among migrations and among second attempts go by station, then sequence. -/
def waitingWork (s : State) : List Work :=
  let firsts := (List.finRange 6).filterMap fun k => (nextFirst s k).map fun i => (⟨k, i, true⟩ : Work)
  bandsWhere s (fun b => b.waiting && b.migrating) ++ bandsWhere s (fun b => b.waiting && !b.migrating) ++
    firsts.foldl (fun l w => (l.takeWhile fun x => workBefore s x w) ++ [w] ++ l.dropWhile fun x => workBefore s x w) []

/-- The lane for a band (R275, R276): a second attempt avoids the lanes of the first. -/
def decodeLane (s : State) (b : Band) : Option (Fin 16) :=
  chooseLane ((List.finRange 16).filter fun n =>
    !laneSuspect s (.dec n) && !(b.state == .decode2 && b.lanes.contains n)) fun n => s.cdc.dec[n]

/-- A band takes a lane and, on its first attempt, a slot; the slot's epoch advances with the owner (R282). -/
def assignBand (s : State) (w : Work) (b : Band) (lane : Fin 16) (slot : Fin 6) (mirror : Bool) : State :=
  let epoch := s.stp.st[w.station].slots[slot].epoch + 1
  let second := b.state == .decode2
  let s := s.modSteep w.station fun x => { x with
    slots := updF x.slots slot fun y => { y with busy := true, epoch := epoch, owner := some lane }
    bands := updAt (fun b => { b with
      state := if b.state == .wait then .decode1 else b.state, slot := some slot, mirror := mirror, waiting := false
      migrating := false, lanes := if second then b.lanes else lane :: b.lanes }) w.band x.bands }
  (dramRequest s).modDec lane fun l => { l.taken .steep with
    tries := l.tries + 1, epoch := epoch, assign := some ⟨w.station, slot, epoch, b.job, b.key, mirror, second⟩ }

/-- STP_MIGRATE, its count, and the slot words of the old lane that arrive late: how many is open, at most what 2 µs of
writing holds (R247, R283; log 40). A restored decode service ends an interruption (R521). -/
def migrated (s : State) (key : Word) : State :=
  let late := (Config.freeWord s.free).toNat % 601
  let s := s.drawn.modStp fun x => { x with migrations := inc32 x.migrations, stale := satAdd 32 x.stale late }
  let s := raise s 0x52 key.toNat
  if (bandsWhere s fun b => b.waiting && b.migrating).isEmpty then
    match s.flt.interruption with
    | some k => if decide (0x30 ≤ k.1) && decide (k.1 ≤ 0x3F) then s.modFlt fun f => { f with interruption := none } else s
    | none => s
  else s

/-- The assignment of a piece of work, when a suitable lane is free; a fenced station accepts none (R291). -/
def tryAssign (s : State) (w : Work) : Option State :=
  match s.stp.st[w.station].bands[w.band]? with
  | none => none
  | some b => match if stationFenced s w.station.1 then none else decodeLane s b with
    | none => none
    | some lane =>
      if w.first then
        match (List.finRange 6).find? fun n => !s.stp.st[w.station].slots[n].busy && !s.stp.st[w.station].slots[n].retired with
        | some n => some (assignBand s w b lane n (firstCopy s b))
        | none => none
      else match b.slot with
        | none => none
        | some n =>
          if b.migrating then some (migrated (assignBand s w b lane n b.mirror) b.key)
          else some (assignBand s w b lane n (secondCopy s b))

/-- DECODE_ASSIGN: the first waiting work that finds a lane. -/
def execDecodeAssign (s : State) : Host.Outcome State Fault Refusal :=
  .next (whenUp s fun s => if s.sys.mode == .halt then s else ((waitingWork s).findSome? (tryAssign s)).getD s)

/-! ## Reports (R246, R266, R278, R283, R285) -/

/-- A strike (R266): the lane tests itself at its next idle moment, and three within its last 1,024 attempts raise its
source. -/
def strike (s : State) (n : Fin 16) : State :=
  let s := s.modDec n fun l =>
    let kept := (l.tries :: l.strikes).filter fun a => decide (l.tries < a + 1024)
    if l.state == .idle && !l.fence then { l with strikes := kept, state := .test, periodic := false }
    else { l with strikes := kept, testDue := true }
  if 3 ≤ (s.cdc.dec[n]).strikes.length then laneRaise s (.dec n) 0x03 else s

/-- A passing report (R274, R278). -/
def bandPassed (s : State) (k : Fin 6) (i : Nat) (b : Band) (lane : Fin 16) : State :=
  let out := if b.state == .decode1 then Outcome.first else .mirror
  let s := modBand s k i fun b => { b with state := .verified, outcome := some out, waiting := false }
  match b.failed with
  | some (o, n) => if b.state == .decode2 && decide (1 ≤ o) && decide (o ≤ 8) && n != lane then strike s n else s
  | none => s

/-- A failure report (R274, R285). -/
def bandFailed (s : State) (k : Fin 6) (i : Nat) (b : Band) (lane : Fin 16) (outcome : Nat) : State :=
  if b.state == .decode2 then blankBand s k i .steepVerify outcome
  else if (match b.deadline with | some d => decide (d ≤ ppc s) | none => false) then blankBand s k i .steepDeadline 0
  else
    let s := modBand s k i fun b => { b with state := .decode2, waiting := true, migrating := false, failed := some (outcome, lane) }
    raise s 0x50 b.key.toNat

/-- What an attempt has written, and its report (R243, R246). A guard failure stops it after the bytes given; the body
bytes then consumed are those that these took. -/
def attemptResult (s : State) (a : Assign) (u : AttemptUpset) : List Byte × AttemptReport :=
  match findLeaf s a.job a.key with
  | none => ([], { epoch := a.epoch, outcome := 0x11, rawBytes := 0, bodyBytes := 0, rawCrc := crc32c [], flags := 0 })
  | some l => match u with
    | .none => attemptData l a.epoch
    | .guardFail n =>
      let out := (leafDecoded l).1.take n
      let used := if l.form = 1 then ((inflate l.body l.rawLen out.length).pos + 7) / 8 else out.length
      (out, { epoch := a.epoch, outcome := 0x11, rawBytes := out.length, bodyBytes := min l.body.length used
              rawCrc := crc32c out, flags := 0 })

/-- The words of a slot's content, and their checks (R271). -/
def slotWord (data : List Byte) (k : Nat) : BitVec 64 := BitVec.ofNat 64 (u64 data (8 * k))
def slotChecks (data : List Byte) : List Byte :=
  (List.range ((data.length + 7) / 8)).map fun k => Config.slotCheck (slotWord data k)

/-- The attempt of a lane ends with its report. -/
def reportAttempt (s : State) (lane : Fin 16) (a : Assign) (u : AttemptUpset) : State :=
  let x := attemptResult s a u
  let r := x.2
  let current := currentBand s lane { a with epoch := r.epoch }
  let s := s.modDec lane fun l => { l.ended with
    lastOutcome := r.outcome, fails := if r.outcome = 0 then l.fails else inc32 l.fails, outBytes := l.outBytes + r.rawBytes }
  let s := match current with
    | none => staleReport s r.rawBytes
    | some i =>
      let s := s.modSteep a.station fun y => { y with slots := updF y.slots a.slot fun z =>
        { z with data := x.1, checks := slotChecks x.1 } }
      match s.stp.st[a.station].bands[i]? with
      | none => s
      | some b => if r.outcome = 0 then bandPassed s a.station i b lane else bandFailed s a.station i b lane r.outcome
  panicUpdate (attemptOver s a.job a.key)

/-! ## Deadlines (R273, R274) -/

/-- Whether a verify deadline has been reached before a pass. -/
def overdue (now : Nat) (b : Band) : Bool :=
  (b.state == .wait || b.state == .decode1 || b.state == .decode2) &&
    (match b.deadline with | some d => decide (d ≤ now) | none => false)

/-- A report on band i of a station is still to come in this cycle; it is judged before the deadline, and a failing one then
finds the deadline reached (R14, R285). -/
def reportComes (s : State) (k : Fin 6) (i : Nat) : Bool :=
  coming s fun c => match c with
    | .decodeAttemptReport lane _ => match s.cdc.dec[lane].assign with
      | some a => a.station == k && currentBand s lane a == some i
      | none => false
    | _ => false

/-- VERIFY_DEADLINE: every band of the station whose deadline the counter has reached. -/
def execVerifyDeadline (k : Fin 6) (s : State) : Host.Outcome State Fault Refusal :=
  .next (whenUp s fun s =>
    (List.range s.stp.st[k].bands.length).foldl (fun t i => match t.stp.st[k].bands[i]? with
      | some b => if overdue (ppc t) b && !reportComes t k i then blankBand t k i .steepDeadline 0 else t
      | none => t) s)

/-! ## Exposure (R274, R280, R287) -/

/-- How much before its nominal first line a band is first read (R300): one facet when some zone's BOW is positive. -/
def bowLead (s : State) (k : Fin 6) : Nat :=
  if (List.range 48).any fun z => decide (0 < stBow (stationBody s k.1) z) then 256 else 0

/-- The first band that has not begun exposure begins it when its first line is due, 32 lines after its verify deadline
(R273) but for bow. A verified lead of 0 at this boundary raises STP_LEAD_ZERO (R291). -/
def firstLine (s : State) (k : Fin 6) : State :=
  match s.stp.st[k].bands.findIdx? Band.before with
  | none => s
  | some i => match s.stp.st[k].bands[i]? with
    | none => s
    | some b =>
      let due := match b.deadline with | some d => decide (d + bandCounts ≤ ppc s + bowLead s k) | none => false
      if !due || (b.state != .verified && b.state != .blank) then s
      else
        let s := modBand s k i fun b => { b with state := .exposing }
        let v := verifiedLead s.stp.st[k]
        let zero := v.1 == 0 && (match v.2 with | some n => n.deadline.isSome | none => false)
        panicUpdate (if zero then raise s 0x57 k.1 else s)

/-- The first line of a band waits for a report of this cycle, which makes the band VERIFIED first (R285). -/
def bandFirstLine (s : State) (k : Fin 6) : State :=
  if stationReport s k then s.modBtu k fun x => { x with firstDue := true } else firstLine s k

/-- What a report of this cycle was waited for: the first line of a band and the facet's read, after the last such report. -/
def readsDue (s : State) (k : Fin 6) : State :=
  if stationReport s k then s
  else
    let x := s.btu[k]
    let s := if x.firstDue then firstLine (s.modBtu k fun x => { x with firstDue := false }) k else s
    match x.readDue with
    | some fresh => exposeFacet (s.modBtu k fun x => { x with readDue := none }) k fresh
    | none => s

/-- DECODE_ATTEMPT_REPORT. -/
def execDecodeAttemptReport (lane : Fin 16) (u : AttemptUpset) (s : State) : Host.Outcome State Fault Refusal :=
  .next (whenUp s fun s => match (s.cdc.dec[lane]).assign with
    | some a => if (s.cdc.dec[lane]).state == .steep then readsDue (reportAttempt s lane a u) a.station else s
    | none => s)

/-- BAND_FIRST_LINE. -/
def execBandFirstLine (k : Fin 6) (s : State) : Host.Outcome State Fault Refusal := .next (whenUp s fun s => bandFirstLine s k)

/-- The counters of R290. -/
def SteepStation.counted (x : SteepStation) (o : Outcome) : SteepStation :=
  match o with
  | .first => { x with first := inc32 x.first }
  | .mirror => { x with mirror := inc32 x.mirror }
  | .blank | .slotRead => { x with blank := inc32 x.blank }

/-- A band is DONE (R274): its slot is freed, its outcome goes to the ledger, and its Leaf is freed. -/
def finishBand (s : State) (k : Fin 6) (i : Nat) (b : Band) : State :=
  let before := s
  let o := b.outcome.getD .blank
  let s := s.modSteep k fun x => SteepStation.counted { x with
    slots := match b.slot with | some n => updF x.slots n Slot.freed | none => x.slots
    bands := (updAt (fun b => { b with state := .done, slot := none, deadline := none }) i x.bands).dropWhile (·.state == .done) } o
  let s := retireCheck before s
  let s := s.modSheet b.sheet fun e => { e with outcomes := e.outcomes ++ [(k.1, b.band, o)] }
  panicUpdate (freeLeaves s fun l => l.job == b.job && l.key == b.key)

/-- BAND_DONE: the last line of the exposing band has been read. -/
def execBandDone (k : Fin 6) (s : State) : Host.Outcome State Fault Refusal :=
  .next (whenUp s fun s => match s.stp.st[k].bands.findIdx? fun b => b.state == .exposing with
    | some i => (match s.stp.st[k].bands[i]? with | some b => finishBand s k i b | none => s)
    | none => s)

/-- A slot word read as `data` with `check` fails (R271): the check differs, or one or two bits differ from what stands
there, which every check detects. -/
def slotFails (x : Slot) (word : Nat) (data : BitVec 64) (check : Byte) : Bool :=
  let flips := data ^^^ slotWord x.data word
  let off := check ^^^ x.checks.getD word 0
  let n := ((List.range 64).countP fun k => flips.getLsbD k) + ((List.range 8).countP fun k => off.getLsbD k)
  decide (word < x.checks.length) && (Config.slotCheck data != check || n == 1 || n == 2)

/-- The word as it was read, which is what the Pour exposes (R280). -/
def Slot.readAs (x : Slot) (word : Nat) (data : BitVec 64) (check : Byte) : Slot :=
  { x with retiring := true
           data := (x.data.take (8 * word) ++ leBytes 8 data.toNat ++ x.data.drop (8 * word + 8)).take x.data.length
           checks := x.checks.set word check }

/-- A slot-read error in the exposing band (R280): a BLANK band reads no slot (R315). -/
def slotError (s : State) (k : Fin 6) (i : Nat) (b : Band) (n : Fin 6) (word : Nat) (data : BitVec 64) (check : Byte) : State :=
  let first := b.outcome != some .slotRead
  let s := s.modSteep k fun x => { x with
    slots := updF x.slots n fun y => Slot.readAs y word data check
    bands := updAt (fun b => { b with outcome := some .slotRead }) i x.bands }
  let s := s.modStp fun x => { x with lastKey := b.key }
  raise (if first then spoil s b.sheet .steepSlotRead else s) 0x53 b.key.toNat

/-- SLOT_READ_ERROR: the Pour reads a word of the exposing band's slot, and its test finds the error. -/
def execSlotReadError (k : Fin 6) (word : Nat) (data : BitVec 64) (check : Byte) (s : State) :
    Host.Outcome State Fault Refusal :=
  .next (whenUp s fun s => match s.stp.st[k].bands.findIdx? fun b => b.state == .exposing with
    | some i => (match s.stp.st[k].bands[i]? with
      | some b => (match b.slot with
        | some n => if b.outcome == some .blank || !slotFails s.stp.st[k].slots[n] word data check then s
            else slotError s k i b n word data check
        | none => s)
      | none => s)
    | none => s)

end Sys2Proof.Machine
end

