-- ==== Sys2Proof/Machine/Dispatch.lean ====
section
/-! DEFINITION. Dispatch: one arm per command, each a direct call of its meaning. -/

namespace Sys2Proof.Machine

def exec (i : Instr) (s : State) : Host.Outcome State Fault Refusal :=
  match i with
  | .nop c => Sys2Proof.Machine.execNop c s
  | .echo c => Sys2Proof.Machine.execEcho c s
  | .getInfo c => Sys2Proof.Machine.execGetInfo c s
  | .getStatus c => Sys2Proof.Machine.execGetStatus c s
  | .setMode c => Sys2Proof.Machine.execSetMode c s
  | .setWakeBudget c => Sys2Proof.Machine.execSetWakeBudget c s
  | .setEventRoute c => Sys2Proof.Machine.execSetEventRoute c s
  | .loadRecipe c => Sys2Proof.Machine.execLoadRecipe c s
  | .queryRecipe c => Sys2Proof.Machine.execQueryRecipe c s
  | .activateRecipes c => Sys2Proof.Machine.execActivateRecipes c s
  | .openJob c => Sys2Proof.Machine.execOpenJob c s
  | .admitSheet c => Sys2Proof.Machine.execAdmitSheet c s
  | .commitSheet c => Sys2Proof.Machine.execCommitSheet c s
  | .cancelSheet c => Sys2Proof.Machine.execCancelSheet c s
  | .closeJob c => Sys2Proof.Machine.execCloseJob c s
  | .querySheet c => Sys2Proof.Machine.execQuerySheet c s
  | .evictLeaves c => Sys2Proof.Machine.execEvictLeaves c s
  | .axisHome c => Sys2Proof.Machine.execAxisHome c s
  | .axisMove c => Sys2Proof.Machine.execAxisMove c s
  | .axisGroupMove c => Sys2Proof.Machine.execAxisGroupMove c s
  | .axisStop c => Sys2Proof.Machine.execAxisStop c s
  | .axisQuery c => Sys2Proof.Machine.execAxisQuery c s
  | .motorStart c => Sys2Proof.Machine.execMotorStart c s
  | .motorStop c => Sys2Proof.Machine.execMotorStop c s
  | .motorSetSpeed c => Sys2Proof.Machine.execMotorSetSpeed c s
  | .motorQuery c => Sys2Proof.Machine.execMotorQuery c s
  | .loopSet c => Sys2Proof.Machine.execLoopSet c s
  | .loopSetpoint c => Sys2Proof.Machine.execLoopSetpoint c s
  | .loopMode c => Sys2Proof.Machine.execLoopMode c s
  | .loopQuery c => Sys2Proof.Machine.execLoopQuery c s
  | .headScan c => Sys2Proof.Machine.execHeadScan c s
  | .headMaintain c => Sys2Proof.Machine.execHeadMaintain c s
  | .headMarkDead c => Sys2Proof.Machine.execHeadMarkDead c s
  | .stationCalibrate c => Sys2Proof.Machine.execStationCalibrate c s
  | .stationLock c => Sys2Proof.Machine.execStationLock c s
  | .stationQuery c => Sys2Proof.Machine.execStationQuery c s
  | .dramTrain c => Sys2Proof.Machine.execDramTrain c s
  | .dramSetRate c => Sys2Proof.Machine.execDramSetRate c s
  | .dramQuery c => Sys2Proof.Machine.execDramQuery c s
  | .faultRead c => Sys2Proof.Machine.execFaultRead c s
  | .faultClear c => Sys2Proof.Machine.execFaultClear c s
  | .faultSetSeverity c => Sys2Proof.Machine.execFaultSetSeverity c s
  | .faultInject c => Sys2Proof.Machine.execFaultInject c s
  | .fuseRead c => Sys2Proof.Machine.execFuseRead c s
  | .fuseShadow c => Sys2Proof.Machine.execFuseShadow c s
  | .fuseBurn c => Sys2Proof.Machine.execFuseBurn c s
  | .fuseLockRegion c => Sys2Proof.Machine.execFuseLockRegion c s
  | .journalRead c => Sys2Proof.Machine.execJournalRead c s
  | .journalSeal c => Sys2Proof.Machine.execJournalSeal c s
  | .journalCollected c => Sys2Proof.Machine.execJournalCollected c s
  | .serialQuery c => Sys2Proof.Machine.execSerialQuery c s
  | .serialAnchor c => Sys2Proof.Machine.execSerialAnchor c s
  | .codecRun c => Sys2Proof.Machine.execCodecRun c s
  | .provision c => Sys2Proof.Machine.execProvision c s
  | .writeReg frame => Sys2Proof.Machine.execWriteReg frame s
  | .readReg port frame => Sys2Proof.Machine.execReadReg port frame s
  | .readStatus port frame => Sys2Proof.Machine.execReadStatus port frame s
  | .submit port frame => Sys2Proof.Machine.execSubmit port frame s
  | .fetchReply port frame => Sys2Proof.Machine.execFetchReply port frame s
  | .readJbuf frame => Sys2Proof.Machine.execReadJbuf frame s
  | .submitSigned frame => Sys2Proof.Machine.execSubmitSigned frame s
  | .signatureVerified => Sys2Proof.Machine.execSignatureVerified s
  | .spiReplyTimeout port tag => Sys2Proof.Machine.execSpiReplyTimeout port tag s
  | .ringEnable r cfg => Sys2Proof.Machine.execRingEnable r cfg s
  | .ringDisable r cfg => Sys2Proof.Machine.execRingDisable r cfg s
  | .ringDrained r => Sys2Proof.Machine.execRingDrained r s
  | .ringDoorbell r tail => Sys2Proof.Machine.execRingDoorbell r tail s
  | .replyRingConsume r rtail => Sys2Proof.Machine.execReplyRingConsume r rtail s
  | .eventRingConsume ctail => Sys2Proof.Machine.execEventRingConsume ctail s
  | .bar2WindowSelect value => Sys2Proof.Machine.execBar2WindowSelect value s
  | .msixUnmask t => Sys2Proof.Machine.execMsixUnmask t s
  | .registerWrite path offset value => Sys2Proof.Machine.execRegisterWrite path offset value s
  | .lowWordRead path offset => Sys2Proof.Machine.execLowWordRead path offset s
  | .motBusPeakRead path => Sys2Proof.Machine.execMotBusPeakRead path s
  | .tmpPeakRead path => Sys2Proof.Machine.execTmpPeakRead path s
  | .bar2Read offset len guardFails => Sys2Proof.Machine.execBar2Read offset len guardFails s
  | .bar2Write offset data => Sys2Proof.Machine.execBar2Write offset data s
  | .ringEntryFetched ring r => Sys2Proof.Machine.execRingEntryFetched ring r s
  | .packetStart reads => Sys2Proof.Machine.execPacketStart reads s
  | .indirectBlockFetched r reads => Sys2Proof.Machine.execIndirectBlockFetched r reads s
  | .parkedCommandResume k d => Sys2Proof.Machine.execParkedCommandResume k d s
  | .packetDeadlineExpiry src tag => Sys2Proof.Machine.execPacketDeadlineExpiry src tag s
  | .replyCoalesceExpiry r => Sys2Proof.Machine.execReplyCoalesceExpiry r s
  | .kettleLockstepMismatch selfTest => Sys2Proof.Machine.execKettleLockstepMismatch selfTest s
  | .kettleWatchdogExpiry selfTest => Sys2Proof.Machine.execKettleWatchdogExpiry selfTest s
  | .perstNAssert => Sys2Proof.Machine.execPerstNAssert s
  | .hotReset => Sys2Proof.Machine.execHotReset s
  | .functionLevelReset => Sys2Proof.Machine.execFunctionLevelReset s
  | .d3hotToD0 => Sys2Proof.Machine.execD3hotToD0 s
  | .linkUp => Sys2Proof.Machine.execLinkUp s
  | .powerOnReset xoLow => Sys2Proof.Machine.execPowerOnReset xoLow s
  | .rstNAssert => Sys2Proof.Machine.execRstNAssert s
  | .resetRelease compat sris pwrfailLow => Sys2Proof.Machine.execResetRelease compat sris pwrfailLow s
  | .rootPllLock => Sys2Proof.Machine.execRootPllLock s
  | .rootPllLockTimeout refLost => Sys2Proof.Machine.execRootPllLockTimeout refLost s
  | .fuseSense weak => Sys2Proof.Machine.execFuseSense weak s
  | .romSelfCheck pass => Sys2Proof.Machine.execRomSelfCheck pass s
  | .dramBootTraining ch0 ch1 => Sys2Proof.Machine.execDramBootTraining ch0 ch1 s
  | .journalScan capacity unreadable => Sys2Proof.Machine.execJournalScan capacity unreadable s
  | .pwrfailNAssert => Sys2Proof.Machine.execPwrfailNAssert s
  | .readyIdleTimeout => Sys2Proof.Machine.execReadyIdleTimeout s
  | .standbyDepthEntry => Sys2Proof.Machine.execStandbyDepthEntry s
  | .wakeComplete ms => Sys2Proof.Machine.execWakeComplete ms s
  | .clkRefLoss => Sys2Proof.Machine.execClkRefLoss s
  | .clkRootUnlock => Sys2Proof.Machine.execClkRootUnlock s
  | .pxsLock st => Sys2Proof.Machine.execPxsLock st s
  | .pxsUnlock st => Sys2Proof.Machine.execPxsUnlock st s
  | .vcoBandChange st => Sys2Proof.Machine.execVcoBandChange st s
  | .encoderEdge n a b => Sys2Proof.Machine.execEncoderEdge n a b s
  | .encoderTimeout => Sys2Proof.Machine.execEncoderTimeout s
  | .ingestDescriptorFetched ring r => Sys2Proof.Machine.execIngestDescriptorFetched ring r s
  | .ingestStart => Sys2Proof.Machine.execIngestStart s
  | .ingestDeadlineExpiry ring tag => Sys2Proof.Machine.execIngestDeadlineExpiry ring tag s
  | .ingestSourceReadDone ring tag r => Sys2Proof.Machine.execIngestSourceReadDone ring tag r s
  | .leafEntry ring tag => Sys2Proof.Machine.execLeafEntry ring tag s
  | .encodeBandEnd lane e => Sys2Proof.Machine.execEncodeBandEnd lane e s
  | .caddyRepairComplete job key good => Sys2Proof.Machine.execCaddyRepairComplete job key good s
  | .guardFailure t addr data check scan => Sys2Proof.Machine.execGuardFailure t addr data check scan s
  | .laneKatEnd lane crc verified => Sys2Proof.Machine.execLaneKatEnd lane crc verified s
  | .lanePeriodicTestDue lane => Sys2Proof.Machine.execLanePeriodicTestDue lane s
  | .laneLockup lane => Sys2Proof.Machine.execLaneLockup lane s
  | .laneParityError lane => Sys2Proof.Machine.execLaneParityError lane s
  | .decodeAssign => Sys2Proof.Machine.execDecodeAssign s
  | .decodeAttemptReport lane u => Sys2Proof.Machine.execDecodeAttemptReport lane u s
  | .verifyDeadline st => Sys2Proof.Machine.execVerifyDeadline st s
  | .bandFirstLine st => Sys2Proof.Machine.execBandFirstLine st s
  | .bandDone st => Sys2Proof.Machine.execBandDone st s
  | .slotReadError st word data check => Sys2Proof.Machine.execSlotReadError st word data check s
  | .bdsEdge st periodPs => Sys2Proof.Machine.execBdsEdge st periodPs s
  | .bdeEdge st scanPs tables => Sys2Proof.Machine.execBdeEdge st scanPs tables s
  | .bdsWindowExpiry st => Sys2Proof.Machine.execBdsWindowExpiry st s
  | .bdeWindowExpiry st => Sys2Proof.Machine.execBdeWindowExpiry st s
  | .delayLineCalDue st => Sys2Proof.Machine.execDelayLineCalDue st s
  | .delayLineCalComplete st tapFs => Sys2Proof.Machine.execDelayLineCalComplete st tapFs s
  | .apcSample st code => Sys2Proof.Machine.execApcSample st code s
  | .spinTimeout st => Sys2Proof.Machine.execSpinTimeout st s
  | .searchTimeout st => Sys2Proof.Machine.execSearchTimeout st s
  | .laserInterlock st => Sys2Proof.Machine.execLaserInterlock st s
  | .fireInstant h => Sys2Proof.Machine.execFireInstant h s
  | .strobeCut h high spacing => Sys2Proof.Machine.execStrobeCut h high spacing s
  | .markLineFetch h good0 good1 => Sys2Proof.Machine.execMarkLineFetch h good0 good1 s
  | .headTempSample h code => Sys2Proof.Machine.execHeadTempSample h code s
  | .dutyWindowTick => Sys2Proof.Machine.execDutyWindowTick s
  | .headCapMoveDone h => Sys2Proof.Machine.execHeadCapMoveDone h s
  | .markRender idx => Sys2Proof.Machine.execMarkRender idx s
  | .recordProgramComplete readBackOk => Sys2Proof.Machine.execRecordProgramComplete readBackOk s
  | .sealAgeExpiry => Sys2Proof.Machine.execSealAgeExpiry s
  | .sealSigned => Sys2Proof.Machine.execSealSigned s
  | .sectorEraseComplete sector => Sys2Proof.Machine.execSectorEraseComplete sector s
  | .sheetPick => Sys2Proof.Machine.execSheetPick s
  | .pickWaitExpiry => Sys2Proof.Machine.execPickWaitExpiry s
  | .pickPauseExpiry => Sys2Proof.Machine.execPickPauseExpiry s
  | .headWaitExpiry => Sys2Proof.Machine.execHeadWaitExpiry s
  | .paperSensorEdge k paper => Sys2Proof.Machine.execPaperSensorEdge k paper s
  | .deskewDeadline => Sys2Proof.Machine.execDeskewDeadline s
  | .sensorWindowExpiry k => Sys2Proof.Machine.execSensorWindowExpiry k s
  | .routeDecision => Sys2Proof.Machine.execRouteDecision s
  | .mainDriveToleranceExpiry => Sys2Proof.Machine.execMainDriveToleranceExpiry s
  | .axisPwmPeriod a bitsA bitsB => Sys2Proof.Machine.execAxisPwmPeriod a bitsA bitsB s
  | .axisTargetReached a => Sys2Proof.Machine.execAxisTargetReached a s
  | .axisAtRest a => Sys2Proof.Machine.execAxisAtRest a s
  | .axisIdleDelayExpiry a => Sys2Proof.Machine.execAxisIdleDelayExpiry a s
  | .homeSensorEdge a active => Sys2Proof.Machine.execHomeSensorEdge a active s
  | .gearLock a => Sys2Proof.Machine.execGearLock a s
  | .motorZeroCrossing m phase rising prev last since => Sys2Proof.Machine.execMotorZeroCrossing m phase rising prev last since s
  | .motorCommutation m => Sys2Proof.Machine.execMotorCommutation m s
  | .motorPwmPeriod m bitsU bitsV => Sys2Proof.Machine.execMotorPwmPeriod m bitsU bitsV s
  | .catchWindowExpiry m => Sys2Proof.Machine.execCatchWindowExpiry m s
  | .alignTimeExpiry m => Sys2Proof.Machine.execAlignTimeExpiry m s
  | .rampTimeout m => Sys2Proof.Machine.execRampTimeout m s
  | .atSpeedDwell m => Sys2Proof.Machine.execAtSpeedDwell m s
  | .lossOfSynchronism m => Sys2Proof.Machine.execLossOfSynchronism m s
  | .losRestartDelay m => Sys2Proof.Machine.execLosRestartDelay m s
  | .coastStopTimeout m => Sys2Proof.Machine.execCoastStopTimeout m s
  | .busSample code brkFb => Sys2Proof.Machine.execBusSample code brkFb s
  | .busUndervoltageExpiry => Sys2Proof.Machine.execBusUndervoltageExpiry s
  | .chopperFeedbackTimeout c => Sys2Proof.Machine.execChopperFeedbackTimeout c s
  | .spdcmdUpdate n fraction => Sys2Proof.Machine.execSpdcmdUpdate n fraction s
  | .spdcmdDropout n => Sys2Proof.Machine.execSpdcmdDropout n s
  | .loopFrame ain late => Sys2Proof.Machine.execLoopFrame ain late s
  | .mainsZcEdge halfUs => Sys2Proof.Machine.execMainsZcEdge halfUs s
  | .mainsLossTimeout => Sys2Proof.Machine.execMainsLossTimeout s
  | .hvOkTimeout => Sys2Proof.Machine.execHvOkTimeout s
  | .refreshDue c waiting => Sys2Proof.Machine.execRefreshDue c waiting s
  | .dramTempSample c code => Sys2Proof.Machine.execDramTempSample c code s
  | .dramAlert c a => Sys2Proof.Machine.execDramAlert c a s
  | .selfRefreshIdle c => Sys2Proof.Machine.execSelfRefreshIdle c s
  | .zqCalDue c => Sys2Proof.Machine.execZqCalDue c s
  | .dramTrainStepEnd ok => Sys2Proof.Machine.execDramTrainStepEnd ok s
  | .dramFillBlock => Sys2Proof.Machine.execDramFillBlock s
  | .healthScanPassEnd => Sys2Proof.Machine.execHealthScanPassEnd s
  | .faultRaise ext => Sys2Proof.Machine.execFaultRaise ext s
  | .eventCoalesceExpiry source => Sys2Proof.Machine.execEventCoalesceExpiry source s
  | .interruptionExpiry => Sys2Proof.Machine.execInterruptionExpiry s
  | .injectRaiseTick => Sys2Proof.Machine.execInjectRaiseTick s
  | .fltInject => Sys2Proof.Machine.execFltInject s
  | .aliveTick => Sys2Proof.Machine.execAliveTick s
  | .dieTempSample code => Sys2Proof.Machine.execDieTempSample code s
  | .fuseResense differs => Sys2Proof.Machine.execFuseResense differs s
  | .vddioBankLoss bank => Sys2Proof.Machine.execVddioBankLoss bank s
  | .vddioBankReturn bank => Sys2Proof.Machine.execVddioBankReturn bank s
  | .perstNDeassert => Sys2Proof.Machine.execPerstNDeassert s
  | .d0ToD3hot => Sys2Proof.Machine.execD0ToD3hot s
  | .aspmL1Entry => Sys2Proof.Machine.execAspmL1Entry s
  | .testAccessPortTckEdge tms tdi trstN => Sys2Proof.Machine.execTestAccessPortTckEdge tms tdi trstN s

end Sys2Proof.Machine
end

