-- ==== Sys2Proof/Machine/Idle.lean ====
section
/-!
DEFINITION. What a step does on an empty queue (log 1): a detection on its way reaches the fabric, or else one XCLK cycle
passes.
-/

namespace Sys2Proof.Machine

/-- The process-position counter moves between edges (R90): at the estimated rate, and never past what the next edge would
give; while backlash is to be paid off it does not pass the present edge (R91). From M6's speed estimate it moves freely, and
frozen it stays. -/
def passTime (c : Clk) (rate inc : Nat) : Clk :=
  match c.ppcSrc with
  | .frozen => c
  | .m6 => { c with acc := c.acc + rate, accEdge := c.accEdge + rate }
  | _ => { c with acc := Nat.max c.acc (min (c.acc + rate) (c.accEdge + (if c.backlash = 0 then inc else 0))) }

/-- The tracking loop of the head pacers follows the counter (R331); it never goes back. -/
def trackTime (c : Clk) : Clk :=
  let x := Config.trackStep c.trackPos c.trackVel (c.acc / 2 ^ 24)
  { c with trackPos := Nat.max c.trackPos (trackAt { c with trackPos := x.1 }), trackVel := x.2 }

/-- One XCLK cycle; what was noted for the cycle that ends is forgotten (log 96). -/
def xclkCycle (s : State) : State :=
  refreshCycle <| htrCycle <| gatesCycle <| axesCycle <| synthCycle (((((({ s with now := s.now + 1 }).modHif fun h => { h with mgmtNow := [] }).modFlt
    fun f => { f with was := [], before := [], covered := [], sticky := [] }).modFus fun f => { f with before := [] }).modCtl
    fun c => { c with zoneOld := none }).modClk fun c => trackTime (passTime c (ppcStep s) (edgeInc s)))

/-- A pause of the pick whose cause has gone is over (R390). -/
def pauseOver (s : State) : State :=
  if s.seq.pauseRaised == waitCode s then s else s.modSeq fun q => { q with pauseRaised := 0 }

/-- What takes place as soon as nothing stands before it: a command whose record has found room completes, a
read of the journal goes on, a descriptor takes
a free lane, a pause ends, panic (R287) and CAD_LOW are judged, an injection whose
count is used ends, a calibration and a re-sense that wait start, the beams are forced on and released, and the mode follows what is in flight. -/
def follows (s : State) : State := lightAll <| waitingResense <| waitingCalibrations <| settleHeads <| settle (reselectChanged (injectionOver (caddyLow (panicUpdate (pauseOver (encodeWaiting (retryRoom (serveReads (completeFormed (fillIntake s))))))))))

/-- One idle step. In mode RESET nothing runs. -/
def idle (s : State) : State :=
  if s.sys.mode == .reset then s
  else if s.flt.inbox.isEmpty then follows (xclkCycle s)
  else recordOldest s

end Sys2Proof.Machine
end

