-- ==== Sys2Proof/Machine/PinLevels.lean ====
section
/-!
DEFINITION. The output balls (R545, R549..R552, R554): which of them are driven, and what State puts on them. Everything here
is computed from State: no step reads it back.
-/

namespace Sys2Proof.Machine

/-- The outputs of the ball groups of R545 whose level the device's own state decides. -/
inductive OutBall where
  | lden (k : Fin 6) | beam (k : Fin 6) | ldc (k : Fin 6)
  | hven | hvref (n : Fin 20) | htr (z : Fin 4)
  | drven (m : Fin 10) | gate (m : Fin 10) (g : Fin 6) | brkGate
  | stpen | stp (a : Fin 16) (n : Fin 4)
  | strobe (h : Fin 8) | headLatch (h : Fin 8)
  | headMemory (p : Fin 4) | journalFlash
  | spiData (mgmt : Bool) | spiInterrupt (mgmt : Bool)
  | alive | tdo | mdclk (one : Bool)
  deriving DecidableEq, Repr

/-- What a ball carries. `pulses`: edges within a cycle or a burst, which leave with `State.out` (R319, R310, R136, R321, R120) or
are a clock. An SPI data output is driven only within a frame, whose bytes leave as `Out.miso`: between two frames, which is
where a state stands, it is high-impedance. -/
inductive Drive where
  | highZ
  | level (high : Bool)
  | pwm (duty frequency : Nat)
  | pulses
  deriving DecidableEq, Repr

/-- The bank whose supply drives the ball (R545); none for the LVDS pairs. -/
def OutBall.bank : OutBall → Option (Fin 8)
  | .beam _ => none
  | .spiData _ | .spiInterrupt _ | .alive | .tdo => some 0
  | .headMemory _ | .journalFlash => some 1
  | .lden _ | .ldc _ => some 2
  | .strobe _ | .headLatch _ => some 3
  | .drven _ | .gate _ _ | .brkGate => some 4
  | .stpen | .stp _ _ => some 5
  | .hven | .hvref _ | .htr _ => some 6
  | .mdclk _ => some 7

/-- The ball belongs to a resource that the part enables (R5: the others stay in their reset state). -/
def OutBall.enabled (s : State) : OutBall → Bool
  | .lden k | .beam k | .ldc k => stationOn s k
  | .hvref n => hvOn s n
  | .drven m | .gate m _ => motorOn s m
  | .strobe h | .headLatch h => headOn s h
  | _ => true

/-- What the controlling unit puts on a driven ball. -/
def OutBall.asked (s : State) : OutBall → Drive
  | .lden k => .level s.btu[k].lden
  | .beam k => if s.btu[k].lden then .pulses else .level false
  | .ldc _ | .headMemory _ | .journalFlash | .mdclk _ | .strobe _ | .headLatch _ => .pulses
  | .hven => .level s.ctl.hven
  | .hvref n => if s.ctl.hvref[n] = 0 then .level false else .pwm s.ctl.hvref[n] (100 * u16 (loopsBody s) 0x12)
  | .htr z => .level s.ctl.htr[z]
  | .drven m => .level s.mot.ch[m].drven
  | .gate m g => .level (gateLevel s m g)
  | .brkGate => .level s.mot.brk
  | .stpen => .level (Sys2Proof.Machine.stpen s)
  | .stp a n =>
    let x := stpLevels s a
    .level (match n with | 0 => x.1.1 | 1 => x.1.2 | 2 => x.2.1 | 3 => x.2.2)
  | .spiData _ => .highZ
  | .spiInterrupt mgmt => if portInterrupt s (if mgmt then .mgmt else .sup) then .level false else .highZ
  | .alive => .level (aliveLevel s)
  | .tdo => if s.pins.tapDead || !s.pins.tap.shifts then .highZ else .level s.pins.tdo

/-- What a ball carries (R549, R551, R552, R554): nothing in RESET and up to the end of boot stage 1, on a bank whose supply is
lost, and for a resource that the part does not enable. TDO is the test port's in every mode. -/
def ballDrive (s : State) (b : OutBall) : Drive :=
  if b.bank.any fun k => s.pins.bankLost[k] then .highZ
  else if b == .tdo then b.asked s
  else if s.sys.hiZ || s.sys.mode == .reset || !b.enabled s then .highZ
  else b.asked s

end Sys2Proof.Machine
end

