-- ==== Sys2Proof/Safety.lean ====
section
/-! DEFINITION. What counts as a safe step and a good state, and the vocabulary of frames, in the terms claims use. -/

namespace Sys2Proof.Safety

open Sys2Proof.Machine

/-- A step is safe when it answers a next state. -/
def Safe (o : Host.Outcome State Fault Refusal) : Prop := ∃ t, o = .next t

/-- The journal flash of a state is in its canonical form. -/
def FlashCanonical (s : State) : Prop := flashWf s.jnl.flash

/-! ## Frames -/

/-- The parts of the state: one for each field of `State`. -/
inductive Part where
  | pending | now | free | out | sys | pins | clk | hif | mgt | sup | ktl | led | cad | cdc | stp | btu | hdp | jnl | seq
  | axs | mot | ctl | drc | flt | fus | tmp
  deriving DecidableEq, Repr

/-- A state with every part but one at its reset value. -/
def view (p : Part) (s : State) : State :=
  match p with
  | .pending => { ({} : State) with pending := s.pending }
  | .now => { ({} : State) with now := s.now }
  | .free => { ({} : State) with free := s.free }
  | .out => { ({} : State) with out := s.out }
  | .sys => { ({} : State) with sys := s.sys }
  | .pins => { ({} : State) with pins := s.pins }
  | .clk => { ({} : State) with clk := s.clk }
  | .hif => { ({} : State) with hif := s.hif }
  | .mgt => { ({} : State) with mgt := s.mgt }
  | .sup => { ({} : State) with sup := s.sup }
  | .ktl => { ({} : State) with ktl := s.ktl }
  | .led => { ({} : State) with led := s.led }
  | .cad => { ({} : State) with cad := s.cad }
  | .cdc => { ({} : State) with cdc := s.cdc }
  | .stp => { ({} : State) with stp := s.stp }
  | .btu => { ({} : State) with btu := s.btu }
  | .hdp => { ({} : State) with hdp := s.hdp }
  | .jnl => { ({} : State) with jnl := s.jnl }
  | .seq => { ({} : State) with seq := s.seq }
  | .axs => { ({} : State) with axs := s.axs }
  | .mot => { ({} : State) with mot := s.mot }
  | .ctl => { ({} : State) with ctl := s.ctl }
  | .drc => { ({} : State) with drc := s.drc }
  | .flt => { ({} : State) with flt := s.flt }
  | .fus => { ({} : State) with fus := s.fus }
  | .tmp => { ({} : State) with tmp := s.tmp }

/-- Every part of the state but those named is the same in both. -/
def OnlyChanges (ps : List Part) (s t : State) : Prop := ∀ p, p ∉ ps → view p t = view p s

/-- Whether a command may store to an address of the journal flash in a state: a record's slot (R362), the slots of the page that
a reset cuts (R66, R139), an entry of the
collection log (R366), a sector that is erased (R138), and at power loss the ring (R62). -/
def storesFlash (i : Instr) (s : State) (a : Nat) : Bool :=
  let slot := match s.jnl.staged with
    | [] => false
    | r :: _ => decide (recordAddr s r.idx ≤ a) && decide (a < recordAddr s r.idx + Nat.max 128 r.bytes.length)
  let page := match s.jnl.staged with
    | [] => false
    | r :: _ => decide (recordAddr s r.idx ≤ a) &&
        decide (a < recordAddr s r.idx + ((pageGroup s).map (·.bytes)).flatten.length)
  let entry := decide (logAddr s ≤ a) && decide (a < logAddr s + 16)
  match i with
  | .recordProgramComplete .. => slot
  | .powerOnReset .. | .rstNAssert => page
  | .sectorEraseComplete k => a / 4096 == k
  | .journalScan .. => s.jnl.erasing.contains (a / 4096)
  | .journalCollected .. | .packetStart .. | .indirectBlockFetched .. => entry
  | .pwrfailNAssert | .resetRelease .. => decide (8192 ≤ a)
  | _ => false

/-! ## Packets (R147, R157) -/

/-- The state in which a packet that has passed checks 1 to 5 goes on: its port has counted it, and its sequence is
stored. -/
def begun (s : State) (c : Cmd) : State := remember (arrive s c) c

/-- A packet whose command runs at once: the Kettle answers, nothing stands before the packet, and it passes checks 1 to 8
and the layout part of check 9. -/
abbrev Accepted (sp : OpSpec) (c : Cmd) (s : State) : Prop :=
  kettleUp s = true ∧ s.ktl.intake = [] ∧ mayStart s c = true ∧
  entryFault (some sp) (Cmd.packet c sp.op) c.src c.signed = none ∧ duplicate (arrive s c) c = none ∧
  startFault sp (begun s c) = none ∧ fieldFault sp c (begun s c) = none

/-- n records asked for now are formed at once (R362, R363): there is no journal, or the staging buffer has places for them
behind what waits, and no seal falls due between two of them. -/
abbrev RecordRoom (n : Nat) (s : State) : Prop :=
  jnlOn s = false ∨
  (s.sys.pwrFail = false ∧ s.jnl.staged.length + s.jnl.waiting.length + n ≤ 32 ∧
    (s.jnl.sealing = true ∨ s.jnl.waiting = [] ∧ s.jnl.unsealed + n ≤ 256))

/-- A command answers with a result. -/
def answered (t : State) (c : Cmd) (r : Res) : State := deliver t c .live (r.reply c)

/-- A command parks until its wait ends. -/
def parked (t : State) (op : Nat) (c : Cmd) (w : Wait) (r : Option Res) : State :=
  t.modKtl fun k => { k with parked := k.parked ++ [⟨BitVec.ofNat 8 op, c, w, r.map fun x => x.reply c, false, .live⟩] }

/-- The result OK with its words. -/
def okWords (w0 : Nat := 0) (w1 : Nat := 0) (w2 : Nat := 0) (w3 : Nat := 0) (w4 : Nat := 0) : Res :=
  { status := .ok, w0 := w0, w1 := w1, w2 := w2, w3 := w3, w4 := w4 }

/-- What an accepted command leaves once its opcode has decided: it has answered, or it is parked. -/
def finished (sp : OpSpec) (c : Cmd) : Verdict → State
  | .reply t r => answered t c r
  | .park t w r => parked t sp.op c w r

/-! ## What each command may change -/

/-- The parts that a command may change. Every raise is in `flt`, every reply of a packet in `hif`, `mgt` or `sup`, and
what leaves the device in `out`. -/
def mayChange : Instr → List Part
  | .ringDrained .. | .eventRingConsume .. | .bar2WindowSelect .. | .d3hotToD0 | .linkUp | .perstNDeassert
  | .d0ToD3hot | .aspmL1Entry => [.hif]
  | .vcoBandChange .. => [.clk]
  | .lanePeriodicTestDue .. => [.cdc]
  | .delayLineCalDue .. => [.btu]
  | .dutyWindowTick | .headCapMoveDone .. => [.hdp]
  | .markRender .. => [.led]
  | .headWaitExpiry => [.seq]
  | .axisIdleDelayExpiry .. | .gearLock .. => [.axs]
  | .motorCommutation .. | .losRestartDelay .. => [.mot]
  | .refreshDue .. | .selfRefreshIdle .. | .zqCalDue .. => [.drc]
  | .interruptionExpiry | .injectRaiseTick | .fltInject => [.flt]
  | .aliveTick | .vddioBankReturn .. => [.pins]
  | .spiReplyTimeout .. => [.mgt, .sup]
  | .ringEnable .. | .ringDisable .. => [.hif, .ktl]
  | .ringDoorbell .. | .replyRingConsume .. | .bar2Write .. => [.hif, .flt]
  | .msixUnmask .. | .replyCoalesceExpiry .. => [.out, .hif]
  | .rootPllLock | .rootPllLockTimeout .. => [.sys, .clk]
  | .bdeWindowExpiry .. | .delayLineCalComplete .. => [.btu, .flt]
  | .sectorEraseComplete .. => [.out, .jnl]
  | .pickWaitExpiry | .pickPauseExpiry => [.seq, .flt]
  | .deskewDeadline | .axisTargetReached .. | .axisAtRest .. | .homeSensorEdge .. => [.axs, .flt]
  | .routeDecision => [.led, .axs]
  | .alignTimeExpiry .. | .spdcmdUpdate .. => [.mot, .ctl]
  | .coastStopTimeout .. => [.mot, .flt]
  | .mainsZcEdge .. | .mainsLossTimeout => [.ctl, .flt]
  | .dramTempSample .. | .healthScanPassEnd => [.drc, .flt]
  | .dramFillBlock => [.cad, .drc]
  | .fuseResense .. => [.flt, .fus]
  | .testAccessPortTckEdge .. => [.free, .pins]
  | .verifyDeadline .. | .slotReadError .. => [.led, .stp, .flt]
  | .bandFirstLine .. => [.stp, .btu, .flt]
  | .spinTimeout .. => [.clk, .btu, .flt]
  | .strobeCut .. | .markLineFetch .. => [.led, .hdp, .flt]
  | .sealAgeExpiry | .sealSigned => [.led, .jnl, .flt]
  | .motorZeroCrossing .. | .catchWindowExpiry .. | .rampTimeout .. | .lossOfSynchronism ..
  | .busUndervoltageExpiry | .chopperFeedbackTimeout .. | .spdcmdDropout .. => [.mot, .ctl, .flt]
  | .hvOkTimeout => [.pins, .ctl, .flt]
  | .eventCoalesceExpiry .. => [.out, .hif, .flt]
  | .vddioBankLoss .. => [.free, .pins, .mot]
  | .readStatus .. | .fetchReply .. | .readJbuf .. => [.out, .mgt, .sup, .flt]
  | .lowWordRead .. | .motBusPeakRead .. | .tmpPeakRead .. => [.out, .hif, .mot, .tmp]
  | .fuseSense .. => [.sys, .pins, .flt, .fus]
  | .pxsUnlock .. | .encoderEdge .. | .encoderTimeout | .searchTimeout .. | .laserInterlock .. =>
    [.clk, .led, .btu, .flt]
  | .caddyRepairComplete .. | .bandDone .. => [.led, .cad, .stp, .flt]
  | .fireInstant .. => [.out, .led, .hdp, .flt]
  | .submitSigned .. => [.free, .mgt, .sup, .ktl, .flt]
  | .bar2Read .. => [.free, .out, .hif, .drc, .flt]
  | .perstNAssert | .hotReset | .functionLevelReset => [.hif, .ktl, .cad, .cdc, .flt]
  | .ingestDescriptorFetched .. => [.out, .hif, .cad, .cdc, .flt]
  | .guardFailure .. => [.led, .cad, .stp, .drc, .flt]
  | .decodeAssign => [.free, .cdc, .stp, .drc, .flt]
  | .bdsEdge .. | .bdeEdge .. | .bdsWindowExpiry .. => [.out, .clk, .led, .btu, .flt]
  | .headTempSample .. => [.free, .out, .led, .hdp, .flt]
  | .nop .. | .echo .. | .getInfo .. | .getStatus .. | .setEventRoute .. | .loadRecipe .. | .queryRecipe ..
  | .querySheet .. | .axisQuery .. | .motorQuery .. | .loopQuery .. | .headScan .. | .stationQuery ..
  | .dramQuery .. | .faultRead .. | .fuseRead .. | .fuseBurn .. | .fuseLockRegion .. | .serialQuery ..
  | .provision .. | .submit .. | .ringEntryFetched .. => [.out, .hif, .mgt, .sup, .ktl, .flt]
  | .journalScan .. => [.out, .sys, .led, .jnl, .ctl, .flt]
  | .pxsLock .. => [.free, .out, .clk, .btu, .mot, .ctl]
  | .ingestStart | .ingestDeadlineExpiry .. | .ingestSourceReadDone .. | .leafEntry .. | .encodeBandEnd .. =>
    [.out, .hif, .cad, .cdc, .drc, .flt]
  | .apcSample .. => [.out, .pins, .btu, .mot, .ctl, .flt]
  | .atSpeedDwell .. => [.out, .clk, .btu, .mot, .ctl, .flt]
  | .axisHome .. | .axisGroupMove .. => [.out, .hif, .mgt, .sup, .ktl, .axs, .flt]
  | .loopSet .. | .loopSetpoint .. => [.out, .hif, .mgt, .sup, .ktl, .ctl, .flt]
  | .stationCalibrate .. => [.out, .hif, .mgt, .sup, .ktl, .btu, .flt]
  | .dramSetRate .. => [.out, .hif, .mgt, .sup, .ktl, .drc, .flt]
  | .journalRead .. | .journalCollected .. => [.out, .hif, .mgt, .sup, .ktl, .jnl, .flt]
  | .codecRun .. => [.out, .hif, .mgt, .sup, .ktl, .cdc, .flt]
  | .readReg .. => [.out, .hif, .mgt, .sup, .mot, .flt, .tmp]
  | .signatureVerified => [.free, .out, .hif, .mgt, .sup, .ktl, .flt]
  | .openJob .. | .admitSheet .. | .closeJob .. | .faultInject .. | .journalSeal .. | .serialAnchor .. =>
    [.out, .hif, .mgt, .sup, .ktl, .led, .jnl, .flt]
  | .motorStart .. => [.out, .hif, .mgt, .sup, .ktl, .mot, .ctl, .flt]
  | .loopMode .. => [.out, .pins, .hif, .mgt, .sup, .ktl, .ctl, .flt]
  | .headMaintain .. => [.out, .hif, .mgt, .sup, .ktl, .hdp, .axs, .flt]
  | .decodeAttemptReport .. => [.free, .out, .led, .cad, .cdc, .stp, .btu, .flt]
  | .sheetPick => [.sys, .led, .stp, .seq, .axs, .mot, .ctl, .flt]
  | .evictLeaves .. => [.out, .hif, .mgt, .sup, .ktl, .cad, .cdc, .drc, .flt]
  | .headMarkDead .. => [.out, .hif, .mgt, .sup, .ktl, .led, .hdp, .jnl, .flt]
  | .stationLock .. => [.out, .clk, .hif, .mgt, .sup, .ktl, .btu, .ctl, .flt]
  | .faultSetSeverity .. => [.out, .pins, .hif, .mgt, .sup, .ktl, .led, .jnl, .flt]
  | .fuseShadow .. => [.out, .hif, .mgt, .sup, .ktl, .led, .jnl, .flt, .fus]
  | .commitSheet .. => [.out, .hif, .mgt, .sup, .ktl, .led, .stp, .jnl, .mot, .flt]
  | .motorSetSpeed .. => [.out, .clk, .hif, .mgt, .sup, .ktl, .btu, .mot, .ctl, .flt]
  | .laneKatEnd .. => [.free, .out, .hif, .mgt, .sup, .ktl, .cad, .cdc, .drc, .flt]
  | .wakeComplete .. | .paperSensorEdge .. | .sensorWindowExpiry .. | .mainDriveToleranceExpiry =>
    [.sys, .led, .cad, .stp, .hdp, .jnl, .seq, .axs, .mot, .ctl, .flt]
  | .laneLockup .. | .laneParityError .. => [.free, .out, .hif, .mgt, .sup, .ktl, .cad, .cdc, .stp, .drc, .flt]
  | .loopFrame .. => [.sys, .pins, .clk, .cdc, .hdp, .seq, .axs, .mot, .ctl, .drc, .flt]
  | .dieTempSample .. => [.sys, .clk, .led, .stp, .btu, .seq, .axs, .ctl, .flt, .fus, .tmp]
  | .packetDeadlineExpiry .. => [.free, .out, .hif, .mgt, .sup, .ktl, .cad, .cdc, .btu, .hdp, .drc, .flt]
  | .axisPwmPeriod .. | .motorPwmPeriod .. =>
    [.free, .sys, .led, .cad, .stp, .hdp, .jnl, .seq, .axs, .mot, .ctl, .flt]
  | .setWakeBudget .. | .dramTrain .. =>
    [.out, .sys, .clk, .hif, .mgt, .sup, .ktl, .cdc, .hdp, .axs, .mot, .ctl, .drc, .flt]
  | .registerWrite .. => [.out, .clk, .hif, .mgt, .ktl, .cad, .btu, .hdp, .seq, .axs, .mot, .ctl, .drc, .flt, .tmp]
  | .cancelSheet .. | .axisMove .. | .axisStop .. | .motorStop .. =>
    [.out, .sys, .hif, .mgt, .sup, .ktl, .led, .cad, .stp, .hdp, .jnl, .seq, .axs, .mot, .ctl, .flt]
  | .writeReg .. => [.out, .clk, .hif, .mgt, .sup, .ktl, .cad, .btu, .hdp, .seq, .axs, .mot, .ctl, .drc, .flt, .tmp]
  | .standbyDepthEntry =>
    [.free, .out, .sys, .clk, .hif, .mgt, .sup, .ktl, .cdc, .btu, .hdp, .axs, .mot, .ctl, .drc, .flt]
  | .clkRefLoss | .clkRootUnlock | .busSample .. | .dramAlert .. =>
    [.out, .sys, .pins, .clk, .hif, .led, .cad, .cdc, .stp, .btu, .hdp, .jnl, .seq, .axs, .mot, .ctl, .drc, .flt]
  | .faultClear .. =>
    [.out, .sys, .pins, .hif, .mgt, .sup, .ktl, .led, .cad, .cdc, .stp, .btu, .hdp, .jnl, .seq, .axs, .mot, .ctl,
     .flt]
  | .romSelfCheck .. =>
    [.out, .sys, .pins, .clk, .hif, .ktl, .led, .cad, .cdc, .stp, .btu, .hdp, .jnl, .seq, .axs, .mot, .ctl, .drc,
     .flt]
  | .dramBootTraining .. =>
    [.free, .out, .sys, .pins, .clk, .hif, .led, .cad, .cdc, .stp, .btu, .hdp, .jnl, .seq, .axs, .mot, .ctl, .drc,
     .flt]
  | .readyIdleTimeout =>
    [.free, .out, .sys, .clk, .hif, .mgt, .sup, .ktl, .led, .cad, .cdc, .btu, .hdp, .jnl, .axs, .mot, .ctl, .drc,
     .flt]
  | .activateRecipes .. | .pwrfailNAssert =>
    [.free, .out, .sys, .pins, .clk, .hif, .mgt, .sup, .ktl, .led, .cad, .cdc, .stp, .btu, .hdp, .jnl, .axs, .mot,
     .ctl, .drc, .flt]
  | .dramTrainStepEnd .. | .faultRaise .. =>
    [.out, .sys, .pins, .clk, .hif, .mgt, .sup, .ktl, .led, .cad, .cdc, .stp, .btu, .hdp, .jnl, .seq, .axs, .mot,
     .ctl, .drc, .flt]
  | .setMode .. | .recordProgramComplete .. =>
    [.free, .out, .sys, .pins, .clk, .hif, .mgt, .sup, .ktl, .led, .cad, .cdc, .stp, .btu, .hdp, .jnl, .seq, .axs,
     .mot, .ctl, .drc, .flt]
  | .parkedCommandResume .. =>
    [.free, .out, .sys, .pins, .hif, .mgt, .sup, .ktl, .led, .cad, .cdc, .stp, .btu, .hdp, .jnl, .seq, .axs, .mot,
     .ctl, .drc, .flt, .fus]
  | .resetRelease .. =>
    [.now, .free, .out, .sys, .pins, .clk, .hif, .mgt, .sup, .ktl, .led, .cad, .cdc, .stp, .btu, .hdp, .jnl, .axs,
     .mot, .ctl, .drc, .flt]
  | .packetStart .. | .indirectBlockFetched .. | .kettleLockstepMismatch .. | .kettleWatchdogExpiry .. =>
    [.free, .out, .sys, .pins, .clk, .hif, .mgt, .sup, .ktl, .led, .cad, .cdc, .stp, .btu, .hdp, .jnl, .seq, .axs,
     .mot, .ctl, .drc, .flt, .fus]
  | .powerOnReset .. | .rstNAssert =>
    [.now, .free, .sys, .pins, .clk, .hif, .mgt, .sup, .ktl, .led, .cad, .cdc, .stp, .btu, .hdp, .jnl, .seq, .axs,
     .mot, .ctl, .drc, .flt, .fus, .tmp]

end Sys2Proof.Safety

namespace Sys2Proof.Machine

/-- The state that a started command's verdict leaves. -/
def Verdict.state : Verdict → State
  | .reply s _ => s
  | .park s _ _ => s

end Sys2Proof.Machine
end

