-- ==== Sys2Proof/Certificates/Slice0/Obligations.lean ====
section
/-! DEFINITION. The statements: what the whole machine keeps, rules of the spec stated whole, and for every command where it
completes, with the state it leaves. -/

open Sys2Proof Sys2Proof.Machine Sys2Proof.Safety

/-! ## The whole machine -/

/-- A step takes the command at the front of the queue and is that command on the state with the queue's rest; on an empty
queue the block idles, and its queue stays empty (the idle step is the model's choice, log 1). -/
def Obligations.StepRunsFrontCommand : Prop :=
  (∀ (c : Instr) (rest : List Instr) (s : State), s.pending = c :: rest → step s = exec c { s with pending := rest }) ∧
  (∀ s : State, s.pending = [] → step s = .next (idle s) ∧ (idle s).pending = [])

/-- Every command answers a next state, in every state, and changes no part of the state but those that `mayChange` names
for it: the queue of waiting commands is in none of those lists, the fuses are in those of 10 commands, the die temperature
in those of 9. -/
def Obligations.EveryCommandKeepsItsFrame : Prop :=
  ∀ (i : Instr) (s : State), ∃ t, exec i s = .next t ∧ OnlyChanges (mayChange i) s t ∧ t.pending = s.pending

/-- A command leaves every byte of the journal flash that it does not store to: a record goes to its slot, a collection mark
to its entry of the collection log, and an erasure to its sector (R138, R362, R366). -/
def Obligations.FlashBytesKept : Prop :=
  ∀ (i : Instr) (s t : State), FlashCanonical s → exec i s = .next t →
    ∀ a, storesFlash i s a = false → flashGet t.jnl.flash a = flashGet s.jnl.flash a

/-- The list that holds the journal flash stays in its canonical form, whatever a step runs. -/
def Obligations.FlashStaysCanonical : Prop :=
  ∀ s t : State, FlashCanonical s → step s = .next t → FlashCanonical t

/-- The state after reset: mode RESET, DEPTH 0, BOOT_STAGE 0, nothing waiting, no recipe, no sheet, no fault pending and no
unit fenced, the fuse words not yet latched, and a flash in canonical form. The blank fuses and the erased flash are the
model's choice (log 24, log 31). -/
def Obligations.ResetState : Prop :=
  State.reset.sys.mode = .reset ∧ State.reset.sys.depth = 0 ∧ State.reset.sys.bootStage = 0 ∧ State.reset.pending = [] ∧
  State.reset.ktl.intake = [] ∧ State.reset.ktl.parked = [] ∧ State.reset.led.jobs = [] ∧ State.reset.cad.leaves = [] ∧
  (∀ i : Fin 512, State.reset.led.entries[i] = none) ∧ (∀ k, storeSlot State.reset k = none) ∧
  (∀ k : Fin 256, State.reset.flt.src[k].pend = none ∧ State.reset.flt.src[k].fenced = false ∧
    State.reset.flt.src[k].raises = 0) ∧
  (∀ a : Fin 16, State.reset.axs[a].state = .disabled ∧ State.reset.axs[a].homed = false) ∧
  (∀ m : Fin 10, State.reset.mot.ch[m].state = .stopped ∧ State.reset.mot.ch[m].drven = false) ∧
  (∀ k : Fin 6, State.reset.btu[k].lock = .off ∧ State.reset.btu[k].lden = false ∧ State.reset.clk.px[k].en = false) ∧
  State.reset.fus.sensed = false ∧ State.reset.hif.bar2En = false ∧ State.reset.sys.up = false ∧ FlashCanonical State.reset

/-- A fuse that is burned stays burned: no command turns a 1 of any row of the array into a 0 (R526). -/
def Obligations.FusesAreNeverCleared : Prop :=
  ∀ (i : Instr) (s t : State), exec i s = .next t →
    ∀ k, getN t.fus.rows k 0 &&& getN s.fus.rows k 0 = getN s.fus.rows k 0

/-- HALT is left only into RESET, or into STANDBY where no HALT-level fault is pending and the entry was not one that only
reset ends; a HALT that only reset ends stays one (R43). -/
def Obligations.HaltIsLeftOnlySafely : Prop :=
  ∀ (i : Instr) (s t : State), s.sys.mode = .halt → exec i s = .next t →
    (t.sys.mode = .halt ∨ t.sys.mode = .reset ∨
      t.sys.mode = .standby ∧ s.sys.haltUntilReset = false ∧ pendingAtLeast s .halt = false) ∧
    (s.sys.haltUntilReset = true → t.sys.mode = .halt → t.sys.haltUntilReset = true)

/-! ## Rules stated whole -/

/-- R525: each of BAR0 and the management port keeps its own FLT_SEL. A write of it through one path changes what that path
selects and nothing that the other path reads at 0x0914..0x091C; writes through both paths, in either order, both stand. -/
def Obligations.FltSelPerPath : Prop :=
  ∀ (s : State) (v w : Word), s.sys.up = true →
    (∃ t, exec (.registerWrite .bar0 0x910 v) s = .next t ∧ t.hif.fltSelBar0 = Fin.ofNat 256 v.toNat ∧
      t.hif.fltSelMgmt = s.hif.fltSelMgmt ∧ regValue t .bar0 0x910 = v.toNat % 256 ∧
      ∀ o, o ∈ [0x914, 0x918, 0x91C] → regValue t .mgmt o = regValue s .mgmt o) ∧
    (∃ t, exec (.registerWrite .mgmt 0x910 v) s = .next t ∧ t.hif.fltSelMgmt = Fin.ofNat 256 v.toNat ∧
      t.hif.fltSelBar0 = s.hif.fltSelBar0 ∧ regValue t .mgmt 0x910 = v.toNat % 256 ∧
      ∀ o, o ∈ [0x914, 0x918, 0x91C] → regValue t .bar0 o = regValue s .bar0 o) ∧
    (∃ t u, exec (.registerWrite .bar0 0x910 v) s = .next t ∧ exec (.registerWrite .mgmt 0x910 w) t = .next u ∧
      u.hif.fltSelBar0 = Fin.ofNat 256 v.toNat ∧ u.hif.fltSelMgmt = Fin.ofNat 256 w.toNat) ∧
    (∃ t u, exec (.registerWrite .mgmt 0x910 w) s = .next t ∧ exec (.registerWrite .bar0 0x910 v) t = .next u ∧
      u.hif.fltSelBar0 = Fin.ofNat 256 v.toNat ∧ u.hif.fltSelMgmt = Fin.ofNat 256 w.toNat)

/-- R162: a SUBMIT with the tag of a packet that is still queued on its port gets a BUSY reply with sub-reason 0x14, and its
packet goes no further; the fetch of a ring's entry hands the packet on whatever tags the ring's other packets carry. -/
def Obligations.RepeatedTags : Prop :=
  ∀ s : State,
    (∀ (p : SpiPort) (frame : List Byte), portAnswers s p = true → s.sys.up = true → frameIs frame 0x20 66 = true →
      crcOk frame = true → (queued (s.spi p)).length < 4 →
      ((queued (s.spi p)).any fun q => q.tag == (cmdOf (match p with | .mgmt => .mgmt | .sup => .sup) (bytesAt frame 1 64) false).tag) = true →
      ∃ t r, exec (.submit p frame) s = .next t ∧ (t.spi p).replies = (s.spi p).replies ++ [r] ∧
        r.tag = (cmdOf (match p with | .mgmt => .mgmt | .sup => .sup) (bytesAt frame 1 64) false).tag ∧ r.status = .busy ∧
        r.detail.toNat % 256 = 0x14 ∧ (t.spi p).queue = (s.spi p).queue ∧ t.ktl = s.ktl) ∧
    (∀ (n : Fin 4) (l : List Byte), intakeRoom s = true → s.hif.turn = n.1 → waitsAt s .sup = false → waitsAt s .mgmt = false →
      ringFetches s.hif.cr[n] = true → entryFault (opSpecOf (u8 (padTo 64 l) 0)) (padTo 64 l) (.ring n) false = none →
      duplicate s (cmdOf (.ring n) (padTo 64 l) false) = none →
      ∃ t, exec (.ringEntryFetched n (.ok l)) s = .next t ∧
        t.ktl.intake = (remember s (cmdOf (.ring n) (padTo 64 l) false)).ktl.intake ++ [packetOf (.ring n) (padTo 64 l) false .held])

/-- R212: CRC-32C divides by 0x82F6_3B78, bit 0 of each byte first, from 0xFFFF_FFFF, and inverts the result; of the nine
bytes "123456789" it is 0xE306_9283, and of no bytes 0. -/
def Obligations.Crc32cOfTheManual : Prop :=
  (∀ (l : List Byte) (b : Byte), crc32c (l ++ [b]) =
    (List.range 8).foldl (fun (c : Word) _ => if c.getLsbD 0 then (c >>> 1) ^^^ 0x82F63B78#32 else c >>> 1)
      ((crc32c l ^^^ 0xFFFFFFFF#32) ^^^ b.setWidth 32) ^^^ 0xFFFFFFFF#32) ∧
  crc32c [0x31, 0x32, 0x33, 0x34, 0x35, 0x36, 0x37, 0x38, 0x39] = 0xE3069283#32 ∧ crc32c [] = 0

/-! ## Device, recipe, job and sheet opcodes -/

/-- NOP, ECHO, GET_INFO, GET_STATUS, SET_EVENT_ROUTE and SET_WAKE_BUDGET complete with OK and the words that R177, R178
and R180 give them; only SET_EVENT_ROUTE and SET_WAKE_BUDGET have an effect beyond the reply. SET_MODE: READY from
STANDBY begins a wake and answers ACCEPTED; STANDBY from READY with an empty ledger, RUNOUT, and SERVICE on a device
that permits it change the mode (R43, R44, R178). -/
def Obligations.DeviceOpcodesComplete : Prop :=
  ∀ (c : Cmd) (s : State),
    (Accepted nopSpec c s → exec (.nop c) s = .next (answered (begun s c) c okWords)) ∧
    (Accepted echoSpec c s → exec (.echo c) s = .next (answered (begun s c) c
      (okWords (Cmd.p32 c 16) (Cmd.p32 c 20) (Cmd.p32 c 24) (Cmd.p32 c 28) (Cmd.p32 c 32)))) ∧
    (Accepted getInfoSpec c s → Cmd.p8 c 16 ≤ 4 →
      exec (.getInfo c) s = .next (answered (begun s c) c (infoPage (begun s c) (Cmd.p8 c 16)))) ∧
    (Accepted getStatusSpec c s → exec (.getStatus c) s = .next (answered (begun s c) c
      (okWords (modeWord (begun s c)) ((highestPending (begun s c)).getD 0xF + 256 * min 255 (pendingCount (begun s c))) ((sheets (begun s c)).length + 65536 * openSheets (begun s c)) (freeMib (begun s c)) (fieldInt 32 s.tmp.temp)))) ∧
    (Accepted setEventRouteSpec c s → Cmd.p8 c 17 < 8 → Cmd.p8 c 18 < 64 →
      exec (.setEventRoute c) s = .next (answered ((begun s c).modSrc (Fin.ofNat 256 (Cmd.p8 c 16)) fun x =>
        { x with route := BitVec.ofNat 3 (Cmd.p8 c 17), vector := Fin.ofNat 64 (Cmd.p8 c 18) }) c okWords)) ∧
    (Accepted setWakeBudgetSpec c s → ∃ t r, exec (.setWakeBudget c) s = .next (answered t c r) ∧ r.status = .ok ∧
      t.sys.wakeBudget = Cmd.p32 c 16 ∧ t.sys.idleTimeout = Cmd.p16 c 20) ∧
    (Accepted setModeSpec c s → s.flt.inbox = [] → coming s (· == .pwrfailNAssert) = false →
    (Cmd.p8 c 16 = 0x3 → s.sys.mode = .standby → pendingAtLeast s .runout = false →
      ∃ t, exec (.setMode c) s = .next (answered t c { status := .accepted, w0 := t.sys.mode.code }) ∧
        t.sys.mode = .standby ∧ t.sys.wake.isSome = true) ∧
    (Cmd.p8 c 16 = 0x2 → s.sys.mode = .ready → ledgerEmpty s = true →
      ∃ t, exec (.setMode c) s = .next (answered t c (okWords 0x2)) ∧ t.sys.mode = .standby) ∧
    (Cmd.p8 c 16 = 0x5 → (s.sys.mode = .ready ∨ s.sys.mode = .print) →
      ∃ t, exec (.setMode c) s = .next (answered t c (okWords 0x5)) ∧
        t.sys.mode = .runout ∧ t.sys.held = true ∧ t.sys.lastCause = 0 ∧ t.sys.lcSrc = false) ∧
    (Cmd.p8 c 16 = 0x7 → servicePermitted s = true → (s.sys.mode = .standby ∨ s.sys.mode = .ready) →
      ledgerEmpty s = true → journalRefusal (begun s c) false = none → RecordRoom 1 s →
      ∃ t, exec (.setMode c) s = .next t ∧ t.sys.mode = .service ∧ t.sys.depth = 0))

/-- LOAD_RECIPE parks while the signature of an image that passes its other checks is verified; QUERY_RECIPE answers with
the slot, version and hash of the recipe it names, or with no slot (R184). ACTIVATE_RECIPES records the activation and
waits, parked, until its last record is durable when printing is audited, and otherwise activates the slots it names at once
(R185). -/
def Obligations.RecipeOpcodesComplete : Prop :=
  ∀ (c : Cmd) (s : State),
    (Accepted loadRecipeSpec c s → imageCheck (begun s c) c.params = none →
      exec (.loadRecipe c) s = .next (parked (begun s c) 0x10 c .hardware none)) ∧
    (Accepted queryRecipeSpec c s → ∀ k r, Cmd.p8 c 20 ≤ 1 → storeSlot s k = some r →
      r.kind = Cmd.p16 c 16 → r.inst = Cmd.p16 c 18 → r.active = (Cmd.p8 c 20 == 0) →
      (∀ j q, j < k → storeSlot s j = some q →
        ¬(q.kind = Cmd.p16 c 16 ∧ q.inst = Cmd.p16 c 18 ∧ q.active = (Cmd.p8 c 20 == 0))) →
      exec (.queryRecipe c) s = .next (answered (begun s c) c (okWords k r.version (u32 (hashBytes r.hash) 0) (u32 (hashBytes r.hash) 4) (u32 (hashBytes r.hash) 8)))) ∧
    (Accepted queryRecipeSpec c s → Cmd.p8 c 20 ≤ 1 →
      (∀ j q, storeSlot s j = some q → ¬(q.kind = Cmd.p16 c 16 ∧ q.inst = Cmd.p16 c 18 ∧ q.active = (Cmd.p8 c 20 == 0))) →
      exec (.queryRecipe c) s = .next (answered (begun s c) c (okWords 0xFFFFFFFF))) ∧
    (Accepted activateSpec c s → 1 ≤ Cmd.p8 c 16 → Cmd.p8 c 16 ≤ 16 →
      (∀ k, k < 16 → Cmd.p8 c 16 ≤ k → Cmd.p8 c (17 + k) = 0xFF) → badSlot (begun s c) (activateSlots c) = none →
      failedRecipe (begun s c) ((activateSlots c).filterMap (storeSlot (begun s c))) = none →
      (((activateSlots c).filterMap (storeSlot (begun s c))).any (fun r => r.kind != 0x0060) && !idleOk (begun s c)) = false →
      journalRefusal (begun s c) false = none → RecordRoom (Cmd.p8 c 16) s →
      ∃ t, t = recordRecipes (begun s c) (activateSlots c) ∧
        exec (.activateRecipes c) s = .next (if jnlOn s && s.led.audit
          then parked t 0x12 c (.record t.jnl.tickets) (some (okWords (Cmd.p8 c 16)))
          else answered (activate t (activateSlots c)) c
            (okWords (Cmd.p8 c 16) (bit (requiredSet (activate t (activateSlots c)))))))

/-- OPEN_JOB and CLOSE_JOB change the list of open jobs and with it whether printing is audited, EVICT_LEAVES frees the
Leaves it names, and QUERY_SHEET answers for a sheet of the ledger, a freed one, or none (R189..R191, R231). -/
def Obligations.JobOpcodesComplete : Prop :=
  ∀ (c : Cmd) (s : State),
    (Accepted openJobSpec c s → Cmd.p32 c 16 ≠ 0 → jobOf s (BitVec.ofNat 32 (Cmd.p32 c 16)) = none → Cmd.p8 c 20 ≤ 1 →
      (Cmd.p8 c 20 = 0 → journalMandatory s = false) → (Cmd.p8 c 20 = 1 → keyComplete s = true) →
      (∀ j ∈ s.led.jobs, j.audit = (Cmd.p8 c 20 == 1)) → s.led.jobs.length < 4 → journalRefusal (begun s c) false = none →
      RecordRoom 1 s →
      ∃ t, exec (.openJob c) s = .next t ∧
        t.led.jobs = s.led.jobs ++ [⟨BitVec.ofNat 32 (Cmd.p32 c 16), Cmd.p8 c 20 == 1, 0, 0, 0, 0, false⟩] ∧
        t.led.audit = (Cmd.p8 c 20 == 1)) ∧
    (Accepted closeJobSpec c s → (jobOf s (BitVec.ofNat 32 (Cmd.p32 c 16))).isSome = true →
      (sheets s).any (fun x => x.2.job == BitVec.ofNat 32 (Cmd.p32 c 16)) = false → journalRefusal (begun s c) true = none →
      RecordRoom 1 s →
      ∃ t, exec (.closeJob c) s = .next t ∧
        t.led.jobs = s.led.jobs.filter (fun j => j.id != BitVec.ofNat 32 (Cmd.p32 c 16)) ∧
        t.led.audit = t.led.jobs.any (·.audit)) ∧
    (Accepted evictLeavesSpec c s → ∀ i e,
      findSheet s (BitVec.ofNat 32 (Cmd.p32 c 16)) (BitVec.ofNat 16 (Cmd.p16 c 20)) = some (i, e) → e.open = false →
      Cmd.p16 c 24 ≤ 2047 → Cmd.p16 c 24 + Cmd.p16 c 26 ≤ 2048 →
      ∃ t r, exec (.evictLeaves c) s = .next (answered t c r) ∧ r.status = .ok ∧
        r.w0 = (s.cad.leaves.filter fun l => l.job == BitVec.ofNat 32 (Cmd.p32 c 16) && evictKey c l.key).length ∧
        ∀ l ∈ t.cad.leaves, l.job = BitVec.ofNat 32 (Cmd.p32 c 16) → evictKey c l.key = true → l.doomed = true) ∧
    (Accepted querySheetSpec c s →
      (∀ i e, findSheet s (BitVec.ofNat 32 (Cmd.p32 c 16)) (BitVec.ofNat 16 (Cmd.p16 c 20)) = some (i, e) →
        exec (.querySheet c) s = .next (answered (begun s c) c (sheetWords e.state.code
          (e.state == .completed) e.spoil e.serial e.mirrors e.exposedBlank e.recorded))) ∧
      (findSheet s (BitVec.ofNat 32 (Cmd.p32 c 16)) (BitVec.ofNat 16 (Cmd.p16 c 20)) = none →
        (∀ p ∈ s.led.history, ¬(p.job = BitVec.ofNat 32 (Cmd.p32 c 16) ∧ p.handle = BitVec.ofNat 16 (Cmd.p16 c 20))) →
        exec (.querySheet c) s = .next (answered (begun s c) c (okWords 0xFF (w4 := 0xFFFFFFFF)))))

/-- ADMIT_SHEET claims the lowest free ledger entry for a descriptor that passes its checks (R384, R387); COMMIT_SHEET makes
an admitted sheet whose Leaves are resident committed, with the next serial in an audited job (R229, R352, R387);
CANCEL_SHEET frees an admitted sheet, and marks a picked one cancelled (R21, R396). -/
def Obligations.SheetOpcodesComplete : Prop :=
  ∀ (c : Cmd) (s : State),
    (Accepted admitSheetSpec c s → ∀ j i, jobOf s (BitVec.ofNat 32 (u32 c.params 0)) = some j →
      findSheet s (BitVec.ofNat 32 (u32 c.params 0)) (BitVec.ofNat 16 (u16 c.params 4)) = none →
      (descriptorFaults (begun s c) c j.audit (BitVec.ofNat 32 (u32 c.params 0)) c.params).all (fun x => !x.2) = true →
      admitTooFast (begun s c) c.params = false → admitFenced (begun s c) c.params = false →
      s.led.entries[i] = none → (∀ k : Fin 512, k < i → s.led.entries[k] ≠ none) →
      (jnlOn s && ringFull s) = false →
      ∃ t, exec (.admitSheet c) s =
          .next (answered t c (okWords i.1 ((BitVec.ofNat 16 (u16 c.params 4)).toNat))) ∧
        ∃ e, t.led.entries[i] = some e ∧ e.state = .admitted ∧ e.job = BitVec.ofNat 32 (u32 c.params 0) ∧
          e.handle = BitVec.ofNat 16 (u16 c.params 4) ∧ e.length = u32 c.params 0x08 ∧ e.serial = 0 ∧
          ∀ k : Fin 512, k ≠ i → t.led.entries[k] = s.led.entries[k]) ∧
    (Accepted commitSheetSpec c s → ∀ i e j,
      findSheet s (BitVec.ofNat 32 (Cmd.p32 c 16)) (BitVec.ofNat 16 (Cmd.p16 c 20)) = some (i, e) →
      jobOf s (BitVec.ofNat 32 (Cmd.p32 c 16)) = some j → e.state = .admitted → mirrorOn s = true →
      missingLeaf (begun s c) e = none → (j.audit = true → s.jnl.anchored = true ∧ s.jnl.next ≤ highNow s) →
      ∃ t, exec (.commitSheet c) s = .next (answered t c (okWords ((if j.audit then s.jnl.next else 0) % 2 ^ 32) ((if j.audit then s.jnl.next else 0) / 2 ^ 32) i.1)) ∧
        t.jnl.next = (if j.audit then s.jnl.next + 1 else s.jnl.next) ∧ t.led.commits = s.led.commits + 1 ∧
        ∃ x, t.led.entries[i] = some x ∧ x.state = .committed ∧ x.serial = (if j.audit then s.jnl.next else 0) ∧
          x.order = s.led.commits + 1) ∧
    (Accepted cancelSheetSpec c s → ∀ i e,
      findSheet s (BitVec.ofNat 32 (Cmd.p32 c 16)) (BitVec.ofNat 16 (Cmd.p16 c 20)) = some (i, e) → gateComes s i = false →
      (e.state = .admitted → e.cancel = false →
        ∃ t, exec (.cancelSheet c) s = .next (answered t c (okWords 0)) ∧ t.led.entries[i] = none) ∧
      (e.state = .committed → e.cancel = false → journalRefusal (begun s c) true = none →
        RecordRoom (1 + (sheets s).countP fun x => x.2.duplex == 2 && x.2.job == e.job && x.2.partner == e.handle) s →
        ∃ t, exec (.cancelSheet c) s = .next t ∧ ∀ x, t.led.entries[i] = some x → x.cancel = true))

/-! ## Axis, motor and loop opcodes -/

/-- AXIS_HOME from IDLE starts a homing, or under method 3 sets the position at once; AXIS_MOVE starts a move toward
its target under a new identifier; AXIS_GROUP_MOVE puts its axes in GROUP; AXIS_STOP disables an idle axis, ramps a
moving one down, or stops it at once; AXIS_QUERY answers the axis's registers (R193, R194, R417..R420). AXIS_GROUP_MOVE
of 2 to 4 homed idle axes that are not owned: each gets a new identifier, its target and the state GROUP (R420). -/
def Obligations.AxisOpcodesComplete : Prop :=
  ∀ (c : Cmd) (s : State) (a : Fin 16), a = axisNumber c →
    (Accepted axisHomeSpec c s → axEnabled (axisOf s a) = true → Cmd.p8 c 17 ≤ 3 →
      homeMethod (axHomeSeq (axisOf s a) (Cmd.p8 c 17)) ≠ 0 → s.axs[a].owned = false → s.axs[a].state = .idle →
      ∃ t, exec (.axisHome c) s =
          .next (answered t c { status := .accepted, w0 := (s.axs[a].moveId + 1).toNat }) ∧
        t.axs[a].moveId = s.axs[a].moveId + 1 ∧
        (homeMethod (axHomeSeq (axisOf s a) (Cmd.p8 c 17)) = 3 → t.axs[a].state = .idle ∧ t.axs[a].homed = true ∧
          t.axs[a].pos = homePos (axHomeSeq (axisOf s a) (Cmd.p8 c 17))) ∧
        (homeMethod (axHomeSeq (axisOf s a) (Cmd.p8 c 17)) ≠ 3 → t.axs[a].state = .homing ∧ t.axs[a].homed = false) ∧
        ∀ b, b ≠ a → t.axs[b] = s.axs[b]) ∧
    (Accepted axisMoveSpec c s → axEnabled (axisOf s a) = true → Cmd.p8 c 17 ≤ 2 →
      (Cmd.p8 c 17 ≤ 1 → isI32 (moveTarget (axisOf s a) s.axs[a] (Cmd.p8 c 17) (Cmd.i32 c 20)) = true ∧
        inSoft (axisOf s a) s.axs[a] (moveTarget (axisOf s a) s.axs[a] (Cmd.p8 c 17) (Cmd.i32 c 20)) = true) →
      s.axs[a].owned = false → (Cmd.p8 c 17 = 0 → s.axs[a].homed = true) → stallComes s a = false →
      (s.axs[a].state = .idle ∨ s.axs[a].state = .moving) →
      ∃ t, exec (.axisMove c) s =
          .next (answered t c { status := .accepted, w0 := (s.axs[a].moveId + 1).toNat }) ∧
        t.axs[a].state = .moving ∧ t.axs[a].moveId = s.axs[a].moveId + 1 ∧ t.axs[a].pos = s.axs[a].pos ∧
        t.axs[a].target = moveTarget (axisOf s a) s.axs[a] (Cmd.p8 c 17) (Cmd.i32 c 20) ∧
        ∀ b, b ≠ a → t.axs[b] = s.axs[b]) ∧
    (Accepted axisStopSpec c s → axEnabled (axisOf s a) = true →
      (Cmd.p8 c 17 = 2 → s.axs[a].state = .idle →
        ∃ t, exec (.axisStop c) s = .next (answered t c okWords) ∧ t.axs[a].state = .disabled ∧ t.axs[a].homed = false) ∧
      (Cmd.p8 c 17 = 0 → s.axs[a].state = .moving → coming s (· == .axisTargetReached a) = false →
        ∃ t, exec (.axisStop c) s = .next (answered t c okWords) ∧ t.axs[a].state = .stopping ∧
          t.axs[a].pos = s.axs[a].pos) ∧
      (Cmd.p8 c 17 = 1 → s.axs[a].state = .moving → s.axs[a].owned = false →
        ∃ t, exec (.axisStop c) s = .next (answered t c okWords) ∧ t.axs[a].state = .idle ∧ t.axs[a].vel = 0)) ∧
    (Accepted axisQuerySpec c s → axEnabled (axisOf s a) = true →
      ∃ w2, exec (.axisQuery c) s = .next (answered (begun s c) c (okWords (fieldInt 32 s.axs[a].pos)
          (fieldInt 32 s.axs[a].vel) w2 (fieldInt 32 s.axs[a].load) (Nat.max s.axs[a].iA.natAbs s.axs[a].iB.natAbs))) ∧
        (s.axs[a].state = .moving → w2 % 2 = 1) ∧ w2 / 2 % 2 = bit s.axs[a].homed) ∧
    (Accepted groupMoveSpec c s → Cmd.p8 c 16 ≤ 3 → 2 ≤ Cmd.p8 c 17 → Cmd.p8 c 17 ≤ 4 →
    (∀ k, k < 4 → Cmd.p8 c 17 ≤ k → Cmd.p8 c (18 + k) = 0xFF) → (groupAxes c).Nodup →
    (∀ k, k < Cmd.p8 c 17 → ∃ a : Fin 16, a.1 = Cmd.p8 c (18 + k) ∧ axEnabled (axisOf s a) = true ∧
      inSoft (axisOf s a) s.axs[a] (groupTarget c k) = true ∧ s.axs[a].owned = false ∧ s.axs[a].homed = true ∧
      s.axs[a].state = .idle) →
    (s.axs.any fun x => (x.state == .group || (x.state == .stopping && x.line.isSome)) && x.group == Cmd.p8 c 16) = false →
    ∃ t, exec (.axisGroupMove c) s = .next (answered t c { status := .accepted, w0 := (t.axs[Fin.ofNat 16 ((groupAxes c).foldl min 15)]).moveId.toNat }) ∧
      (∀ k (a : Fin 16), k < Cmd.p8 c 17 → a.1 = Cmd.p8 c (18 + k) → t.axs[a].state = .group ∧
        t.axs[a].group = Cmd.p8 c 16 ∧ t.axs[a].target = groupTarget c k ∧ t.axs[a].moveId = s.axs[a].moveId + 1) ∧
      ∀ a : Fin 16, a.1 ∉ groupAxes c → t.axs[a] = s.axs[a])

/-- MOTOR_START of a stopped channel begins a catch toward the speed; MOTOR_STOP coasts or brakes it; MOTOR_SET_SPEED moves
the setpoint of a running one, which ramps when its speed is outside the band of the new setpoint; MOTOR_QUERY answers its
registers (R192, R193, R437, R449). -/
def Obligations.MotorOpcodesComplete : Prop :=
  ∀ (c : Cmd) (s : State) (m : Fin 10), m = motorNumber c →
    (Accepted motorStartSpec c s → moEnabled (motorOf s m) = true → Cmd.p32 c 20 ≤ moMaxSpeed (motorOf s m) →
      s.mot.ch[m].state = .stopped → s.mot.ch[m].owned = false → underSpdcmd s m = false →
      ∃ t, exec (.motorStart c) s = .next (answered t c { status := .accepted }) ∧ t.mot.ch[m].state = .catching ∧
        t.mot.ch[m].setpoint = Cmd.p32 c 20 ∧ t.mot.ch[m].drven = !s.mot.hard ∧
        t.mot.ch[m].starts = inc32 s.mot.ch[m].starts ∧ ∀ k, k ≠ m → t.mot.ch[k] = s.mot.ch[k]) ∧
    (Accepted motorStopSpec c s → moEnabled (motorOf s m) = true → s.mot.ch[m].owned = false →
      (Cmd.p8 c 17 = 1 → s.mot.ch[m].state ≠ .stopped → s.mot.ch[m].state ≠ .fenced →
        ∃ t, exec (.motorStop c) s = .next (answered t c okWords) ∧ t.mot.ch[m].state = .coasting ∧
          ∀ k, k ≠ m → t.mot.ch[k] = s.mot.ch[k]) ∧
      (Cmd.p8 c 17 = 0 → s.mot.ch[m].state = .running →
        ∃ t, exec (.motorStop c) s = .next (answered t c okWords) ∧
          t.mot.ch[m].state = (if noRegen s || softComes s then .coasting else .braking) ∧ ∀ k, k ≠ m → t.mot.ch[k] = s.mot.ch[k])) ∧
    (Accepted motorSetSpeedSpec c s → moEnabled (motorOf s m) = true → Cmd.p32 c 20 ≤ moMaxSpeed (motorOf s m) →
      s.mot.ch[m].state = .running → s.mot.ch[m].owned = false → underSpdcmd s m = false →
      ∃ t, exec (.motorSetSpeed c) s = .next (answered t c okWords) ∧ t.mot.ch[m].setpoint = Cmd.p32 c 20 ∧
        t.mot.ch[m].state = (if inBand (motorOf s m) s.mot.ch[m].speed (Cmd.p32 c 20) then .running else .ramping) ∧
        ∀ k, k ≠ m → t.mot.ch[k] = s.mot.ch[k]) ∧
    (Accepted motorQuerySpec c s → moEnabled (motorOf s m) = true →
      exec (.motorQuery c) s = .next (answered (begun s c) c (okWords s.mot.ch[m].speed s.mot.ch[m].setpoint
        s.mot.ch[m].state.code s.mot.ch[m].peak s.mot.busV)))

/-- LOOP_SET disables a slot, or enables it in off with its entry, its period in frames and a phase, within the budget of
R453; LOOP_SETPOINT stores the setpoint and its ramp, for the next frame when one starts in the same cycle; LOOP_MODE turns a slot off, to manual at once, or asks for a law;
LOOP_QUERY answers its registers (R195, R196, R452, R458, R462, R471). -/
def Obligations.LoopOpcodesComplete : Prop :=
  ∀ (c : Cmd) (s : State) (n : Fin 160), n = slotNumber c →
    (Accepted loopSetSpec c s → laserSlot s n.1 = false →
      (Cmd.p8 c 17 = 0 → ∃ t, exec (.loopSet c) s = .next (answered t c (okWords (rateSum t))) ∧
        t.ctl.loops[n].en = false ∧ t.ctl.loops[n].mode = .off ∧ ∀ k, k ≠ n → t.ctl.loops[k] = s.ctl.loops[k]) ∧
      (Cmd.p8 c 17 = 1 → (loopsBody s).isEmpty = false → Cmd.p16 c 18 < loopEntries (loopsBody s) →
        entKind (loopEntry (loopsBody s) (Cmd.p16 c 18)) ≠ 3 → Cmd.p32 c 20 % 20 = 0 → 20 ≤ Cmd.p32 c 20 →
        Cmd.p32 c 20 ≤ 1000000 → outerOk s (loopEntry (loopsBody s) (Cmd.p16 c 18)) (Cmd.p32 c 20 / 20) = true →
        rateExceeds (evalRate (eventReserve s) ((n.1, entryCost (loopsBody s) (loopEntry (loopsBody s) (Cmd.p16 c 18)),
          Cmd.p32 c 20 / 20, 0) :: (timerSlots s).filter fun x => x.1 != n.1)) = false →
        (bestPhase ((timerSlots s).filter fun x => x.1 != n.1) n.1
            (entryCost (loopsBody s) (loopEntry (loopsBody s) (Cmd.p16 c 18))) (Cmd.p32 c 20 / 20)
            (phaseAllowed s (loopEntry (loopsBody s) (Cmd.p16 c 18)))).2 + eventReserve s ≤ 160 →
        ∃ t r, exec (.loopSet c) s = .next (answered t c r) ∧ r.status = .ok ∧ t.ctl.loops[n].en = true ∧
          t.ctl.loops[n].entry = Cmd.p16 c 18 ∧ t.ctl.loops[n].k = Cmd.p32 c 20 / 20 ∧ t.ctl.loops[n].mode = .off ∧
          ∀ k, k ≠ n → t.ctl.loops[k] = s.ctl.loops[k])) ∧
    (Accepted loopSetpointSpec c s → s.ctl.loops[n].en = true → entSpMin (slotEntry s s.ctl.loops[n]) ≤ Cmd.i32 c 20 →
      Cmd.i32 c 20 ≤ entSpMax (slotEntry s s.ctl.loops[n]) →
      ∃ t, exec (.loopSetpoint c) s = .next (answered t c okWords) ∧
        (frameComes s = true → t.ctl.loops[n] = { s.ctl.loops[n] with spNext := some (Cmd.i32 c 20, Cmd.p32 c 24) }) ∧
        (frameComes s = false → s.ctl.loops[n].cascade = false →
          t.ctl.loops[n].rTarget = Cmd.i32 c 20 ∧ t.ctl.loops[n].ramp = Cmd.p32 c 24) ∧
        (frameComes s = false → s.ctl.loops[n].cascade = true →
          t.ctl.loops[n].stored = some (Cmd.i32 c 20, Cmd.p32 c 24)) ∧
        ∀ k, k ≠ n → t.ctl.loops[k] = s.ctl.loops[k]) ∧
    (Accepted loopModeSpec c s → s.ctl.loops[n].en = true → s.ctl.loops[n].fence = 0 →
      (Cmd.p8 c 17 = 0 → ∃ t, exec (.loopMode c) s = .next (answered t c okWords) ∧ t.ctl.loops[n].mode = .off) ∧
      (Cmd.p8 c 17 = 1 → ∃ t, exec (.loopMode c) s = .next (answered t c okWords) ∧ t.ctl.loops[n].mode = .manual ∧
        t.ctl.loops[n].manual = Cmd.i32 c 20) ∧
      (Cmd.p8 c 17 = 2 → s.ctl.loops[n].mode ≠ .lawA →
        ∃ t, exec (.loopMode c) s = .next (answered t c { status := .accepted }) ∧
          t.ctl.loops[n].pending = some ⟨.lawA, 0, false⟩ ∧ t.ctl.loops[n].mode = s.ctl.loops[n].mode)) ∧
    (Accepted loopQuerySpec c s →
      ∃ w3, exec (.loopQuery c) s = .next (answered (begun s c) c (okWords (fieldInt 32 s.ctl.loops[n].y)
          (fieldInt 32 s.ctl.loops[n].r) (fieldInt 32 s.ctl.loops[n].out) w3 s.ctl.loops[n].missed)) ∧
        w3 % 16 = s.ctl.loops[n].mode.code % 16 ∧ w3 / 32 % 2 = bit s.ctl.loops[n].sat)

/-! ## Head, station and DRAM opcodes -/

/-- HEAD_SCAN of heads that no sheet and no command uses parks while it reads their memories over I2C (R197, R321, R344); HEAD_MAINTAIN
parks a spit of an idle head, caps or uncaps a head, at once or behind a move of its cap axis, and has no effect on a head
already so (R345); HEAD_MARK_DEAD changes the map of dead nozzles, at once outside a sheet, and no other head (R333). -/
def Obligations.HeadOpcodesComplete : Prop :=
  ∀ (c : Cmd) (s : State) (h : Fin 8), h = headNumber c →
    (Accepted headScanSpec c s →
      (∀ k : Fin 8, bitOf (Cmd.p8 c 16) k.1 = true →
        headInUse s k.1 = false ∧ headServed s k.1 = false ∧ s.hdp[k].state ≠ .fenced) →
      exec (.headScan c) s = .next (parked (((List.finRange 8).filter fun k => bitOf (Cmd.p8 c 16) k.1).foldl readMemory
        (begun s c)) 0x48 c .hardware none)) ∧
    (Accepted headMaintainSpec c s → headInUse s h.1 = false → headServed s h.1 = false → s.hdp[h].capMove = none →
      (Cmd.p8 c 17 = 2 → Cmd.p16 c 18 ≠ 0 → s.hdp[h].state = .idle →
        exec (.headMaintain c) s = .next (parked (begun s c) 0x49 c .hardware none)) ∧
      (Cmd.p8 c 17 = 0 → Cmd.p16 c 18 = 0 → s.hdp[h].state = .capped →
        exec (.headMaintain c) s = .next (answered (begun s c) c okWords)) ∧
      (Cmd.p8 c 17 = 1 → Cmd.p16 c 18 = 0 → s.hdp[h].state = .capped →
        (headBody s h.1).isEmpty = true ∨ hdCapAxis (headBody s h.1) = 0xFF →
        ∃ t, exec (.headMaintain c) s = .next (answered t c okWords) ∧ t.hdp[h].state = .idle ∧
          ∀ k, k ≠ h → t.hdp[k] = s.hdp[k]) ∧
      (Cmd.p8 c 17 = 0 → Cmd.p16 c 18 = 0 → s.hdp[h].state = .idle → (headBody s h.1).isEmpty = false →
        hdCapAxis (headBody s h.1) ≠ 0xFF →
        ∃ t, exec (.headMaintain c) s = .next (parked t 0x49 c .hardware none) ∧ t.hdp[h].capMove = some true ∧
          t.hdp[h].state = .idle ∧ ∀ k, k ≠ h → t.hdp[k] = s.hdp[k])) ∧
    (Accepted headMarkDeadSpec c s → Cmd.p8 c 17 ≤ 1 → Cmd.p16 c 18 < nozzleCount s.hdp[h] →
      headServed s h.1 = false → journalRefusal (begun s c) false = none → RecordRoom 1 s →
      insideSheetAt s h.1 = false → s.hdp[h].deadNext = [] →
      ∃ t, exec (.headMarkDead c) s = .next t ∧
        t.hdp[h].dead = markNozzle s.hdp[h].dead (Cmd.p16 c 18, Cmd.p8 c 17 == 0) ∧
        t.hdp[h].state = s.hdp[h].state ∧ ∀ k, k ≠ h → t.hdp[k] = s.hdp[k])

/-- STATION_CALIBRATE parks while its kinds are measured, kind 0 with the delay line running (R198, R305); STATION_LOCK
starts the synthesizer of a station that is off and passes R79's limits, with the registration offset of its recipe as
first grid reference, and releases a station (R312, R317); STATION_QUERY answers the station's registers (R198, R317). -/
def Obligations.StationOpcodesComplete : Prop :=
  ∀ (c : Cmd) (s : State) (k : Fin 6), k = stationNumber c →
    (Accepted stationCalibrateSpec c s → Cmd.p8 c 17 ≤ 3 → (Cmd.p8 c 17 ≠ 0 → polygonAtSpeed s k = true) →
      stationInUse s k.1 = false → calibrating s k.1 = false →
      stationFenced s k.1 = false →
      ∃ t, exec (.stationCalibrate c) s = .next (parked t 0x50 c .hardware none) ∧
        t.btu[k].calRunning = (s.btu[k].calRunning || Cmd.p8 c 17 == 0 || Cmd.p8 c 17 == 3) ∧
        ∀ j, j ≠ k → t.btu[j] = s.btu[j]) ∧
    (Accepted stationLockSpec c s → Cmd.p8 c 17 = 0 → (stationBody s k.1).isEmpty = false →
      pendLevel s (0x64 + 8 * k.1) = none → s.btu[k].lock = .off → lockLimits s k (stationBody s k.1) = true →
      ((sheetBody s).isEmpty = true ∨ intervalOk (stationBody s k.1) (sheetBody s) = true) →
      (bandFor (clockBody s) (stationBody s k.1)).isSome = true → calibrating s k.1 = false → stationFenced s k.1 = false →
      ∃ t, exec (.stationLock c) s = .next (answered t c { status := .accepted }) ∧ t.btu[k].lock = .synth ∧
        t.btu[k].gridRef = stRegOffset (stationBody s k.1) ∧ t.clk.px[k].en = true ∧ t.clk.px[k].locked = false ∧
        t.clk.px[k].int = stInt (stationBody s k.1) ∧ t.clk.px[k].frac = stFrac (stationBody s k.1) ∧
        (∀ j, j ≠ k → t.btu[j] = s.btu[j] ∧ t.clk.px[j] = s.clk.px[j])) ∧
    (Accepted stationLockSpec c s → Cmd.p8 c 17 = 1 → stationInUse s k.1 = false → calibrating s k.1 = false →
      ∃ t, exec (.stationLock c) s = .next (answered t c okWords) ∧ t.btu[k].lock = .off ∧
        ∀ j, j ≠ k → t.btu[j] = s.btu[j]) ∧
    (Accepted stationQuerySpec c s →
      exec (.stationQuery c) s = .next (answered (begun s c) c (okWords
        (bit s.clk.px[k].locked + 2 * bit (s.btu[k].lock == .locked) + 4 * bit (polygonAtSpeed s k) +
          8 * bit (s.btu[k].calPassed == 0x7) + 16 * bit (stationFenced s k.1))
        (facetPeriodNs s.btu[k]) (fieldInt 32 s.btu[k].phaseErr) s.btu[k].regOffset (fieldInt 32 s.btu[k].calTemp))))

/-- DRAM_TRAIN parks with the first channel of its mask in training; DRAM_SET_RATE applies a rate that both channels have
results for, and waits, parked, for the end of a training step that runs; DRAM_QUERY answers either page (R199, R200,
R484, R498). -/
def Obligations.DramOpcodesComplete : Prop :=
  ∀ (c : Cmd) (s : State),
    (Accepted dramTrainSpec c s → Cmd.p8 c 16 ≠ 0 → Cmd.p8 c 16 ≤ 3 → Cmd.p8 c 17 ≤ 1 → s.drc.training = none →
      ∃ t x, exec (.dramTrain c) s = .next (parked t 0x58 c .hardware none) ∧ t.drc.training = some x ∧
        x.mask = BitVec.ofNat 2 (Cmd.p8 c 16) ∧ x.kind = Cmd.p8 c 17 ∧ x.step = 0 ∧ x.retried = false ∧
        x.channel = (if Cmd.p8 c 16 = 2 then 1 else 0) ∧
        (s.sys.mode = .standby → t.sys.depth = min 1 s.sys.depth)) ∧
    (Accepted dramSetRateSpec c s → ∀ k, k < 7 → rateOf k = Cmd.p16 c 16 →
      (recipeOn s 0x0003 = true → k ≤ drBin (dramBody s)) →
      (s.drc.training = none → rateStored s k = true →
        ∃ t, exec (.dramSetRate c) s = .next (answered t c (okWords (Cmd.p16 c 16))) ∧ t.drc.rate = k ∧
          ∀ n : Fin 2, t.drc.ch[n].owed = 0 ∧ t.drc.ch[n].up = true ∧ t.drc.ch[n].stored = s.drc.ch[n].stored) ∧
      (s.drc.training.isSome = true → s.drc.stepAt ≠ some s.now →
        ∃ t, exec (.dramSetRate c) s = .next (parked t 0x59 c .hardware none) ∧ t.drc.ratePend = some k ∧
          t.drc.rate = s.drc.rate)) ∧
    (Accepted dramQuerySpec c s → ∀ n : Fin 2, Cmd.p8 c 16 = n.1 →
      (Cmd.p8 c 17 = 0 → exec (.dramQuery c) s = .next (answered (begun s c) c (okWords (rateOf s.drc.rate)
        (if s.drc.ch[n].up then s.drc.mapped else 0) (1024 * s.drc.ch[n].gib - s.drc.mapped) (fieldInt 32 s.drc.ch[n].temp)
        (s.drc.ch[n].owed % 8 + 8 * bit s.drc.ch[n].doubled)))) ∧
      (Cmd.p8 c 17 = 1 → exec (.dramQuery c) s = .next (answered (begun s c) c (okWords s.drc.ch[n].guardFails
        s.drc.ch[n].parityReplays s.drc.ch[n].crcReplays s.drc.ch[n].throttles s.drc.ch[n].srEntries))))

/-- DRAM rows in a device that is up: REFRESH_DUE counts, defers or forces a refresh of its channel (R491);
DRAM_TEMP_SAMPLE stores the temperature that the recipe's table gives the code (R492); SELF_REFRESH_IDLE puts a serving
channel in self-refresh when nothing claims it and no request comes in the same cycle (R490, R497); ZQ_CAL_DUE counts a calibration of a serving channel (R485). -/
def Obligations.DramRowsComplete : Prop :=
  ∀ (s : State) (n : Fin 2), s.sys.mode ≠ .reset →
    (s.drc.ch[n].up = true → s.drc.ch[n].sr = false →
      (s.drc.ch[n].joined ≠ some s.now →
        (∃ t, exec (.refreshDue n false) s = .next t ∧ t.drc.ch[n].owed = 0 ∧ t.drc.ch[n].forced = s.drc.ch[n].forced) ∧
        (owedCap s.drc.ch[n] ≤ s.drc.ch[n].owed →
          ∃ t, exec (.refreshDue n true) s = .next t ∧ t.drc.ch[n].owed = s.drc.ch[n].owed ∧
            t.drc.ch[n].forced = inc32 s.drc.ch[n].forced) ∧
        (s.drc.ch[n].owed < owedCap s.drc.ch[n] →
          ∃ t, exec (.refreshDue n true) s = .next t ∧ t.drc.ch[n].owed = s.drc.ch[n].owed + 1 ∧
            t.drc.ch[n].forced = s.drc.ch[n].forced)) ∧
      (∃ t, exec (.zqCalDue n) s = .next t ∧ t.drc.ch[n].zqCals = s.drc.ch[n].zqCals + 1) ∧
      (claimed s = false → (s.hdp.any (·.state == .marking)) = false → requestComes s = false →
        ∃ t, exec (.selfRefreshIdle n) s = .next t ∧ t.drc.ch[n].sr = true ∧ t.drc.ch[n].owed = 0 ∧
          t.drc.ch[n].srEntries = inc32 s.drc.ch[n].srEntries)) ∧
    (∀ code : BitVec 12, (dramBody s).isEmpty = false → u8 (dramBody s) (0x16 + n.1) ≠ 0xFF → code ≠ 0 → code ≠ 4095 →
      ∀ v, between (dramTable (dramBody s)) code.toNat = some v →
      ∃ t, exec (.dramTempSample n code) s = .next t ∧ t.drc.ch[n].temp = v ∧ t.drc.ch[n].broken = false ∧
        (340 ≤ v → t.drc.ch[n].doubled = true) ∧ (v < 332 → t.drc.ch[n].doubled = false) ∧
        (332 ≤ v → v < 340 → t.drc.ch[n].doubled = s.drc.ch[n].doubled) ∧ ∀ m, m ≠ n → t.drc.ch[m] = s.drc.ch[m])

/-- DRAM_ALERT replays a request of a serving channel and, after a third failed replay, trains the channel anew or loses it
(R494, R495); DRAM_TRAIN_STEP_END passes the step or retries it once (R482, R483); DRAM_FILL_BLOCK fills 2 MiB more of each
serving channel (R479); HEALTH_SCAN_PASS_END counts the pass and starts another (R480). -/
def Obligations.DramEventsComplete : Prop :=
  ∀ (s : State) (n : Fin 2), s.sys.mode ≠ .reset →
    (∀ a, s.drc.ch[n].up = true → a.third = false →
      ∃ t, exec (.dramAlert n a) s = .next t ∧ t.drc.ch[n].up = true ∧
        t.drc.ch[n].parityReplays = (if a.parity then inc32 s.drc.ch[n].parityReplays else s.drc.ch[n].parityReplays) ∧
        t.drc.ch[n].crcReplays = (if a.parity then s.drc.ch[n].crcReplays else inc32 s.drc.ch[n].crcReplays) ∧
        ∀ m, m ≠ n → t.drc.ch[m] = s.drc.ch[m]) ∧
    (∀ a, s.drc.ch[n].up = true → a.third = true →
      ∃ t, exec (.dramAlert n a) s = .next t ∧ t.drc.ch[n].up = a.retrain) ∧
    (∀ x, s.drc.training = some x → s.drc.ratePend = none →
      (x.retried = false → ∃ t, exec (.dramTrainStepEnd false) s = .next t ∧
        t.drc.training = some { x with retried := true }) ∧
      (x.step + 1 < stepCount s.drc.ch[x.channel] x.kind → ∃ t, exec (.dramTrainStepEnd true) s = .next t ∧
        t.drc.training = some { x with step := x.step + 1, retried := false })) ∧
    (s.drc.fillDone = false → s.cad.capPages ≠ 0 → s.sys.depth < 2 →
      ∃ t, exec .dramFillBlock s = .next t ∧ t.cad.filledPages = s.cad.filledPages + 512 ∧
        t.drc.fill = s.drc.fill + 2 * s.drc.ch.toList.countP (·.up)) ∧
    (s.drc.fillDone = true → (s.drc.ch.any (·.sr)) = false →
      ∃ t, exec .healthScanPassEnd s = .next t ∧ t.drc.scans = inc32 s.drc.scans ∧ t.drc.scanFails = 0)

/-! ## Fault, fuse, journal and codec opcodes, and what a parked command's hardware brings -/

/-- FAULT_READ answers the words of a source, or of the source that was oldest pending before the raises of this cycle (R202,
R523); FAULT_CLEAR of a source whose cause is not present and that is not raised in this cycle makes it clear (R24, R511); FAULT_SET_SEVERITY sets the severity of one source at or above its floor, or the level of
ALIVE (R508, R513); FAULT_INJECT arms one injection (R519). -/
def Obligations.FaultOpcodesComplete : Prop :=
  ∀ (c : Cmd) (s : State),
    (Accepted faultReadSpec c s → ∀ k : Fin 256,
      (Cmd.p16 c 16 = k.1 → exec (.faultRead c) s = .next (answered (begun s c) c (faultWords (begun s c) k))) ∧
      (Cmd.p16 c 16 = 256 → oldestPending (beforeRaises s) = some k →
        exec (.faultRead c) s = .next (answered (begun s c) c (sourceWords (begun s c) k (srcBefore s k))))) ∧
    (Accepted faultReadSpec c s → Cmd.p16 c 16 = 256 → oldestPending (beforeRaises s) = none →
      exec (.faultRead c) s = .next (answered (begun s c) c (okWords 0xFFFFFFFF))) ∧
    (Accepted faultClearSpec c s → ∀ k : Fin 256, Cmd.p8 c 16 = k.1 → causePresent (begun s c) k.1 = false →
      raisedNow s k = false → (k.1 = 0x53 → retiredSlots s = []) → (k.1 = 0xF0 → s.sys.svcLock = true → c.src = .sup) →
      ∃ t, exec (.faultClear c) s = .next (answered t c okWords) ∧ t.flt.src[k].pend = none ∧ t.flt.src[k].raises = 0 ∧
        t.flt.src[k].first = 0 ∧ t.flt.src[k].latest = 0 ∧ t.flt.src[k].position = 0 ∧ t.flt.src[k].fenced = false ∧
        t.flt.src[k].sev = s.flt.src[k].sev ∧ ∀ j, j ≠ k → t.flt.src[j] = s.flt.src[j]) ∧
    (Accepted faultSetSeveritySpec c s → Cmd.p8 c 18 ≤ 4 → journalRefusal (begun s c) false = none → RecordRoom 1 s →
      (∀ k : Fin 256, Cmd.p16 c 16 = k.1 → (sourceFloor k.1).toNat ≤ Cmd.p8 c 18 →
        ∃ t, exec (.faultSetSeverity c) s = .next t ∧ t.flt.src[k] = { s.flt.src[k] with sev := Level.ofNum (Cmd.p8 c 18) } ∧
          ∀ j, j ≠ k → t.flt.src[j] = s.flt.src[j]) ∧
      (Cmd.p16 c 16 = 256 → ∃ t, exec (.faultSetSeverity c) s = .next t ∧ t.flt.aliveLevel = Cmd.p8 c 18 ∧
        t.flt.src = s.flt.src)) ∧
    (Accepted faultInjectSpec c s → (Cmd.p8 c 17 = 1 ∨ Cmd.p8 c 17 = 0 ∧ injectionPoint (Cmd.p8 c 16) = true) →
      Cmd.p16 c 18 ≠ 0 → s.flt.inject = none → journalRefusal (begun s c) false = none → RecordRoom 1 s →
      ∃ t, exec (.faultInject c) s = .next t ∧
        t.flt.inject = some ⟨Fin.ofNat 256 (Cmd.p8 c 16), Cmd.p8 c 17, Cmd.p16 c 18⟩ ∧ t.flt.src = s.flt.src)

/-- FUSE_READ answers a word outside KEY's private part, as it stood before a change of the same cycle; FUSE_SHADOW sets or drops shadows and no fuse; FUSE_BURN,
FUSE_LOCK_REGION and PROVISION, past their checks, park while the fuses are burned (R204, R211, R534..R536, R543). -/
def Obligations.FuseOpcodesComplete : Prop :=
  ∀ (c : Cmd) (s : State),
    (Accepted fuseReadSpec c s → (Cmd.p8 c 16 < 128 ∨ 132 ≤ Cmd.p8 c 16) →
      exec (.fuseRead c) s = .next (answered (begun s c) c (fuseWordsBefore s (Fin.ofNat 256 (Cmd.p8 c 16))))) ∧
    (Accepted fuseShadowSpec c s → journalRefusal (begun s c) false = none → RecordRoom 1 s →
      (Cmd.p8 c 16 = 0 → Cmd.p8 c 17 ≠ 16 → fuseRegion (Cmd.p8 c 17) ≠ some 4 → regionLocked s (Cmd.p8 c 17) = false →
        ∃ t, exec (.fuseShadow c) s = .next t ∧
          (Fin.ofNat 256 (Cmd.p8 c 17), BitVec.ofNat 64 (Cmd.p64 c 20)) ∈ t.fus.shadows ∧
          t.fus.rows = s.fus.rows ∧ t.fus.latched = s.fus.latched) ∧
      (Cmd.p8 c 16 = 1 → ∃ t, exec (.fuseShadow c) s = .next t ∧ t.fus.shadows = [] ∧
        t.fus.rows = s.fus.rows ∧ t.fus.latched = s.fus.latched)) ∧
    (Accepted fuseBurnSpec c s → Cmd.p64 c 20 ≠ 0 → Cmd.p8 c 16 < 239 → fuseRegion (Cmd.p8 c 16) ≠ some 4 →
      regionLocked s (Cmd.p8 c 16) = false → wordFrozen s (Cmd.p8 c 16) = false → fuseBusy s = false →
      journalRefusal (begun s c) false = none →
      exec (.fuseBurn c) s = .next (parked (begun s c) 0x6A c .hardware none)) ∧
    (Accepted fuseLockSpec c s → Cmd.p8 c 16 ≤ 7 → Cmd.p8 c 16 ≠ 6 → bitOf (lockInForce s) (Cmd.p8 c 16) = false →
      fuseBusy s = false → journalRefusal (begun s c) false = none →
      exec (.fuseLockRegion c) s = .next (parked (begun s c) 0x6B c .hardware none)) ∧
    (Accepted provisionSpec c s → bitOf (lockInForce s) 4 = false → (∀ k, k < 32 → getN s.fus.latched (128 + k) 0 = 0) →
      zeroAt c.params 0x10 32 = false → zeroAt c.params 0x30 32 = false → Cmd.p64 c 16 ≠ 0 → Cmd.p64 c 16 % 64 = 0 →
      fuseBusy s = false → s.jnl.flashOk = true →
      exec (.provision c) s = .next (parked (begun s c) 0x7F c .hardware none))

/-- JOURNAL_READ writes the records it is asked for to the host, or to the supervisor's buffer, and parks while a read has
been served already since the last record program (R139); JOURNAL_SEAL parks on a new
seal, and answers at once where no journal is in force; JOURNAL_COLLECTED moves the collection mark; SERIAL_QUERY answers the
serial authority's registers; SERIAL_ANCHOR sets the next serial and the end of the reservation (R206, R207, R356, R366,
R369). -/
def Obligations.JournalOpcodesComplete : Prop :=
  ∀ (c : Cmd) (s : State),
    (Accepted journalReadSpec c s → ∀ newest n, s.jnl.newest = some newest → s.jnl.oldest ≤ Cmd.p64 c 16 →
      Cmd.p64 c 16 ≤ newest → Cmd.p16 c 24 ≠ 0 → n = min (Cmd.p16 c 24) (newest + 1 - Cmd.p64 c 16) →
      (c.src = .sup ∧ Cmd.p16 c 24 ≤ 32 ∧ Cmd.p64 c 28 = 0 ∨
        c.src ≠ .sup ∧ Cmd.p16 c 24 ≤ 8192 ∧ Cmd.p64 c 28 ≠ 0 ∧ Cmd.p64 c 28 + 128 * n ≤ 2 ^ 64) →
      ((s.jnl.staged = [] ∨ s.jnl.readServed = false ∧ n ≤ 32) →
        ∃ t, exec (.journalRead c) s = .next (answered t c (okWords n (loWord newest) (hiWord newest)
            (loWord s.jnl.oldest) (hiWord s.jnl.oldest))) ∧ t.jnl.flash = s.jnl.flash ∧
          (c.src = .sup → t.sup.jbuf = recordBytes s (Cmd.p64 c 16) n ∧ t.sup.jbufCount = n) ∧
          (c.src ≠ .sup → Out.write (BitVec.ofNat 64 (Cmd.p64 c 28)) (recordBytes s (Cmd.p64 c 16) n) ∈ t.out)) ∧
      (s.jnl.staged ≠ [] → s.jnl.readServed = true →
        exec (.journalRead c) s = .next (parked (begun s c) 0x70 c (.read 0 n) none))) ∧
    (Accepted journalSealSpec c s → (s.jnl.waiting.find? fun u => u.type == 0x04) = none →
      (s.jnl.provisioned = true → s.jnl.flashOk = true → s.sys.pwrFail = false →
        (s.jnl.unsealed ≠ 0 ∨ s.jnl.waiting ≠ []) →
        ∃ t, exec (.journalSeal c) s = .next (parked t 0x71 c (.record (s.jnl.tickets + 1)) (some okWords)) ∧
          t.jnl.tickets = s.jnl.tickets + 1) ∧
      (s.jnl.provisioned = false → exec (.journalSeal c) s = .next (answered (begun s c) c
        (okWords (loWord (newestSeal s)) (hiWord (newestSeal s)))))) ∧
    (Accepted journalCollectedSpec c s → s.jnl.sealed = true → Cmd.p64 c 16 ≤ s.jnl.sealIdx →
      (∀ k, s.jnl.coll = some k → k ≤ Cmd.p64 c 16) →
      ∃ t, exec (.journalCollected c) s = .next (answered t c (okWords (freeWord t))) ∧
        t.jnl.coll = some (Cmd.p64 c 16) ∧ t.jnl.newest = s.jnl.newest) ∧
    (Accepted serialQuerySpec c s → exec (.serialQuery c) s = .next (answered (begun s c) c
      (okWords (loWord s.jnl.next) (hiWord s.jnl.next) (loWord s.jnl.high) (hiWord s.jnl.high) s.jnl.reservations))) ∧
    (Accepted serialAnchorSpec c s → Cmd.p64 c 16 % 64 = 0 → anchorFloor s ≤ Cmd.p64 c 16 → s.led.jobs = [] →
      journalRefusal (begun s c) false = none → RecordRoom 2 s →
      ∃ t, exec (.serialAnchor c) s = .next t ∧ t.jnl.next = Cmd.p64 c 16 ∧ t.jnl.high = Cmd.p64 c 16 - 1 ∧
        t.jnl.anchored = true)

/-- What ends a parked command, by its opcode: a verified recipe image that passes stands inactive in the store slot it goes
to (R184); a scan latches the memory of every head that answers well (R323, R344); a capping move caps its head (R345); a
calibration whose measurements have ended remembers the kinds that passed (R198, R307, R310, R317); a burn that reads back leaves its bits set in the row behind the
word (R534); a lock sets the region's bit of word 239 (R536). -/
def Obligations.HardwareResults : Prop :=
  ∀ (s : State) (c : Cmd),
    (∀ k, signatureCheck s c.params = none → slotFor s (u16 c.params 4) (u16 c.params 6) = some k →
      ∃ t r, resumed s 0x10 c .verified = some (t, r) ∧ r.status = .ok ∧ r.w0 = k ∧
        ∃ x, storeSlot t k = some x ∧ x.kind = u16 c.params 4 ∧ x.inst = u16 c.params 6 ∧ x.version = u32 c.params 8 ∧
          x.active = false ∧ ∀ j, j ≠ k → storeSlot t j = storeSlot s j) ∧
    (∀ mems, ∃ t r, resumed s 0x48 c (.headMemories mems) = some (t, r) ∧ r.status = .ok ∧
      (∀ (h : Fin 8) m, bitOf (Cmd.p8 c 16) h.1 = true → mems.getD h.1 none = some m → memFault m = none →
        t.hdp[h].mem = some (latchOf m) ∧ t.hdp[h].scan = 1) ∧
      (∀ h : Fin 8, bitOf (Cmd.p8 c 16) h.1 = true → mems.getD h.1 none = none →
        t.hdp[h].scan = 2 ∧ t.hdp[h].mem = s.hdp[h].mem) ∧
      (∀ h : Fin 8, bitOf (Cmd.p8 c 16) h.1 = false → t.hdp[h] = s.hdp[h])) ∧
    (Cmd.p8 c 17 = 0 → s.hdp[headNumber c].capMove = some true → s.hdp[headNumber c].state = .idle →
      ∃ t r, resumed s 0x49 c .headDone = some (t, r) ∧ r.status = .ok ∧ t.hdp[headNumber c].state = .capped ∧
        t.hdp[headNumber c].capMove = none) ∧
    (∀ k, k = stationNumber c →
      (calMeasured s k (calKinds c) = true → ∃ t r, resumed s 0x50 c .calibrated = some (t, r) ∧ r.status = .ok ∧
        r.w0 = (kindsPassed s k &&& calKinds c).toNat ∧
        t.btu[k].calPassed = (s.btu[k].calPassed ||| (kindsPassed s k &&& calKinds c)) ∧
        ∀ j, j ≠ k → t.btu[j] = s.btu[j]) ∧
      (calMeasured s k (calKinds c) = false → resumed s 0x50 c .calibrated = none)) ∧
    (∀ w : Fin 256, w.1 = Cmd.p8 c 16 →
      ∃ t r, resumed s 0x6A c (.burned []) = some (t, r) ∧ r.status = .ok ∧
        getN t.fus.rows (rowBehind s w.1) 0 = (getN s.fus.rows (rowBehind s w.1) 0 ||| intendedRow s w.1 (BitVec.ofNat 64 (Cmd.p64 c 20))) ∧
        t.fus.latched[w] = (s.fus.latched[w] ||| BitVec.ofNat 64 (Cmd.p64 c 20))) ∧
    (∃ t r, resumed s 0x6B c (.burned []) = some (t, r) ∧ r.status = .ok ∧
      t.fus.latched[(239 : Fin 256)] = (s.fus.latched[(239 : Fin 256)] ||| (1#64 <<< Cmd.p8 c 16)))

/-! ## SPI frames -/

/-- READ_STATUS answers the port's status byte and clears its two error bits; READ_REG, FETCH_REPLY and READ_JBUF answer
their bytes, each behind a turnaround byte and followed by the CRC of the frame (R120, R121, R123, R369); SPI_REPLY_TIMEOUT
answers TIMEOUT for the packet it names, unless that completes in the same cycle (R14, R124). -/
def Obligations.SpiReadsComplete : Prop :=
  ∀ (s : State) (p : SpiPort) (frame : List Byte), s.pins.bankLost[0] = false →
    (portAnswers s p = true → frameIs frame 0x05 4 = true →
      ∃ t, exec (.readStatus p frame) s = .next t ∧ (t.spi p).frameErr = false ∧ (t.spi p).crcErr = false ∧
        t.out = s.out ++ [.miso p ([0xFF, BitVec.ofNat 8 (portStatus s p)] ++
          [crc8 (frame.take 1 ++ [0xFF, BitVec.ofNat 8 (portStatus s p)])])]) ∧
    (portAnswers s p = true → frameIs frame 0x0B (10 + 4 * u8 frame 3) = true → registerHead frame 4 = true →
      exec (.readReg p frame) s = .next (answer (readWords (SpiPort.path p) (u16 frame 1) (u8 frame 3 + 1) s).2 p
        (frame.take 4) (readWords (SpiPort.path p) (u16 frame 1) (u8 frame 3 + 1) s).1)) ∧
    (portAnswers s p = true → frameIs frame 0x21 (3 + replyLength s p) = true →
      (∀ r rest, (s.spi p).replies = r :: rest →
        ∃ t, exec (.fetchReply p frame) s = .next t ∧ (t.spi p).replies = rest ∧
          t.out = s.out ++ [.miso p (0xFF :: portReply s p r ++ [crc8 (frame.take 1 ++ 0xFF :: portReply s p r)])]) ∧
      ((s.spi p).replies = [] →
        ∃ t, exec (.fetchReply p frame) s = .next t ∧ (t.spi p).replies = [] ∧
          t.out = s.out ++ [.miso p (0xFF :: List.replicate (replyLength s p) 0xFF ++
            [crc8 (frame.take 1 ++ 0xFF :: List.replicate (replyLength s p) 0xFF)])])) ∧
    (portAnswers s .sup = true → frameIs frame 0x30 (10 + 4 * u8 frame 3) = true → registerHead frame 16 = true →
      ∃ t, exec (.readJbuf frame) s = .next t ∧ t.sup = s.sup ∧
        t.out = s.out ++ [.miso .sup (0xFF :: bytesAt s.sup.jbuf (u16 frame 1) (4 * (u8 frame 3 + 1)) ++
          [crc8 (frame.take 4 ++ 0xFF :: bytesAt s.sup.jbuf (u16 frame 1) (4 * (u8 frame 3 + 1)))])]) ∧
    (∀ tag q, s.sys.mode ≠ .reset → (s.spi p).queue = [q] → q.tag = tag → q.reply = true → q.timed = false →
      coming s (completes s (SpiPort.source p) tag) = false →
      ∃ t, exec (.spiReplyTimeout p tag) s = .next t ∧ (t.spi p).queue = [{ q with timed := true }] ∧
        ∃ r, (t.spi p).replies = (s.spi p).replies ++ [r] ∧ r.tag = tag ∧ r.status = .timeout ∧ r.seq = q.seq)

/-- WRITE_REG writes its words to consecutive registers of the management port (R120, R126); SUBMIT queues its packet
and, where it passes checks 1 to 5, accepts it: it takes a place of the intake when one is free and waits at its port
otherwise (R123, R147, R155, R156). SUBMIT_SIGNED queues its packet, accepts it, and puts its frame in line for
verification, the first one at once under the present nonce; SIGNATURE_VERIFIED ends the verification of the oldest
frame: a packet that passes takes its place in the intake, one that does not leaves it and is answered SIGNATURE (R131,
R133, R134, R156). -/
def Obligations.SpiWritesComplete : Prop :=
  (∀ (s : State) (frame : List Byte),
    (s.sys.up = true → frameIs frame 0x02 (9 + 4 * u8 frame 3) = true → registerHead frame 4 = true → crcOk frame = true →
      (∃ t, exec (.writeReg frame) s = .next t ∧
        t = writeWords .mgmt (u16 frame 1) (frame.drop 4) (u8 frame 3 + 1) s) ∧
      (u16 frame 1 = 0x08 → u8 frame 3 = 0 → 1 ≤ u32 frame 4 % 16384 → u32 frame 4 % 16384 ≤ 10000 →
        ∃ t, exec (.writeReg frame) s = .next t ∧ t.mgt.timeout = u32 frame 4 % 16384)) ∧
    (∀ (p : SpiPort) packet c, packet = bytesAt frame 1 64 → c = cmdOf (SpiPort.source p) packet false →
      kettleUp s = true → frameIs frame 0x20 66 = true → crcOk frame = true → (queued (s.spi p)).length < 4 →
      ((queued (s.spi p)).any fun q => q.tag == c.tag) = false → waitsAt s .sup = false → waitsAt s .mgmt = false →
      entryFault (opSpecOf (u8 packet 0)) packet (SpiPort.source p) false = none → duplicate s c = none →
      (placesTaken s < 15 → ∃ t, exec (.submit p frame) s = .next t ∧
        (t.spi p).queue = (s.spi p).queue ++ [queuedOf c] ∧
        t.ktl.intake = (remember s c).ktl.intake ++ [packetOf (SpiPort.source p) packet false .held]) ∧
      (16 ≤ placesTaken s → ∃ t, exec (.submit p frame) s = .next t ∧
        (t.spi p).queue = (s.spi p).queue ++ [queuedOf c] ∧
        t.ktl.intake = (remember s c).ktl.intake ++ [packetOf (SpiPort.source p) packet false .port]))) ∧
  (∀ (s : State), s.sys.mode ≠ .reset →
    (∀ (frame : List Byte) packet c, packet = bytesAt frame 1 64 → c = cmdOf .sup packet false →
      s.sys.up = true → frameIs frame 0x31 194 = true → crcOk frame = true → (queued s.sup).length < 4 →
      ((queued s.sup).any fun q => q.tag == c.tag) = false →
      ∃ t, exec (.submitSigned frame) s = .next t ∧ t.sup.queue = s.sup.queue ++ [queuedOf c] ∧
        t.sup.signed = s.sup.signed ++ [⟨packet, bytesAt frame 65 64, bytesAt frame 129 64,
          if s.sup.signed = [] then s.sup.nonce else 0⟩] ∧
        t.ktl.intake = s.ktl.intake ++ [packetOf .sup packet true .verifying]) ∧
    (∀ f c before (q : Packet), c = cmdOf .sup f.packet true → s.sup.signed = [f] → s.ktl.intake = before ++ [q] →
      q.place = .verifying → (before.all fun x => x.place == .held) = true →
      (frameVerified s f = true → kettleUp s = true → before.length < 15 →
        entryFault (opSpecOf (u8 f.packet 0)) f.packet .sup true = none → duplicate s c = none →
        ∃ t, exec .signatureVerified s = .next t ∧ t.sup.signed = [] ∧
          t.ktl.intake = (remember s c).ktl.intake.dropLast ++ [packetOf .sup f.packet true .held]) ∧
      (frameVerified s f = false → s.sup.queue.find? (·.tag == c.tag) = some ⟨c.tag, c.seq, true, false⟩ →
        ∃ t r, exec .signatureVerified s = .next t ∧ t.sup.signed = [] ∧ t.ktl.intake = before ∧
          t.sup.replies = s.sup.replies ++ [r] ∧ r.status = .signature ∧ r.tag = c.tag)))

/-! ## Rings, registers and the BAR2 window -/

/-- A write of CFG with EN set starts a drained command or ingest ring from zero, and one with EN clear stops its fetching
(R106, R110); a tail and a reply consumer index are stored, and stop a running ring only where they go beyond it (R107,
R109); a ring with EN clear and no reply owed becomes drained (R110); the event ring's consumer index is stored (R113). -/
def Obligations.RingCommandsComplete : Prop :=
  ∀ (s : State), s.sys.up = true →
    (∀ r x cfg, ringOf s r = some x → x.en = false → x.drained = true →
      ∃ t y, exec (.ringEnable r cfg) s = .next t ∧ ringOf t r = some y ∧ y.en = true ∧ y.head = 0 ∧ y.tail = 0 ∧
        y.rhead = 0 ∧ y.rtail = 0 ∧ y.err = 0 ∧ y.vector = Fin.ofNat 64 (cfg.toNat / 1024 % 64) ∧
        y.coal = cfg.toNat / 65536 % 256 ∧
        y.log2n = (if 4 ≤ cfg.toNat % 16 ∧ cfg.toNat % 16 ≤ 12 then cfg.toNat % 16 else x.log2n)) ∧
    (∀ cfg, s.hif.ev.en = false → ∃ t, exec (.ringEnable .event cfg) s = .next t ∧ t.hif.ev.en = true ∧
      t.hif.ev.head = 0 ∧ t.hif.ev.ctail = 0) ∧
    (∀ r x cfg, ringOf s r = some x → ∃ t y, exec (.ringDisable r cfg) s = .next t ∧ ringOf t r = some y ∧ y.en = false ∧
      y.head = x.head ∧ y.rhead = x.rhead ∧ y.base = x.base ∧ y.rbase = x.rbase) ∧
    (∀ r x tail, ringOf s r = some x → x.en = true → x.err = 0 →
      ∃ t y, exec (.ringDoorbell r tail) s = .next t ∧ ringOf t r = some y ∧ y.tail = tail ∧
        y.err = (if 2 ^ x.log2n < (tail - x.head).toNat then 1 else 0)) ∧
    (∀ r x rtail, ringOf s r = some x → x.en = true → x.err = 0 →
      ∃ t y, exec (.replyRingConsume r rtail) s = .next t ∧ ringOf t r = some y ∧ y.rtail = rtail ∧
        y.err = (if 2 ^ x.log2n < (x.rhead - rtail).toNat then 2 else 0)) ∧
    (∀ ctail, ∃ t, exec (.eventRingConsume ctail) s = .next t ∧ t.hif.ev = { s.hif.ev with ctail := ctail }) ∧
    (∀ r x, s.sys.mode ≠ .reset → ringOf s r = some x → x.en = false → x.awaiting = 0 →
      ∃ t, exec (.ringDrained r) s = .next t ∧ ringOf t r = some { x with drained := true })

/-- RING_ENTRY_FETCHED hands the next entry of the ring whose turn it is to the intake, or stops a ring whose fetch failed
(R109, R112); REPLY_COALESCE_EXPIRY sends the one message of the replies written so far (R111); MSIX_UNMASK sends the message
that a masked vector has pending, once (R114). -/
def Obligations.RingEventsComplete : Prop :=
  ∀ (s : State),
    (∀ (n : Fin 4) l c, c = cmdOf (.ring n) (padTo 64 l) false → intakeRoom s = true → s.hif.turn = n.1 →
      ringFetches s.hif.cr[n] = true → entryFault (opSpecOf (u8 (padTo 64 l) 0)) (padTo 64 l) (.ring n) false = none →
      duplicate s c = none → waitsAt s .sup = false → waitsAt s .mgmt = false →
      ∃ t, exec (.ringEntryFetched n (.ok l)) s = .next t ∧ t.hif.cr[n].head = s.hif.cr[n].head + 1 ∧
        t.hif.cr[n].awaiting = s.hif.cr[n].awaiting + 1 ∧ t.hif.turn = (n.1 + 1) % 4 ∧
        t.ktl.intake = (remember s c).ktl.intake ++ [packetOf (.ring n) (padTo 64 l) false .held]) ∧
    (∀ (n : Fin 4) r, intakeRoom s = true → s.hif.turn = n.1 →
      ringFetches s.hif.cr[n] = true → (∀ l, r ≠ .ok l) →
      ∃ t, exec (.ringEntryFetched n r) s = .next t ∧ t.hif.cr[n].err = 3 ∧ t.hif.ringErr = true ∧
        t.hif.cr[n].head = s.hif.cr[n].head) ∧
    (∀ r x, s.sys.mode ≠ .reset → ringOf s r = some x → x.unsignalled = true → s.hif.msix[x.vector].masked = false →
      s.hif.funcMask = false →
      ∃ t, exec (.replyCoalesceExpiry r) s = .next t ∧ ringOf t r = some { x with unsignalled := false } ∧
        t.out = s.out ++ [.msix x.vector]) ∧
    (∀ v : Fin 64, s.sys.up = true → s.hif.funcMask = false → s.hif.pba.getLsbD v.1 = true →
      ∃ t, exec (.msixUnmask (.vector v)) s = .next t ∧ t.hif.msix[v].masked = false ∧ t.hif.pba.getLsbD v.1 = false ∧
        t.out = s.out ++ [.msix v]) ∧
    (∀ v : Fin 64, s.sys.up = true → s.hif.pba = 1#64 <<< v.1 → s.hif.msix[v].masked = false →
      ∃ t, exec (.msixUnmask .function) s = .next t ∧ t.hif.funcMask = false ∧ t.hif.pba = 0 ∧ t.out = s.out ++ [.msix v])

/-- BAR2_WINDOW_SELECT stores the window and its enable (R115); an open window answers a read and a closed one answers 0xFF
and raises HIF_BAR2 (R117, R118); a write is discarded and raises it (R116); a register write acts by the field's access code
(R8..R11), and a flag that hardware sets in the same cycle stays (R9); the power state of the function follows its register and
keeps the rings (R102; its place is the model's, log 16); a read answers the register's word, and the peak registers start again (R12, R449, R544). -/
def Obligations.RegisterCommandsComplete : Prop :=
  ∀ (s : State), s.sys.up = true →
    (∀ v : Word, ∃ t, exec (.bar2WindowSelect v) s = .next t ∧ t.hif.bar2Window = v.toNat % 256 ∧
      t.hif.bar2En = v.getLsbD 8 ∧ t.hif.cr = s.hif.cr ∧ t.hif.ig = s.hif.ig) ∧
    (∀ off len g, bar2Open s = false → ∃ t, exec (.bar2Read off len g) s = .next t ∧ t.hif.bar2Hit = true ∧
      t.out = s.out ++ [.bar2 (List.replicate len 0xFF) false]) ∧
    (∀ off len, bar2Open s = true → ∃ t, exec (.bar2Read off len false) s = .next t ∧ t.free = s.free + 1 ∧
      t.out = s.out ++ [.bar2 (bar2Bytes s off.toNat len) false]) ∧
    (∀ off l, ∃ t, exec (.bar2Write off l) s = .next t ∧ t.hif.bar2Write = true ∧ t.cad = s.cad ∧ t.drc = s.drc) ∧
    (∀ (v : Word), ∃ t, exec (.registerWrite .bar0 0x10 v) s = .next t ∧ t.hif.bar2Window = v.toNat % 256 ∧
      t.hif.bar2En = v.getLsbD 8) ∧
    (∀ (v : Word), ∃ t, exec (.registerWrite .mgmt 0xB50 v) s = .next t ∧
      t.tmp.flags = s.tmp.flags &&& ~~~((BitVec.ofNat 32 (clearable s 0xB50 v.toNat)).setWidth 4)) ∧
    (∀ (v : Word), ∃ t, exec (.registerWrite .config 0x44 v) s = .next t ∧
      t.hif.d3hot = (if v.toNat % 4 = 3 then true else if v.toNat % 4 = 0 then false else s.hif.d3hot) ∧ t.hif.cr = s.hif.cr) ∧
    (∀ (v : Word), ∃ t, exec (.registerWrite .mgmt 0xC04 v) s = .next t ∧ t.cad.lowWater = v.toNat % 65536) ∧
    (∀ (o : BitVec 16) (v : Word), s.sys.mode ≠ .reset → exec (.registerWrite .sup o v) s = .next s) ∧
    (∀ o : BitVec 16, ∃ t, exec (.lowWordRead .mgmt o) s = .next t ∧
      t.out = s.out ++ [.readWord .mgmt (readReg s .mgmt o.toNat).1]) ∧
    (∃ t, exec (.motBusPeakRead .mgmt) s = .next t ∧ t.mot.busPeak = 0 ∧
      t.out = s.out ++ [.readWord .mgmt (readReg s .mgmt 0x2308).1]) ∧
    (∃ t, exec (.tmpPeakRead .mgmt) s = .next t ∧ t.tmp.peak = -32768 ∧
      t.out = s.out ++ [.readWord .mgmt (readReg s .mgmt 0xB48).1])

/-- Resets of the endpoint void the rings and the duplicate stores of their packets and keep what the Kettle has in progress
(R61, R102, R103); the link trains, comes up, and enters L1 from STANDBY (R101, R501, R555); D3hot keeps the rings (R102). -/
def Obligations.LinkCommandsComplete : Prop :=
  ∀ (s : State), s.sys.mode ≠ .reset →
    (∀ i l, (i = .perstNAssert ∧ l = .held ∨ i = .hotReset ∧ linked s = true ∧ l = .training ∨
        i = .functionLevelReset ∧ linked s = true ∧ l = .up) →
      ∃ t, exec i s = .next t ∧ t.hif.link = l ∧ t.hif.cr = Vector.replicate 4 {} ∧ t.hif.ig = Vector.replicate 8 {} ∧
        t.hif.ev = {} ∧ t.hif.msix = Vector.replicate 64 {} ∧ t.hif.pba = 0 ∧ t.hif.funcMask = false ∧
        t.ktl.dupRing = Vector.replicate 4 none ∧ t.ktl.dupMgmt = s.ktl.dupMgmt ∧ t.ktl.dupSup = s.ktl.dupSup ∧
        t.ktl.parked.length = s.ktl.parked.length ∧ t.ktl.intake.length = s.ktl.intake.length ∧ t.cad.ingest = []) ∧
    (s.hif.perstLow = true → ∃ t, exec .perstNDeassert s = .next t ∧ t.hif.link = .training ∧ t.hif.perstLow = false) ∧
    (s.hif.link ≠ .held → ∃ t, exec .linkUp s = .next t ∧ t.hif.link = .up ∧ t.hif.cr = s.hif.cr) ∧
    (linked s = true → ∃ t, exec .d0ToD3hot s = .next t ∧ t.hif = { s.hif with d3hot := true }) ∧
    (∃ t, exec .d3hotToD0 s = .next t ∧ t.hif = { s.hif with d3hot := false }) ∧
    (s.sys.mode = .standby → s.hif.link = .up →
      ∃ t, exec .aspmL1Entry s = .next t ∧ t.hif.link = .l1 (s.sys.depth == 4))

/-! ## Reset, boot, modes and clocks -/

/-- POWER_ON_RESET and RST_N_ASSERT put the device in RESET with every register at its reset value; the journal flash's
partly erased sector, the PWRLOSS latch and the levels at balls stay, and with no burn under way so do the fuses (R41, R66,
R71, R552). RESET_RELEASE begins BOOT at stage 0 with the straps sampled and the time at 0 (R38, R55, R514). -/
def Obligations.ResetCompletes : Prop :=
  ∀ (s : State),
    (∀ i, (i = .rstNAssert ∨ ∃ xo, i = .powerOnReset xo) → s.sys.mode ≠ .reset →
      ∃ t, exec i s = .next t ∧ t.sys = { pwrLossLatch := s.sys.pwrLossLatch } ∧ t.ktl = {} ∧ t.led = {} ∧ t.cad = {} ∧
        t.cdc = {} ∧ t.stp = {} ∧ t.btu = Vector.replicate 6 {} ∧ t.hdp = Vector.replicate 8 {} ∧ t.seq = {} ∧
        t.axs = Vector.replicate 16 {} ∧ t.mot = {} ∧ t.ctl = {} ∧ t.drc = {} ∧ t.flt = State.reset.flt ∧ t.tmp = {} ∧
        t.jnl.erasing = s.jnl.erasing.take 1 ∧ t.pins.bankLost = s.pins.bankLost ∧ t.clk.encLevels = s.clk.encLevels ∧
        ((∀ p ∈ s.ktl.parked, p.op ≠ 0x6A ∧ p.op ≠ 0x6B ∧ p.op ≠ 0x7F) → t.fus.rows = s.fus.rows)) ∧
    (∀ xo, ∃ t, exec (.powerOnReset xo) s = .next t ∧ t.clk.cmos = xo ∧ t.pins.tap = .testLogicReset ∧
      t.pins.tapDead = false) ∧
    (∀ a b, s.sys.mode = .reset → a ≠ .changing → b ≠ .changing →
      ∃ t, exec (.resetRelease a b false) s = .next t ∧ t.sys.mode = .boot ∧ t.sys.bootStage = 0 ∧ t.now = 0 ∧
        t.sys.compat = (a == .high) ∧ t.sys.sris = (b == .high) ∧ t.sys.pwrLoss = s.sys.pwrLossLatch ∧
        t.sys.pwrLossLatch = false ∧ t.hif.link = (if s.hif.perstLow then .held else .training) ∧ t.clk.refOk = true)

/-- The boot stages in BOOT: root lock begins stage 1 (R55, R56); the fuses are sensed and the outputs leave high impedance
(R39, R537); the ROM check brings the ports up, or ends in HALT until reset (R55, R57); boot training serves the channels
that answer, and stage 4 begins with one or both (R58, R475, R481); with neither the device is in HALT; the
journal scan of a device without a complete key finds the flash and erases anew what was left partly erased (R59, R138). -/
def Obligations.BootCompletes : Prop :=
  ∀ (s : State), s.sys.mode = .boot →
    (s.sys.bootStage = 0 → s.sys.lcSrc = false →
      ∃ t, exec .rootPllLock s = .next t ∧ t.sys.bootStage = 1 ∧ t.clk.rootLock = true ∧ t.clk.everLocked = true) ∧
    (∀ lost, s.sys.bootStage = 0 → coming s (· == .rootPllLock) = false →
      ∃ t, exec (.rootPllLockTimeout lost) s = .next t ∧ t.sys.bootStage = 0 ∧ t.sys.mode = .boot ∧
        t.sys.lastCause = (if lost = true ∨ s.clk.refOk = false then 0xF8 else 0xF9) ∧ t.sys.lcSrc = true) ∧
    (∀ weak, s.sys.bootStage = 1 →
      ∃ t, exec (.fuseSense weak) s = .next t ∧ t.sys.bootStage = 2 ∧ t.sys.hiZ = false ∧ t.fus.sensed = true ∧
        t.fus.rows = s.fus.rows) ∧
    (s.sys.bootStage = 2 → ∃ t, exec (.romSelfCheck true) s = .next t ∧ t.sys.bootStage = 3 ∧ t.sys.up = true ∧
      t.sys.mode = .boot) ∧
    (s.sys.bootStage = 2 → ∃ t, exec (.romSelfCheck false) s = .next t ∧ t.sys.mode = .halt ∧ t.sys.haltUntilReset = true ∧
      t.ktl.dead = true) ∧
    (∀ g, s.sys.bootStage = 3 →
      (∃ t, exec (.dramBootTraining (some g) (some g)) s = .next t ∧ t.sys.bootStage = 4 ∧ t.drc.ch[(0 : Fin 2)].up = true ∧
        t.drc.ch[(1 : Fin 2)].up = true ∧ t.drc.mapped = min (1024 * g.gib) (512 * dramMax s)) ∧
      (∃ t, exec (.dramBootTraining (some g) none) s = .next t ∧ t.sys.bootStage = 4 ∧ t.drc.ch[(0 : Fin 2)].up = true ∧
        t.drc.ch[(1 : Fin 2)].up = s.drc.ch[(1 : Fin 2)].up ∧ t.drc.mapped = min (1024 * g.gib) (512 * dramMax s))) ∧
    (s.sys.bootStage = 3 → ∃ t, exec (.dramBootTraining none none) s = .next t ∧ t.sys.mode = .halt ∧
      t.sys.haltUntilReset = true ∧ t.sys.lastCause = 0xE8 ∧ t.sys.lcSrc = true) ∧
    (∀ cap bad, s.sys.bootStage = 4 → keyComplete s = false → keyMismatch s = false → s.fus.integrity = false →
      ∃ t, exec (.journalScan cap bad) s = .next t ∧ t.sys.bootStage = 5 ∧ t.sys.mode = .boot ∧ t.jnl.provisioned = false ∧
        t.jnl.flashOk = capacityOk (cap.getD 0) ∧ t.jnl.erasing = [] ∧
        ∀ k ∈ s.jnl.erasing, ∀ a, a / 4096 = k → flashGet t.jnl.flash a = 0xFF)

/-- A wake that completes brings READY, with the depth 0, unless a fault at RUNOUT or above is pending (R43, R53); the idle timeout
brings STANDBY (R43, R52); a depth that was selected is entered (R48..R50). -/
def Obligations.StandbyCompletes : Prop :=
  ∀ (s : State),
    (∀ ms w, s.sys.mode = .standby → s.sys.wake = some w → pendingAtLeast s .runout = false →
      ∃ t, exec (.wakeComplete ms) s = .next t ∧ t.sys.mode = .ready ∧ t.sys.wake = none ∧ t.sys.depth = 0 ∧
        (w.fromDepth = 2 → t.sys.wakes2 = addWake s.sys.wakes2 ms)) ∧
    (s.sys.mode = .ready → ledgerEmpty s = true → s.sys.idleTimeout ≠ 0 →
      ∃ t, exec .readyIdleTimeout s = .next t ∧ t.sys.mode = .standby ∧ t.sys.depth = selectDepth s ∧ t.sys.wake = none) ∧
    (s.sys.mode = .standby → s.sys.wake = none → s.drc.training = none → s.sys.depth < s.sys.depthTarget →
      s.sys.depthTarget ≤ 4 →
      ∃ t, exec .standbyDepthEntry s = .next t ∧ t.sys.mode = .standby ∧ t.sys.depth = s.sys.depthTarget ∧
        t.sys.depthTarget = 0 ∧ (s.sys.depth < 2 → 2 ≤ s.sys.depthTarget → ∀ n : Fin 2, s.drc.ch[n].up = true →
          t.drc.ch[n].sr = true))

/-- Power loss ends in HALT until reset without a wake, and, once boot stage 4 has completed in a journal in
force, the PWRLOSS latch set (R47, R62, R65, R355, R570); it is not begun twice (R64). Loss of the reference and of the root
lock end in HALT until reset with ALIVE stopped (R75). -/
def Obligations.LossCompletes : Prop :=
  ∀ (s : State), s.sys.mode ≠ .reset →
    (s.sys.pwrFail = false → ∃ t, exec .pwrfailNAssert s = .next t ∧ t.sys.mode = .halt ∧ t.sys.haltUntilReset = true ∧
      t.sys.pwrFail = true ∧ (5 ≤ s.sys.bootStage → jnlOn s = true → t.sys.pwrLossLatch = true) ∧
      (s.sys.mode ≠ .halt → t.sys.wake = none ∧ t.sys.lastCause = 0xFC ∧ t.sys.lcSrc = true)) ∧
    (s.sys.pwrFail = true → exec .pwrfailNAssert s = .next s) ∧
    (s.clk.everLocked = true → s.clk.refOk = true →
      ∃ t, exec .clkRefLoss s = .next t ∧ t.sys.mode = .halt ∧ t.sys.haltUntilReset = true ∧ t.clk.rootLock = false ∧
        t.clk.refOk = false ∧ t.clk.sclkMonitor = true ∧ t.pins.aliveStopped = true) ∧
    (s.clk.rootLock = true →
      ∃ t, exec .clkRootUnlock s = .next t ∧ t.sys.mode = .halt ∧ t.sys.haltUntilReset = true ∧ t.clk.rootLock = false ∧
        t.clk.refOk = s.clk.refOk ∧ t.pins.aliveStopped = true)

/-- A synthesizer that runs locks and unlocks, an unlock blanking its station (R82, R83); a due column or band change
relocks it outside a sheet (R82); a forward edge of the source encoder advances the process position when no backlash
is owed, and a backward one adds to the backlash (R89, R91); without an edge for 4 intervals while M6 turns the source
is left (R92). A bank's supply that falls is noted and one that returns is noted (R554); an edge at the test port moves
the controller, and a dead port does not answer (R556). In RESET no output but TDO is driven, nor is one on a bank
whose supply is lost (R552, R554). -/
def Obligations.ClockRowsComplete : Prop :=
  (∀ (s : State), s.sys.mode ≠ .reset →
    (∀ k : Fin 6, s.clk.px[k].en = true → s.clk.px[k].locked = false → s.btu[k].lock ≠ .synth →
      ∃ t, exec (.pxsLock k) s = .next t ∧ t.clk.px[k].locked = true ∧
        ((s.btu[k].lock = .locked ∨ s.btu[k].lock = .slew) → t.btu[k].blanked = false) ∧
        ∀ j, j ≠ k → t.clk.px[j] = s.clk.px[j] ∧ t.btu[j] = s.btu[j]) ∧
    (∀ k : Fin 6, s.clk.px[k].en = true → s.clk.px[k].locked = false → s.btu[k].lock = .synth →
      s.mot.ch[Fin.ofNat 10 k.1].state ≠ .running →
      ∃ t, exec (.pxsLock k) s = .next t ∧ t.clk.px[k].locked = true ∧ t.btu[k].lock = .spin) ∧
    (∀ k : Fin 6, s.clk.px[k].en = true → s.clk.px[k].locked = true →
      ∃ t, exec (.pxsUnlock k) s = .next t ∧ t.clk.px[k].locked = false ∧ t.btu[k].blanked = true ∧
        ∀ j, j ≠ k → t.clk.px[j] = s.clk.px[j] ∧ t.btu[j] = s.btu[j]) ∧
    (∀ k : Fin 6, s.clk.px[k].en = true → s.clk.px[k].changeDue = true → insideSheet s k = false →
      ∃ t, exec (.vcoBandChange k) s = .next t ∧ t.clk.px[k].locked = false ∧ t.clk.px[k].changeDue = false ∧
        t.clk.px[k].column = columnOf (compTemp s) ∧ ∀ j, j ≠ k → t.clk.px[j] = s.clk.px[j]) ∧
    (∀ (n : Fin 4) a b, sourceEncoder s = some n.1 →
      ((grayIndex (a, b) + 4 - grayIndex s.clk.encLevels[n]) % 4 = 1 → s.clk.backlash = 0 →
        ∃ t, exec (.encoderEdge n a b) s = .next t ∧ t.clk.accEdge = s.clk.accEdge + edgeInc s ∧
          t.clk.acc = Nat.max s.clk.acc (s.clk.accEdge + edgeInc s) ∧ t.clk.encLevels[n] = (a, b)) ∧
      ((grayIndex (a, b) + 4 - grayIndex s.clk.encLevels[n]) % 4 = 3 →
        ∃ t, exec (.encoderEdge n a b) s = .next t ∧ t.clk.acc = s.clk.acc ∧ t.clk.backlash = inc32 s.clk.backlash)) ∧
    (s.clk.ppcSrc = .enc0 → s.clk.intervals ≠ [] → s.mot.ch[(6 : Fin 10)].setpoint < 20 * s.mot.ch[(6 : Fin 10)].speed →
      (s.clk.fallback = 0 ∨ s.clk.fbDisqualified = true) →
      coming s (fun i => match i with | .encoderEdge n _ _ => n == 0 | _ => false) = false →
      ∃ t, exec .encoderTimeout s = .next t ∧ t.clk.ppcSrc = .frozen ∧ ∀ k : Fin 6, t.btu[k].blanked = true)) ∧
  (∀ (s : State) (b : Fin 8),
    (∃ t, exec (.vddioBankLoss b) s = .next t ∧ t.pins.bankLost = s.pins.bankLost.set b.1 true b.2 ∧
      (b ≠ 6 → t.pins.hvOk = s.pins.hvOk) ∧ (b ≠ 4 → t.mot = s.mot)) ∧
    (∃ t, exec (.vddioBankReturn b) s = .next t ∧ t.pins.bankLost = s.pins.bankLost.set b.1 false b.2 ∧
      t.pins.hvOk = s.pins.hvOk) ∧
    (∀ tms tdi, s.pins.tapDead = false → ∃ t, exec (.testAccessPortTckEdge tms tdi true) s = .next t ∧
      t.pins.tap = s.pins.tap.next tms) ∧
    (∀ tms tdi, s.pins.tapDead = false → ∃ t, exec (.testAccessPortTckEdge tms tdi false) s = .next t ∧
      t.pins.tap = .testLogicReset) ∧
    (∀ tms tdi trst, s.pins.tapDead = true → exec (.testAccessPortTckEdge tms tdi trst) s = .next s) ∧
    (s.sys.mode = .reset → ∀ o : OutBall, o ≠ .tdo → ballDrive s o = .highZ) ∧
    (∀ o : OutBall, o.bank = some b → s.pins.bankLost[b] = true → ballDrive s o = .highZ))

/-! ## The Kettle's own events -/

/-- PACKET_START starts the packet at the head of the intake: it leaves the intake and runs, or keeps an indirect one
until its block has been read (R145, R157, R160); INDIRECT_BLOCK_FETCHED runs it, or answers it when the read failed;
PACKET_DEADLINE_EXPIRY answers a waiting packet TIMEOUT, and only marks a run-to-end command late (R163..R165), unless
the packet completes in the same cycle (R14). PARKED_COMMAND_RESUME ends a command that waits for its hardware with
what the hardware answered (R157): the state and the result of the opcode's own operation, and one parked command
fewer. -/
def Obligations.PacketEventsComplete : Prop :=
  (∀ (s : State) (p : Packet) (sp : OpSpec) (reads : List Fetch), kettleUp s = true → opSpecOf p.op.toNat = some sp →
    (s.ktl.intake = [p] → p.place = .held → mayStart s p.cmd = true → startFault sp s = none →
      (p.cmd.indirect = false → ∃ t, exec (.packetStart reads) s = .next t ∧
        t = fillIntake (runCommand sp { p.cmd with reads := reads } p.fate false (s.modKtl fun k => { k with intake := [] }))) ∧
      (p.cmd.indirect = false → ∀ t r, sp.run { p.cmd with reads := reads } (s.modKtl fun k => { k with intake := [] }) = .reply t r →
        fieldFault sp { p.cmd with reads := reads } s = none →
        exec (.packetStart reads) s = .next (fillIntake (deliver t { p.cmd with reads := reads } p.fate (r.reply p.cmd)))) ∧
      (p.cmd.indirect = true → ∃ t, exec (.packetStart reads) s = .next t ∧ t.ktl.intake = [] ∧
        t.ktl.fetching = s.ktl.fetching ++ [p])) ∧
    (∀ l, s.ktl.fetching = [p] → ∃ t, exec (.indirectBlockFetched (.ok l) reads) s = .next t ∧ t = runCommand sp
      { p.cmd with params := padTo p.blockLen l, reads := reads } p.fate p.late (s.modKtl fun k => { k with fetching := [] })) ∧
    (∀ r, s.ktl.fetching = [p] → (∀ l, r ≠ .ok l) → ∃ t, exec (.indirectBlockFetched r reads) s = .next t ∧
      t.ktl.fetching = [] ∧ t.ktl.parked = s.ktl.parked) ∧
    (∀ tag, s.ktl.intake = [p] → p.place = .held → p.cmd.src = .mgmt → p.cmd.tag = tag → p.cmd.deadline ≠ 0 → p.fate ≠ .void →
      coming s (completes s .mgmt tag) = false → (∀ q, s.mgt.queue.find? (·.tag == tag) = some q → q.timed = false) →
      ∃ t r, exec (.packetDeadlineExpiry .mgmt tag) s = .next t ∧ t.ktl.intake = [] ∧
        t.mgt.replies = s.mgt.replies ++ [r] ∧ r.tag = tag ∧ r.status = .timeout) ∧
    (∀ (q : Parked), s.ktl.intake = [] → s.ktl.fetching = [] → s.ktl.parked = [q] → q.cmd.deadline ≠ 0 →
      coming s (completes s q.cmd.src q.cmd.tag) = false →
      (runToEnd q.op.toNat = true → ∃ t, exec (.packetDeadlineExpiry q.cmd.src q.cmd.tag) s = .next t ∧
        t.ktl.parked = [{ q with late := true }]) ∧
      (runToEnd q.op.toNat = false → q.wait = .hardware → ∃ t, exec (.packetDeadlineExpiry q.cmd.src q.cmd.tag) s = .next t ∧
        t.ktl.parked = []))) ∧
  (∀ (s : State) (k : Nat) (d : Resume) (p : Parked) (t : State) (r : Res),
    kettleUp s = true → s.ktl.parked[k]? = some p → p.wait = .hardware → resumed s p.op.toNat p.cmd d = some (t, r) →
    t.ktl.parked = s.ktl.parked →
    (recordsAtEnd p.op.toNat = false ∨ jnlOn t = false →
      exec (.parkedCommandResume k d) s = .next (finishParked t k (r.reply p.cmd))) ∧
    (recordsAtEnd p.op.toNat = false → ∃ u, exec (.parkedCommandResume k d) s = .next u ∧
      u.ktl.parked = s.ktl.parked.eraseIdx k ∧ u.hdp = t.hdp ∧ u.btu = t.btu ∧ u.cdc = t.cdc ∧ u.led = t.led))

/-- KETTLE_LOCKSTEP_MISMATCH and KETTLE_WATCHDOG_EXPIRY restart the Kettle: nothing runs or is parked any more, and the
restart is noted (R167..R169); the fourth trigger within 10 s, and one whose self-test fails, end in HALT until reset with the
Kettle out of service (R170). -/
def Obligations.KettleRestartsComplete : Prop :=
  ∀ (s : State) (i : Bool → Instr), (i = .kettleLockstepMismatch ∨ i = .kettleWatchdogExpiry) → kettleUp s = true →
    ((s.ktl.restarts.filter fun t => decide (s.now - t ≤ restartWindow)).length < 3 →
      ∃ t, exec (i true) s = .next t ∧ t.ktl.parked = [] ∧ t.ktl.fetching = [] ∧ t.ktl.dead = false ∧
        t.ktl.restarts = s.now :: s.ktl.restarts.filter (fun t => decide (s.now - t ≤ restartWindow)) ∧
        t.sys.mode = s.sys.mode) ∧
    (∀ ok, (3 ≤ (s.ktl.restarts.filter fun t => decide (s.now - t ≤ restartWindow)).length ∨ ok = false) →
      ∃ t, exec (i ok) s = .next t ∧ t.ktl.dead = true ∧ t.sys.mode = .halt ∧ t.sys.haltUntilReset = true)

/-! ## Ingest, the Caddy and the lanes -/

/-- INGEST_DESCRIPTOR_FETCHED accepts a descriptor in a mode that serves ingest (R108, R219); INGEST_START starts the one
whose turn it is (R219); a ready-made Leaf that has been read and passes its header checks is written (R213, R220);
INGEST_DEADLINE_EXPIRY and a failed read leave nothing in progress of the descriptor (R218, R220). -/
def Obligations.IngestRowsComplete : Prop :=
  ∀ (s : State),
    (∀ (ring : Fin 8) l, s.sys.up = true → ringFetches s.hif.ig[ring] = true → ingestServed s.sys.mode = true →
      ∃ t, exec (.ingestDescriptorFetched ring (.ok l)) s = .next t ∧
        t.cad.ingest = s.cad.ingest ++ [⟨ring, padTo 64 l, .queued, none, []⟩] ∧
        t.hif.ig[ring].head = s.hif.ig[ring].head + 1 ∧ t.hif.ig[ring].awaiting = s.hif.ig[ring].awaiting + 1) ∧
    (∀ d, s.sys.mode ≠ .reset → nextIngest s = some d → igStartFault s d = none → igKind d.bytes = 0 →
      ∃ t, exec .ingestStart s = .next t ∧ t.cad.turn = (d.ring.1 + 1) % 8 ∧
        t.cad.ingest = updFirst (fun x => x == d) (fun x => { x with phase := .reading none }) s.cad.ingest) ∧
    (∀ d l i e, s.sys.up = true → s.cad.ingest = [d] → d.phase = .reading none → igKind d.bytes = 0 →
      findSheet s (igJob d.bytes) (keyHandle (igKey d.bytes)) = some (i, e) → headerFault s e d.bytes l = none →
      ∃ t, exec (.ingestSourceReadDone d.ring (BitVec.ofNat 16 (igTag d.bytes)) (.ok l)) s = .next t ∧
        t.cad.ingest = [{ d with phase := .writing (leafOf (igJob d.bytes) l (bytesAt l 64 (u32 l 0x10))) false }]) ∧
    (∀ d r, s.sys.up = true → s.cad.ingest = [d] → readable d = true → (∀ l, r ≠ .ok l) →
      ∃ t, exec (.ingestSourceReadDone d.ring (BitVec.ofNat 16 (igTag d.bytes)) r) s = .next t ∧ t.cad.ingest = [] ∧
        t.cad.leaves = s.cad.leaves) ∧
    (∀ d, s.sys.mode ≠ .reset → s.cad.ingest = [d] → igDeadline d.bytes ≠ 0 → coming s (ingestEnds s d) = false →
      ∃ t, exec (.ingestDeadlineExpiry d.ring (BitVec.ofNat 16 (igTag d.bytes))) s = .next t ∧ t.cad.ingest = [] ∧
        t.cad.leaves = s.cad.leaves)

/-- ENCODE_BAND_END takes the body that a lane has made within the threshold and verified, and frees the lane (R221, R256,
R257); LEAF_ENTRY enters the Leaf in place of the one of its key (R226, R227); CADDY_REPAIR_COMPLETE makes the copy good
(R233); GUARD_FAILURE of a word that does not hold the CRC-32C of the data and the burst address counts on its channel and keeps the
address (R477, R478). -/
def Obligations.CaddyRowsComplete : Prop :=
  ∀ (s : State), s.sys.mode ≠ .reset →
    (∀ d (n : Fin 12) raw zero, s.cad.ingest = [d] → d.phase = .read n raw →
      (igEncoded d.bytes n raw).body.length ≤ igLimit s d.bytes →
      selfVerified (igEncoded d.bytes n raw).body (igLen d.bytes) (igCrc d.bytes) = true → s.cdc.enc[n].state = .ingest →
      igZero d.bytes raw = zero →
      ∃ t l, exec (.encodeBandEnd n (.whole false)) s = .next t ∧ t.cad.ingest = [{ d with phase := .writing l zero }] ∧
        l.body = (if zero then [] else (igEncoded d.bytes n raw).body) ∧ l.job = igJob d.bytes ∧ l.key = igKey d.bytes ∧
        l.form = (if zero then 2 else 1) ∧ t.cdc.enc[n].state ≠ .ingest) ∧
    (∀ d l zero, s.cad.ingest = [d] → d.phase = .writing l zero → entryRefusal s d l = none →
      evictComes s d = false → commitComes s d = false →
      ∃ t, exec (.leafEntry d.ring (BitVec.ofNat 16 (igTag d.bytes))) s = .next t ∧ t.cad.ingest = [] ∧
        t.cad.leaves = (s.cad.leaves.filter fun x => !(x.job == l.job && x.key == l.key)) ++ [placeLeaf s l]) ∧
    (∀ job key (c : Fin 2) l, s.cad.repairs = [(job, key, c)] → s.cad.leaves = [l] → l.job = job → l.key = key →
      ∃ t, exec (.caddyRepairComplete job key true) s = .next t ∧ t.cad.leaves = [l.setCopy c.1 .good] ∧ t.cad.repairs = [] ∧
        t.cad.repaired = inc32 s.cad.repaired) ∧
    (∀ g addr data check scan, guardPasses data addr.toNat check = true →
      exec (.guardFailure g addr data check scan) s = .next s) ∧
    (∀ b addr data check, guardPasses data addr.toNat check = false →
      ∃ t, exec (.guardFailure (.other b) addr data check false) s = .next t ∧
      t.drc.ch[channelOf s addr.toNat].guardFails = inc32 s.drc.ch[channelOf s addr.toNat].guardFails ∧
      t.drc.ch[channelOf s addr.toNat].lastFail = addr ∧
      ∀ n, n ≠ channelOf s addr.toNat → t.drc.ch[n] = s.drc.ch[n])

/-- A test that a lane passes leaves it idle and counts (R264); a periodic test starts on an idle lane and waits for a
busy one (R265); a locked-up lane and a parity error end an assigned attempt with outcome 0x10 and its lane's failures
counted (R246, R267, R284), and a CODEC_RUN with its saved state discarded (R263); an idle lane has no progress to
miss, and one without power or fenced no memory to check. CODEC_RUN, past its checks, takes its lane and parks: a start
with nothing delivered yet, a resume with what the lane has kept (R208, R209, R262). -/
def Obligations.LaneRowsComplete : Prop :=
  (∀ (s : State) (id : LaneId), s.sys.mode ≠ .reset →
    (∀ crc verified, (laneAt s id).state = .test → (laneAt s id).testDue = false → s.cad.ingest = [] →
      ∃ t, exec (.laneKatEnd id crc verified) s = .next t ∧ (laneAt t id).state = .idle ∧ (laneAt t id).periodic = false ∧
        t.cdc.katRuns = inc32 s.cdc.katRuns ∧ ∀ j, j ≠ id → laneAt t j = laneAt s j) ∧
    (s.cdc.katPeriod ≠ 0 → (laneAt s id).state = .idle → (laneAt s id).fence = false →
      ∃ t, exec (.lanePeriodicTestDue id) s = .next t ∧ (laneAt t id).state = .test ∧ (laneAt t id).periodic = true ∧
        ∀ j, j ≠ id → laneAt t j = laneAt s j) ∧
    (s.cdc.katPeriod ≠ 0 → (laneAt s id).state.working = true →
      ∃ t, exec (.lanePeriodicTestDue id) s = .next t ∧ (laneAt t id).state = (laneAt s id).state ∧
        (laneAt t id).periodicDue = true) ∧
    (∀ (n : Fin 16) i, id = .dec n → (i = .laneLockup id ∨ i = .laneParityError id) → s.cdc.dec[n].state = .steep →
      coming s (fun c => match c with | .decodeAttemptReport k _ => k == n | _ => false) = false →
      ∃ t, exec i s = .next t ∧ t.cdc.dec[n].state ≠ .steep ∧ t.cdc.dec[n].assign = none ∧
        t.cdc.dec[n].lastOutcome = 0x10 ∧ t.cdc.dec[n].fails = inc32 s.cdc.dec[n].fails ∧
        t.cdc.dec[n].lastCause = (if i = .laneLockup id then 0x04 else 0x05)) ∧
    (∀ (n : Fin 12) i, id = .enc n → (i = .laneLockup id ∨ i = .laneParityError id) → s.cdc.enc[n].state = .run →
      ∃ t, exec i s = .next t ∧ t.cdc.enc[n].saved = none ∧ t.cdc.enc[n].lastCause = (if i = .laneLockup id then 0x04 else 0x05)) ∧
    ((laneAt s id).state.working = false → exec (.laneLockup id) s = .next s) ∧
    (((laneAt s id).state = .gated ∨ (laneAt s id).state = .fenced) → exec (.laneParityError id) s = .next s)) ∧
  (∀ (c : Cmd) (s : State), Accepted codecRunSpec c s → destParams c = none → laneBusy s (runLaneId c) = none →
    (runOp c = 0 → startParams c = none →
      ∃ t, exec (.codecRun c) s = .next (parked t 0x78 c .hardware none) ∧ (laneAt t (runLaneId c)).state = .run ∧
        (laneAt t (runLaneId c)).saved = some ⟨c.params, [], [], 0, 0⟩ ∧
        ∀ id, id ≠ runLaneId c → laneAt t id = laneAt s id) ∧
    (runOp c = 1 → resumeReserved c = none → (laneAt s (runLaneId c)).saved.isSome = true →
      ∃ t, exec (.codecRun c) s = .next (parked t 0x78 c .hardware none) ∧ (laneAt t (runLaneId c)).state = .run ∧
        (laneAt t (runLaneId c)).saved = (laneAt s (runLaneId c)).saved ∧
        ∀ id, id ≠ runLaneId c → laneAt t id = laneAt s id))

/-! ## The Steep -/

/-- DECODE_ASSIGN gives the first waiting work a lane and, on a first attempt, a slot whose epoch advances (R275, R276,
R282); a passing report verifies the band (R274, R278); a failing first report sends it to a second attempt (R274, R285); a
report of a superseded assignment only counts stale words (R283). -/
def Obligations.DecodeRowsComplete : Prop :=
  ∀ (s : State), s.sys.mode ≠ .reset →
    (∀ w rest b lane n, s.sys.mode ≠ .halt → waitingWork s = w :: rest → w.first = true →
      s.stp.st[w.station].bands[w.band]? = some b → b.state = .wait → stationFenced s w.station.1 = false → decodeLane s b = some lane →
      ((List.finRange 6).find? fun n => !s.stp.st[w.station].slots[n].busy && !s.stp.st[w.station].slots[n].retired) = some n →
      ∃ t x, exec .decodeAssign s = .next t ∧ t.stp.st[w.station].bands[w.band]? = some x ∧ x.state = .decode1 ∧
        x.slot = some n ∧ x.mirror = firstCopy s b ∧ t.cdc.dec[lane].state = .steep ∧
        t.stp.st[w.station].slots[n].epoch = s.stp.st[w.station].slots[n].epoch + 1 ∧
        t.stp.st[w.station].slots[n].owner = some lane ∧ t.stp.st[w.station].slots[n].busy = true) ∧
    (∀ (lane : Fin 16) a u i b, s.cdc.dec[lane].assign = some a → s.cdc.dec[lane].state = .steep →
      s.btu[a.station].firstDue = false → s.btu[a.station].readDue = none →
      currentBand s lane a = some i → s.stp.st[a.station].bands[i]? = some b → (attemptResult s a u).2.outcome = 0 → b.failed = none →
      ∃ t x, exec (.decodeAttemptReport lane u) s = .next t ∧ t.stp.st[a.station].bands[i]? = some x ∧ x.state = .verified ∧
        x.outcome = some (if b.state = .decode1 then .first else .mirror) ∧
        t.stp.st[a.station].slots[a.slot].data = (attemptResult s a u).1 ∧
        t.stp.st[a.station].slots[a.slot].checks = slotChecks (attemptResult s a u).1 ∧ t.cdc.dec[lane].assign = none ∧
        t.cdc.dec[lane].lastOutcome = 0) ∧
    (∀ (lane : Fin 16) a u i b, s.cdc.dec[lane].assign = some a → s.cdc.dec[lane].state = .steep →
      s.btu[a.station].firstDue = false → s.btu[a.station].readDue = none →
      currentBand s lane a = some i → s.stp.st[a.station].bands[i]? = some b → (attemptResult s a u).2.outcome ≠ 0 →
      b.state = .decode1 → (∀ d, b.deadline = some d → ppc s < d) →
      ∃ t x, exec (.decodeAttemptReport lane u) s = .next t ∧ t.stp.st[a.station].bands[i]? = some x ∧ x.state = .decode2 ∧
        x.waiting = true ∧ x.failed = some ((attemptResult s a u).2.outcome, lane) ∧
        t.cdc.dec[lane].fails = inc32 s.cdc.dec[lane].fails) ∧
    (∀ (lane : Fin 16) a u, s.cdc.dec[lane].assign = some a → s.cdc.dec[lane].state = .steep →
      s.btu[a.station].firstDue = false → s.btu[a.station].readDue = none → currentBand s lane a = none →
      ∃ t, exec (.decodeAttemptReport lane u) s = .next t ∧ t.free = s.free + 1 ∧
        (∀ k : Fin 6, t.stp.st[k] = s.stp.st[k]) ∧ t.cdc.dec[lane].assign = none)

/-- VERIFY_DEADLINE blanks a band that is overdue and has no report in the same cycle, and no band before its deadline (R273, R274,
R285); BAND_FIRST_LINE begins the
exposure of a verified band whose first line is due, and BAND_DONE ends it: the slot is freed and the outcome goes to the
ledger (R274, R287); SLOT_READ_ERROR of a word that fails its check marks the exposing band and its slot (R271, R280). -/
def Obligations.ExposureRowsComplete : Prop :=
  ∀ (s : State) (k : Fin 6) (b : Band), s.sys.mode ≠ .reset → s.stp.st[k].bands = [b] →
    (overdue (ppc s) b = true → reportComes s k 0 = false → ∃ t x, exec (.verifyDeadline k) s = .next t ∧ t.stp.st[k].bands = [x] ∧ x.state = .blank ∧
      x.outcome = some .blank ∧ x.waiting = false) ∧
    (overdue (ppc s) b = false → exec (.verifyDeadline k) s = .next s) ∧
    (∀ d, b.state = .verified → b.deadline = some d → d + 512 ≤ ppc s → stationReport s k = false →
      ∃ t, exec (.bandFirstLine k) s = .next t ∧ t.stp.st[k].bands = [{ b with state := .exposing }] ∧
        ∀ j, j ≠ k → t.stp.st[j] = s.stp.st[j]) ∧
    (∀ n o e, b.state = .exposing → b.slot = some n → b.outcome = some o →
      s.led.entries[b.sheet] = some e →
      ∃ t x, exec (.bandDone k) s = .next t ∧ t.stp.st[k].bands = [] ∧ t.stp.st[k].slots[n].busy = false ∧
        t.stp.st[k].slots[n].owner = none ∧ t.led.entries[b.sheet] = some x ∧
        x.outcomes = e.outcomes ++ [(k.1, b.band, o)]) ∧
    (∀ n word data check, b.state = .exposing → b.slot = some n →
      slotFails s.stp.st[k].slots[n] word data check = false → exec (.slotReadError k word data check) s = .next s) ∧
    (∀ n word data check, b.state = .exposing → b.slot = some n → b.outcome ≠ some .blank →
      slotFails s.stp.st[k].slots[n] word data check = true →
      ∃ t, exec (.slotReadError k word data check) s = .next t ∧ t.stp.st[k].bands = [{ b with outcome := some .slotRead }] ∧
        t.stp.st[k].slots[n].retiring = true ∧ t.stp.lastKey = b.key ∧ ∀ j, j ≠ k → t.stp.st[j] = s.stp.st[j])

/-! ## Stations -/

/-- With no interlock of the same cycle ahead of it (R315), BDS_EDGE counts the facet and measures period and phase in every state that scans (R295, R313); the first pair of edges
that fits the polygon's speed begins IDENT (R307, R312), and the 64th good facet brings LOCKED (R312). BDE_EDGE keeps the scan
time and latches the trim of the next facet (R85, R307, R308). -/
def Obligations.BeamEdgesComplete : Prop :=
  ∀ (s : State) (k : Fin 6) (n : Nat), s.sys.mode ≠ .reset → coming s (· == .laserInterlock k) = false →
    (s.btu[k].lock = .ident ∨ s.btu[k].lock = .search ∧ periodFits s k n = false →
      ∃ t, exec (.bdsEdge k n) s = .next t ∧ t.btu[k].lock = s.btu[k].lock ∧
        t.btu[k].facet = (s.btu[k].facet + 1) % Nat.max 1 s.btu[k].facets ∧ t.btu[k].facetCount = s.btu[k].facetCount + 1 ∧
        t.btu[k].periods = (n :: s.btu[k].periods).take 16 ∧ t.btu[k].phaseErr = phaseError (ppc s) t.btu[k].gridRef ∧
        (s.btu[k].pendingSince < s.now →
          t.btu[k].taps = s.btu[k].tapsPending.getD s.btu[k].taps ∧ t.btu[k].tapsPending = none) ∧
        (s.now ≤ s.btu[k].pendingSince → t.btu[k].taps = s.btu[k].taps ∧ t.btu[k].tapsPending = s.btu[k].tapsPending) ∧
        ∀ j, j ≠ k → t.btu[j] = s.btu[j]) ∧
    (s.btu[k].lock = .search → periodFits s k n = true →
      ∃ t, exec (.bdsEdge k n) s = .next t ∧ t.btu[k].lock = .ident ∧ t.btu[k].trims = Vector.replicate 12 0 ∧
        t.btu[k].identScans = []) ∧
    (s.btu[k].lock = .pullIn → 63 ≤ s.btu[k].goodRun →
      (phaseError (ppc s) (slewGrid (stationBody s k.1) s.btu[k]).gridRef).natAbs ≤ 2 →
      ∃ t, exec (.bdsEdge k n) s = .next t ∧ t.btu[k].lock = .locked ∧ t.btu[k].blanked = false ∧ t.btu[k].goodRun = 0) ∧
    (s.btu[k].lock = .search → ∃ t, exec (.bdeEdge k n .intact) s = .next t ∧ t.btu[k].scanTime = n ∧ t.btu[k].lock = .search) ∧
    ((s.btu[k].lock = .pullIn ∨ s.btu[k].lock = .locked ∨ s.btu[k].lock = .slew) → s.btu[k].facet + 1 < s.btu[k].facets →
      ∃ t, exec (.bdeEdge k n .intact) s = .next t ∧ t.btu[k].scanTime = n ∧ t.btu[k].lock = s.btu[k].lock ∧
        t.clk.px[k].trim = getN s.btu[k].trims (s.btu[k].facet + 1) 0 ∧ t.clk.px[k].trimFacet = s.btu[k].facet + 1 ∧
        ∀ j, j ≠ k → t.btu[j] = s.btu[j] ∧ t.clk.px[j] = s.clk.px[j])

/-- A window of a scanning station that passes without its edge, in the same cycle too (R14, R315), counts a miss; a synthetic BDS counts the facet, and the
second one in a row ends the lock (R295). Spin and search time-outs and a failed laser condition turn the station off (R311,
R312), the time-outs with its synthesizer left as it is (the model's reading, log 73). -/
def Obligations.BeamTimeoutsComplete : Prop :=
  ∀ (s : State) (k : Fin 6), s.sys.mode ≠ .reset →
    (s.btu[k].lock.scanning = true → s.btu[k].edgeAt ≠ some s.now →
      coming s (fun c => match c with | .bdsEdge j _ => j == k | _ => false) = false →
      coming s (· == .laserInterlock k) = false → s.btu[k].missRun = 0 →
      ∃ t, exec (.bdsWindowExpiry k) s = .next t ∧ t.btu[k].lock = s.btu[k].lock ∧ t.btu[k].missRun = 1 ∧
        t.btu[k].bdMisses = inc32 s.btu[k].bdMisses ∧ t.btu[k].facetCount = s.btu[k].facetCount + 1 ∧
        t.btu[k].flags = s.btu[k].flags ||| 0x01) ∧
    (s.btu[k].lock.scanning = true → s.btu[k].edgeAt ≠ some s.now →
      coming s (fun c => match c with | .bdsEdge j _ => j == k | _ => false) = false →
      coming s (· == .laserInterlock k) = false → s.btu[k].missRun = 1 →
      ∃ t, exec (.bdsWindowExpiry k) s = .next t ∧ t.btu[k].lock = .search ∧ t.btu[k].blanked = true ∧
        ∀ j, j ≠ k → t.btu[j] = s.btu[j]) ∧
    (s.btu[k].lock.scanning = true → s.btu[k].bdeAt ≠ some s.now →
      coming s (fun c => match c with | .bdeEdge j _ _ => j == k | _ => false) = false →
      ∃ t, exec (.bdeWindowExpiry k) s = .next t ∧ t.btu[k].lock = s.btu[k].lock ∧ t.btu[k].identScans = [] ∧
        t.btu[k].bdMisses = inc32 s.btu[k].bdMisses ∧ t.btu[k].flags = s.btu[k].flags ||| 0x02) ∧
    (s.btu[k].lock = .spin → coming s (· == .atSpeedDwell (Fin.ofNat 10 k.1)) = false →
      ∃ t, exec (.spinTimeout k) s = .next t ∧ t.btu[k].lock = .off ∧ t.btu[k].lden = false ∧
        t.clk.px[k] = { s.clk.px[k] with trim := 0, trimFacet := 0 }) ∧
    (s.btu[k].lock = .search → coming s (· == .laserInterlock k) = false →
      coming s (fun c => match c with | .bdsEdge j p => j == k && periodFits s k p | _ => false) = false →
      ∃ t, exec (.searchTimeout k) s = .next t ∧ t.btu[k].lock = .off ∧ t.btu[k].lden = false ∧
        t.clk.px[k] = { s.clk.px[k] with trim := 0, trimFacet := 0 }) ∧
    (s.btu[k].lden = true → (failedCondition s k).isSome = true →
      ∃ t, exec (.laserInterlock k) s = .next t ∧ t.btu[k].lock = .off ∧ t.btu[k].lden = false ∧
        t.btu[k].flags = s.btu[k].flags ||| 0x04 ∧ ∀ j, j ≠ k → t.btu[j] = s.btu[j])

/-- A calibration that is due outside a sheet starts, inside one whose window is too short it stays due, and inside one with a
window it rolls, a beam at a time (R305); one that completes writes the pending tables (R304); an APC sample sets the beam's
level within the recipe's limits (R309, R467). -/
def Obligations.BeamServicesComplete : Prop :=
  ∀ (s : State) (k : Fin 6), s.sys.mode ≠ .reset →
    (insideSheet s k = false → ∃ t, exec (.delayLineCalDue k) s = .next t ∧
      t.btu[k] = { s.btu[k] with calRunning := true, calDue := true, calRolling := false, calBeams := 0, calLines := [] }) ∧
    (insideSheet s k = true → 16000000 ≤ blankWindow s.btu[k] → ∃ t, exec (.delayLineCalDue k) s = .next t ∧
      t.btu[k] = { s.btu[k] with calRunning := true, calDue := true, calRolling := true, calBeams := 0, calLines := [] }) ∧
    (insideSheet s k = true → blankWindow s.btu[k] < 16000000 → ∃ t, exec (.delayLineCalDue k) s = .next t ∧
      t.btu[k] = { s.btu[k] with calDue := true }) ∧
    (∀ taps, s.btu[k].calRunning = true → s.btu[k].calRolling = false → ∃ t, exec (.delayLineCalComplete k taps) s = .next t ∧
      t.btu[k] = { s.btu[k] with
        calRunning := false, calDue := false, calTemp := compTemp s, cals := satAdd 16 s.btu[k].cals 1,
        tapsPending := some taps, pendingSince := s.now,
        calShort := (shortLine (stationBody s k.1) taps).isSome } ∧
      ∀ j, j ≠ k → t.btu[j] = s.btu[j]) ∧
    (∀ taps, s.btu[k].calRunning = true → s.btu[k].calRolling = true → (s.btu[k].calStep taps).calBeams ≠ 0xFFFF →
      ∃ t, exec (.delayLineCalComplete k taps) s = .next t ∧ t.btu[k] = s.btu[k].calStep taps ∧
        ∀ j, j ≠ k → t.btu[j] = s.btu[j]) ∧
    (∀ (code : BitVec 12) (beam : Fin 16) (n : Fin 160), beam = apcBeam s.btu[k] → n.1 = 16 * k.1 + beam.1 →
      s.btu[k].lden = true → s.btu[k].lock.scanning = true → s.ctl.loops[n].en = true →
      coming s (fun c => match c with | .apcSample j _ => j == k | _ => false) = false →
      ∃ t, exec (.apcSample k code) s = .next t ∧ t.btu[k].apcLevel[beam] =
        (clampI (stLevelMin (stationBody s k.1)) (stLevelMax (stationBody s k.1)) t.ctl.loops[n].out).toNat)

/-! ## Marking heads -/

/-- FIRE_INSTANT of an instant that the estimated position reaches (R331), the strobes not suppressed (R47, R62): an idle head with its memory begins the field and strobes (R328, R330, R344); an instant
too soon after the last strobe is dropped and counted (R338); a head that cannot fire ends the field (R342, R344).
MARK_LINE_FETCH brings the next line of the field (R329). -/
def Obligations.FireRowsComplete : Prop :=
  ∀ (s : State) (h : Fin 8) (i : Fin 512) (k : Nat) (e : Sheet) (m : Mark), s.sys.mode ≠ .reset →
    currentField s h = some (i, k) → s.led.entries[i] = some e → e.marks[k]? = some m →
    (∀ mem, m.run = .waiting → strobesOff s = false → trackReached s.clk (instantCount s h e m) = true → s.hdp[h].state = .idle →
      s.hdp[h].mem = some mem → s.hdp[h].lastStrobe = none → s.sys.compat = false → 1 < m.lines + mem.rowGap →
      ∃ t y, exec (.fireInstant h) s = .next t ∧ t.hdp[h].state = .marking ∧ t.hdp[h].field = some (i, k) ∧
        t.hdp[h].fires = inc32 s.hdp[h].fires ∧ t.hdp[h].lastStrobe = some s.now ∧ markAt t i k = some y ∧
        y.run = .running 1 ∧ y.fired = m.fired + 1 ∧ ∀ j, j ≠ h → t.hdp[j] = s.hdp[j]) ∧
    (trackReached s.clk (instantCount s h e m) = false → exec (.fireInstant h) s = .next s) ∧
    (∀ mem n u, m.run = .running n → strobesOff s = false → trackReached s.clk (instantCount s h e m) = true →
      1 ≤ n → s.hdp[h].state = .marking → s.hdp[h].mem = some mem → s.hdp[h].lastStrobe = some u →
      shorterThan (headBody s h.1) mem 1 1 ((s.now - u) * 5) = true → n + 1 < m.lines + mem.rowGap →
      ∃ t y, exec (.fireInstant h) s = .next t ∧ t.hdp[h].dropped = inc32 s.hdp[h].dropped ∧
        t.hdp[h].fires = s.hdp[h].fires ∧ markAt t i k = some y ∧ y.run = .running (n + 1) ∧ y.missed = true) ∧
    (strobesOff s = false → trackReached s.clk (instantCount s h e m) = true →
      (s.hdp[h].state = .held ∨ s.hdp[h].state = .fenced ∨ s.hdp[h].state = .capped ∨ s.hdp[h].state = .absent) →
      ∃ t y, exec (.fireInstant h) s = .next t ∧ t.hdp[h].state = s.hdp[h].state ∧ t.hdp[h].field = none ∧
        markAt t i k = some y ∧ y.run = .done ∧ y.missed = true ∧ t.hdp[h].fires = s.hdp[h].fires) ∧
    (∀ img, m.image = some img → s.hdp[h].fifoFor = some (i, k) → nextLine s.hdp[h] m < m.lines → s.hdp[h].fifo.length < 32 →
      ∃ t, exec (.markLineFetch h true false) s = .next t ∧
        t.hdp[h].fifo = s.hdp[h].fifo ++ [(nextLine s.hdp[h] m, some (img.getD (nextLine s.hdp[h] m) []))] ∧
        ∀ j, j ≠ h → t.hdp[j] = s.hdp[j])

/-- STROBE_CUT of a strobe that is too long or too near fences its head and counts, and of any other changes nothing (R334..R336,
R344); HEAD_TEMP_SAMPLE holds a head at its limit and releases it below
the hysteresis (R341, R342); the duty window starts anew on every head (R337); a capping move that ends changes its head
(R345); MARK_RENDER completes the images of an open sheet's rendered kinds (R377). -/
def Obligations.HeadRowsComplete : Prop :=
  ∀ (s : State) (h : Fin 8), s.sys.mode ≠ .reset →
    (∀ high spacing mem, s.hdp[h].mem = some mem → strobeBad (headBody s h.1) mem high spacing = false →
      exec (.strobeCut h high spacing) s = .next s) ∧
    (∀ high spacing mem, s.hdp[h].mem = some mem → s.hdp[h].state ≠ .absent →
      strobeBad (headBody s h.1) mem high spacing = true → ∃ t, exec (.strobeCut h high spacing) s = .next t ∧ t.hdp[h].state = .fenced ∧
      t.hdp[h].cuts = inc32 s.hdp[h].cuts ∧ t.hdp[h].cutHold = true ∧ t.hdp[h].flags = s.hdp[h].flags ||| 0x01) ∧
    (∀ (code : BitVec 12) mem, s.hdp[h].mem = some mem → code ≠ 0 → code ≠ 4095 → cycleComes s h = false →
      ((s.hdp[h].state = .idle ∨ s.hdp[h].state = .marking) → headTemp mem.table code.toNat < mem.limit →
        ∃ t, exec (.headTempSample h code) s = .next t ∧ t.hdp[h] = { s.hdp[h] with temp := headTemp mem.table code.toNat }) ∧
      ((s.hdp[h].state = .idle ∨ s.hdp[h].state = .marking) → mem.limit ≤ headTemp mem.table code.toNat →
        ∃ t, exec (.headTempSample h code) s = .next t ∧ t.hdp[h].state = .held ∧
          t.hdp[h].temp = headTemp mem.table code.toNat ∧ t.hdp[h].flags = s.hdp[h].flags ||| 0x04) ∧
      (s.hdp[h].state = .held → headTemp mem.table code.toNat < mem.limit - mem.hyst →
        ∃ t, exec (.headTempSample h code) s = .next t ∧ t.hdp[h].state = .idle)) ∧
    (∃ t, exec .dutyWindowTick s = .next t ∧ ∀ j : Fin 8, t.hdp[j] = { s.hdp[j] with dutyFires := [], dutyDrops := 0 }) ∧
    (s.hdp[h].capMove = some true → s.hdp[h].state = .idle → ∃ t, exec (.headCapMoveDone h) s = .next t ∧
      t.hdp[h] = { s.hdp[h] with capMove := none, state := .capped } ∧ ∀ j, j ≠ h → t.hdp[j] = s.hdp[j]) ∧
    (∀ (i : Fin 512) (e : Sheet), s.led.entries[i] = some e → e.open = true → ∃ (t : State) (x : Sheet), exec (.markRender i) s = .next t ∧
      t.led.entries[i] = some x ∧ x.marks.length = e.marks.length ∧
      ∀ (k : Nat) (m : Mark), e.marks[k]? = some m → (m.kind = 1 ∨ m.kind = 3) → m.image = none → ∃ y : Mark, x.marks[k]? = some y ∧
        y.image = some (renderImage (marksBody s) (mkFormat (marksBody s) m.format)
          (fieldValue (mkFormat (marksBody s) m.format) e)))

/-! ## The journal writer and the sheet sequencer -/

/-- RECORD_PROGRAM_COMPLETE programs the oldest staged record and makes it durable, or, on a read-back mismatch, leaves the
newest durable record as it was (R135, R362, R368); SEAL_AGE_EXPIRY asks for a seal over what is unsealed (R363); SEAL_SIGNED
signs the seal at the end of the staging buffer (R364); SECTOR_ERASE_COMPLETE leaves its sector erased (R138). -/
def Obligations.JournalRowsComplete : Prop :=
  ∀ (s : State), s.sys.mode ≠ .reset →
    (∀ r rest, s.jnl.staged = r :: rest → programmable s r rest = true →
      (∃ t, exec (.recordProgramComplete true) s = .next t ∧ t.jnl.newest = some r.idx ∧
        t.jnl.flash = flashProgram s.jnl.flash (recordAddr s r.idx) r.bytes) ∧
      (∃ t, exec (.recordProgramComplete false) s = .next t ∧ t.jnl.newest = s.jnl.newest ∧
        t.jnl.flash = flashProgram s.jnl.flash (recordAddr s r.idx) ((List.range 128).map (Config.freeFlash s.free)))) ∧
    (jnlOn s = true → s.sys.pwrFail = false → s.jnl.waiting = [] → s.jnl.unsealed ≠ 0 → s.jnl.sealing = false →
      s.jnl.staged.length < 32 →
      ∃ t r, exec .sealAgeExpiry s = .next t ∧ t.jnl.sealing = true ∧ t.jnl.unsealed = 0 ∧ t.jnl.staged = s.jnl.staged ++ [r] ∧
        u8 r.bytes 0 = 0x04 ∧ r.idx = s.jnl.nextIdx) ∧
    (∀ pre r, s.jnl.sealing = true → s.jnl.staged = pre ++ [r] → s.jnl.waiting = [] →
      ∃ t x, exec .sealSigned s = .next t ∧ t.jnl.sealing = false ∧ t.jnl.staged = pre ++ [x] ∧ x.idx = r.idx ∧
        x.bytes.take 32 = bytesAt r.bytes 0 32 ∧ bytesAt x.bytes 32 64 = padTo 64 (ecdsaSign (journalPrivate s)
          (sha256 (bytesAt r.bytes 0 32 ++ hashBytes r.prev)))) ∧
    (∀ k, s.jnl.erasing.head? = some k → s.sys.pwrFail = false → ∃ t, exec (.sectorEraseComplete k) s = .next t ∧ t.jnl.flash = flashErase s.jnl.flash k ∧
      ∀ a, flashGet t.jnl.flash a = if a / 4096 = k then 0xFF else flashGet s.jnl.flash a)

/-- SHEET_PICK picks the next committed sheet when nothing holds it, takes the sequencer's units and begins PRINT (R43, R194,
R388, R389); the three waits are noted while their cause lasts (R388, R390). -/
def Obligations.PickRowsComplete : Prop :=
  ∀ (s : State), s.sys.mode ≠ .reset →
    (∀ i e, nextPick s = some (i, e) → waitCode s = 0 → runoutStands s = false → s.sys.mode = .ready →
      ∃ t x, exec .sheetPick s = .next t ∧ t.led.entries[i] = some x ∧ x.t = some (pickT s e) ∧ x.hold = false ∧
        t.sys.mode = .print ∧ t.seq.own = true ∧ t.seq.lastEnd = some (pickT s e + 16 * e.length) ∧
        ∀ j, j ≠ i → t.led.entries[j] = s.led.entries[j]) ∧
    (waitCode s ≠ 0 → s.seq.waitRaised ≠ nextOrder s → ∃ t, exec .pickWaitExpiry s = .next t ∧
      t.seq = { s.seq with waitRaised := nextOrder s }) ∧
    (2 ≤ waitCode s → waitCode s ≤ 5 → s.seq.pauseRaised ≠ waitCode s → ∃ t, exec .pickPauseExpiry s = .next t ∧
      t.seq = { s.seq with pauseRaised := waitCode s, flags := s.seq.flags ||| 0x4 }) ∧
    (waitCode s = 5 → ∃ t, exec .headWaitExpiry s = .next t ∧ t.seq = { s.seq with headWaited := nextOrder s })

/-- A leading edge at the gate sensor inside its window passes the commit point (R391, R400); a trailing edge in time at the
exit sensor of its route completes the sheet, and one without a serial frees its entry (R394); a leading edge that no sheet
expects there is a stray one and stops the path, whose jam is that of the lowest sensor with one in the cycle (R400, R401, R404). -/
def Obligations.PaperRowsComplete : Prop :=
  ∀ (s : State) (k : Fin 32), s.sys.mode ≠ .reset → s.sys.mode ≠ .halt → s.seq.pathStop = none →
    (sheetBody s).isEmpty = false →
    (∀ i e w, s.seq.psn.getLsbD k.1 = false → k.1 = gateSensor s → expectedAt s k.1 = some (i, e, w) →
      w.start ≤ (ppc s : Int) → (ppc s : Int) ≤ w.stop → e.state = .committed → e.route = none →
      ∃ t x, exec (.paperSensorEdge k true) s = .next t ∧ t.seq.psn.getLsbD k.1 = true ∧ t.led.entries[i] = some x ∧
        x.state = .pastGate ∧ x.gated = true ∧ x.serial = e.serial) ∧
    (∀ i e lead d, s.seq.psn.getLsbD k.1 = true → bitOf (sensorFlags s k.1) 0 = true → passingAt s k.1 = some (i, e, lead) →
      lead + 16 * e.length ≤ ppc s + tailTol s e.media → ppc s ≤ lead + 16 * e.length + tailTol s e.media →
      e.route = some d → k.1 = destExit s d → e.state = .pastGate → e.serial = 0 →
      ∃ t, exec (.paperSensorEdge k false) s = .next t ∧ t.led.entries[i] = none ∧ t.seq.done = inc32 s.seq.done ∧
        t.seq.psn.getLsbD k.1 = false) ∧
    (s.seq.psn.getLsbD k.1 = false → bitOf (sensorFlags s k.1) 0 = true → expectedAt s k.1 = none →
      (passingAt s k.1) = none →
      ∃ t p, exec (.paperSensorEdge k true) s = .next t ∧ t.seq.pathStop = some p ∧ p.reason = .jam ∧ p.raised = false ∧
        t.seq.jamSensor ≤ k.1 ∧
        (coming s (fun c => match c with | .paperSensorEdge _ _ => true | .sensorWindowExpiry _ => true | _ => false) = false →
          t.seq.jamSensor = k.1 ∧ t.seq.jamKind = 5))

/-- A window that ends without its edge and a main drive out of its tolerance with a sheet picked stop the path (R400, R401,
R404); the route of a sheet is fixed at its decision count, to the spoil destination once it is spoiled or cancelled (R393); a
sheet without its second deskew edge at the deadline flags the right axis (R422). -/
def Obligations.PathRowsComplete : Prop :=
  ∀ (s : State), s.sys.mode ≠ .reset → s.sys.mode ≠ .halt → s.seq.pathStop = none →
    (∀ (k : Fin 32) j rest, endedWindows s = j :: rest → ((j :: rest).any fun x => x.1 == k.1) = true →
      coming s (fun c => match c with | .paperSensorEdge _ _ => true | _ => false) = false →
      ∃ t p, exec (.sensorWindowExpiry k) s = .next t ∧ t.seq.pathStop = some p ∧ p.reason = .jam ∧
        t.seq.jamSensor = j.1 ∧ t.seq.jamKind = j.2.1 ∧ t.seq.flags = s.seq.flags ||| 0x1) ∧
    (m6InTolerance s = false → ((sheets s).any fun x => x.2.picked) = true →
      ∃ t p, exec .mainDriveToleranceExpiry s = .next t ∧ t.seq.pathStop = some p ∧ p.reason = .mainDrive ∧
        t.seq.flags = s.seq.flags ||| 0x2) ∧
    (∀ i e n, sheets s = [(i, e)] → e.t = some n → e.open = true → e.route = none → n + divDecide s ≤ ppc s →
      ∃ t x, exec .routeDecision s = .next t ∧ t.led.entries[i] = some x ∧
        x.route = some (if e.spoil.isSome || e.cancel then e.spoilDest else e.dest)) ∧
    (∀ (a : Fin 16) i e n, deskewComes s = false → a.1 = deskewRight (motionBody s) → (motionBody s).isEmpty = false → sheets s = [(i, e)] → e.state = .committed →
      e.watched (deskewSensorL (motionBody s)) = true → e.watched (deskewSensorR (motionBody s)) = true →
      e.leadAt (deskewSensorL (motionBody s)) = none → e.t = some n → n ≤ ppc s + deskewEnd (motionBody s) →
      ∃ t, exec .deskewDeadline s = .next t ∧ t.axs[a].flags = s.axs[a].flags ||| 0x40 ∧ ∀ b, b ≠ a → t.axs[b] = s.axs[b])

/-! ## Axes -/

/-- AXIS_PWM_PERIOD of an idle axis takes its currents and its load angle from the two feeds and draws its next duties,
and fences a driven axis at a feed that is stuck (R409, R411, R415); AXIS_TARGET_REACHED ends a move at its target,
AXIS_AT_REST a stop (R417, R418); AXIS_IDLE_DELAY_EXPIRY lowers the current (R410). HOME_SENSOR_EDGE leads a homing of
method 1 through its phases and ends it, homed at its position (R419), to which the way of the debounce time is added
(the model's reading, log 53); GEAR_LOCK locks a geared axis at the present counter and position (R421). -/
def Obligations.AxisRowsComplete : Prop :=
  ∀ (s : State) (a : Fin 16), s.sys.mode ≠ .reset →
    (∀ bitsA bitsB m, m = axisSample s a bitsA bitsB → s.axs[a].state = .idle → axPwmFreq (axisOf s a) ≠ 0 →
      axStallDetect (axisOf s a) = false → s.axs[a].homing = none → feedStuck m.bitsA s.axs[a].feed.1 = false →
      feedStuck m.bitsB s.axs[a].feed.2 = false → m.iA.natAbs ≤ axOverI (axisOf s a) → m.iB.natAbs ≤ axOverI (axisOf s a) →
      s.axs[a].duty.1.natAbs ≠ 65536 → s.axs[a].duty.2.natAbs ≠ 65536 →
      ∃ t, exec (.axisPwmPeriod a bitsA bitsB) s = .next t ∧ t.axs[a].iA = m.iA ∧ t.axs[a].iB = m.iB ∧ t.axs[a].load = m.load ∧
        t.axs[a].state = .idle ∧ t.axs[a].pos = s.axs[a].pos ∧ t.axs[a].ocRun = (0, 0) ∧ t.free = s.free + 2 ∧
        ∀ b, b ≠ a → t.axs[b] = s.axs[b]) ∧
    (∀ bitsA bitsB m, m = axisSample s a bitsA bitsB → s.axs[a].driven = true → axPwmFreq (axisOf s a) ≠ 0 →
      (feedStuck m.bitsA s.axs[a].feed.1 = true ∨ feedStuck m.bitsB s.axs[a].feed.2 = true) →
      ∃ t, exec (.axisPwmPeriod a bitsA bitsB) s = .next t ∧ t.axs[a].state = .fenced ∧ t.axs[a].homed = false ∧
        t.axs[a].flags = s.axs[a].flags ||| 0x20) ∧
    (∀ m, s.axs[a].state = .moving → s.axs[a].move = some m → m.kind ≠ 2 →
      ∃ t, exec (.axisTargetReached a) s = .next t ∧ t.axs[a].state = .idle ∧ t.axs[a].pos = s.axs[a].target ∧
        t.axs[a].vel = 0 ∧ t.axs[a].move = none ∧ t.axs[a].endedId = s.axs[a].moveId ∧ ∀ b, b ≠ a → t.axs[b] = s.axs[b]) ∧
    (s.axs[a].state = .stopping → ∃ t, exec (.axisAtRest a) s = .next t ∧
      t.axs[a].state = (if s.axs[a].thenDisable then .disabled else .idle) ∧ t.axs[a].vel = 0 ∧ t.axs[a].pos = s.axs[a].pos ∧
      ∀ b, b ≠ a → t.axs[b] = s.axs[b]) ∧
    (s.axs[a].state = .idle → ∃ t, exec (.axisIdleDelayExpiry a) s = .next t ∧ t.axs[a] = { s.axs[a] with idleI := true } ∧
      ∀ b, b ≠ a → t.axs[b] = s.axs[b]) ∧
    ((∀ h, s.axs[a].state = .homing → s.axs[a].homing = some h → homeMethod (axHomeSeq (axisOf s a) h.seq) = 1 →
      (h.phase = 0 → ∃ t, exec (.homeSensorEdge a false) s = .next t ∧
        t.axs[a].homing = some { h with phase := 1 } ∧ t.axs[a].state = .homing) ∧
      (h.phase = 1 → ∃ t, exec (.homeSensorEdge a true) s = .next t ∧
        t.axs[a].homing = some { h with phase := 2 } ∧ t.axs[a].state = .homing) ∧
      (h.phase = 2 → ∃ t, exec (.homeSensorEdge a false) s = .next t ∧ t.axs[a].state = .idle ∧ t.axs[a].homed = true ∧
        t.axs[a].pos = (s.axs[a].at_ (homePos (axHomeSeq (axisOf s a) h.seq) * 65536 + s.axs[a].fine *
          sensorDebounce s (homeSensor (axHomeSeq (axisOf s a) h.seq)) / 1000)).pos ∧ t.axs[a].vel = 0)) ∧
    (s.axs[a].state = .geared → s.axs[a].gearLock = none → s.axs[a].phase = none → ∃ t g, exec (.gearLock a) s = .next t ∧ t.axs[a].gearLock = some g ∧
      g.count = ppc s ∧ t.axs[a].state = .geared ∧ ∀ b, b ≠ a → t.axs[b] = s.axs[b]))

/-! ## Motors -/

/-- MOTOR_ZERO_CROSSING counts in catch-spin and measures in a coast, and on any other phase or level than that of its step a
driven channel reads none (R430..R432, R438); MOTOR_COMMUTATION takes the next step
(R430); MOTOR_PWM_PERIOD draws the next duty, and fences the channel at a stuck feed or a current above the trip current (R433, R436). -/
def Obligations.MotorRowsComplete : Prop :=
  ∀ (s : State) (m : Fin 10), s.sys.mode ≠ .reset →
    (∀ phase rising prev last since, s.mot.ch[m].state = .catching →
      ∃ t, exec (.motorZeroCrossing m phase rising prev last since) s = .next t ∧
        t.mot.ch[m] = s.mot.ch[m].caught (motorOf s m) (crossingStep (motorOf s m) phase rising) ((prev + last) / 2) ∧
        ∀ k, k ≠ m → t.mot.ch[k] = s.mot.ch[k]) ∧
    (∀ phase rising prev last since, s.mot.ch[m].state = .coasting →
      ∃ t, exec (.motorZeroCrossing m phase rising prev last since) s = .next t ∧
        t.mot.ch[m].periods = ((prev + last) / 2 :: s.mot.ch[m].periods).take 6 ∧
        t.mot.ch[m].speed = speedOf (motorOf s m) (meanPeriod t.mot.ch[m]) ∧
        t.mot.ch[m].state = .coasting ∧ ∀ k, k ≠ m → t.mot.ch[k] = s.mot.ch[k]) ∧
    (∀ phase rising prev last since, s.mot.ch[m].state.driving = true → s.mot.ch[m].step ≠ 0 →
      s.mot.ch[m].step ≠ crossingStep (motorOf s m) phase rising →
      exec (.motorZeroCrossing m phase rising prev last since) s = .next s) ∧
    (s.mot.ch[m].step ≠ 0 → (s.mot.ch[m].state = .ramping ∨ s.mot.ch[m].state = .running ∨ s.mot.ch[m].state = .braking) →
      ∃ t, exec (.motorCommutation m) s = .next t ∧ t.mot.ch[m].step = nextStep (motorOf s m) s.mot.ch[m].step ∧
        t.mot.ch[m].state = s.mot.ch[m].state ∧ ∀ k, k ≠ m → t.mot.ch[k] = s.mot.ch[k]) ∧
    (∀ bitsU bitsV bits, bits = (bitsU.zip bitsV).take (motorPwmNs (motorOf s m) / (5 * mdclkCycles s (moClock (motorOf s m)))) →
      s.mot.ch[m].state ≠ .stopped → s.mot.ch[m].state ≠ .fenced →
      (feedStuck (bits.map (·.1)) s.mot.ch[m].feed.1 = false → feedStuck (bits.map (·.2)) s.mot.ch[m].feed.2 = false →
        (scanFeeds (motorOf s m) s.mot.ch[m] bits).trip = none →
        ∃ t, exec (.motorPwmPeriod m bitsU bitsV) s = .next t ∧ t.mot.ch[m].state = s.mot.ch[m].state ∧
          t.mot.ch[m].ocRun = (scanFeeds (motorOf s m) s.mot.ch[m] bits).run ∧ t.free = s.free + 1 ∧
          (s.mot.ch[m].state.driving = false → t.mot.ch[m].duty = 0) ∧ ∀ k, k ≠ m → t.mot.ch[k] = s.mot.ch[k]) ∧
      (feedStuck (bits.map (·.1)) s.mot.ch[m].feed.1 = true ∨ feedStuck (bits.map (·.2)) s.mot.ch[m].feed.2 = true ∨
          (scanFeeds (motorOf s m) s.mot.ch[m] bits).trip.isSome = true →
        ∃ t, exec (.motorPwmPeriod m bitsU bitsV) s = .next t ∧ t.mot.ch[m].state = .fenced ∧ t.mot.ch[m].drven = false ∧
          t.flt.src[Fin.ofNat 256 (0xD0 + m.1)].fenced = true))

/-- The timers of a channel: catch-spin ends in closed loop, from the step of the last crossing (the reading of log 56), in
braking or in aligning (R438, R439); aligning ends in the open-loop ramp; a ramp that times out coasts; a dwell at speed is
RUNNING; a loss of synchronism coasts and is counted, and restarts while restarts remain; a coast without crossings is at
rest (R437, R440). A crossing, a stop or a loss of the same cycle that a timer gives way to is shut out by name (R14,
R448). -/
def Obligations.MotorTimersComplete : Prop :=
  ∀ (s : State) (m : Fin 10), s.sys.mode ≠ .reset →
    (s.mot.ch[m].state = .catching → stopComes s m = false → s.mot.ch[m].crossings < 3 → s.mot.ch[m].forward = true →
      ∃ t, exec (.catchWindowExpiry m) s = .next t ∧ t.mot.ch[m].state = .aligning ∧ t.mot.ch[m].step = 1 ∧
        t.mot.ch[m].speed = 0 ∧ t.mot.ch[m].current = moAlignI (motorOf s m)) ∧
    (s.mot.ch[m].state = .catching → stopComes s m = false → 3 ≤ s.mot.ch[m].crossings → s.mot.ch[m].forward = true →
      moCatch (motorOf s m) ≤ speedOf (motorOf s m) (meanPeriod s.mot.ch[m]) →
      speedOf (motorOf s m) (meanPeriod s.mot.ch[m]) ≠ 0 →
      ∃ t, exec (.catchWindowExpiry m) s = .next t ∧ t.mot.ch[m].state = .ramping ∧ t.mot.ch[m].openLoop = false ∧
        t.mot.ch[m].step = s.mot.ch[m].seen ∧ t.mot.ch[m].speed = speedOf (motorOf s m) (meanPeriod s.mot.ch[m])) ∧
    (s.mot.ch[m].state = .aligning → ∃ t, exec (.alignTimeExpiry m) s = .next t ∧ t.mot.ch[m].state = .ramping ∧
      t.mot.ch[m].openLoop = true ∧ t.mot.ch[m].forced = moStart (motorOf s m) ∧ ∀ k, k ≠ m → t.mot.ch[k] = s.mot.ch[k]) ∧
    (s.mot.ch[m].state = .ramping → s.mot.ch[m].openLoop = true →
      coming s (fun c => match c with
        | .motorZeroCrossing j p r a b u => j == m && !(zeroCrossing s m p r a b u).mot.ch[m].openLoop
        | _ => false) = false → ∃ t, exec (.rampTimeout m) s = .next t ∧
      t.mot.ch[m].state = .coasting ∧ t.mot.ch[m].flags = s.mot.ch[m].flags ||| 0x02) ∧
    (s.mot.ch[m].state = .ramping → s.mot.ch[m].openLoop = false →
      inBand (motorOf s m) s.mot.ch[m].speed s.mot.ch[m].setpoint = true →
      coming s (· == .lossOfSynchronism m) = false →
      ∃ t, exec (.atSpeedDwell m) s = .next t ∧ t.mot.ch[m].state = .running ∧ t.mot.ch[m].restarts = 0) ∧
    (s.mot.ch[m].state = .running → crossingComes s m = false → ∃ t, exec (.lossOfSynchronism m) s = .next t ∧ t.mot.ch[m].state = .coasting ∧
      t.mot.ch[m].lost = true ∧ t.mot.ch[m].losCount = inc32 s.mot.ch[m].losCount ∧ ∀ k, k ≠ m → t.mot.ch[k] = s.mot.ch[k]) ∧
    (s.mot.ch[m].state = .coasting → s.mot.ch[m].lost = true → moRestart (motorOf s m) = true →
      s.mot.ch[m].restarts < moRestarts (motorOf s m) →
      ∃ t, exec (.losRestartDelay m) s = .next t ∧ t.mot.ch[m].state = .catching ∧
        t.mot.ch[m].restarts = s.mot.ch[m].restarts + 1 ∧ t.mot.ch[m].lost = false) ∧
    (s.mot.ch[m].state = .coasting → crossingComes s m = false → ∃ t, exec (.coastStopTimeout m) s = .next t ∧ t.mot.ch[m].state = .stopped ∧
      t.mot.ch[m].speed = 0 ∧ t.mot.ch[m].drven = false)

/-- BUS_SAMPLE measures the bus and keeps its peak, and at the hard limit stops every channel and halts (R441, R444); an
undervoltage coasts every channel that runs (R441); a chopper fault forbids regeneration (R443); a speed input sets its
channel's speed, and one that is lost stops it (R445, R446). -/
def Obligations.BusRowsComplete : Prop :=
  ∀ (s : State), s.sys.mode ≠ .reset →
    (∀ code fb, ∃ t, exec (.busSample code fb) s = .next t ∧ t.mot.busV = busMillivolts (motorBody s) code.toNat ∧
      t.mot.busPeak = Nat.max s.mot.busPeak (busMillivolts (motorBody s) code.toNat) ∧ t.mot.brkFb = fb) ∧
    (∀ code fb, (motorBody s).isEmpty = false → busHard (motorBody s) ≤ busMillivolts (motorBody s) code.toNat →
      s.mot.hard = false → ∃ t, exec (.busSample code fb) s = .next t ∧ t.mot.hard = true ∧ t.sys.mode = .halt ∧
        ∀ m : Fin 10, t.mot.ch[m].drven = false) ∧
    ((motorBody s).isEmpty = false → s.mot.busV < busUv (motorBody s) →
      coming s (fun c => match c with
        | .busSample code _ => decide (busUv (motorBody s) ≤ busMillivolts (motorBody s) code.toNat)
        | _ => false) = false →
      ∃ t, exec .busUndervoltageExpiry s = .next t ∧ t.mot.flags = s.mot.flags ||| 0x4 ∧
        ∀ m : Fin 10, t.mot.ch[m].state = .stopped ∨ t.mot.ch[m].state = .fenced ∨ t.mot.ch[m].state = .coasting) ∧
    (s.mot.brk = true → s.mot.brkFb = false → coming s (fun c => match c with | .busSample _ fb => fb | _ => false) = false → ∃ t, exec (.chopperFeedbackTimeout .noFeedback) s = .next t ∧
      t.mot.chopperHold = true ∧ t.mot.flags = s.mot.flags ||| 0x2 ∧ ∀ m : Fin 10, t.mot.ch[m].state ≠ .braking) ∧
    (∀ (n : Fin 2) f set, (motorBody s).isEmpty = false → spdMode (motorBody s) n.1 ≠ 0 →
      set = min (moMaxSpeed (motorOf s (spdChannel n))) (spdFull (motorBody s) n.1 * min 65536 f / 65536) →
      s.mot.ch[spdChannel n].suspended = false → moEnabled (motorOf s (spdChannel n)) = true →
      s.mot.ch[spdChannel n].state = .running → moSensorless (motorOf s (spdChannel n)) ≤ set →
      ∃ t, exec (.spdcmdUpdate n f) s = .next t ∧ t.mot.spdcmd[n] = set ∧ t.mot.ch[spdChannel n].setpoint = set) ∧
    (∀ n : Fin 2, (motorBody s).isEmpty = false → spdMode (motorBody s) n.1 ≠ 0 →
      s.mot.ch[spdChannel n].suspended = false → s.mot.ch[spdChannel n].state = .running → stopComes s (spdChannel n) = false →
      coming s (fun c => match c with | .spdcmdUpdate k _ => k == n | _ => false) = false →
      ∃ t, exec (.spdcmdDropout n) s = .next t ∧
        t.mot.ch[spdChannel n].state = (if noRegen s || softComes s then .coasting else .braking))

/-! ## The control engine, the die temperature and the fabric -/

/-- LOOP_FRAME counts the frame, evaluates the slot that is due and misses one that is late (R455, R458); a mains crossing is
measured and counted, and a loss turns every heater off (R465); a high voltage that is not good in time is turned off and
blocked (R466). -/
def Obligations.EngineRowsComplete : Prop :=
  ∀ (s : State), s.sys.mode ≠ .reset →
    (∀ ain late, ∃ t, exec (.loopFrame ain late) s = .next t ∧ t.ctl.frame = s.ctl.frame + 1) ∧
    (∀ ain (n : Fin 160), s.sys.mode ≠ .standby →
      (∀ k : Fin 160, s.ctl.loops[k].outNext = none ∧ s.ctl.loops[k].cascade = false ∧ s.ctl.loops[k].spNext = none) → dueSlots s = [n] →
      ∃ t, exec (.loopFrame ain []) s = .next t ∧
        t.ctl.loops[n].y = measured (slotEntry s s.ctl.loops[n]) (slotInput s n ain).2) ∧
    (∀ ain (n : Fin 160), s.sys.mode ≠ .standby →
      (∀ k : Fin 160, s.ctl.loops[k].outNext = none ∧ s.ctl.loops[k].cascade = false ∧ s.ctl.loops[k].spNext = none) → dueSlots s = [n] →
      ∃ t, exec (.loopFrame ain [n]) s = .next t ∧ t.ctl.missed = inc32 s.ctl.missed ∧
        t.ctl.loops[n] = { s.ctl.loops[n] with missed := satAdd 16 s.ctl.loops[n].missed 1 }) ∧
    (∀ half, 7500 ≤ half → half ≤ 11100 → ∃ t, exec (.mainsZcEdge half) s = .next t ∧ t.ctl.halfCycle = half ∧
      t.ctl.mainsRun = min 8 (s.ctl.mainsRun + 1) ∧ t.ctl.mains = (s.ctl.mains || decide (8 ≤ s.ctl.mainsRun + 1))) ∧
    (coming s (fun i => match i with | .mainsZcEdge half => within 7500 11100 half | _ => false) = false →
      ∃ t, exec .mainsLossTimeout s = .next t ∧ t.ctl.mains = false ∧ t.ctl.mainsRun = 0 ∧ t.ctl.htr = Vector.replicate 4 false ∧
        t.ctl.htrNext = none) ∧
    (s.ctl.hven = true → s.pins.hvOk = false → ∃ t, exec .hvOkTimeout s = .next t ∧ t.ctl.hven = false ∧
      t.pins.hvBlocked = true ∧ t.pins.hvCleared = false ∧ t.ctl.flags = s.ctl.flags ||| 0x8)

/-- With the fuses sensed, DIE_TEMP_SAMPLE takes a good sample with its throttle step, and puts 110.00 °C and step 3 in force for
a broken one (R540, R541); FUSE_RESENSE, where a crossing asked for one, counts and changes no latched value (R539). -/
def Obligations.TemperatureRowsComplete : Prop :=
  ∀ (s : State), s.sys.mode ≠ .reset → s.fus.sensed = true →
    (∀ code v, dieSample s code = some v → ∃ t, exec (.dieTempSample code) s = .next t ∧ t.tmp.temp = v ∧ t.tmp.good = v ∧
      t.tmp.broken = false ∧ t.tmp.peak = max s.tmp.peak v ∧ t.tmp.step = throttleStep s.tmp.step v) ∧
    (∀ code, dieSample s code = none → ∃ t, exec (.dieTempSample code) s = .next t ∧ t.tmp.temp = 440 ∧
      t.tmp.broken = true ∧ t.tmp.step = 3 ∧ t.tmp.good = s.tmp.good) ∧
    (∀ code v, dieSample s code = some v → 480 ≤ v → v < 500 → s.tmp.hot = false → (s.sys.mode = .ready ∨ s.sys.mode = .print) →
      ∃ t, exec (.dieTempSample code) s = .next t ∧ t.sys.mode = .runout ∧ t.sys.lastCause = 0xF6 ∧ t.sys.lcSrc = true) ∧
    (∀ differs, s.fus.resensing = true → fuseBusy s = false → ∃ t, exec (.fuseResense differs) s = .next t ∧
      t.fus.resensing = false ∧ t.fus.resenses = satAdd 16 s.fus.resenses 1 ∧ t.fus.differences = satAdd 16 s.fus.differences differs.length ∧
      t.fus.latched = s.fus.latched ∧ t.fus.rows = s.fus.rows ∧ t.fus.wires = s.fus.wires)

/-- FAULT_RAISE records the oldest detection: its source counts it, keeps the first and the latest detail, and is pending at
the highest level raised (R505); a coalescing interval and an interruption end (R515, R521); an injection of kind 1 raises its
source, and one that is used up ends (R519, R520); ALIVE runs while its conditions hold and no raise of the cycle ends them (R513, R523). -/
def Obligations.FabricRowsComplete : Prop :=
  ∀ (s : State), s.sys.mode ≠ .reset →
    (∀ r rest, s.flt.inbox = r :: rest →
      ∃ t, exec (.faultRaise none) s = .next t ∧ t.flt.src[r.src].raises = satAdd 32 s.flt.src[r.src].raises r.count ∧
        t.flt.src[r.src].latest = r.detail ∧
        t.flt.src[r.src].first = (if s.flt.src[r.src].raises = 0 then r.detail else s.flt.src[r.src].first) ∧
        (raisedLevel s r ≠ .log → pendNum t.flt.src[r.src].pend =
          Nat.max (pendNum s.flt.src[r.src].pend) (raisedLevel s r).toNat) ∧
        (raisedLevel s r = .log → t.flt.src[r.src].pend = s.flt.src[r.src].pend)) ∧
    (∀ (k : Fin 256) d, reservedSource k.1 = false → sourceDisabled (stationOn s) (headOn s) k.1 = false →
      ∃ t, exec (.faultRaise (some (k, d))) s = .next t ∧ t.flt.src[k].raises = satAdd 32 s.flt.src[k].raises 1 ∧
        t.flt.src[k].latest = d) ∧
    (∀ k : Fin 256, ∃ t, exec (.eventCoalesceExpiry k) s = .next t ∧ t.flt.src[k] = { s.flt.src[k] with coalesce := none } ∧
      ∀ j, j ≠ k → t.flt.src[j] = s.flt.src[j]) ∧
    (∃ t, exec .interruptionExpiry s = .next t ∧ t.flt = { s.flt with interruption := none }) ∧
    (∀ i, s.flt.inject = some i → i.kind = 1 → i.left ≠ 0 → ∃ t, exec .injectRaiseTick s = .next t ∧
      t.flt.inject = some { i with left := i.left - 1 } ∧
      (reservedSource i.src.1 = false → sourceDisabled (stationOn s) (headOn s) i.src.1 = false →
        ∃ r, t.flt.inbox = s.flt.inbox ++ [r] ∧ r.src = i.src ∧ r.detail = 0 ∧ r.injected = true)) ∧
    (∀ i, s.flt.inject = some i → i.left = 0 → ∃ t, exec .fltInject s = .next t ∧ t.flt.inject = none) ∧
    (∃ t, exec .aliveTick s = .next t ∧ t.pins.aliveRun = (aliveOk s && !aliveRaise s))
end

