-- ==== Sys2Proof/Laws/Frames.lean ====
section
/-!
SUPPORT. Frames: the parts of the state that each function of the model leaves as they are. `view vp` is a state seen through one part;
a lemma `f_view` says that `f` changes nothing of a part that is none of those its hypotheses name.
-/

namespace Sys2Proof.Machine
open Sys2Proof.Safety

-- one proof after the other: the whole package is one text, and proofs in parallel ask for a thread each
set_option Elab.async false
set_option linter.unusedSimpArgs false


@[simp] theorem view_ite {p : Part} (c : Prop) [Decidable c] (a b : State) : view p (if c then a else b) = if c then view p a else view p b := apply_ite ..
@[simp] theorem view_dite {p : Part} (c : Prop) [Decidable c] (a : c → State) (b : ¬c → State) :
    view p (if h : c then a h else b h) = if h : c then view p (a h) else view p (b h) := apply_dite ..
@[simp] theorem view_foldl {α : Type} {p : Part} (l : List α) (f : State → α → State) (s : State)
    (h : ∀ u x, view p (f u x) = view p u) : view p (l.foldl f s) = view p s := by
  induction l generalizing s with
  | nil => rfl
  | cons a l ih => rw [List.foldl_cons, ih, h]
@[simp] theorem view_iter {p : Part} (f : State → State) (n : Nat) (s : State)
    (h : ∀ u, view p (f u) = view p u) : view p (iter f n s) = view p s := by
  induction n generalizing s with
  | zero => rfl
  | succ n ih => rw [iter, ih, h]
@[simp] theorem Verdict.state_reply (s : State) (r : Res) : (Verdict.reply s r).state = s := rfl
@[simp] theorem Verdict.state_park (s : State) (w r) : (Verdict.park s w r).state = s := rfl
@[simp] theorem Verdict.state_ite (c : Prop) [Decidable c] (a b : Verdict) : (if c then a else b).state = if c then a.state else b.state := apply_ite ..
@[simp] theorem fst_ite {α β : Type} (c : Prop) [Decidable c] (a b : α × β) : (if c then a else b).1 = if c then a.1 else b.1 := apply_ite ..
@[simp] theorem snd_ite {α β : Type} (c : Prop) [Decidable c] (a b : α × β) : (if c then a else b).2 = if c then a.2 else b.2 := apply_ite ..
@[simp] theorem State.modSys_view {p : Part} (s : State) (g) (h : p ≠ .sys) : view p (s.modSys g) = view p s := by
  cases p <;> first | rfl | exact absurd rfl h
@[simp] theorem State.modPins_view {p : Part} (s : State) (g) (h : p ≠ .pins) : view p (s.modPins g) = view p s := by
  cases p <;> first | rfl | exact absurd rfl h
@[simp] theorem State.modClk_view {p : Part} (s : State) (g) (h : p ≠ .clk) : view p (s.modClk g) = view p s := by
  cases p <;> first | rfl | exact absurd rfl h
@[simp] theorem State.modHif_view {p : Part} (s : State) (g) (h : p ≠ .hif) : view p (s.modHif g) = view p s := by
  cases p <;> first | rfl | exact absurd rfl h
@[simp] theorem State.modMgt_view {p : Part} (s : State) (g) (h : p ≠ .mgt) : view p (s.modMgt g) = view p s := by
  cases p <;> first | rfl | exact absurd rfl h
@[simp] theorem State.modSup_view {p : Part} (s : State) (g) (h : p ≠ .sup) : view p (s.modSup g) = view p s := by
  cases p <;> first | rfl | exact absurd rfl h
@[simp] theorem State.modKtl_view {p : Part} (s : State) (g) (h : p ≠ .ktl) : view p (s.modKtl g) = view p s := by
  cases p <;> first | rfl | exact absurd rfl h
@[simp] theorem State.modLed_view {p : Part} (s : State) (g) (h : p ≠ .led) : view p (s.modLed g) = view p s := by
  cases p <;> first | rfl | exact absurd rfl h
@[simp] theorem State.modCad_view {p : Part} (s : State) (g) (h : p ≠ .cad) : view p (s.modCad g) = view p s := by
  cases p <;> first | rfl | exact absurd rfl h
@[simp] theorem State.modCdc_view {p : Part} (s : State) (g) (h : p ≠ .cdc) : view p (s.modCdc g) = view p s := by
  cases p <;> first | rfl | exact absurd rfl h
@[simp] theorem State.modStp_view {p : Part} (s : State) (g) (h : p ≠ .stp) : view p (s.modStp g) = view p s := by
  cases p <;> first | rfl | exact absurd rfl h
@[simp] theorem State.modJnl_view {p : Part} (s : State) (g) (h : p ≠ .jnl) : view p (s.modJnl g) = view p s := by
  cases p <;> first | rfl | exact absurd rfl h
@[simp] theorem State.modSeq_view {p : Part} (s : State) (g) (h : p ≠ .seq) : view p (s.modSeq g) = view p s := by
  cases p <;> first | rfl | exact absurd rfl h
@[simp] theorem State.modMot_view {p : Part} (s : State) (g) (h : p ≠ .mot) : view p (s.modMot g) = view p s := by
  cases p <;> first | rfl | exact absurd rfl h
@[simp] theorem State.modCtl_view {p : Part} (s : State) (g) (h : p ≠ .ctl) : view p (s.modCtl g) = view p s := by
  cases p <;> first | rfl | exact absurd rfl h
@[simp] theorem State.modDrc_view {p : Part} (s : State) (g) (h : p ≠ .drc) : view p (s.modDrc g) = view p s := by
  cases p <;> first | rfl | exact absurd rfl h
@[simp] theorem State.modFlt_view {p : Part} (s : State) (g) (h : p ≠ .flt) : view p (s.modFlt g) = view p s := by
  cases p <;> first | rfl | exact absurd rfl h
@[simp] theorem State.modFus_view {p : Part} (s : State) (g) (h : p ≠ .fus) : view p (s.modFus g) = view p s := by
  cases p <;> first | rfl | exact absurd rfl h
@[simp] theorem State.modTmp_view {p : Part} (s : State) (g) (h : p ≠ .tmp) : view p (s.modTmp g) = view p s := by
  cases p <;> first | rfl | exact absurd rfl h
@[simp] theorem State.modBtu_view {p : Part} (s : State) (k g) (h : p ≠ .btu) : view p (s.modBtu k g) = view p s := by
  cases p <;> first | rfl | exact absurd rfl h
@[simp] theorem State.modHead_view {p : Part} (s : State) (k g) (h : p ≠ .hdp) : view p (s.modHead k g) = view p s := by
  cases p <;> first | rfl | exact absurd rfl h
@[simp] theorem State.modAxis_view {p : Part} (s : State) (k g) (h : p ≠ .axs) : view p (s.modAxis k g) = view p s := by
  cases p <;> first | rfl | exact absurd rfl h
@[simp] theorem State.modMotor_view {p : Part} (s : State) (k g) (h : p ≠ .mot) : view p (s.modMotor k g) = view p s := by
  cases p <;> first | rfl | exact absurd rfl h
@[simp] theorem State.modLoop_view {p : Part} (s : State) (k g) (h : p ≠ .ctl) : view p (s.modLoop k g) = view p s := by
  cases p <;> first | rfl | exact absurd rfl h
@[simp] theorem State.modChan_view {p : Part} (s : State) (k g) (h : p ≠ .drc) : view p (s.modChan k g) = view p s := by
  cases p <;> first | rfl | exact absurd rfl h
@[simp] theorem State.modSrc_view {p : Part} (s : State) (k g) (h : p ≠ .flt) : view p (s.modSrc k g) = view p s := by
  cases p <;> first | rfl | exact absurd rfl h
@[simp] theorem State.modSynth_view {p : Part} (s : State) (k g) (h : p ≠ .clk) : view p (s.modSynth k g) = view p s := by
  cases p <;> first | rfl | exact absurd rfl h
@[simp] theorem State.modSteep_view {p : Part} (s : State) (k g) (h : p ≠ .stp) : view p (s.modSteep k g) = view p s := by
  cases p <;> first | rfl | exact absurd rfl h
@[simp] theorem State.modDec_view {p : Part} (s : State) (k g) (h : p ≠ .cdc) : view p (s.modDec k g) = view p s := by
  cases p <;> first | rfl | exact absurd rfl h
@[simp] theorem State.modEnc_view {p : Part} (s : State) (k g) (h : p ≠ .cdc) : view p (s.modEnc k g) = view p s := by
  cases p <;> first | rfl | exact absurd rfl h
@[simp] theorem State.modCr_view {p : Part} (s : State) (k g) (h : p ≠ .hif) : view p (s.modCr k g) = view p s := by
  cases p <;> first | rfl | exact absurd rfl h
@[simp] theorem State.modIg_view {p : Part} (s : State) (k g) (h : p ≠ .hif) : view p (s.modIg k g) = view p s := by
  cases p <;> first | rfl | exact absurd rfl h
@[simp] theorem State.modSheet_view {p : Part} (s : State) (k g) (h : p ≠ .led) : view p (s.modSheet k g) = view p s := by
  cases p <;> first | rfl | exact absurd rfl h
@[simp] theorem State.drawn_view {p : Part} (s : State) (h : p ≠ .free) : view p (s.drawn) = view p s := by
  cases p <;> first | rfl | exact absurd rfl h
@[simp] theorem view_with_pending {p : Part} (s : State) (v) (h : p ≠ .pending) : view p { s with pending := v } = view p s := by
  cases p <;> first | rfl | exact absurd rfl h
@[simp] theorem view_with_now {p : Part} (s : State) (v) (h : p ≠ .now) : view p { s with now := v } = view p s := by
  cases p <;> first | rfl | exact absurd rfl h
@[simp] theorem view_with_free {p : Part} (s : State) (v) (h : p ≠ .free) : view p { s with free := v } = view p s := by
  cases p <;> first | rfl | exact absurd rfl h
@[simp] theorem view_with_out {p : Part} (s : State) (v) (h : p ≠ .out) : view p { s with out := v } = view p s := by
  cases p <;> first | rfl | exact absurd rfl h
@[simp] theorem view_with_sys {p : Part} (s : State) (v) (h : p ≠ .sys) : view p { s with sys := v } = view p s := by
  cases p <;> first | rfl | exact absurd rfl h
@[simp] theorem view_with_pins {p : Part} (s : State) (v) (h : p ≠ .pins) : view p { s with pins := v } = view p s := by
  cases p <;> first | rfl | exact absurd rfl h
@[simp] theorem view_with_clk {p : Part} (s : State) (v) (h : p ≠ .clk) : view p { s with clk := v } = view p s := by
  cases p <;> first | rfl | exact absurd rfl h
@[simp] theorem view_with_hif {p : Part} (s : State) (v) (h : p ≠ .hif) : view p { s with hif := v } = view p s := by
  cases p <;> first | rfl | exact absurd rfl h
@[simp] theorem view_with_mgt {p : Part} (s : State) (v) (h : p ≠ .mgt) : view p { s with mgt := v } = view p s := by
  cases p <;> first | rfl | exact absurd rfl h
@[simp] theorem view_with_sup {p : Part} (s : State) (v) (h : p ≠ .sup) : view p { s with sup := v } = view p s := by
  cases p <;> first | rfl | exact absurd rfl h
@[simp] theorem view_with_ktl {p : Part} (s : State) (v) (h : p ≠ .ktl) : view p { s with ktl := v } = view p s := by
  cases p <;> first | rfl | exact absurd rfl h
@[simp] theorem view_with_led {p : Part} (s : State) (v) (h : p ≠ .led) : view p { s with led := v } = view p s := by
  cases p <;> first | rfl | exact absurd rfl h
@[simp] theorem view_with_cad {p : Part} (s : State) (v) (h : p ≠ .cad) : view p { s with cad := v } = view p s := by
  cases p <;> first | rfl | exact absurd rfl h
@[simp] theorem view_with_cdc {p : Part} (s : State) (v) (h : p ≠ .cdc) : view p { s with cdc := v } = view p s := by
  cases p <;> first | rfl | exact absurd rfl h
@[simp] theorem view_with_stp {p : Part} (s : State) (v) (h : p ≠ .stp) : view p { s with stp := v } = view p s := by
  cases p <;> first | rfl | exact absurd rfl h
@[simp] theorem view_with_btu {p : Part} (s : State) (v) (h : p ≠ .btu) : view p { s with btu := v } = view p s := by
  cases p <;> first | rfl | exact absurd rfl h
@[simp] theorem view_with_hdp {p : Part} (s : State) (v) (h : p ≠ .hdp) : view p { s with hdp := v } = view p s := by
  cases p <;> first | rfl | exact absurd rfl h
@[simp] theorem view_with_jnl {p : Part} (s : State) (v) (h : p ≠ .jnl) : view p { s with jnl := v } = view p s := by
  cases p <;> first | rfl | exact absurd rfl h
@[simp] theorem view_with_seq {p : Part} (s : State) (v) (h : p ≠ .seq) : view p { s with seq := v } = view p s := by
  cases p <;> first | rfl | exact absurd rfl h
@[simp] theorem view_with_axs {p : Part} (s : State) (v) (h : p ≠ .axs) : view p { s with axs := v } = view p s := by
  cases p <;> first | rfl | exact absurd rfl h
@[simp] theorem view_with_mot {p : Part} (s : State) (v) (h : p ≠ .mot) : view p { s with mot := v } = view p s := by
  cases p <;> first | rfl | exact absurd rfl h
@[simp] theorem view_with_ctl {p : Part} (s : State) (v) (h : p ≠ .ctl) : view p { s with ctl := v } = view p s := by
  cases p <;> first | rfl | exact absurd rfl h
@[simp] theorem view_with_drc {p : Part} (s : State) (v) (h : p ≠ .drc) : view p { s with drc := v } = view p s := by
  cases p <;> first | rfl | exact absurd rfl h
@[simp] theorem view_with_flt {p : Part} (s : State) (v) (h : p ≠ .flt) : view p { s with flt := v } = view p s := by
  cases p <;> first | rfl | exact absurd rfl h
@[simp] theorem view_with_fus {p : Part} (s : State) (v) (h : p ≠ .fus) : view p { s with fus := v } = view p s := by
  cases p <;> first | rfl | exact absurd rfl h
@[simp] theorem view_with_tmp {p : Part} (s : State) (v) (h : p ≠ .tmp) : view p { s with tmp := v } = view p s := by
  cases p <;> first | rfl | exact absurd rfl h
@[simp] theorem State.modSpi_view {vp : Part} (s : State) (p : SpiPort) (g : Spi → Spi) (h_mgt : vp ≠ .mgt)
    (h_sup : vp ≠ .sup) :
    view vp (State.modSpi s p g) = view vp s := by
  unfold State.modSpi
  (repeat' split) <;> simp [h_mgt, h_sup]

@[simp] theorem State.stick_view {vp : Part} (s : State) (offset : Nat) (mask : Nat) (h_flt : vp ≠ .flt) :
    view vp (State.stick s offset mask) = view vp s := by
  unfold State.stick
  simp [h_flt]

@[simp] theorem giveWay_view {vp : Part} (s : State) (p : Instr → Bool) (effect : State) (h : view vp effect = view vp s)  :
    view vp (giveWay s p effect) = view vp s := by
  unfold giveWay
  split <;> simp [h]

@[simp] theorem dramRequest_view {vp : Part} (s : State) (h_drc : vp ≠ .drc) :
    view vp (dramRequest s) = view vp s := by
  unfold dramRequest
  simp [h_drc]

@[simp] theorem raiseAt_view {vp : Part} (s : State) (src : Nat) (detail : Nat) (min : Level) (h_flt : vp ≠ .flt) :
    view vp (raiseAt s src detail min) = view vp s := by
  unfold raiseAt
  simp [h_flt]

@[simp] theorem raise_view {vp : Part} (s : State) (src : Nat) (detail : Nat) (h_flt : vp ≠ .flt) :
    view vp (raise s src detail) = view vp s := by
  unfold raise
  simp [h_flt]

@[simp] theorem noteSev_view {vp : Part} (s : State) (k : Fin 256) (h_flt : vp ≠ .flt) :
    view vp (noteSev s k) = view vp s := by
  unfold noteSev
  simp [h_flt]

@[simp] theorem emit_view {vp : Part} (s : State) (o : Out) (h_out : vp ≠ .out) :
    view vp (emit s o) = view vp s := by
  unfold emit
  simp [h_out]

@[simp] theorem sendMsix_view {vp : Part} (s : State) (v : Fin 64) (h_out : vp ≠ .out) (h_hif : vp ≠ .hif) :
    view vp (sendMsix s v) = view vp s := by
  unfold sendMsix
  simp [h_out, h_hif]

@[simp] theorem ringReply_view {vp : Part} (s : State) (r : Ring) (entry : List Byte) (notify : Bool)
    (h_out : vp ≠ .out) (h_hif : vp ≠ .hif) :
    view vp (ringReply s r entry notify).2 = view vp s := by
  unfold ringReply
  simp [h_out, h_hif]

@[simp] theorem replyCr_view {vp : Part} (s : State) (n : Fin 4) (entry : List Byte) (notify : Bool)
    (h_out : vp ≠ .out) (h_hif : vp ≠ .hif) :
    view vp (replyCr s n entry notify) = view vp s := by
  unfold replyCr
  simp [h_out, h_hif]

@[simp] theorem replyIg_view {vp : Part} (s : State) (n : Fin 8) (entry : List Byte) (notify : Bool)
    (h_out : vp ≠ .out) (h_hif : vp ≠ .hif) :
    view vp (replyIg s n entry notify) = view vp s := by
  unfold replyIg
  simp [h_out, h_hif]

@[simp] theorem replySpi_view {vp : Part} (s : State) (p : SpiPort) (r : Reply) (notify : Bool) (h_mgt : vp ≠ .mgt)
    (h_sup : vp ≠ .sup) :
    view vp (replySpi s p r notify) = view vp s := by
  unfold replySpi
  simp [h_mgt, h_sup]

@[simp] theorem setDup_view {vp : Part} (s : State) (src : Source) (e : Option DupEntry) (h_ktl : vp ≠ .ktl) :
    view vp (setDup s src e) = view vp s := by
  unfold setDup
  (repeat' split) <;> simp [h_ktl]

@[simp] theorem post_view {vp : Part} (s : State) (c : Cmd) (r : Reply) (h_out : vp ≠ .out) (h_hif : vp ≠ .hif)
    (h_mgt : vp ≠ .mgt) (h_sup : vp ≠ .sup) :
    view vp (post s c r) = view vp s := by
  unfold post
  (repeat' split) <;> simp [h_out, h_hif, h_mgt, h_sup]

@[simp] theorem storeReply_view {vp : Part} (s : State) (c : Cmd) (r : Reply) (h_ktl : vp ≠ .ktl) :
    view vp (storeReply s c r) = view vp s := by
  unfold storeReply
  (repeat' split) <;> simp [h_ktl]

@[simp] theorem deliver_view {vp : Part} (s : State) (c : Cmd) (f : Fate) (r : Reply) (h_out : vp ≠ .out)
    (h_hif : vp ≠ .hif) (h_mgt : vp ≠ .mgt) (h_sup : vp ≠ .sup) (h_ktl : vp ≠ .ktl) :
    view vp (deliver s c f r) = view vp s := by
  unfold deliver
  (repeat' split) <;> simp [h_out, h_hif, h_mgt, h_sup, h_ktl]

@[simp] theorem refuse_view {vp : Part} (s : State) (r : Res) :
    view vp (refuse s r).state = view vp s := by
  unfold refuse
  simp 

@[simp] theorem setMode_view {vp : Part} (s : State) (m : Mode) (h_sys : vp ≠ .sys) (h_flt : vp ≠ .flt) :
    view vp (setMode s m) = view vp s := by
  unfold setMode
  simp [h_sys, h_flt]

@[simp] theorem causeBy_view {vp : Part} (s : State) (src : Nat) (h_sys : vp ≠ .sys) :
    view vp (causeBy s src) = view vp s := by
  unfold causeBy
  simp [h_sys]

@[simp] theorem causeByCommand_view {vp : Part} (s : State) (h_sys : vp ≠ .sys) :
    view vp (causeByCommand s) = view vp s := by
  unfold causeByCommand
  simp [h_sys]

@[simp] theorem flashOps_view {vp : Part} (s : State) (l : List (Nat × Nat × Nat)) (h_out : vp ≠ .out) :
    view vp (flashOps s l) = view vp s := by
  unfold flashOps
  simp [h_out]

@[simp] theorem lowCheck_view {vp : Part} (s : State) (h_jnl : vp ≠ .jnl) (h_flt : vp ≠ .flt) :
    view vp (lowCheck s) = view vp s := by
  unfold lowCheck
  simp [h_jnl, h_flt]

@[simp] theorem formSeal_view {vp : Part} (s : State) (u : Unformed) (h_jnl : vp ≠ .jnl) :
    view vp (formSeal s u) = view vp s := by
  unfold formSeal
  (repeat' split) <;> simp [h_jnl]

@[simp] theorem voidFormed_view {vp : Part} (s : State) (u : Unformed) (h_jnl : vp ≠ .jnl) (h_flt : vp ≠ .flt) :
    view vp (voidFormed s u) = view vp s := by
  unfold voidFormed
  simp [h_jnl, h_flt]

@[simp] theorem formOne_view {vp : Part} (s : State) (u : Unformed) (h_led : vp ≠ .led) (h_jnl : vp ≠ .jnl)
    (h_flt : vp ≠ .flt) :
    view vp (formOne s u) = view vp s := by
  unfold formOne
  simp [h_led, h_jnl, h_flt]

@[simp] theorem formReady_view {vp : Part} (n : Nat) (s : State) (h_led : vp ≠ .led) (h_jnl : vp ≠ .jnl) (h_flt : vp ≠ .flt) :
    view vp (formReady n s) = view vp s := by
  induction n generalizing s with
  | zero => rfl
  | succ n ih => unfold formReady; (repeat' split) <;> simp [ih, h_led, h_jnl, h_flt]

@[simp] theorem formAll_view {vp : Part} (s : State) (h_led : vp ≠ .led) (h_jnl : vp ≠ .jnl) (h_flt : vp ≠ .flt) :
    view vp (formAll s) = view vp s := by
  unfold formAll
  simp [h_led, h_jnl, h_flt]

@[simp] theorem stampHeld_view {vp : Part} (u : Unformed) (s : State) (h_jnl : vp ≠ .jnl) (h_flt : vp ≠ .flt) :
    view vp (stampHeld u s).1 = view vp s := by
  unfold stampHeld
  simp [h_jnl, h_flt]

@[simp] theorem requestRecord_view {vp : Part} (s : State) (u : Unformed) (h_led : vp ≠ .led) (h_jnl : vp ≠ .jnl)
    (h_flt : vp ≠ .flt) :
    view vp (requestRecord s u) = view vp s := by
  unfold requestRecord
  simp [h_led, h_jnl, h_flt]

@[simp] theorem journal_view {vp : Part} (s : State) (type : Nat) (aux : Nat) (payload : List Byte) (h_led : vp ≠ .led)
    (h_jnl : vp ≠ .jnl) (h_flt : vp ≠ .flt) :
    view vp (journal s type aux payload) = view vp s := by
  unfold journal
  simp [h_led, h_jnl, h_flt]

@[simp] theorem requestSeal_view {vp : Part} (s : State) (h_led : vp ≠ .led) (h_jnl : vp ≠ .jnl) (h_flt : vp ≠ .flt) :
    view vp (requestSeal s) = view vp s := by
  unfold requestSeal
  simp [h_led, h_jnl, h_flt]

@[simp] theorem reserveCheck_view {vp : Part} (s : State) (h_led : vp ≠ .led) (h_jnl : vp ≠ .jnl) (h_flt : vp ≠ .flt) :
    view vp (reserveCheck s) = view vp s := by
  unfold reserveCheck
  simp [h_led, h_jnl, h_flt]

@[simp] theorem journalEvent_view {vp : Part} (s : State) (aux : Nat) (src : Nat) (l : Level) (detail : Word)
    (h_led : vp ≠ .led) (h_jnl : vp ≠ .jnl) (h_flt : vp ≠ .flt) :
    view vp (journalEvent s aux src l detail) = view vp s := by
  unfold journalEvent
  simp [h_led, h_jnl, h_flt]

@[simp] theorem journalCommand_view {vp : Part} (s : State) (op : Nat) (st : Status) (c : Cmd) (h_led : vp ≠ .led)
    (h_jnl : vp ≠ .jnl) (h_flt : vp ≠ .flt) :
    view vp (journalCommand s op st c) = view vp s := by
  unfold journalCommand
  simp [h_led, h_jnl, h_flt]

@[simp] theorem journaled_view {vp : Part} (before s : State) (r : Res) (h : view vp before = view vp s)  :
    view vp (journaled before s r).state = view vp s := by
  unfold journaled
  (repeat' split) <;> simp [h]

@[simp] theorem spoil_view {vp : Part} (s : State) (i : Fin 512) (r : Spoil) (h_led : vp ≠ .led) :
    view vp (spoil s i r) = view vp s := by
  unfold spoil
  (repeat' split) <;> simp [h_led]

@[simp] theorem spoilAll_view {vp : Part} (s : State) (p : Sheet → Bool) (r : Spoil) (h_led : vp ≠ .led) :
    view vp (spoilAll s p r) = view vp s := by
  unfold spoilAll
  simp [h_led]

@[simp] theorem freeLeaves_view {vp : Part} (s : State) (p : Leaf → Bool) (h_cad : vp ≠ .cad) :
    view vp (freeLeaves s p) = view vp s := by
  unfold freeLeaves
  simp [h_cad]

@[simp] theorem retireCheck_view {vp : Part} (before : State) (s : State) (h_flt : vp ≠ .flt) :
    view vp (retireCheck before s) = view vp s := by
  unfold retireCheck
  apply view_foldl; intro u x; (repeat' split) <;> simp [h_flt]

@[simp] theorem abandon_view {vp : Part} (s : State) (i : Fin 512) (h_cad : vp ≠ .cad) (h_stp : vp ≠ .stp)
    (h_flt : vp ≠ .flt) :
    view vp (abandon s i) = view vp s := by
  unfold abandon
  simp [h_cad, h_stp, h_flt]

@[simp] theorem headsForget_view {vp : Part} (s : State) (i : Fin 512) (h_hdp : vp ≠ .hdp) :
    view vp (headsForget s i) = view vp s := by
  unfold headsForget
  simp [h_hdp]

@[simp] theorem cancelMarks_view {vp : Part} (s : State) (i : Fin 512) (h_led : vp ≠ .led) (h_hdp : vp ≠ .hdp) :
    view vp (cancelMarks s i) = view vp s := by
  unfold cancelMarks
  simp [h_led, h_hdp]

@[simp] theorem ownPolygons_view {vp : Part} (s : State) (h_mot : vp ≠ .mot) :
    view vp (ownPolygons s) = view vp s := by
  unfold ownPolygons
  simp [h_mot]

@[simp] theorem releaseUnits_view {vp : Part} (s : State) (h_seq : vp ≠ .seq) (h_axs : vp ≠ .axs) (h_mot : vp ≠ .mot) :
    view vp (releaseUnits s) = view vp s := by
  unfold releaseUnits
  simp [h_seq, h_axs, h_mot]

@[simp] theorem freeEntry_view {vp : Part} (s : State) (i : Fin 512) (h_led : vp ≠ .led) (h_cad : vp ≠ .cad)
    (h_hdp : vp ≠ .hdp) :
    view vp (freeEntry s i) = view vp s := by
  unfold freeEntry
  (repeat' split) <;> simp [h_led, h_cad, h_hdp]

@[simp] theorem setRecorded_view {vp : Part} (s : State) (i : Fin 512) (idx : Option Nat) (h_led : vp ≠ .led)
    (h_cad : vp ≠ .cad) (h_hdp : vp ≠ .hdp) :
    view vp (setRecorded s i idx) = view vp s := by
  unfold setRecorded
  simp [h_led, h_cad, h_hdp]

@[simp] theorem recordSheet_view {vp : Part} (s : State) (i : Fin 512) (h_led : vp ≠ .led) (h_cad : vp ≠ .cad)
    (h_hdp : vp ≠ .hdp) (h_jnl : vp ≠ .jnl) (h_flt : vp ≠ .flt) :
    view vp (recordSheet s i) = view vp s := by
  unfold recordSheet
  (repeat' split) <;> simp [h_led, h_cad, h_hdp, h_jnl, h_flt]

@[simp] theorem overspeedRun_view {vp : Part} (s : State) (i : Fin 512) (e : Sheet) (h_seq : vp ≠ .seq)
    (h_flt : vp ≠ .flt) :
    view vp (overspeedRun s i e) = view vp s := by
  unfold overspeedRun
  simp [h_seq, h_flt] <;> (repeat' split) <;> simp_all

@[simp] theorem completeSheet_view {vp : Part} (s : State) (i : Fin 512) (h_led : vp ≠ .led) (h_cad : vp ≠ .cad)
    (h_hdp : vp ≠ .hdp) (h_jnl : vp ≠ .jnl) (h_seq : vp ≠ .seq) (h_axs : vp ≠ .axs) (h_mot : vp ≠ .mot)
    (h_flt : vp ≠ .flt) :
    view vp (completeSheet s i) = view vp s := by
  unfold completeSheet
  (repeat' split) <;> simp [h_led, h_cad, h_hdp, h_jnl, h_seq, h_axs, h_mot, h_flt]

@[simp] theorem completeSpoiled_view {vp : Part} (s : State) (i : Fin 512) (r : Spoil) (h_led : vp ≠ .led)
    (h_cad : vp ≠ .cad) (h_stp : vp ≠ .stp) (h_hdp : vp ≠ .hdp) (h_jnl : vp ≠ .jnl) (h_seq : vp ≠ .seq)
    (h_axs : vp ≠ .axs) (h_mot : vp ≠ .mot) (h_flt : vp ≠ .flt) :
    view vp (completeSpoiled s i r) = view vp s := by
  unfold completeSpoiled
  simp [h_led, h_cad, h_stp, h_hdp, h_jnl, h_seq, h_axs, h_mot, h_flt]

@[simp] theorem spoilStation_view {vp : Part} (s : State) (k : Nat) (r : Spoil) (h_led : vp ≠ .led) :
    view vp (spoilStation s k r) = view vp s := by
  unfold spoilStation
  simp [h_led]

@[simp] theorem spoilHead_view {vp : Part} (s : State) (h : Nat) (r : Spoil) (h_led : vp ≠ .led) :
    view vp (spoilHead s h r) = view vp s := by
  unfold spoilHead
  simp [h_led]

@[simp] theorem slotsOff_view {vp : Part} (s : State) (kinds : List Nat) (h_ctl : vp ≠ .ctl) :
    view vp (slotsOff s kinds) = view vp s := by
  unfold slotsOff
  simp [h_ctl]

@[simp] theorem motorSlotOff_view {vp : Part} (s : State) (m : Fin 10) (h_ctl : vp ≠ .ctl) :
    view vp (motorSlotOff s m) = view vp s := by
  unfold motorSlotOff
  (repeat' split) <;> simp [h_ctl]

@[simp] theorem motorSlotManual_view {vp : Part} (s : State) (m : Fin 10) (current : Nat) (h_ctl : vp ≠ .ctl) :
    view vp (motorSlotManual s m current) = view vp s := by
  unfold motorSlotManual
  (repeat' split) <;> simp [h_ctl]

@[simp] theorem motorSlotLaw_view {vp : Part} (s : State) (m : Fin 10) (h_ctl : vp ≠ .ctl) :
    view vp (motorSlotLaw s m) = view vp s := by
  unfold motorSlotLaw
  (repeat' split) <;> simp [h_ctl]

@[simp] theorem motorSlotKeep_view {vp : Part} (s : State) (m : Fin 10) (h_ctl : vp ≠ .ctl) :
    view vp (motorSlotKeep s m) = view vp s := by
  unfold motorSlotKeep
  (repeat' split) <;> simp [h_ctl]

@[simp] theorem motorSlotTarget_view {vp : Part} (s : State) (m : Fin 10) (speed : Nat) (h_ctl : vp ≠ .ctl) :
    view vp (motorSlotTarget s m speed) = view vp s := by
  unfold motorSlotTarget
  (repeat' split) <;> simp [h_ctl]

@[simp] theorem hvUpdate_view {vp : Part} (s : State) (h_ctl : vp ≠ .ctl) :
    view vp (hvUpdate s) = view vp s := by
  unfold hvUpdate
  simp [h_ctl]

@[simp] theorem hvLeavesOff_view {vp : Part} (s : State) (h_pins : vp ≠ .pins) :
    view vp (hvLeavesOff s) = view vp s := by
  unfold hvLeavesOff
  simp [h_pins]

@[simp] theorem headLeaves_view {vp : Part} (s : State) (h : Fin 8) (new : HeadState) (h_hdp : vp ≠ .hdp)
    (h_flt : vp ≠ .flt) :
    view vp (headLeaves s h new) = view vp s := by
  unfold headLeaves
  simp [h_hdp, h_flt]

@[simp] theorem fenceHead_view {vp : Part} (s : State) (h : Fin 8) (h_hdp : vp ≠ .hdp) (h_flt : vp ≠ .flt) :
    view vp (fenceHead s h) = view vp s := by
  unfold fenceHead
  simp [h_hdp, h_flt]

@[simp] theorem unfenceHead_view {vp : Part} (s : State) (h : Fin 8) (h_hdp : vp ≠ .hdp) :
    view vp (unfenceHead s h) = view vp s := by
  unfold unfenceHead
  simp [h_hdp]

@[simp] theorem capHead_view {vp : Part} (s : State) (h : Fin 8) (cap : Bool) (h_hdp : vp ≠ .hdp) :
    view vp (capHead s h cap) = view vp s := by
  unfold capHead
  simp [h_hdp]

@[simp] theorem coast_view {vp : Part} (s : State) (m : Fin 10) (h_mot : vp ≠ .mot) (h_ctl : vp ≠ .ctl) :
    view vp (coast s m) = view vp s := by
  unfold coast
  (repeat' split) <;> simp [h_mot, h_ctl]

@[simp] theorem fenceMotor_view {vp : Part} (s : State) (m : Fin 10) (h_mot : vp ≠ .mot) (h_ctl : vp ≠ .ctl) :
    view vp (fenceMotor s m) = view vp s := by
  unfold fenceMotor
  simp [h_mot, h_ctl]

@[simp] theorem overMotors_view {vp : Part} (s : State) (f : State → Fin 10 → State)
    (hf : ∀ u a, view vp (f u a) = view vp u) :
    view vp (overMotors s f) = view vp s := by
  unfold overMotors
  simp [hf]

@[simp] theorem startMotor_view {vp : Part} (s : State) (m : Fin 10) (speed : Nat) (h_mot : vp ≠ .mot)
    (h_ctl : vp ≠ .ctl) :
    view vp (startMotor s m speed) = view vp s := by
  unfold startMotor
  simp [h_mot, h_ctl]

@[simp] theorem setSpeed_view {vp : Part} (s : State) (m : Fin 10) (speed : Nat) (h_mot : vp ≠ .mot)
    (h_ctl : vp ≠ .ctl) :
    view vp (setSpeed s m speed) = view vp s := by
  unfold setSpeed
  simp [h_mot, h_ctl]

@[simp] theorem controlledStop_view {vp : Part} (s : State) (m : Fin 10) (h_mot : vp ≠ .mot) (h_ctl : vp ≠ .ctl) :
    view vp (controlledStop s m) = view vp s := by
  unfold controlledStop
  (repeat' split) <;> simp [h_mot, h_ctl]

@[simp] theorem saturation_view {vp : Part} (s : State) (n : Fin 160) (l : Loop) (h_ctl : vp ≠ .ctl)
    (h_flt : vp ≠ .flt) :
    view vp (saturation s n l) = view vp s := by
  unfold saturation
  simp [h_ctl, h_flt]

@[simp] theorem driveInner_view {vp : Part} (s : State) (l : Loop) (h_ctl : vp ≠ .ctl) :
    view vp (driveInner s l) = view vp s := by
  unfold driveInner
  simp [h_ctl]

theorem guardedOff_view {vp : Part} (s : State) (n : Fin 160) (l : Loop) (code : Nat) (y : Int) (t : State) (h : guardedOff s n l code y = some t) (h_ctl : vp ≠ .ctl) (h_flt : vp ≠ .flt) :
    view vp t = view vp s := by
  unfold guardedOff at h
  dsimp only at h
  (repeat' split at h) <;> simp at h <;> subst h <;> simp [h_ctl, h_flt]

@[simp] theorem applyOut_view {vp : Part} (s : State) (l : Loop) (h_mot : vp ≠ .mot) (h_ctl : vp ≠ .ctl) :
    view vp (applyOut s l) = view vp s := by
  unfold applyOut
  simp [h_mot, h_ctl]

@[simp] theorem idleRefs_view {vp : Part} (s : State) (h_ctl : vp ≠ .ctl) :
    view vp (idleRefs s) = view vp s := by
  unfold idleRefs
  simp [h_ctl]

@[simp] theorem evaluateSlot_view {vp : Part} (s : State) (n : Fin 160) (code : Nat) (raw : Int) (event : Bool) (h_pins : vp ≠ .pins) (h_mot : vp ≠ .mot) (h_ctl : vp ≠ .ctl) (h_flt : vp ≠ .flt) :
    view vp (evaluateSlot s n code raw event) = view vp s := by
  unfold evaluateSlot
  dsimp only
  split
  · rename_i t h; simp [guardedOff_view _ _ _ _ _ _ h, h_pins, h_mot, h_ctl, h_flt]
  · (repeat' split) <;> simp [h_pins, h_mot, h_ctl, h_flt]

@[simp] theorem missSlot_view {vp : Part} (s : State) (n : Fin 160) (h_ctl : vp ≠ .ctl) (h_flt : vp ≠ .flt) :
    view vp (missSlot s n) = view vp s := by
  unfold missSlot
  simp [h_ctl, h_flt]

@[simp] theorem finishParked_view {vp : Part} (s : State) (k : Nat) (r : Reply) (h_out : vp ≠ .out) (h_hif : vp ≠ .hif)
    (h_mgt : vp ≠ .mgt) (h_sup : vp ≠ .sup) (h_ktl : vp ≠ .ktl) (h_flt : vp ≠ .flt) :
    view vp (finishParked s k r) = view vp s := by
  unfold finishParked
  (repeat' split) <;> simp [h_out, h_hif, h_mgt, h_sup, h_ktl, h_flt]

@[simp] theorem modLane_view {vp : Part} (s : State) (id : LaneId) (g : Lane → Lane) (h_cdc : vp ≠ .cdc) :
    view vp (modLane s id g) = view vp s := by
  unfold modLane
  (repeat' split) <;> simp [h_cdc]

@[simp] theorem laneRaise_view {vp : Part} (s : State) (id : LaneId) (cause : Nat) (h_cdc : vp ≠ .cdc)
    (h_flt : vp ≠ .flt) :
    view vp (laneRaise s id cause) = view vp s := by
  unfold laneRaise
  simp [h_cdc, h_flt]

@[simp] theorem cutRun_view {vp : Part} (s : State) (id : LaneId) (r : Res) (h_out : vp ≠ .out) (h_hif : vp ≠ .hif)
    (h_mgt : vp ≠ .mgt) (h_sup : vp ≠ .sup) (h_ktl : vp ≠ .ktl) (h_cdc : vp ≠ .cdc) (h_flt : vp ≠ .flt) :
    view vp (cutRun s id r) = view vp s := by
  unfold cutRun
  simp [h_out, h_hif, h_mgt, h_sup, h_ktl, h_cdc, h_flt] <;> (repeat' split) <;> simp_all

@[simp] theorem poolCheck_view {vp : Part} (before : State) (s : State) (h_flt : vp ≠ .flt) :
    view vp (poolCheck before s) = view vp s := by
  unfold poolCheck
  simp [h_flt]

@[simp] theorem standbyRun_view {vp : Part} (s : State) (id : LaneId) (h_free : vp ≠ .free) (h_out : vp ≠ .out)
    (h_hif : vp ≠ .hif) (h_mgt : vp ≠ .mgt) (h_sup : vp ≠ .sup) (h_ktl : vp ≠ .ktl) (h_cdc : vp ≠ .cdc)
    (h_flt : vp ≠ .flt) :
    view vp (standbyRun s id) = view vp s := by
  unfold standbyRun
  (repeat' split) <;> simp [h_free, h_out, h_hif, h_mgt, h_sup, h_ktl, h_cdc, h_flt]

@[simp] theorem modBand_view {vp : Part} (s : State) (k : Fin 6) (b : Nat) (g : Band → Band) (h_stp : vp ≠ .stp) :
    view vp (modBand s k b g) = view vp s := by
  unfold modBand
  simp [h_stp]

@[simp] theorem panicUpdate_view {vp : Part} (s : State) (h_stp : vp ≠ .stp) (h_flt : vp ≠ .flt) :
    view vp (panicUpdate s) = view vp s := by
  unfold panicUpdate
  simp [h_stp, h_flt]

@[simp] theorem attemptOver_view {vp : Part} (s : State) (job : Word) (key : Word) (h_cad : vp ≠ .cad) :
    view vp (attemptOver s job key) = view vp s := by
  unfold attemptOver
  simp [h_cad]

@[simp] theorem blankBand_view {vp : Part} (s : State) (k : Fin 6) (i : Nat) (r : Spoil) (outcome : Nat)
    (h_led : vp ≠ .led) (h_stp : vp ≠ .stp) (h_flt : vp ≠ .flt) :
    view vp (blankBand s k i r outcome) = view vp s := by
  unfold blankBand
  (repeat' split) <;> simp [h_led, h_stp, h_flt]

@[simp] theorem migrateFrom_view {vp : Part} (s : State) (lane : Fin 16) (h_cad : vp ≠ .cad) (h_cdc : vp ≠ .cdc)
    (h_stp : vp ≠ .stp) :
    view vp (migrateFrom s lane) = view vp s := by
  unfold migrateFrom
  (repeat' split) <;> simp [h_cad, h_cdc, h_stp]

@[simp] theorem staleReport_view {vp : Part} (s : State) (written : Nat) (h_free : vp ≠ .free) (h_stp : vp ≠ .stp) :
    view vp (staleReport s written) = view vp s := by
  unfold staleReport
  simp [h_free, h_stp]

@[simp] theorem abandonAll_view {vp : Part} (s : State) (h_cad : vp ≠ .cad) (h_stp : vp ≠ .stp) (h_flt : vp ≠ .flt) :
    view vp (abandonAll s) = view vp s := by
  unfold abandonAll
  simp [h_cad, h_stp, h_flt]

@[simp] theorem startSynth_view {vp : Part} (s : State) (k : Fin 6) (b : List Byte) (h_clk : vp ≠ .clk) :
    view vp (startSynth s k b) = view vp s := by
  unfold startSynth
  simp [h_clk]

@[simp] theorem changeSynth_view {vp : Part} (s : State) (k : Fin 6) (h_clk : vp ≠ .clk) :
    view vp (changeSynth s k) = view vp s := by
  unfold changeSynth
  simp [h_clk]

@[simp] theorem synthCycle_view {vp : Part} (s : State) (h_clk : vp ≠ .clk) :
    view vp (synthCycle s) = view vp s := by
  unfold synthCycle
  simp [h_clk]

@[simp] theorem noTrim_view {vp : Part} (s : State) (k : Fin 6) (h_clk : vp ≠ .clk) :
    view vp (noTrim s k) = view vp s := by
  unfold noTrim
  simp [h_clk]

@[simp] theorem stopSynth_view {vp : Part} (s : State) (k : Fin 6) (h_clk : vp ≠ .clk) :
    view vp (stopSynth s k) = view vp s := by
  unfold stopSynth
  simp [h_clk]

@[simp] theorem stationOff_view {vp : Part} (s : State) (k : Fin 6) (withSynth : Bool) (h_clk : vp ≠ .clk)
    (h_btu : vp ≠ .btu) :
    view vp (stationOff s k withSynth) = view vp s := by
  unfold stationOff
  simp [h_clk, h_btu]

@[simp] theorem releaseStation_view {vp : Part} (s : State) (k : Fin 6) (h_clk : vp ≠ .clk) (h_btu : vp ≠ .btu)
    (h_ctl : vp ≠ .ctl) :
    view vp (releaseStation s k) = view vp s := by
  unfold releaseStation
  simp [h_clk, h_btu, h_ctl]

@[simp] theorem lightBeams_view {vp : Part} (s : State) (k : Fin 6) (h_btu : vp ≠ .btu) :
    view vp (lightBeams s k) = view vp s := by
  unfold lightBeams
  simp [h_btu]

@[simp] theorem lightAll_view {vp : Part} (s : State) (h_btu : vp ≠ .btu) :
    view vp (lightAll s) = view vp s := by
  unfold lightAll
  simp [h_btu]

@[simp] theorem sendFrame_view {vp : Part} (s : State) (k : Fin 6) (beam : Fin 16) (h_out : vp ≠ .out) :
    view vp (sendFrame s k beam) = view vp s := by
  unfold sendFrame
  simp [h_out]

@[simp] theorem sendLevel_view {vp : Part} (s : State) (k : Fin 6) (beam : Fin 16) (level : Nat) (h_out : vp ≠ .out)
    (h_btu : vp ≠ .btu) :
    view vp (sendLevel s k beam level) = view vp s := by
  unfold sendLevel
  simp [h_out, h_btu]

@[simp] theorem enterSearch_view {vp : Part} (s : State) (k : Fin 6) (h_out : vp ≠ .out) (h_clk : vp ≠ .clk)
    (h_btu : vp ≠ .btu) :
    view vp (enterSearch s k) = view vp s := by
  unfold enterSearch
  simp [h_out, h_clk, h_btu]

@[simp] theorem spinDone_view {vp : Part} (s : State) (k : Fin 6) (h_out : vp ≠ .out) (h_clk : vp ≠ .clk)
    (h_btu : vp ≠ .btu) :
    view vp (spinDone s k) = view vp s := by
  unfold spinDone
  simp [h_out, h_clk, h_btu]

@[simp] theorem interlock_view {vp : Part} (s : State) (k : Fin 6) (cond : Nat) (h_clk : vp ≠ .clk) (h_led : vp ≠ .led)
    (h_btu : vp ≠ .btu) (h_flt : vp ≠ .flt) :
    view vp (interlock s k cond) = view vp s := by
  unfold interlock
  simp [h_clk, h_led, h_btu, h_flt]

@[simp] theorem fenceStation_view {vp : Part} (s : State) (k : Fin 6) (h_clk : vp ≠ .clk) (h_led : vp ≠ .led)
    (h_btu : vp ≠ .btu) :
    view vp (fenceStation s k) = view vp s := by
  unfold fenceStation
  simp [h_clk, h_led, h_btu]

@[simp] theorem bdLost_view {vp : Part} (s : State) (k : Fin 6) (h_out : vp ≠ .out) (h_clk : vp ≠ .clk)
    (h_led : vp ≠ .led) (h_btu : vp ≠ .btu) (h_flt : vp ≠ .flt) :
    view vp (bdLost s k) = view vp s := by
  unfold bdLost
  simp [h_out, h_clk, h_led, h_btu, h_flt]

@[simp] theorem overAxes_view {vp : Part} (s : State) (f : State → Fin 16 → State)
    (hf : ∀ u a, view vp (f u a) = view vp u) :
    view vp (overAxes s f) = view vp s := by
  unfold overAxes
  apply view_foldl; intro u x; (repeat' split) <;> simp [hf]

@[simp] theorem axisEnded_view {vp : Part} (s : State) (a : Fin 16) (cause : Nat) (h_axs : vp ≠ .axs)
    (h_flt : vp ≠ .flt) :
    view vp (axisEnded s a cause) = view vp s := by
  unfold axisEnded
  simp [h_axs, h_flt]

@[simp] theorem axisCut_view {vp : Part} (s : State) (a : Fin 16) (h_axs : vp ≠ .axs) (h_flt : vp ≠ .flt) :
    view vp (axisCut s a) = view vp s := by
  unfold axisCut
  (repeat' split) <;> simp [h_axs, h_flt]

@[simp] theorem axisFlag_view {vp : Part} (s : State) (a : Fin 16) (k : Nat) (h_axs : vp ≠ .axs) (h_flt : vp ≠ .flt) :
    view vp (axisFlag s a k) = view vp s := by
  unfold axisFlag
  simp [h_axs, h_flt]

@[simp] theorem targetReached_view {vp : Part} (s : State) (a : Fin 16) (h_axs : vp ≠ .axs) (h_flt : vp ≠ .flt) :
    view vp (targetReached s a) = view vp s := by
  unfold targetReached
  simp [h_axs, h_flt] <;> (repeat' split) <;> simp_all

@[simp] theorem reachedFirst_view {vp : Part} (s : State) (a : Fin 16) (h_axs : vp ≠ .axs) (h_flt : vp ≠ .flt) :
    view vp (reachedFirst s a) = view vp s := by
  unfold reachedFirst
  simp [h_axs, h_flt]

@[simp] theorem stopAxisAtOnce_view {vp : Part} (s : State) (a : Fin 16) (h_axs : vp ≠ .axs) (h_flt : vp ≠ .flt) :
    view vp (stopAxisAtOnce s a) = view vp s := by
  unfold stopAxisAtOnce
  simp [h_axs, h_flt]

@[simp] theorem disableAxis_view {vp : Part} (s : State) (a : Fin 16) (h_axs : vp ≠ .axs) (h_flt : vp ≠ .flt) :
    view vp (disableAxis s a) = view vp s := by
  unfold disableAxis
  simp [h_axs, h_flt]

@[simp] theorem haltAxis_view {vp : Part} (s : State) (a : Fin 16) (h_axs : vp ≠ .axs) (h_flt : vp ≠ .flt) :
    view vp (haltAxis s a) = view vp s := by
  unfold haltAxis
  simp [h_axs, h_flt]

@[simp] theorem rampAxis_view {vp : Part} (s : State) (a : Fin 16) (thenDisable : Bool) (h_axs : vp ≠ .axs) :
    view vp (rampAxis s a thenDisable) = view vp s := by
  unfold rampAxis
  (repeat' split) <;> simp [h_axs]

@[simp] theorem rampGroup_view {vp : Part} (s : State) (a : Fin 16) (thenDisable : Bool) (h_axs : vp ≠ .axs) :
    view vp (rampGroup s a thenDisable) = view vp s := by
  unfold rampGroup
  simp [h_axs]

@[simp] theorem stopGroup_view {vp : Part} (s : State) (a : Fin 16) (h_axs : vp ≠ .axs) (h_flt : vp ≠ .flt) :
    view vp (stopGroup s a) = view vp s := by
  unfold stopGroup
  simp [h_axs, h_flt]

@[simp] theorem startMove_view {vp : Part} (s : State) (a : Fin 16) (m : Move) (target : Int) (h_axs : vp ≠ .axs) :
    view vp (startMove s a m target) = view vp s := by
  unfold startMove
  simp [h_axs]

@[simp] theorem ownMove_view {vp : Part} (s : State) (a : Nat) (target : Int) (h_axs : vp ≠ .axs) :
    view vp (ownMove s a target) = view vp s := by
  unfold ownMove
  simp [h_axs]

@[simp] theorem laneDone_view {vp : Part} (s : State) (d : Ingest) (st : Status) (h_cdc : vp ≠ .cdc) :
    view vp (laneDone s d st) = view vp s := by
  unfold laneDone
  (repeat' split) <;> simp [h_cdc]

@[simp] theorem completeIngest_view {vp : Part} (s : State) (d : Ingest) (r : IgRes) (h_out : vp ≠ .out)
    (h_hif : vp ≠ .hif) (h_cad : vp ≠ .cad) (h_cdc : vp ≠ .cdc) (h_flt : vp ≠ .flt) :
    view vp (completeIngest s d r) = view vp s := by
  unfold completeIngest
  simp [h_out, h_hif, h_cad, h_cdc, h_flt]

@[simp] theorem caddyLow_view {vp : Part} (s : State) (h_cad : vp ≠ .cad) (h_flt : vp ≠ .flt) :
    view vp (caddyLow s) = view vp s := by
  unfold caddyLow
  simp [h_cad, h_flt]

@[simp] theorem stopIngest_view {vp : Part} (s : State) (h_out : vp ≠ .out) (h_hif : vp ≠ .hif) (h_cad : vp ≠ .cad)
    (h_cdc : vp ≠ .cdc) (h_flt : vp ≠ .flt) :
    view vp (stopIngest s) = view vp s := by
  unfold stopIngest
  simp [h_out, h_hif, h_cad, h_cdc, h_flt]

@[simp] theorem takeEncodeLane_view {vp : Part} (s : State) (d : Ingest) (h_out : vp ≠ .out) (h_hif : vp ≠ .hif)
    (h_cad : vp ≠ .cad) (h_cdc : vp ≠ .cdc) (h_drc : vp ≠ .drc) (h_flt : vp ≠ .flt) :
    view vp (takeEncodeLane s d) = view vp s := by
  unfold takeEncodeLane
  simp [h_out, h_hif, h_cad, h_cdc, h_drc, h_flt] <;> (repeat' split) <;> simp_all

@[simp] theorem encodeWaiting_view {vp : Part} (s : State) (h_out : vp ≠ .out) (h_hif : vp ≠ .hif) (h_cad : vp ≠ .cad)
    (h_cdc : vp ≠ .cdc) (h_drc : vp ≠ .drc) (h_flt : vp ≠ .flt) :
    view vp (encodeWaiting s) = view vp s := by
  unfold encodeWaiting
  apply view_foldl; intro u x; (repeat' split) <;> simp [h_out, h_hif, h_cad, h_cdc, h_drc, h_flt]

@[simp] theorem rerunIngest_view {vp : Part} (s : State) (n : Fin 12) (selfVerify : Bool) (h_out : vp ≠ .out)
    (h_hif : vp ≠ .hif) (h_cad : vp ≠ .cad) (h_cdc : vp ≠ .cdc) (h_drc : vp ≠ .drc) (h_flt : vp ≠ .flt) :
    view vp (rerunIngest s n selfVerify) = view vp s := by
  unfold rerunIngest
  simp [h_out, h_hif, h_cad, h_cdc, h_drc, h_flt]

@[simp] theorem fenceLane_view {vp : Part} (s : State) (id : LaneId) (h_out : vp ≠ .out) (h_hif : vp ≠ .hif)
    (h_mgt : vp ≠ .mgt) (h_sup : vp ≠ .sup) (h_ktl : vp ≠ .ktl) (h_cad : vp ≠ .cad) (h_cdc : vp ≠ .cdc)
    (h_stp : vp ≠ .stp) (h_drc : vp ≠ .drc) (h_flt : vp ≠ .flt) :
    view vp (fenceLane s id) = view vp s := by
  unfold fenceLane
  simp [h_out, h_hif, h_mgt, h_sup, h_ktl, h_cad, h_cdc, h_stp, h_drc, h_flt] <;> (repeat' split) <;> simp_all

@[simp] theorem unfenceLane_view {vp : Part} (s : State) (id : LaneId) (h_cdc : vp ≠ .cdc) :
    view vp (unfenceLane s id) = view vp s := by
  unfold unfenceLane
  simp [h_cdc]

@[simp] theorem gateLanes_view {vp : Part} (s : State) (h_free : vp ≠ .free) (h_out : vp ≠ .out) (h_hif : vp ≠ .hif)
    (h_mgt : vp ≠ .mgt) (h_sup : vp ≠ .sup) (h_ktl : vp ≠ .ktl) (h_cdc : vp ≠ .cdc) (h_flt : vp ≠ .flt) :
    view vp (gateLanes s) = view vp s := by
  unfold gateLanes
  simp [h_free, h_out, h_hif, h_mgt, h_sup, h_ktl, h_cdc, h_flt]

@[simp] theorem ungateLanes_view {vp : Part} (s : State) (h_cdc : vp ≠ .cdc) :
    view vp (ungateLanes s) = view vp s := by
  unfold ungateLanes
  simp [h_cdc]

@[simp] theorem whenUp_view {vp : Part} (s : State) (f : State → State) (hf : ∀ u, view vp (f u) = view vp u) :
    view vp (whenUp s f) = view vp s := by
  unfold whenUp
  simp [hf]

@[simp] theorem endInjection_view {vp : Part} (s : State) (h_flt : vp ≠ .flt) :
    view vp (endInjection s) = view vp s := by
  unfold endInjection
  (repeat' split) <;> simp [h_flt]

@[simp] theorem injected_view {vp : Part} (before : State) (src : Nat) (s : State) (h_flt : vp ≠ .flt) :
    view vp (injected before src s) = view vp s := by
  unfold injected
  (repeat' split) <;> simp [h_flt]

@[simp] theorem enterMode_view {vp : Part} (s : State) (m : Mode) (h_sys : vp ≠ .sys) (h_ctl : vp ≠ .ctl)
    (h_flt : vp ≠ .flt) :
    view vp (enterMode s m) = view vp s := by
  unfold enterMode
  simp [h_sys, h_ctl, h_flt]

@[simp] theorem aliveUpdate_view {vp : Part} (s : State) (h_pins : vp ≠ .pins) :
    view vp (aliveUpdate s) = view vp s := by
  unfold aliveUpdate
  simp [h_pins]

@[simp] theorem raiseMany_view {vp : Part} (s : State) (src : Nat) (detail : Nat) (count : Nat) (h_flt : vp ≠ .flt) :
    view vp (raiseMany s src detail count) = view vp s := by
  unfold raiseMany
  simp [h_flt]

@[simp] theorem selfFence_view {vp : Part} (s : State) (src : Nat) (h_flt : vp ≠ .flt) :
    view vp (selfFence s src) = view vp s := by
  unfold selfFence
  simp [h_flt]

@[simp] theorem haltOutputs_view {vp : Part} (s : State) (h_pins : vp ≠ .pins) (h_btu : vp ≠ .btu) (h_axs : vp ≠ .axs)
    (h_mot : vp ≠ .mot) (h_ctl : vp ≠ .ctl) (h_flt : vp ≠ .flt) :
    view vp (haltOutputs s) = view vp s := by
  unfold haltOutputs
  simp [h_pins, h_btu, h_axs, h_mot, h_ctl, h_flt]

@[simp] theorem spoilCommitted_view {vp : Part} (s : State) (r : Spoil) (h_led : vp ≠ .led) (h_cad : vp ≠ .cad)
    (h_stp : vp ≠ .stp) (h_hdp : vp ≠ .hdp) (h_jnl : vp ≠ .jnl) (h_seq : vp ≠ .seq) (h_axs : vp ≠ .axs)
    (h_mot : vp ≠ .mot) (h_flt : vp ≠ .flt) :
    view vp (spoilCommitted s r) = view vp s := by
  unfold spoilCommitted
  simp [h_led, h_cad, h_stp, h_hdp, h_jnl, h_seq, h_axs, h_mot, h_flt]

@[simp] theorem leaveFourth_view {vp : Part} (s : State) (h_clk : vp ≠ .clk) (h_ctl : vp ≠ .ctl) :
    view vp (leaveFourth s) = view vp s := by
  unfold leaveFourth
  simp [h_clk, h_ctl]

@[simp] theorem leaveRefresh_view {vp : Part} (s : State) (h_drc : vp ≠ .drc) :
    view vp (leaveRefresh s) = view vp s := by
  unfold leaveRefresh
  simp [h_drc]

@[simp] theorem restartSynths_view {vp : Part} (s : State) (h_clk : vp ≠ .clk) :
    view vp (restartSynths s) = view vp s := by
  unfold restartSynths
  simp [h_clk]

@[simp] theorem haltFromStandby_view {vp : Part} (s : State) (h_sys : vp ≠ .sys) (h_clk : vp ≠ .clk)
    (h_ctl : vp ≠ .ctl) (h_drc : vp ≠ .drc) :
    view vp (haltFromStandby s) = view vp s := by
  unfold haltFromStandby
  simp [h_sys, h_clk, h_ctl, h_drc]

@[simp] theorem haltWith_view {vp : Part} (s : State) (r : Spoil) (h_out : vp ≠ .out) (h_sys : vp ≠ .sys)
    (h_pins : vp ≠ .pins) (h_clk : vp ≠ .clk) (h_hif : vp ≠ .hif) (h_led : vp ≠ .led) (h_cad : vp ≠ .cad)
    (h_cdc : vp ≠ .cdc) (h_stp : vp ≠ .stp) (h_btu : vp ≠ .btu) (h_hdp : vp ≠ .hdp) (h_jnl : vp ≠ .jnl)
    (h_seq : vp ≠ .seq) (h_axs : vp ≠ .axs) (h_mot : vp ≠ .mot) (h_ctl : vp ≠ .ctl) (h_drc : vp ≠ .drc)
    (h_flt : vp ≠ .flt) :
    view vp (haltWith s r) = view vp s := by
  unfold haltWith
  simp [h_out, h_sys, h_pins, h_clk, h_hif, h_led, h_cad, h_cdc, h_stp, h_btu, h_hdp, h_jnl, h_seq, h_axs, h_mot, h_ctl, h_drc, h_flt]

@[simp] theorem haltEntry_view {vp : Part} (s : State) (src : Nat) (h_out : vp ≠ .out) (h_sys : vp ≠ .sys)
    (h_pins : vp ≠ .pins) (h_clk : vp ≠ .clk) (h_hif : vp ≠ .hif) (h_led : vp ≠ .led) (h_cad : vp ≠ .cad)
    (h_cdc : vp ≠ .cdc) (h_stp : vp ≠ .stp) (h_btu : vp ≠ .btu) (h_hdp : vp ≠ .hdp) (h_jnl : vp ≠ .jnl)
    (h_seq : vp ≠ .seq) (h_axs : vp ≠ .axs) (h_mot : vp ≠ .mot) (h_ctl : vp ≠ .ctl) (h_drc : vp ≠ .drc)
    (h_flt : vp ≠ .flt) :
    view vp (haltEntry s src) = view vp s := by
  unfold haltEntry
  simp [h_out, h_sys, h_pins, h_clk, h_hif, h_led, h_cad, h_cdc, h_stp, h_btu, h_hdp, h_jnl, h_seq, h_axs, h_mot, h_ctl, h_drc, h_flt]

@[simp] theorem haltForGood_view {vp : Part} (s : State) (src : Nat) (h_out : vp ≠ .out) (h_sys : vp ≠ .sys)
    (h_pins : vp ≠ .pins) (h_clk : vp ≠ .clk) (h_hif : vp ≠ .hif) (h_led : vp ≠ .led) (h_cad : vp ≠ .cad)
    (h_cdc : vp ≠ .cdc) (h_stp : vp ≠ .stp) (h_btu : vp ≠ .btu) (h_hdp : vp ≠ .hdp) (h_jnl : vp ≠ .jnl)
    (h_seq : vp ≠ .seq) (h_axs : vp ≠ .axs) (h_mot : vp ≠ .mot) (h_ctl : vp ≠ .ctl) (h_drc : vp ≠ .drc)
    (h_flt : vp ≠ .flt) :
    view vp (haltForGood s src) = view vp s := by
  unfold haltForGood
  simp [h_out, h_sys, h_pins, h_clk, h_hif, h_led, h_cad, h_cdc, h_stp, h_btu, h_hdp, h_jnl, h_seq, h_axs, h_mot, h_ctl, h_drc, h_flt]

@[simp] theorem holdSheet_view {vp : Part} (s : State) (i : Fin 512) (h_led : vp ≠ .led) (h_stp : vp ≠ .stp)
    (h_flt : vp ≠ .flt) :
    view vp (holdSheet s i) = view vp s := by
  unfold holdSheet
  simp [h_led, h_stp, h_flt]

@[simp] theorem holdPhase_view {vp : Part} (s : State) (a : Fin 16) (t : Nat) (h_axs : vp ≠ .axs) :
    view vp (holdPhase s a t) = view vp s := by
  unfold holdPhase
  simp [h_axs]

@[simp] theorem runoutWith_view {vp : Part} (s : State) (h_sys : vp ≠ .sys) (h_led : vp ≠ .led) (h_stp : vp ≠ .stp)
    (h_seq : vp ≠ .seq) (h_axs : vp ≠ .axs) (h_ctl : vp ≠ .ctl) (h_flt : vp ≠ .flt) :
    view vp (runoutWith s) = view vp s := by
  unfold runoutWith
  simp [h_sys, h_led, h_stp, h_seq, h_axs, h_ctl, h_flt]

@[simp] theorem runoutEntry_view {vp : Part} (s : State) (src : Nat) (h_sys : vp ≠ .sys) (h_led : vp ≠ .led)
    (h_stp : vp ≠ .stp) (h_seq : vp ≠ .seq) (h_axs : vp ≠ .axs) (h_ctl : vp ≠ .ctl) (h_flt : vp ≠ .flt) :
    view vp (runoutEntry s src) = view vp s := by
  unfold runoutEntry
  simp [h_sys, h_led, h_stp, h_seq, h_axs, h_ctl, h_flt]

@[simp] theorem beforeStop_view {vp : Part} (s : State) (h_led : vp ≠ .led) (h_cad : vp ≠ .cad) (h_hdp : vp ≠ .hdp)
    (h_jnl : vp ≠ .jnl) (h_seq : vp ≠ .seq) (h_axs : vp ≠ .axs) (h_mot : vp ≠ .mot) (h_flt : vp ≠ .flt) :
    view vp (beforeStop s) = view vp s := by
  unfold beforeStop
  simp [h_led, h_cad, h_hdp, h_jnl, h_seq, h_axs, h_mot, h_flt]

@[simp] theorem gearPath_view {vp : Part} (s : State) (h_axs : vp ≠ .axs) :
    view vp (gearPath s) = view vp s := by
  unfold gearPath
  simp [h_axs]

@[simp] theorem pathStop_view {vp : Part} (s : State) (r : Spoil) (sensor : Nat) (kind : Nat) (sheet : Nat)
    (count : Nat) (h_sys : vp ≠ .sys) (h_led : vp ≠ .led) (h_cad : vp ≠ .cad) (h_stp : vp ≠ .stp) (h_hdp : vp ≠ .hdp)
    (h_jnl : vp ≠ .jnl) (h_seq : vp ≠ .seq) (h_axs : vp ≠ .axs) (h_mot : vp ≠ .mot) (h_ctl : vp ≠ .ctl)
    (h_flt : vp ≠ .flt) :
    view vp (pathStop s r sensor kind sheet count) = view vp s := by
  unfold pathStop
  simp [h_sys, h_led, h_cad, h_stp, h_hdp, h_jnl, h_seq, h_axs, h_mot, h_ctl, h_flt]

@[simp] theorem ownedStop_view {vp : Part} (s : State) (h_sys : vp ≠ .sys) (h_led : vp ≠ .led) (h_cad : vp ≠ .cad)
    (h_stp : vp ≠ .stp) (h_hdp : vp ≠ .hdp) (h_jnl : vp ≠ .jnl) (h_seq : vp ≠ .seq) (h_axs : vp ≠ .axs)
    (h_mot : vp ≠ .mot) (h_ctl : vp ≠ .ctl) (h_flt : vp ≠ .flt) :
    view vp (ownedStop s) = view vp s := by
  unfold ownedStop
  simp [h_sys, h_led, h_cad, h_stp, h_hdp, h_jnl, h_seq, h_axs, h_mot, h_ctl, h_flt]

@[simp] theorem fenceAxis_view {vp : Part} (s : State) (a : Fin 16) (h_sys : vp ≠ .sys) (h_led : vp ≠ .led)
    (h_cad : vp ≠ .cad) (h_stp : vp ≠ .stp) (h_hdp : vp ≠ .hdp) (h_jnl : vp ≠ .jnl) (h_seq : vp ≠ .seq)
    (h_axs : vp ≠ .axs) (h_mot : vp ≠ .mot) (h_ctl : vp ≠ .ctl) (h_flt : vp ≠ .flt) :
    view vp (fenceAxis s a) = view vp s := by
  unfold fenceAxis
  simp [h_sys, h_led, h_cad, h_stp, h_hdp, h_jnl, h_seq, h_axs, h_mot, h_ctl, h_flt]

@[simp] theorem fenceChannel_view {vp : Part} (s : State) (m : Fin 10) (h_sys : vp ≠ .sys) (h_led : vp ≠ .led)
    (h_cad : vp ≠ .cad) (h_stp : vp ≠ .stp) (h_hdp : vp ≠ .hdp) (h_jnl : vp ≠ .jnl) (h_seq : vp ≠ .seq)
    (h_axs : vp ≠ .axs) (h_mot : vp ≠ .mot) (h_ctl : vp ≠ .ctl) (h_flt : vp ≠ .flt) :
    view vp (fenceChannel s m) = view vp s := by
  unfold fenceChannel
  simp [h_sys, h_led, h_cad, h_stp, h_hdp, h_jnl, h_seq, h_axs, h_mot, h_ctl, h_flt]

@[simp] theorem fenceSlot_view {vp : Part} (s : State) (src : Nat) (n : Fin 160) (h_ctl : vp ≠ .ctl) :
    view vp (fenceSlot s src n) = view vp s := by
  unfold fenceSlot
  simp [h_ctl]

set_option maxRecDepth 2048 in
@[simp] theorem fenceUnit_view {vp : Part} (s : State) (src : Nat) (detail : Nat) (h_out : vp ≠ .out)
    (h_sys : vp ≠ .sys) (h_clk : vp ≠ .clk) (h_hif : vp ≠ .hif) (h_mgt : vp ≠ .mgt) (h_sup : vp ≠ .sup)
    (h_ktl : vp ≠ .ktl) (h_led : vp ≠ .led) (h_cad : vp ≠ .cad) (h_cdc : vp ≠ .cdc) (h_stp : vp ≠ .stp)
    (h_btu : vp ≠ .btu) (h_hdp : vp ≠ .hdp) (h_jnl : vp ≠ .jnl) (h_seq : vp ≠ .seq) (h_axs : vp ≠ .axs)
    (h_mot : vp ≠ .mot) (h_ctl : vp ≠ .ctl) (h_drc : vp ≠ .drc) (h_flt : vp ≠ .flt) :
    view vp (fenceUnit s src detail) = view vp s := by
  unfold fenceUnit
  simp [h_out, h_sys, h_clk, h_hif, h_mgt, h_sup, h_ktl, h_led, h_cad, h_cdc, h_stp, h_btu, h_hdp, h_jnl, h_seq, h_axs, h_mot, h_ctl, h_drc, h_flt]

@[simp] theorem postEvent_view {vp : Part} (s : State) (src : Fin 256) (l : Level) (flags : Nat) (raises : Nat)
    (detail : Word) (position : Nat) (time : Nat) (h_out : vp ≠ .out) (h_hif : vp ≠ .hif) :
    view vp (postEvent s src l flags raises detail position time) = view vp s := by
  unfold postEvent
  simp [h_out, h_hif]

@[simp] theorem postCoalesced_view {vp : Part} (s : State) (src : Fin 256) (c : Coalesce) (first : Bool)
    (h_out : vp ≠ .out) (h_hif : vp ≠ .hif) :
    view vp (postCoalesced s src c first) = view vp s := by
  unfold postCoalesced
  simp [h_out, h_hif]

@[simp] theorem deliverEvent_view {vp : Part} (s : State) (r : Raise) (l : Level) (first : Bool) (h_out : vp ≠ .out)
    (h_hif : vp ≠ .hif) (h_flt : vp ≠ .flt) :
    view vp (deliverEvent s r l first) = view vp s := by
  unfold deliverEvent
  simp [h_out, h_hif, h_flt] <;> (repeat' split) <;> simp_all

@[simp] theorem interruption_view {vp : Part} (s : State) (r : Raise) (l : Level) (h_flt : vp ≠ .flt) :
    view vp (interruption s r l) = view vp s := by
  unfold interruption
  (repeat' split) <;> simp [h_flt]

@[simp] theorem storeRaise_view {vp : Part} (s : State) (r : Raise) (l : Level) (h_flt : vp ≠ .flt) :
    view vp (storeRaise s r l) = view vp s := by
  unfold storeRaise
  simp [h_flt]

@[simp] theorem react_view {vp : Part} (s : State) (r : Raise) (l : Level) (h_out : vp ≠ .out) (h_sys : vp ≠ .sys)
    (h_pins : vp ≠ .pins) (h_clk : vp ≠ .clk) (h_hif : vp ≠ .hif) (h_mgt : vp ≠ .mgt) (h_sup : vp ≠ .sup)
    (h_ktl : vp ≠ .ktl) (h_led : vp ≠ .led) (h_cad : vp ≠ .cad) (h_cdc : vp ≠ .cdc) (h_stp : vp ≠ .stp)
    (h_btu : vp ≠ .btu) (h_hdp : vp ≠ .hdp) (h_jnl : vp ≠ .jnl) (h_seq : vp ≠ .seq) (h_axs : vp ≠ .axs)
    (h_mot : vp ≠ .mot) (h_ctl : vp ≠ .ctl) (h_drc : vp ≠ .drc) (h_flt : vp ≠ .flt) :
    view vp (react s r l) = view vp s := by
  unfold react
  simp [h_out, h_sys, h_pins, h_clk, h_hif, h_mgt, h_sup, h_ktl, h_led, h_cad, h_cdc, h_stp, h_btu, h_hdp, h_jnl, h_seq, h_axs, h_mot, h_ctl, h_drc, h_flt]

@[simp] theorem queueAlarm_view {vp : Part} (s : State) (src : Fin 256) (h_flt : vp ≠ .flt) :
    view vp (queueAlarm s src) = view vp s := by
  unfold queueAlarm
  simp [h_flt]

@[simp] theorem recordRaise_view {vp : Part} (s : State) (r : Raise) (h_out : vp ≠ .out) (h_sys : vp ≠ .sys)
    (h_pins : vp ≠ .pins) (h_clk : vp ≠ .clk) (h_hif : vp ≠ .hif) (h_mgt : vp ≠ .mgt) (h_sup : vp ≠ .sup)
    (h_ktl : vp ≠ .ktl) (h_led : vp ≠ .led) (h_cad : vp ≠ .cad) (h_cdc : vp ≠ .cdc) (h_stp : vp ≠ .stp)
    (h_btu : vp ≠ .btu) (h_hdp : vp ≠ .hdp) (h_jnl : vp ≠ .jnl) (h_seq : vp ≠ .seq) (h_axs : vp ≠ .axs)
    (h_mot : vp ≠ .mot) (h_ctl : vp ≠ .ctl) (h_drc : vp ≠ .drc) (h_flt : vp ≠ .flt) :
    view vp (recordRaise s r) = view vp s := by
  unfold recordRaise
  simp [h_out, h_sys, h_pins, h_clk, h_hif, h_mgt, h_sup, h_ktl, h_led, h_cad, h_cdc, h_stp, h_btu, h_hdp, h_jnl, h_seq, h_axs, h_mot, h_ctl, h_drc, h_flt]

@[simp] theorem recordOldest_view {vp : Part} (s : State) (h_out : vp ≠ .out) (h_sys : vp ≠ .sys) (h_pins : vp ≠ .pins)
    (h_clk : vp ≠ .clk) (h_hif : vp ≠ .hif) (h_mgt : vp ≠ .mgt) (h_sup : vp ≠ .sup) (h_ktl : vp ≠ .ktl)
    (h_led : vp ≠ .led) (h_cad : vp ≠ .cad) (h_cdc : vp ≠ .cdc) (h_stp : vp ≠ .stp) (h_btu : vp ≠ .btu)
    (h_hdp : vp ≠ .hdp) (h_jnl : vp ≠ .jnl) (h_seq : vp ≠ .seq) (h_axs : vp ≠ .axs) (h_mot : vp ≠ .mot)
    (h_ctl : vp ≠ .ctl) (h_drc : vp ≠ .drc) (h_flt : vp ≠ .flt) :
    view vp (recordOldest s) = view vp s := by
  unfold recordOldest
  (repeat' split) <;> simp [h_out, h_sys, h_pins, h_clk, h_hif, h_mgt, h_sup, h_ktl, h_led, h_cad, h_cdc, h_stp, h_btu, h_hdp, h_jnl, h_seq, h_axs, h_mot, h_ctl, h_drc, h_flt]

@[simp] theorem recordAll_view {vp : Part} (s : State) (h_out : vp ≠ .out) (h_sys : vp ≠ .sys) (h_pins : vp ≠ .pins)
    (h_clk : vp ≠ .clk) (h_hif : vp ≠ .hif) (h_mgt : vp ≠ .mgt) (h_sup : vp ≠ .sup) (h_ktl : vp ≠ .ktl)
    (h_led : vp ≠ .led) (h_cad : vp ≠ .cad) (h_cdc : vp ≠ .cdc) (h_stp : vp ≠ .stp) (h_btu : vp ≠ .btu)
    (h_hdp : vp ≠ .hdp) (h_jnl : vp ≠ .jnl) (h_seq : vp ≠ .seq) (h_axs : vp ≠ .axs) (h_mot : vp ≠ .mot)
    (h_ctl : vp ≠ .ctl) (h_drc : vp ≠ .drc) (h_flt : vp ≠ .flt) :
    view vp (recordAll s) = view vp s := by
  unfold recordAll
  simp [h_out, h_sys, h_pins, h_clk, h_hif, h_mgt, h_sup, h_ktl, h_led, h_cad, h_cdc, h_stp, h_btu, h_hdp, h_jnl, h_seq, h_axs, h_mot, h_ctl, h_drc, h_flt]

@[simp] theorem strayCheck_view {vp : Part} (s : State) (h_sys : vp ≠ .sys) (h_led : vp ≠ .led) (h_cad : vp ≠ .cad)
    (h_stp : vp ≠ .stp) (h_hdp : vp ≠ .hdp) (h_jnl : vp ≠ .jnl) (h_seq : vp ≠ .seq) (h_axs : vp ≠ .axs)
    (h_mot : vp ≠ .mot) (h_ctl : vp ≠ .ctl) (h_flt : vp ≠ .flt) :
    view vp (strayCheck s) = view vp s := by
  unfold strayCheck
  simp [h_sys, h_led, h_cad, h_stp, h_hdp, h_jnl, h_seq, h_axs, h_mot, h_ctl, h_flt] <;> (repeat' split) <;> simp_all

@[simp] theorem enterReady_view {vp : Part} (s : State) (h_sys : vp ≠ .sys) (h_led : vp ≠ .led) (h_cad : vp ≠ .cad)
    (h_stp : vp ≠ .stp) (h_hdp : vp ≠ .hdp) (h_jnl : vp ≠ .jnl) (h_seq : vp ≠ .seq) (h_axs : vp ≠ .axs)
    (h_mot : vp ≠ .mot) (h_ctl : vp ≠ .ctl) (h_flt : vp ≠ .flt) :
    view vp (enterReady s) = view vp s := by
  unfold enterReady
  simp [h_sys, h_led, h_cad, h_stp, h_hdp, h_jnl, h_seq, h_axs, h_mot, h_ctl, h_flt]

@[simp] theorem settle_view {vp : Part} (s : State) (h_sys : vp ≠ .sys) (h_led : vp ≠ .led) (h_cad : vp ≠ .cad)
    (h_stp : vp ≠ .stp) (h_hdp : vp ≠ .hdp) (h_jnl : vp ≠ .jnl) (h_seq : vp ≠ .seq) (h_axs : vp ≠ .axs)
    (h_mot : vp ≠ .mot) (h_ctl : vp ≠ .ctl) (h_flt : vp ≠ .flt) :
    view vp (settle s) = view vp s := by
  unfold settle
  simp [h_sys, h_led, h_cad, h_stp, h_hdp, h_jnl, h_seq, h_axs, h_mot, h_ctl, h_flt]

@[simp] theorem startCap_view {vp : Part} (s : State) (h : Fin 8) (cap : Bool) (h_hdp : vp ≠ .hdp) (h_axs : vp ≠ .axs) :
    view vp (startCap s h cap) = view vp s := by
  unfold startCap
  simp [h_hdp, h_axs]

@[simp] theorem enterDepth_view {vp : Part} (s : State) (d : Nat) (h_free : vp ≠ .free) (h_out : vp ≠ .out)
    (h_sys : vp ≠ .sys) (h_clk : vp ≠ .clk) (h_hif : vp ≠ .hif) (h_mgt : vp ≠ .mgt) (h_sup : vp ≠ .sup)
    (h_ktl : vp ≠ .ktl) (h_cdc : vp ≠ .cdc) (h_btu : vp ≠ .btu) (h_hdp : vp ≠ .hdp) (h_axs : vp ≠ .axs)
    (h_mot : vp ≠ .mot) (h_ctl : vp ≠ .ctl) (h_drc : vp ≠ .drc) (h_flt : vp ≠ .flt) :
    view vp (enterDepth s d) = view vp s := by
  unfold enterDepth
  (repeat' split) <;> simp [h_free, h_out, h_sys, h_clk, h_hif, h_mgt, h_sup, h_ktl, h_cdc, h_btu, h_hdp, h_axs, h_mot, h_ctl, h_drc, h_flt]

@[simp] theorem leaveOne_view {vp : Part} (s : State) (d : Nat) (h_sys : vp ≠ .sys) (h_clk : vp ≠ .clk)
    (h_cdc : vp ≠ .cdc) (h_hdp : vp ≠ .hdp) (h_axs : vp ≠ .axs) (h_mot : vp ≠ .mot) (h_ctl : vp ≠ .ctl)
    (h_drc : vp ≠ .drc) :
    view vp (leaveOne s d) = view vp s := by
  unfold leaveOne
  (repeat' split) <;> simp [h_sys, h_clk, h_cdc, h_hdp, h_axs, h_mot, h_ctl, h_drc]

@[simp] theorem leaveDepth_view {vp : Part} (s : State) (old : Nat) (new : Nat) (h_sys : vp ≠ .sys) (h_clk : vp ≠ .clk)
    (h_cdc : vp ≠ .cdc) (h_hdp : vp ≠ .hdp) (h_axs : vp ≠ .axs) (h_mot : vp ≠ .mot) (h_ctl : vp ≠ .ctl)
    (h_drc : vp ≠ .drc) :
    view vp (leaveDepth s old new) = view vp s := by
  unfold leaveDepth
  simp [h_sys, h_clk, h_cdc, h_hdp, h_axs, h_mot, h_ctl, h_drc]

@[simp] theorem reselect_view {vp : Part} (s : State) (h_sys : vp ≠ .sys) (h_clk : vp ≠ .clk) (h_cdc : vp ≠ .cdc)
    (h_hdp : vp ≠ .hdp) (h_axs : vp ≠ .axs) (h_mot : vp ≠ .mot) (h_ctl : vp ≠ .ctl) (h_drc : vp ≠ .drc) :
    view vp (reselect s) = view vp s := by
  unfold reselect
  simp [h_sys, h_clk, h_cdc, h_hdp, h_axs, h_mot, h_ctl, h_drc]

@[simp] theorem reselectChanged_view {vp : Part} (s : State) (h_sys : vp ≠ .sys) (h_clk : vp ≠ .clk)
    (h_cdc : vp ≠ .cdc) (h_hdp : vp ≠ .hdp) (h_axs : vp ≠ .axs) (h_mot : vp ≠ .mot) (h_ctl : vp ≠ .ctl)
    (h_drc : vp ≠ .drc) :
    view vp (reselectChanged s) = view vp s := by
  unfold reselectChanged
  simp [h_sys, h_clk, h_cdc, h_hdp, h_axs, h_mot, h_ctl, h_drc]

@[simp] theorem standbyEntry_view {vp : Part} (s : State) (h_free : vp ≠ .free) (h_out : vp ≠ .out) (h_sys : vp ≠ .sys)
    (h_clk : vp ≠ .clk) (h_hif : vp ≠ .hif) (h_mgt : vp ≠ .mgt) (h_sup : vp ≠ .sup) (h_ktl : vp ≠ .ktl)
    (h_led : vp ≠ .led) (h_cad : vp ≠ .cad) (h_cdc : vp ≠ .cdc) (h_btu : vp ≠ .btu) (h_hdp : vp ≠ .hdp)
    (h_jnl : vp ≠ .jnl) (h_axs : vp ≠ .axs) (h_mot : vp ≠ .mot) (h_ctl : vp ≠ .ctl) (h_drc : vp ≠ .drc)
    (h_flt : vp ≠ .flt) :
    view vp (standbyEntry s) = view vp s := by
  unfold standbyEntry
  simp [h_free, h_out, h_sys, h_clk, h_hif, h_mgt, h_sup, h_ktl, h_led, h_cad, h_cdc, h_btu, h_hdp, h_jnl, h_axs, h_mot, h_ctl, h_drc, h_flt]

@[simp] theorem wakeStart_view {vp : Part} (s : State) (h_sys : vp ≠ .sys) (h_clk : vp ≠ .clk) (h_cdc : vp ≠ .cdc)
    (h_hdp : vp ≠ .hdp) (h_axs : vp ≠ .axs) (h_mot : vp ≠ .mot) (h_ctl : vp ≠ .ctl) (h_drc : vp ≠ .drc) :
    view vp (wakeStart s) = view vp s := by
  unfold wakeStart
  simp [h_sys, h_clk, h_cdc, h_hdp, h_axs, h_mot, h_ctl, h_drc]

@[simp] theorem setCapture_view {vp : Part} (s : State) (p : Path) (v : Option (Nat × Word)) (h_hif : vp ≠ .hif) :
    view vp (setCapture s p v) = view vp s := by
  unfold setCapture
  simp [h_hif]

@[simp] theorem readReg_view {vp : Part} (s : State) (p : Path) (o : Nat) (h_hif : vp ≠ .hif) (h_mot : vp ≠ .mot)
    (h_tmp : vp ≠ .tmp) :
    view vp (readReg s p o).2 = view vp s := by
  unfold readReg
  simp [h_hif, h_mot, h_tmp] <;> (repeat' split) <;> simp_all

@[simp] theorem applyClock_view {vp : Part} (s : State) (b : List Byte) (h_clk : vp ≠ .clk) :
    view vp (applyClock s b) = view vp s := by
  unfold applyClock
  simp [h_clk]

@[simp] theorem enableLaser_view {vp : Part} (s : State) (k : Nat) (h_ctl : vp ≠ .ctl) :
    view vp (enableLaser s k) = view vp s := by
  unfold enableLaser
  simp [h_ctl]

@[simp] theorem applyStation_view {vp : Part} (s : State) (k : Fin 6) (b : List Byte) (h_clk : vp ≠ .clk)
    (h_btu : vp ≠ .btu) (h_ctl : vp ≠ .ctl) :
    view vp (applyStation s k b) = view vp s := by
  unfold applyStation
  simp [h_clk, h_btu, h_ctl]

@[simp] theorem applyLoops_view {vp : Part} (s : State) (b : List Byte) (h_ctl : vp ≠ .ctl) :
    view vp (applyLoops s b) = view vp s := by
  unfold applyLoops
  simp [h_ctl]

@[simp] theorem applyFault_view {vp : Part} (s : State) (b : List Byte) (h_pins : vp ≠ .pins) (h_flt : vp ≠ .flt) :
    view vp (applyFault s b) = view vp s := by
  unfold applyFault
  simp [h_pins, h_flt]

@[simp] theorem applyRecipe_view {vp : Part} (s : State) (r : Recipe) (h_pins : vp ≠ .pins) (h_clk : vp ≠ .clk)
    (h_cad : vp ≠ .cad) (h_cdc : vp ≠ .cdc) (h_stp : vp ≠ .stp) (h_btu : vp ≠ .btu) (h_hdp : vp ≠ .hdp)
    (h_ctl : vp ≠ .ctl) (h_flt : vp ≠ .flt) :
    view vp (applyRecipe s r) = view vp s := by
  unfold applyRecipe
  (repeat' split) <;> simp [h_pins, h_clk, h_cad, h_cdc, h_stp, h_btu, h_hdp, h_ctl, h_flt]

@[simp] theorem activate_view {vp : Part} (s : State) (slots : List Nat) (h_free : vp ≠ .free) (h_out : vp ≠ .out)
    (h_sys : vp ≠ .sys) (h_pins : vp ≠ .pins) (h_clk : vp ≠ .clk) (h_hif : vp ≠ .hif) (h_mgt : vp ≠ .mgt)
    (h_sup : vp ≠ .sup) (h_ktl : vp ≠ .ktl) (h_led : vp ≠ .led) (h_cad : vp ≠ .cad) (h_cdc : vp ≠ .cdc)
    (h_stp : vp ≠ .stp) (h_btu : vp ≠ .btu) (h_hdp : vp ≠ .hdp) (h_jnl : vp ≠ .jnl) (h_axs : vp ≠ .axs)
    (h_mot : vp ≠ .mot) (h_ctl : vp ≠ .ctl) (h_drc : vp ≠ .drc) (h_flt : vp ≠ .flt) :
    view vp (activate s slots) = view vp s := by
  unfold activate
  simp [h_free, h_out, h_sys, h_pins, h_clk, h_hif, h_mgt, h_sup, h_ktl, h_led, h_cad, h_cdc, h_stp, h_btu, h_hdp, h_jnl, h_axs, h_mot, h_ctl, h_drc, h_flt]

@[simp] theorem recordRecipes_view {vp : Part} (s : State) (slots : List Nat) (h_led : vp ≠ .led) (h_jnl : vp ≠ .jnl)
    (h_flt : vp ≠ .flt) :
    view vp (recordRecipes s slots) = view vp s := by
  unfold recordRecipes
  apply view_foldl; intro u x; (repeat' split) <;> simp [h_led, h_jnl, h_flt]

@[simp] theorem eraseBegin_view {vp : Part} (s : State) (sector : Nat) (h_out : vp ≠ .out) (h_jnl : vp ≠ .jnl) :
    view vp (eraseBegin s sector) = view vp s := by
  unfold eraseBegin
  simp [h_out, h_jnl]

@[simp] theorem queueErase_view {vp : Part} (s : State) (sector : Nat) (h_out : vp ≠ .out) (h_jnl : vp ≠ .jnl) :
    view vp (queueErase s sector) = view vp s := by
  unfold queueErase
  simp [h_out, h_jnl]

@[simp] theorem eraseAhead_view {vp : Part} (s : State) (h_out : vp ≠ .out) (h_jnl : vp ≠ .jnl) :
    view vp (eraseAhead s) = view vp s := by
  unfold eraseAhead
  simp [h_out, h_jnl]

@[simp] theorem eraseDone_view {vp : Part} (s : State) (sector : Nat) (h_out : vp ≠ .out) (h_jnl : vp ≠ .jnl) :
    view vp (eraseDone s sector) = view vp s := by
  unfold eraseDone
  simp [h_out, h_jnl] <;> (repeat' split) <;> simp_all

@[simp] theorem signSeal_view {vp : Part} (s : State) (h_led : vp ≠ .led) (h_jnl : vp ≠ .jnl) (h_flt : vp ≠ .flt) :
    view vp (signSeal s) = view vp s := by
  unfold signSeal
  (repeat' split) <;> simp [h_led, h_jnl, h_flt]

@[simp] theorem completeOne_view {vp : Part} (w : Wait) (idx : Nat) (s : State) (h_free : vp ≠ .free)
    (h_out : vp ≠ .out) (h_sys : vp ≠ .sys) (h_pins : vp ≠ .pins) (h_clk : vp ≠ .clk) (h_hif : vp ≠ .hif)
    (h_mgt : vp ≠ .mgt) (h_sup : vp ≠ .sup) (h_ktl : vp ≠ .ktl) (h_led : vp ≠ .led) (h_cad : vp ≠ .cad)
    (h_cdc : vp ≠ .cdc) (h_stp : vp ≠ .stp) (h_btu : vp ≠ .btu) (h_hdp : vp ≠ .hdp) (h_jnl : vp ≠ .jnl)
    (h_axs : vp ≠ .axs) (h_mot : vp ≠ .mot) (h_ctl : vp ≠ .ctl) (h_drc : vp ≠ .drc) (h_flt : vp ≠ .flt) :
    view vp (completeOne w idx s) = view vp s := by
  unfold completeOne
  (repeat' split) <;> simp [h_free, h_out, h_sys, h_pins, h_clk, h_hif, h_mgt, h_sup, h_ktl, h_led, h_cad, h_cdc, h_stp, h_btu, h_hdp, h_jnl, h_axs, h_mot, h_ctl, h_drc, h_flt]

@[simp] theorem completeTicket_view {vp : Part} (s : State) (t : Nat) (idx : Nat) (h_free : vp ≠ .free)
    (h_out : vp ≠ .out) (h_sys : vp ≠ .sys) (h_pins : vp ≠ .pins) (h_clk : vp ≠ .clk) (h_hif : vp ≠ .hif)
    (h_mgt : vp ≠ .mgt) (h_sup : vp ≠ .sup) (h_ktl : vp ≠ .ktl) (h_led : vp ≠ .led) (h_cad : vp ≠ .cad)
    (h_cdc : vp ≠ .cdc) (h_stp : vp ≠ .stp) (h_btu : vp ≠ .btu) (h_hdp : vp ≠ .hdp) (h_jnl : vp ≠ .jnl)
    (h_axs : vp ≠ .axs) (h_mot : vp ≠ .mot) (h_ctl : vp ≠ .ctl) (h_drc : vp ≠ .drc) (h_flt : vp ≠ .flt) :
    view vp (completeTicket s t idx) = view vp s := by
  unfold completeTicket
  simp [h_free, h_out, h_sys, h_pins, h_clk, h_hif, h_mgt, h_sup, h_ktl, h_led, h_cad, h_cdc, h_stp, h_btu, h_hdp, h_jnl, h_axs, h_mot, h_ctl, h_drc, h_flt]

@[simp] theorem completeFormed_view {vp : Part} (s : State) (h_free : vp ≠ .free) (h_out : vp ≠ .out)
    (h_sys : vp ≠ .sys) (h_pins : vp ≠ .pins) (h_clk : vp ≠ .clk) (h_hif : vp ≠ .hif) (h_mgt : vp ≠ .mgt)
    (h_sup : vp ≠ .sup) (h_ktl : vp ≠ .ktl) (h_led : vp ≠ .led) (h_cad : vp ≠ .cad) (h_cdc : vp ≠ .cdc)
    (h_stp : vp ≠ .stp) (h_btu : vp ≠ .btu) (h_hdp : vp ≠ .hdp) (h_jnl : vp ≠ .jnl) (h_axs : vp ≠ .axs)
    (h_mot : vp ≠ .mot) (h_ctl : vp ≠ .ctl) (h_drc : vp ≠ .drc) (h_flt : vp ≠ .flt) :
    view vp (completeFormed s) = view vp s := by
  unfold completeFormed
  apply view_foldl; intro u x; (repeat' split) <;> simp [h_free, h_out, h_sys, h_pins, h_clk, h_hif, h_mgt, h_sup, h_ktl, h_led, h_cad, h_cdc, h_stp, h_btu, h_hdp, h_jnl, h_axs, h_mot, h_ctl, h_drc, h_flt]

@[simp] theorem raiseJournal_view {vp : Part} (s : State) (cause : Nat) (h_flt : vp ≠ .flt) :
    view vp (raiseJournal s cause) = view vp s := by
  unfold raiseJournal
  simp [h_flt]

@[simp] theorem durable_view {vp : Part} (s : State) (r : Rec) (h_free : vp ≠ .free) (h_out : vp ≠ .out)
    (h_sys : vp ≠ .sys) (h_pins : vp ≠ .pins) (h_clk : vp ≠ .clk) (h_hif : vp ≠ .hif) (h_mgt : vp ≠ .mgt)
    (h_sup : vp ≠ .sup) (h_ktl : vp ≠ .ktl) (h_led : vp ≠ .led) (h_cad : vp ≠ .cad) (h_cdc : vp ≠ .cdc)
    (h_stp : vp ≠ .stp) (h_btu : vp ≠ .btu) (h_hdp : vp ≠ .hdp) (h_jnl : vp ≠ .jnl) (h_axs : vp ≠ .axs)
    (h_mot : vp ≠ .mot) (h_ctl : vp ≠ .ctl) (h_drc : vp ≠ .drc) (h_flt : vp ≠ .flt) :
    view vp (durable s r) = view vp s := by
  unfold durable
  (repeat' split) <;> simp [h_free, h_out, h_sys, h_pins, h_clk, h_hif, h_mgt, h_sup, h_ktl, h_led, h_cad, h_cdc, h_stp, h_btu, h_hdp, h_jnl, h_axs, h_mot, h_ctl, h_drc, h_flt]

@[simp] theorem afterProgram_view {vp : Part} (s : State) (h_out : vp ≠ .out) (h_led : vp ≠ .led) (h_jnl : vp ≠ .jnl)
    (h_flt : vp ≠ .flt) :
    view vp (afterProgram s) = view vp s := by
  unfold afterProgram
  simp [h_out, h_led, h_jnl, h_flt]

@[simp] theorem formAgain_view {vp : Part} (s : State) (r : Rec) (h_jnl : vp ≠ .jnl) (h_flt : vp ≠ .flt) :
    view vp (formAgain s r) = view vp s := by
  unfold formAgain
  simp [h_jnl, h_flt]

@[simp] theorem programRecord_view {vp : Part} (s : State) (r : Rec) (bytes : List Byte) (h_jnl : vp ≠ .jnl) :
    view vp (programRecord s r bytes) = view vp s := by
  unfold programRecord
  simp [h_jnl]

@[simp] theorem serveRead_view {vp : Part} (s : State) (c : Cmd) (done : Nat) (total : Nat) (h_out : vp ≠ .out)
    (h_sup : vp ≠ .sup) (h_jnl : vp ≠ .jnl) :
    view vp (serveRead s c done total).1 = view vp s := by
  unfold serveRead
  simp [h_out, h_sup, h_jnl]

@[simp] theorem readTurn_view {vp : Part} (s : State) (h_out : vp ≠ .out) (h_hif : vp ≠ .hif) (h_mgt : vp ≠ .mgt)
    (h_sup : vp ≠ .sup) (h_ktl : vp ≠ .ktl) (h_jnl : vp ≠ .jnl) (h_flt : vp ≠ .flt) :
    view vp (readTurn s) = view vp s := by
  unfold readTurn
  simp [h_out, h_hif, h_mgt, h_sup, h_ktl, h_jnl, h_flt] <;> (repeat' split) <;> simp_all

@[simp] theorem serveReads_view {vp : Part} (s : State) (h_out : vp ≠ .out) (h_hif : vp ≠ .hif) (h_mgt : vp ≠ .mgt)
    (h_sup : vp ≠ .sup) (h_ktl : vp ≠ .ktl) (h_jnl : vp ≠ .jnl) (h_flt : vp ≠ .flt) :
    view vp (serveReads s) = view vp s := by
  unfold serveReads
  simp [h_out, h_hif, h_mgt, h_sup, h_ktl, h_jnl, h_flt]

@[simp] theorem programHead_view {vp : Part} (s : State) (ok : Bool) (h_free : vp ≠ .free) (h_out : vp ≠ .out)
    (h_sys : vp ≠ .sys) (h_pins : vp ≠ .pins) (h_clk : vp ≠ .clk) (h_hif : vp ≠ .hif) (h_mgt : vp ≠ .mgt)
    (h_sup : vp ≠ .sup) (h_ktl : vp ≠ .ktl) (h_led : vp ≠ .led) (h_cad : vp ≠ .cad) (h_cdc : vp ≠ .cdc)
    (h_stp : vp ≠ .stp) (h_btu : vp ≠ .btu) (h_hdp : vp ≠ .hdp) (h_jnl : vp ≠ .jnl) (h_axs : vp ≠ .axs)
    (h_mot : vp ≠ .mot) (h_ctl : vp ≠ .ctl) (h_drc : vp ≠ .drc) (h_flt : vp ≠ .flt) :
    view vp (programHead s ok) = view vp s := by
  unfold programHead
  (repeat' split) <;> simp [h_free, h_out, h_sys, h_pins, h_clk, h_hif, h_mgt, h_sup, h_ktl, h_led, h_cad, h_cdc, h_stp, h_btu, h_hdp, h_jnl, h_axs, h_mot, h_ctl, h_drc, h_flt]

@[simp] theorem flushStaged_view {vp : Part} (n : Nat) (s : State) (h_free : vp ≠ .free) (h_out : vp ≠ .out) (h_sys : vp ≠ .sys) (h_pins : vp ≠ .pins) (h_clk : vp ≠ .clk) (h_hif : vp ≠ .hif) (h_mgt : vp ≠ .mgt) (h_sup : vp ≠ .sup) (h_ktl : vp ≠ .ktl) (h_led : vp ≠ .led) (h_cad : vp ≠ .cad) (h_cdc : vp ≠ .cdc) (h_stp : vp ≠ .stp) (h_btu : vp ≠ .btu) (h_hdp : vp ≠ .hdp) (h_jnl : vp ≠ .jnl) (h_axs : vp ≠ .axs) (h_mot : vp ≠ .mot) (h_ctl : vp ≠ .ctl) (h_drc : vp ≠ .drc) (h_flt : vp ≠ .flt) :
    view vp (flushStaged n s) = view vp s := by
  induction n generalizing s with
  | zero => rfl
  | succ n ih => unfold flushStaged; (repeat' split) <;> simp [ih, h_free, h_out, h_sys, h_pins, h_clk, h_hif, h_mgt, h_sup, h_ktl, h_led, h_cad, h_cdc, h_stp, h_btu, h_hdp, h_jnl, h_axs, h_mot, h_ctl, h_drc, h_flt]

@[simp] theorem flushAll_view {vp : Part} (s : State) (h_free : vp ≠ .free) (h_out : vp ≠ .out) (h_sys : vp ≠ .sys)
    (h_pins : vp ≠ .pins) (h_clk : vp ≠ .clk) (h_hif : vp ≠ .hif) (h_mgt : vp ≠ .mgt) (h_sup : vp ≠ .sup)
    (h_ktl : vp ≠ .ktl) (h_led : vp ≠ .led) (h_cad : vp ≠ .cad) (h_cdc : vp ≠ .cdc) (h_stp : vp ≠ .stp)
    (h_btu : vp ≠ .btu) (h_hdp : vp ≠ .hdp) (h_jnl : vp ≠ .jnl) (h_axs : vp ≠ .axs) (h_mot : vp ≠ .mot)
    (h_ctl : vp ≠ .ctl) (h_drc : vp ≠ .drc) (h_flt : vp ≠ .flt) :
    view vp (flushAll s) = view vp s := by
  unfold flushAll
  simp [h_free, h_out, h_sys, h_pins, h_clk, h_hif, h_mgt, h_sup, h_ktl, h_led, h_cad, h_cdc, h_stp, h_btu, h_hdp, h_jnl, h_axs, h_mot, h_ctl, h_drc, h_flt]

@[simp] theorem powerLossFlush_view {vp : Part} (s : State) (spoiled : Nat) (h_free : vp ≠ .free) (h_out : vp ≠ .out) (h_sys : vp ≠ .sys) (h_pins : vp ≠ .pins) (h_clk : vp ≠ .clk) (h_hif : vp ≠ .hif) (h_mgt : vp ≠ .mgt) (h_sup : vp ≠ .sup) (h_ktl : vp ≠ .ktl) (h_led : vp ≠ .led) (h_cad : vp ≠ .cad) (h_cdc : vp ≠ .cdc) (h_stp : vp ≠ .stp) (h_btu : vp ≠ .btu) (h_hdp : vp ≠ .hdp) (h_jnl : vp ≠ .jnl) (h_axs : vp ≠ .axs) (h_mot : vp ≠ .mot) (h_ctl : vp ≠ .ctl) (h_drc : vp ≠ .drc) (h_flt : vp ≠ .flt) :
    view vp (powerLossFlush s spoiled) = view vp s := by
  unfold powerLossFlush
  dsimp only
  rw [flushAll_view, formSeal_view, formOne_view] <;> (try assumption)
  (repeat' split) <;> simp [h_free, h_out, h_sys, h_pins, h_clk, h_hif, h_mgt, h_sup, h_ktl, h_led, h_cad, h_cdc, h_stp, h_btu, h_hdp, h_jnl, h_axs, h_mot, h_ctl, h_drc, h_flt]

@[simp] theorem remember_view {vp : Part} (s : State) (c : Cmd) (h_ktl : vp ≠ .ktl) :
    view vp (remember s c) = view vp s := by
  unfold remember
  simp [h_ktl]

@[simp] theorem accept_view {vp : Part} (s : State) (sp : Option OpSpec) (raw : List Byte) (c : Cmd)
    (h_out : vp ≠ .out) (h_hif : vp ≠ .hif) (h_mgt : vp ≠ .mgt) (h_sup : vp ≠ .sup) (h_ktl : vp ≠ .ktl) :
    view vp (accept s sp raw c).2 = view vp s := by
  unfold accept
  (repeat' split) <;> simp [h_out, h_hif, h_mgt, h_sup, h_ktl]

@[simp] theorem deliverLate_view {vp : Part} (s : State) (c : Cmd) (f : Fate) (late : Bool) (op : Nat) (r : Reply)
    (h_out : vp ≠ .out) (h_hif : vp ≠ .hif) (h_mgt : vp ≠ .mgt) (h_sup : vp ≠ .sup) (h_ktl : vp ≠ .ktl)
    (h_flt : vp ≠ .flt) :
    view vp (deliverLate s c f late op r) = view vp s := by
  unfold deliverLate
  simp [h_out, h_hif, h_mgt, h_sup, h_ktl, h_flt]

@[simp] theorem runCommand_view {vp : Part} (sp : OpSpec) (c : Cmd) (f : Fate) (late : Bool) (s : State) (hrun : ∀ c u, view vp (sp.run c u).state = view vp u) (h_out : vp ≠ .out) (h_hif : vp ≠ .hif) (h_mgt : vp ≠ .mgt) (h_sup : vp ≠ .sup) (h_ktl : vp ≠ .ktl) (h_flt : vp ≠ .flt) :
    view vp (runCommand sp c f late s) = view vp s := by
  unfold runCommand
  have := hrun c s
  split
  · simp [h_out, h_hif, h_mgt, h_sup, h_ktl, h_flt]
  · split <;> simp_all

@[simp] theorem startCommand_view {vp : Part} (sp : OpSpec) (c : Cmd) (s : State) (h_out : vp ≠ .out)
    (h_hif : vp ≠ .hif) (h_mgt : vp ≠ .mgt) (h_sup : vp ≠ .sup) (h_ktl : vp ≠ .ktl) (h_flt : vp ≠ .flt)
    (hrun : ∀ c u, view vp (sp.run c u).state = view vp u) :
    view vp (startCommand sp c s) = view vp s := by
  unfold startCommand
  (repeat' split) <;> simp [h_out, h_hif, h_mgt, h_sup, h_ktl, h_flt, hrun]

@[simp] theorem arrive_view {vp : Part} (s : State) (c : Cmd) (h_hif : vp ≠ .hif) (h_mgt : vp ≠ .mgt)
    (h_sup : vp ≠ .sup) :
    view vp (arrive s c) = view vp s := by
  unfold arrive
  (repeat' split) <;> simp [h_hif, h_mgt, h_sup]

@[simp] theorem direct_view {vp : Part} (sp : OpSpec) (c : Cmd) (s : State) (h_out : vp ≠ .out) (h_hif : vp ≠ .hif)
    (h_mgt : vp ≠ .mgt) (h_sup : vp ≠ .sup) (h_ktl : vp ≠ .ktl) (h_flt : vp ≠ .flt)
    (hrun : ∀ c u, view vp (sp.run c u).state = view vp u) :
    view vp (direct sp c s) = view vp s := by
  unfold direct
  simp [h_out, h_hif, h_mgt, h_sup, h_ktl, h_flt, hrun]

@[simp] theorem linkWake_view {vp : Part} (s : State) (h_hif : vp ≠ .hif) :
    view vp (linkWake s) = view vp s := by
  unfold linkWake
  (repeat' split) <;> simp [h_hif]

@[simp] theorem overPcie_view {vp : Part} (s : State) (f : State → State) (h_hif : vp ≠ .hif)
    (hf : ∀ u, view vp (f u) = view vp u) :
    view vp (overPcie s f) = view vp s := by
  unfold overPcie
  simp [h_hif, hf]

@[simp] theorem overPath_view {vp : Part} (s : State) (p : Path) (f : State → State) (h_hif : vp ≠ .hif)
    (hf : ∀ u, view vp (f u) = view vp u) :
    view vp (overPath s p f) = view vp s := by
  unfold overPath
  (repeat' split) <;> simp [h_hif, hf]

@[simp] theorem modRing_view {vp : Part} (s : State) (r : RingId) (g : Ring → Ring) (h_hif : vp ≠ .hif) :
    view vp (modRing s r g) = view vp s := by
  unfold modRing
  (repeat' split) <;> simp [h_hif]

@[simp] theorem ringStop_view {vp : Part} (s : State) (r : RingId) (code : Nat) (h_hif : vp ≠ .hif) (h_flt : vp ≠ .flt) :
    view vp (ringStop s r code) = view vp s := by
  unfold ringStop
  simp [h_hif, h_flt]

@[simp] theorem configRing_view {vp : Part} (s : State) (r : RingId) (v : Nat) (h_hif : vp ≠ .hif) (h_ktl : vp ≠ .ktl) :
    view vp (configRing s r v) = view vp s := by
  unfold configRing
  (repeat' split) <;> simp [h_hif, h_ktl]

@[simp] theorem writeTail_view {vp : Part} (s : State) (r : RingId) (tail : BitVec 16) (h_hif : vp ≠ .hif)
    (h_flt : vp ≠ .flt) :
    view vp (writeTail s r tail) = view vp s := by
  unfold writeTail
  simp [h_hif, h_flt] <;> (repeat' split) <;> simp_all

@[simp] theorem writeRtail_view {vp : Part} (s : State) (r : RingId) (rtail : BitVec 16) (h_hif : vp ≠ .hif)
    (h_flt : vp ≠ .flt) :
    view vp (writeRtail s r rtail) = view vp s := by
  unfold writeRtail
  simp [h_hif, h_flt] <;> (repeat' split) <;> simp_all

@[simp] theorem writeRing_view {vp : Part} (s : State) (r : RingId) (o : Nat) (v : Word) (h_hif : vp ≠ .hif)
    (h_ktl : vp ≠ .ktl) (h_flt : vp ≠ .flt) :
    view vp (writeRing s r o v) = view vp s := by
  unfold writeRing
  (repeat' split) <;> simp [h_hif, h_ktl, h_flt]

@[simp] theorem writeEvent_view {vp : Part} (s : State) (o : Nat) (v : Word) (h_hif : vp ≠ .hif) (h_ktl : vp ≠ .ktl) :
    view vp (writeEvent s o v) = view vp s := by
  unfold writeEvent
  (repeat' split) <;> simp [h_hif, h_ktl]

@[simp] theorem sendPending_view {vp : Part} (s : State) (v : Fin 64) (h_out : vp ≠ .out) (h_hif : vp ≠ .hif) :
    view vp (sendPending s v) = view vp s := by
  unfold sendPending
  simp [h_out, h_hif]

@[simp] theorem maskVector_view {vp : Part} (s : State) (v : Fin 64) (m : Bool) (h_out : vp ≠ .out) (h_hif : vp ≠ .hif) :
    view vp (maskVector s v m) = view vp s := by
  unfold maskVector
  simp [h_out, h_hif]

@[simp] theorem maskFunction_view {vp : Part} (s : State) (m : Bool) (h_out : vp ≠ .out) (h_hif : vp ≠ .hif) :
    view vp (maskFunction s m) = view vp s := by
  unfold maskFunction
  simp [h_out, h_hif]

@[simp] theorem writeMsix_view {vp : Part} (s : State) (o : Nat) (v : Word) (h_out : vp ≠ .out) (h_hif : vp ≠ .hif) :
    view vp (writeMsix s o v) = view vp s := by
  unfold writeMsix
  (repeat' split) <;> simp [h_out, h_hif]

@[simp] theorem writeBar2Sel_view {vp : Part} (s : State) (v : Nat) (h_hif : vp ≠ .hif) :
    view vp (writeBar2Sel s v) = view vp s := by
  unfold writeBar2Sel
  simp [h_hif]

@[simp] theorem writeShared_view {vp : Part} (s : State) (o : Nat) (w : Word) (h_clk : vp ≠ .clk) (h_cad : vp ≠ .cad)
    (h_btu : vp ≠ .btu) (h_hdp : vp ≠ .hdp) (h_seq : vp ≠ .seq) (h_axs : vp ≠ .axs) (h_mot : vp ≠ .mot)
    (h_ctl : vp ≠ .ctl) (h_drc : vp ≠ .drc) (h_tmp : vp ≠ .tmp) :
    view vp (writeShared s o w) = view vp s := by
  unfold writeShared
  simp [h_clk, h_cad, h_btu, h_hdp, h_seq, h_axs, h_mot, h_ctl, h_drc, h_tmp]

@[simp] theorem mgmtShared_view {vp : Part} (s : State) (o : Nat) (v : Word) (h_clk : vp ≠ .clk) (h_hif : vp ≠ .hif)
    (h_cad : vp ≠ .cad) (h_btu : vp ≠ .btu) (h_hdp : vp ≠ .hdp) (h_seq : vp ≠ .seq) (h_axs : vp ≠ .axs)
    (h_mot : vp ≠ .mot) (h_ctl : vp ≠ .ctl) (h_drc : vp ≠ .drc) (h_tmp : vp ≠ .tmp) :
    view vp (mgmtShared s o v) = view vp s := by
  unfold mgmtShared
  simp [h_clk, h_hif, h_cad, h_btu, h_hdp, h_seq, h_axs, h_mot, h_ctl, h_drc, h_tmp]

@[simp] theorem bar0Shared_view {vp : Part} (s : State) (o : Nat) (v : Word) (h_clk : vp ≠ .clk) (h_cad : vp ≠ .cad)
    (h_btu : vp ≠ .btu) (h_hdp : vp ≠ .hdp) (h_seq : vp ≠ .seq) (h_axs : vp ≠ .axs) (h_mot : vp ≠ .mot)
    (h_ctl : vp ≠ .ctl) (h_drc : vp ≠ .drc) (h_tmp : vp ≠ .tmp) :
    view vp (bar0Shared s o v) = view vp s := by
  unfold bar0Shared
  simp [h_clk, h_cad, h_btu, h_hdp, h_seq, h_axs, h_mot, h_ctl, h_drc, h_tmp]

@[simp] theorem writeConfig_view {vp : Part} (s : State) (o : Nat) (v : Word) (h_out : vp ≠ .out) (h_hif : vp ≠ .hif) :
    view vp (writeConfig s o v) = view vp s := by
  unfold writeConfig
  (repeat' split) <;> simp [h_out, h_hif]

@[simp] theorem writeReg_view {vp : Part} (s : State) (p : Path) (o : Nat) (v : Word) (h_out : vp ≠ .out)
    (h_clk : vp ≠ .clk) (h_hif : vp ≠ .hif) (h_mgt : vp ≠ .mgt) (h_ktl : vp ≠ .ktl) (h_cad : vp ≠ .cad)
    (h_btu : vp ≠ .btu) (h_hdp : vp ≠ .hdp) (h_seq : vp ≠ .seq) (h_axs : vp ≠ .axs) (h_mot : vp ≠ .mot)
    (h_ctl : vp ≠ .ctl) (h_drc : vp ≠ .drc) (h_flt : vp ≠ .flt) (h_tmp : vp ≠ .tmp) :
    view vp (writeReg s p o v) = view vp s := by
  unfold writeReg
  (repeat' split) <;> simp [h_out, h_clk, h_hif, h_mgt, h_ktl, h_cad, h_btu, h_hdp, h_seq, h_axs, h_mot, h_ctl, h_drc, h_flt, h_tmp]

@[simp] theorem readOut_view {vp : Part} (s : State) (p : Path) (o : Nat) (h_out : vp ≠ .out) (h_hif : vp ≠ .hif)
    (h_mot : vp ≠ .mot) (h_tmp : vp ≠ .tmp) :
    view vp (readOut s p o) = view vp s := by
  unfold readOut
  simp [h_out, h_hif, h_mot, h_tmp]

@[simp] theorem guardRaise_view {vp : Part} (s : State) (a : DWord) (h_drc : vp ≠ .drc) (h_flt : vp ≠ .flt) :
    view vp (guardRaise s a) = view vp s := by
  unfold guardRaise
  simp [h_drc, h_flt]

@[simp] theorem bar2Read_view {vp : Part} (s : State) (offset : Nat) (len : Nat) (guardFails : Bool)
    (h_free : vp ≠ .free) (h_out : vp ≠ .out) (h_hif : vp ≠ .hif) (h_drc : vp ≠ .drc) (h_flt : vp ≠ .flt) :
    view vp (bar2Read s offset len guardFails) = view vp s := by
  unfold bar2Read
  simp [h_free, h_out, h_hif, h_drc, h_flt]

@[simp] theorem endpointReset_view {vp : Part} (s : State) (h_hif : vp ≠ .hif) (h_ktl : vp ≠ .ktl) (h_cad : vp ≠ .cad) (h_cdc : vp ≠ .cdc) :
    view vp (endpointReset s) = view vp s := by
  unfold endpointReset
  dsimp only
  simp only [State.modKtl_view, State.modHif_view, State.modCad_view, ne_eq, not_false_eq_true, h_hif, h_ktl, h_cad, h_cdc]
  apply view_foldl; intro u d; split <;> simp [h_hif, h_ktl, h_cad, h_cdc]

@[simp] theorem endpointDown_view {vp : Part} (s : State) (link : Link) (detail : Nat) (h_hif : vp ≠ .hif)
    (h_ktl : vp ≠ .ktl) (h_cad : vp ≠ .cad) (h_cdc : vp ≠ .cdc) (h_flt : vp ≠ .flt) :
    view vp (endpointDown s link detail) = view vp s := by
  unfold endpointDown
  simp [h_hif, h_ktl, h_cad, h_cdc, h_flt]

@[simp] theorem echoRun_view {vp : Part} (c : Cmd) (s : State) :
    view vp (echoRun c s).state = view vp s := by
  unfold echoRun
  simp 

@[simp] theorem getInfoRun_view {vp : Part} (c : Cmd) (s : State) :
    view vp (getInfoRun c s).state = view vp s := by
  unfold getInfoRun
  simp 

@[simp] theorem getStatusRun_view {vp : Part} (w1 : Cmd) (s : State) :
    view vp (getStatusRun w1 s).state = view vp s := by
  unfold getStatusRun
  simp 

@[simp] theorem setReady_view {vp : Part} (s : State) (h_sys : vp ≠ .sys) (h_clk : vp ≠ .clk) (h_cdc : vp ≠ .cdc)
    (h_hdp : vp ≠ .hdp) (h_axs : vp ≠ .axs) (h_mot : vp ≠ .mot) (h_ctl : vp ≠ .ctl) (h_drc : vp ≠ .drc) :
    view vp (setReady s).state = view vp s := by
  unfold setReady
  simp [h_sys, h_clk, h_cdc, h_hdp, h_axs, h_mot, h_ctl, h_drc]

@[simp] theorem setStandby_view {vp : Part} (s : State) (h_free : vp ≠ .free) (h_out : vp ≠ .out) (h_sys : vp ≠ .sys)
    (h_clk : vp ≠ .clk) (h_hif : vp ≠ .hif) (h_mgt : vp ≠ .mgt) (h_sup : vp ≠ .sup) (h_ktl : vp ≠ .ktl)
    (h_led : vp ≠ .led) (h_cad : vp ≠ .cad) (h_cdc : vp ≠ .cdc) (h_btu : vp ≠ .btu) (h_hdp : vp ≠ .hdp)
    (h_jnl : vp ≠ .jnl) (h_axs : vp ≠ .axs) (h_mot : vp ≠ .mot) (h_ctl : vp ≠ .ctl) (h_drc : vp ≠ .drc)
    (h_flt : vp ≠ .flt) :
    view vp (setStandby s).state = view vp s := by
  unfold setStandby
  simp [h_free, h_out, h_sys, h_clk, h_hif, h_mgt, h_sup, h_ktl, h_led, h_cad, h_cdc, h_btu, h_hdp, h_jnl, h_axs, h_mot, h_ctl, h_drc, h_flt]

@[simp] theorem setRunout_view {vp : Part} (s : State) (h_sys : vp ≠ .sys) (h_led : vp ≠ .led) (h_stp : vp ≠ .stp)
    (h_seq : vp ≠ .seq) (h_axs : vp ≠ .axs) (h_ctl : vp ≠ .ctl) (h_flt : vp ≠ .flt) :
    view vp (setRunout s).state = view vp s := by
  unfold setRunout
  simp [h_sys, h_led, h_stp, h_seq, h_axs, h_ctl, h_flt]

@[simp] theorem setService_view {vp : Part} (c : Cmd) (s : State) (h_sys : vp ≠ .sys) (h_clk : vp ≠ .clk)
    (h_led : vp ≠ .led) (h_cdc : vp ≠ .cdc) (h_hdp : vp ≠ .hdp) (h_jnl : vp ≠ .jnl) (h_axs : vp ≠ .axs)
    (h_mot : vp ≠ .mot) (h_ctl : vp ≠ .ctl) (h_drc : vp ≠ .drc) (h_flt : vp ≠ .flt) :
    view vp (setService c s).state = view vp s := by
  unfold setService
  (repeat' split) <;> simp [h_sys, h_clk, h_led, h_cdc, h_hdp, h_jnl, h_axs, h_mot, h_ctl, h_drc, h_flt]

@[simp] theorem setModeRun_view {vp : Part} (c : Cmd) (s : State) (h_free : vp ≠ .free) (h_out : vp ≠ .out)
    (h_sys : vp ≠ .sys) (h_pins : vp ≠ .pins) (h_clk : vp ≠ .clk) (h_hif : vp ≠ .hif) (h_mgt : vp ≠ .mgt)
    (h_sup : vp ≠ .sup) (h_ktl : vp ≠ .ktl) (h_led : vp ≠ .led) (h_cad : vp ≠ .cad) (h_cdc : vp ≠ .cdc)
    (h_stp : vp ≠ .stp) (h_btu : vp ≠ .btu) (h_hdp : vp ≠ .hdp) (h_jnl : vp ≠ .jnl) (h_seq : vp ≠ .seq)
    (h_axs : vp ≠ .axs) (h_mot : vp ≠ .mot) (h_ctl : vp ≠ .ctl) (h_drc : vp ≠ .drc) (h_flt : vp ≠ .flt) :
    view vp (setModeRun c s).state = view vp s := by
  unfold setModeRun
  (repeat' split) <;> simp [h_free, h_out, h_sys, h_pins, h_clk, h_hif, h_mgt, h_sup, h_ktl, h_led, h_cad, h_cdc, h_stp, h_btu, h_hdp, h_jnl, h_seq, h_axs, h_mot, h_ctl, h_drc, h_flt]

@[simp] theorem setWakeBudgetRun_view {vp : Part} (c : Cmd) (s : State) (h_sys : vp ≠ .sys) (h_clk : vp ≠ .clk)
    (h_cdc : vp ≠ .cdc) (h_hdp : vp ≠ .hdp) (h_axs : vp ≠ .axs) (h_mot : vp ≠ .mot) (h_ctl : vp ≠ .ctl)
    (h_drc : vp ≠ .drc) :
    view vp (setWakeBudgetRun c s).state = view vp s := by
  unfold setWakeBudgetRun
  simp [h_sys, h_clk, h_cdc, h_hdp, h_axs, h_mot, h_ctl, h_drc]

@[simp] theorem setEventRouteRun_view {vp : Part} (c : Cmd) (s : State) (h_flt : vp ≠ .flt) :
    view vp (setEventRouteRun c s).state = view vp s := by
  unfold setEventRouteRun
  simp [h_flt]

@[simp] theorem axesCycle_view {vp : Part} (s : State) (h_axs : vp ≠ .axs) :
    view vp (axesCycle s) = view vp s := by
  unfold axesCycle
  simp [h_axs]

@[simp] theorem homingDone_view {vp : Part} (s : State) (a : Fin 16) (pos : Int) (idle : Bool) (h_axs : vp ≠ .axs)
    (h_flt : vp ≠ .flt) :
    view vp (homingDone s a pos idle) = view vp s := by
  unfold homingDone
  simp [h_axs, h_flt]

@[simp] theorem homingFail_view {vp : Part} (s : State) (a : Fin 16) (why : Nat) (h_axs : vp ≠ .axs)
    (h_flt : vp ≠ .flt) :
    view vp (homingFail s a why) = view vp s := by
  unfold homingFail
  simp [h_axs, h_flt]

@[simp] theorem moveStall_view {vp : Part} (s : State) (a : Fin 16) (h_sys : vp ≠ .sys) (h_led : vp ≠ .led)
    (h_cad : vp ≠ .cad) (h_stp : vp ≠ .stp) (h_hdp : vp ≠ .hdp) (h_jnl : vp ≠ .jnl) (h_seq : vp ≠ .seq)
    (h_axs : vp ≠ .axs) (h_mot : vp ≠ .mot) (h_ctl : vp ≠ .ctl) (h_flt : vp ≠ .flt) :
    view vp (moveStall s a) = view vp s := by
  unfold moveStall
  simp [h_sys, h_led, h_cad, h_stp, h_hdp, h_jnl, h_seq, h_axs, h_mot, h_ctl, h_flt]

@[simp] theorem axisStall_view {vp : Part} (s : State) (a : Fin 16) (h_sys : vp ≠ .sys) (h_led : vp ≠ .led)
    (h_cad : vp ≠ .cad) (h_stp : vp ≠ .stp) (h_hdp : vp ≠ .hdp) (h_jnl : vp ≠ .jnl) (h_seq : vp ≠ .seq)
    (h_axs : vp ≠ .axs) (h_mot : vp ≠ .mot) (h_ctl : vp ≠ .ctl) (h_flt : vp ≠ .flt) :
    view vp (axisStall s a) = view vp s := by
  unfold axisStall
  simp [h_sys, h_led, h_cad, h_stp, h_hdp, h_jnl, h_seq, h_axs, h_mot, h_ctl, h_flt] <;> (repeat' split) <;> simp_all

@[simp] theorem homingTravel_view {vp : Part} (s : State) (a : Fin 16) (h_axs : vp ≠ .axs) (h_flt : vp ≠ .flt) :
    view vp (homingTravel s a) = view vp s := by
  unfold homingTravel
  simp [h_axs, h_flt] <;> (repeat' split) <;> simp_all

@[simp] theorem axisProtect_view {vp : Part} (s : State) (a : Fin 16) (cause : Nat) (coil : Nat) (flag : Nat)
    (h_sys : vp ≠ .sys) (h_led : vp ≠ .led) (h_cad : vp ≠ .cad) (h_stp : vp ≠ .stp) (h_hdp : vp ≠ .hdp)
    (h_jnl : vp ≠ .jnl) (h_seq : vp ≠ .seq) (h_axs : vp ≠ .axs) (h_mot : vp ≠ .mot) (h_ctl : vp ≠ .ctl)
    (h_flt : vp ≠ .flt) :
    view vp (axisProtect s a cause coil flag) = view vp s := by
  unfold axisProtect
  simp [h_sys, h_led, h_cad, h_stp, h_hdp, h_jnl, h_seq, h_axs, h_mot, h_ctl, h_flt]

@[simp] theorem startHome_view {vp : Part} (s : State) (a : Fin 16) (k : Nat) (h_axs : vp ≠ .axs) (h_flt : vp ≠ .flt) :
    view vp (startHome s a k) = view vp s := by
  unfold startHome
  simp [h_axs, h_flt]

@[simp] theorem axisHomeRun_view {vp : Part} (c : Cmd) (s : State) (h_axs : vp ≠ .axs) (h_flt : vp ≠ .flt) :
    view vp (axisHomeRun c s).state = view vp s := by
  unfold axisHomeRun
  simp [h_axs, h_flt]

@[simp] theorem axisMoveRun_view {vp : Part} (c : Cmd) (s : State) (h_sys : vp ≠ .sys) (h_led : vp ≠ .led)
    (h_cad : vp ≠ .cad) (h_stp : vp ≠ .stp) (h_hdp : vp ≠ .hdp) (h_jnl : vp ≠ .jnl) (h_seq : vp ≠ .seq)
    (h_axs : vp ≠ .axs) (h_mot : vp ≠ .mot) (h_ctl : vp ≠ .ctl) (h_flt : vp ≠ .flt) :
    view vp (axisMoveRun c s).state = view vp s := by
  unfold axisMoveRun
  simp [h_sys, h_led, h_cad, h_stp, h_hdp, h_jnl, h_seq, h_axs, h_mot, h_ctl, h_flt]

@[simp] theorem startGroup_view {vp : Part} (s : State) (c : Cmd) (h_axs : vp ≠ .axs) :
    view vp (startGroup s c) = view vp s := by
  unfold startGroup
  simp [h_axs]

@[simp] theorem groupMoveRun_view {vp : Part} (c : Cmd) (s : State) (h_axs : vp ≠ .axs) :
    view vp (groupMoveRun c s).state = view vp s := by
  unfold groupMoveRun
  simp [h_axs] <;> (repeat' split) <;> simp_all

@[simp] theorem axisStopRun_view {vp : Part} (c : Cmd) (s : State) (h_sys : vp ≠ .sys) (h_led : vp ≠ .led)
    (h_cad : vp ≠ .cad) (h_stp : vp ≠ .stp) (h_hdp : vp ≠ .hdp) (h_jnl : vp ≠ .jnl) (h_seq : vp ≠ .seq)
    (h_axs : vp ≠ .axs) (h_mot : vp ≠ .mot) (h_ctl : vp ≠ .ctl) (h_flt : vp ≠ .flt) :
    view vp (axisStopRun c s).state = view vp s := by
  unfold axisStopRun
  simp [h_sys, h_led, h_cad, h_stp, h_hdp, h_jnl, h_seq, h_axs, h_mot, h_ctl, h_flt]

@[simp] theorem axisQueryRun_view {vp : Part} (c : Cmd) (s : State) :
    view vp (axisQueryRun c s).state = view vp s := by
  unfold axisQueryRun
  simp 

@[simp] theorem axisPwm_view {vp : Part} (s : State) (a : Fin 16) (bitsA : List Bool) (bitsB : List Bool)
    (h_free : vp ≠ .free) (h_sys : vp ≠ .sys) (h_led : vp ≠ .led) (h_cad : vp ≠ .cad) (h_stp : vp ≠ .stp)
    (h_hdp : vp ≠ .hdp) (h_jnl : vp ≠ .jnl) (h_seq : vp ≠ .seq) (h_axs : vp ≠ .axs) (h_mot : vp ≠ .mot)
    (h_ctl : vp ≠ .ctl) (h_flt : vp ≠ .flt) :
    view vp (axisPwm s a bitsA bitsB) = view vp s := by
  unfold axisPwm
  (repeat' split) <;> simp [h_free, h_sys, h_led, h_cad, h_stp, h_hdp, h_jnl, h_seq, h_axs, h_mot, h_ctl, h_flt]

@[simp] theorem atRest_view {vp : Part} (s : State) (a : Fin 16) (h_axs : vp ≠ .axs) (h_flt : vp ≠ .flt) :
    view vp (atRest s a) = view vp s := by
  unfold atRest
  simp [h_axs, h_flt]

@[simp] theorem homeEdge_view {vp : Part} (s : State) (a : Fin 16) (active : Bool) (h_axs : vp ≠ .axs)
    (h_flt : vp ≠ .flt) :
    view vp (homeEdge s a active) = view vp s := by
  unfold homeEdge
  simp [h_axs, h_flt] <;> (repeat' split) <;> simp_all

@[simp] theorem gearLocks_view {vp : Part} (s : State) (a : Fin 16) (h_axs : vp ≠ .axs) :
    view vp (gearLocks s a) = view vp s := by
  unfold gearLocks
  simp [h_axs]

@[simp] theorem startCalibration_view {vp : Part} (s : State) (k : Fin 6) (h_btu : vp ≠ .btu) :
    view vp (startCalibration s k) = view vp s := by
  unfold startCalibration
  simp [h_btu]

@[simp] theorem calibrationDue_view {vp : Part} (s : State) (k : Fin 6) (h_btu : vp ≠ .btu) :
    view vp (calibrationDue s k) = view vp s := by
  unfold calibrationDue
  simp [h_btu]

@[simp] theorem waitingCalibrations_view {vp : Part} (s : State) (h_btu : vp ≠ .btu) :
    view vp (waitingCalibrations s) = view vp s := by
  unfold waitingCalibrations
  simp [h_btu]

theorem calibrateDone_view {vp : Part} (s : State) (c : Cmd) (t : State) (r : Res) (h : calibrateDone s c = some (t, r)) (h_btu : vp ≠ .btu) :
    view vp t = view vp s := by
  unfold calibrateDone at h
  dsimp only at h
  split at h <;> simp at h
  obtain ⟨rfl, _⟩ := h
  simp [h_btu]

@[simp] theorem startMeasuring_view {vp : Part} (s : State) (k : Fin 6) (h_btu : vp ≠ .btu) :
    view vp (startMeasuring s k) = view vp s := by
  unfold startMeasuring
  simp [h_btu]

@[simp] theorem stationCalibrateRun_view {vp : Part} (c : Cmd) (s : State) (h_btu : vp ≠ .btu) :
    view vp (stationCalibrateRun c s).state = view vp s := by
  unfold stationCalibrateRun
  simp [h_btu]

@[simp] theorem lockStation_view {vp : Part} (s : State) (k : Fin 6) (b : List Byte) (h_clk : vp ≠ .clk)
    (h_btu : vp ≠ .btu) :
    view vp (lockStation s k b) = view vp s := by
  unfold lockStation
  simp [h_clk, h_btu]

@[simp] theorem stationLockRun_view {vp : Part} (c : Cmd) (s : State) (h_clk : vp ≠ .clk) (h_btu : vp ≠ .btu)
    (h_ctl : vp ≠ .ctl) :
    view vp (stationLockRun c s).state = view vp s := by
  unfold stationLockRun
  simp [h_clk, h_btu, h_ctl]

@[simp] theorem stationQueryRun_view {vp : Part} (c : Cmd) (s : State) :
    view vp (stationQueryRun c s).state = view vp s := by
  unfold stationQueryRun
  simp 

@[simp] theorem monitorStops_view {vp : Part} (s : State) (h_pins : vp ≠ .pins) (h_btu : vp ≠ .btu) (h_axs : vp ≠ .axs)
    (h_mot : vp ≠ .mot) (h_ctl : vp ≠ .ctl) (h_flt : vp ≠ .flt) :
    view vp (monitorStops s) = view vp s := by
  unfold monitorStops
  simp [h_pins, h_btu, h_axs, h_mot, h_ctl, h_flt]

@[simp] theorem refLossHeld_view {vp : Part} (s : State) (h_sys : vp ≠ .sys) (h_clk : vp ≠ .clk) :
    view vp (refLossHeld s) = view vp s := by
  unfold refLossHeld
  simp [h_sys, h_clk]

@[simp] theorem refLoss_view {vp : Part} (s : State) (h_out : vp ≠ .out) (h_sys : vp ≠ .sys) (h_pins : vp ≠ .pins)
    (h_clk : vp ≠ .clk) (h_hif : vp ≠ .hif) (h_led : vp ≠ .led) (h_cad : vp ≠ .cad) (h_cdc : vp ≠ .cdc)
    (h_stp : vp ≠ .stp) (h_btu : vp ≠ .btu) (h_hdp : vp ≠ .hdp) (h_jnl : vp ≠ .jnl) (h_seq : vp ≠ .seq)
    (h_axs : vp ≠ .axs) (h_mot : vp ≠ .mot) (h_ctl : vp ≠ .ctl) (h_drc : vp ≠ .drc) (h_flt : vp ≠ .flt) :
    view vp (refLoss s) = view vp s := by
  unfold refLoss
  simp [h_out, h_sys, h_pins, h_clk, h_hif, h_led, h_cad, h_cdc, h_stp, h_btu, h_hdp, h_jnl, h_seq, h_axs, h_mot, h_ctl, h_drc, h_flt]

@[simp] theorem rootUnlock_view {vp : Part} (s : State) (h_out : vp ≠ .out) (h_sys : vp ≠ .sys) (h_pins : vp ≠ .pins)
    (h_clk : vp ≠ .clk) (h_hif : vp ≠ .hif) (h_led : vp ≠ .led) (h_cad : vp ≠ .cad) (h_cdc : vp ≠ .cdc)
    (h_stp : vp ≠ .stp) (h_btu : vp ≠ .btu) (h_hdp : vp ≠ .hdp) (h_jnl : vp ≠ .jnl) (h_seq : vp ≠ .seq)
    (h_axs : vp ≠ .axs) (h_mot : vp ≠ .mot) (h_ctl : vp ≠ .ctl) (h_drc : vp ≠ .drc) (h_flt : vp ≠ .flt) :
    view vp (rootUnlock s) = view vp s := by
  unfold rootUnlock
  simp [h_out, h_sys, h_pins, h_clk, h_hif, h_led, h_cad, h_cdc, h_stp, h_btu, h_hdp, h_jnl, h_seq, h_axs, h_mot, h_ctl, h_drc, h_flt]

@[simp] theorem recipeSpeed_view {vp : Part} (s : State) (k : Fin 6) (h_free : vp ≠ .free) :
    view vp (recipeSpeed s k).2 = view vp s := by
  unfold recipeSpeed
  simp [h_free]

@[simp] theorem enterSpin_view {vp : Part} (s : State) (k : Fin 6) (h_free : vp ≠ .free) (h_out : vp ≠ .out)
    (h_clk : vp ≠ .clk) (h_btu : vp ≠ .btu) (h_mot : vp ≠ .mot) (h_ctl : vp ≠ .ctl) :
    view vp (enterSpin s k) = view vp s := by
  unfold enterSpin
  simp [h_free, h_out, h_clk, h_btu, h_mot, h_ctl]

@[simp] theorem synthLocks_view {vp : Part} (s : State) (k : Fin 6) (h_free : vp ≠ .free) (h_out : vp ≠ .out)
    (h_clk : vp ≠ .clk) (h_btu : vp ≠ .btu) (h_mot : vp ≠ .mot) (h_ctl : vp ≠ .ctl) :
    view vp (synthLocks s k) = view vp s := by
  unfold synthLocks
  simp [h_free, h_out, h_clk, h_btu, h_mot, h_ctl]

@[simp] theorem synthUnlocks_view {vp : Part} (s : State) (k : Fin 6) (h_clk : vp ≠ .clk) (h_led : vp ≠ .led)
    (h_btu : vp ≠ .btu) (h_flt : vp ≠ .flt) :
    view vp (synthUnlocks s k) = view vp s := by
  unfold synthUnlocks
  simp [h_clk, h_led, h_btu, h_flt]

@[simp] theorem encoderLoss_view {vp : Part} (s : State) (h_clk : vp ≠ .clk) (h_led : vp ≠ .led) (h_btu : vp ≠ .btu)
    (h_flt : vp ≠ .flt) :
    view vp (encoderLoss s) = view vp s := by
  unfold encoderLoss
  simp [h_clk, h_led, h_btu, h_flt]

@[simp] theorem noteEdge_view {vp : Part} (s : State) (h_clk : vp ≠ .clk) :
    view vp (noteEdge s) = view vp s := by
  unfold noteEdge
  simp [h_clk]

@[simp] theorem forwardEdge_view {vp : Part} (s : State) (h_clk : vp ≠ .clk) :
    view vp (forwardEdge s) = view vp s := by
  unfold forwardEdge
  simp [h_clk]

@[simp] theorem backwardEdge_view {vp : Part} (s : State) (h_clk : vp ≠ .clk) (h_flt : vp ≠ .flt) :
    view vp (backwardEdge s) = view vp s := by
  unfold backwardEdge
  simp [h_clk, h_flt]

@[simp] theorem encoderLevels_view {vp : Part} (s : State) (n : Fin 4) (a : Bool) (b : Bool) (h_clk : vp ≠ .clk)
    (h_led : vp ≠ .led) (h_btu : vp ≠ .btu) (h_flt : vp ≠ .flt) :
    view vp (encoderLevels s n a b) = view vp s := by
  unfold encoderLevels
  simp [h_clk, h_led, h_btu, h_flt] <;> (repeat' split) <;> simp_all

@[simp] theorem encoderSilent_view {vp : Part} (s : State) (h_clk : vp ≠ .clk) (h_led : vp ≠ .led) (h_btu : vp ≠ .btu)
    (h_flt : vp ≠ .flt) :
    view vp (encoderSilent s) = view vp s := by
  unfold encoderSilent
  simp [h_clk, h_led, h_btu, h_flt]

@[simp] theorem exposeFacet_view {vp : Part} (s : State) (k : Fin 6) (fresh : Bool) (h_out : vp ≠ .out) :
    view vp (exposeFacet s k fresh) = view vp s := by
  unfold exposeFacet
  dsimp only
  (repeat' split) <;> (repeat (first | rw [view_foldl] | (intro u x; (repeat' split)))) <;> simp [h_out]

@[simp] theorem readFacet_view {vp : Part} (s : State) (k : Fin 6) (fresh : Bool) (h_out : vp ≠ .out)
    (h_btu : vp ≠ .btu) :
    view vp (readFacet s k fresh) = view vp s := by
  unfold readFacet
  simp [h_out, h_btu]

@[simp] theorem beamRaise_view {vp : Part} (s : State) (k : Fin 6) (i : Nat) (h_flt : vp ≠ .flt) :
    view vp (beamRaise s k i) = view vp s := by
  unfold beamRaise
  simp [h_flt]

@[simp] theorem enterLocked_view {vp : Part} (s : State) (k : Fin 6) (h_btu : vp ≠ .btu) :
    view vp (enterLocked s k) = view vp s := by
  unfold enterLocked
  simp [h_btu]

@[simp] theorem loseLock_view {vp : Part} (s : State) (k : Fin 6) (h_led : vp ≠ .led) (h_btu : vp ≠ .btu)
    (h_flt : vp ≠ .flt) :
    view vp (loseLock s k) = view vp s := by
  unfold loseLock
  simp [h_led, h_btu, h_flt]

@[simp] theorem phaseLock_view {vp : Part} (s : State) (k : Fin 6) (h_led : vp ≠ .led) (h_btu : vp ≠ .btu)
    (h_flt : vp ≠ .flt) :
    view vp (phaseLock s k) = view vp s := by
  unfold phaseLock
  simp [h_led, h_btu, h_flt] <;> (repeat' split) <;> simp_all

@[simp] theorem enterIdent_view {vp : Part} (s : State) (k : Fin 6) (h_btu : vp ≠ .btu) :
    view vp (enterIdent s k) = view vp s := by
  unfold enterIdent
  simp [h_btu]

@[simp] theorem bdsEdge_view {vp : Part} (s : State) (k : Fin 6) (period : Nat) (h_out : vp ≠ .out) (h_led : vp ≠ .led)
    (h_btu : vp ≠ .btu) (h_flt : vp ≠ .flt) :
    view vp (bdsEdge s k period) = view vp s := by
  unfold bdsEdge
  (repeat' split) <;> simp [h_out, h_led, h_btu, h_flt]

@[simp] theorem updateTrims_view {vp : Part} (s : State) (k : Fin 6) (h_clk : vp ≠ .clk) (h_btu : vp ≠ .btu)
    (h_flt : vp ≠ .flt) :
    view vp (updateTrims s k) = view vp s := by
  unfold updateTrims
  simp [h_clk, h_btu, h_flt]

@[simp] theorem latchTrim_view {vp : Part} (s : State) (k : Fin 6) (h_clk : vp ≠ .clk) :
    view vp (latchTrim s k) = view vp s := by
  unfold latchTrim
  simp [h_clk]

@[simp] theorem enterPullIn_view {vp : Part} (s : State) (k : Fin 6) (label : Nat) (ok : Bool) (h_btu : vp ≠ .btu) :
    view vp (enterPullIn s k label ok) = view vp s := by
  unfold enterPullIn
  simp [h_btu]

@[simp] theorem identRound_view {vp : Part} (s : State) (k : Fin 6) (h_btu : vp ≠ .btu) (h_flt : vp ≠ .flt) :
    view vp (identRound s k) = view vp s := by
  unfold identRound
  simp [h_btu, h_flt] <;> (repeat' split) <;> simp_all

@[simp] theorem bdeEdge_view {vp : Part} (s : State) (k : Fin 6) (scan : Nat) (h_clk : vp ≠ .clk) (h_btu : vp ≠ .btu)
    (h_flt : vp ≠ .flt) :
    view vp (bdeEdge s k scan) = view vp s := by
  unfold bdeEdge
  simp [h_clk, h_btu, h_flt] <;> (repeat' split) <;> simp_all

@[simp] theorem bdMiss_view {vp : Part} (s : State) (k : Fin 6) (bde : Bool) (h_btu : vp ≠ .btu) (h_flt : vp ≠ .flt) :
    view vp (bdMiss s k bde) = view vp s := by
  unfold bdMiss
  simp [h_btu, h_flt]

@[simp] theorem bdsMissed_view {vp : Part} (s : State) (k : Fin 6) (h_out : vp ≠ .out) (h_clk : vp ≠ .clk)
    (h_led : vp ≠ .led) (h_btu : vp ≠ .btu) (h_flt : vp ≠ .flt) :
    view vp (bdsMissed s k) = view vp s := by
  unfold bdsMissed
  simp [h_out, h_clk, h_led, h_btu, h_flt]

@[simp] theorem bdeMissed_view {vp : Part} (s : State) (k : Fin 6) (h_btu : vp ≠ .btu) (h_flt : vp ≠ .flt) :
    view vp (bdeMissed s k) = view vp s := by
  unfold bdeMissed
  simp [h_btu, h_flt]

@[simp] theorem calibrated_view {vp : Part} (s : State) (k : Fin 6) (taps : List Nat) (h_btu : vp ≠ .btu)
    (h_flt : vp ≠ .flt) :
    view vp (calibrated s k taps) = view vp s := by
  unfold calibrated
  simp [h_btu, h_flt] <;> (repeat' split) <;> simp_all

@[simp] theorem calibrationDone_view {vp : Part} (s : State) (k : Fin 6) (taps : List Nat) (h_btu : vp ≠ .btu)
    (h_flt : vp ≠ .flt) :
    view vp (calibrationDone s k taps) = view vp s := by
  unfold calibrationDone
  simp [h_btu, h_flt] <;> (repeat' split) <;> simp_all

@[simp] theorem measureScan_view {vp : Part} (s : State) (k : Fin 6) (scan : Nat) (h_btu : vp ≠ .btu) :
    view vp (measureScan s k scan) = view vp s := by
  unfold measureScan
  simp [h_btu]

@[simp] theorem measureBeam_view {vp : Part} (s : State) (k : Fin 6) (beam : Fin 16) (code : Nat) (h_btu : vp ≠ .btu) :
    view vp (measureBeam s k beam code) = view vp s := by
  unfold measureBeam
  simp [h_btu]

@[simp] theorem apcWatch_view {vp : Part} (s : State) (k : Fin 6) (beam : Fin 16) (atLimit : Bool) (h_btu : vp ≠ .btu)
    (h_flt : vp ≠ .flt) :
    view vp (apcWatch s k beam atLimit) = view vp s := by
  unfold apcWatch
  simp [h_btu, h_flt]

@[simp] theorem sendLater_view {vp : Part} (s : State) (k : Fin 6) (beam : Fin 16) (level : Nat) (h_out : vp ≠ .out)
    (h_btu : vp ≠ .btu) :
    view vp (sendLater s k beam level) = view vp s := by
  unfold sendLater
  simp [h_out, h_btu]

@[simp] theorem sendWaiting_view {vp : Part} (s : State) (k : Fin 6) (h_out : vp ≠ .out) (h_btu : vp ≠ .btu) :
    view vp (sendWaiting s k) = view vp s := by
  unfold sendWaiting
  simp [h_out, h_btu]

@[simp] theorem checkTables_view {vp : Part} (s : State) (k : Fin 6) (x : TableCheck) (h_btu : vp ≠ .btu)
    (h_flt : vp ≠ .flt) :
    view vp (checkTables s k x) = view vp s := by
  unfold checkTables
  (repeat' split) <;> simp [h_btu, h_flt]

@[simp] theorem apcSample_view {vp : Part} (s : State) (k : Fin 6) (code : Nat) (h_out : vp ≠ .out) (h_pins : vp ≠ .pins) (h_btu : vp ≠ .btu) (h_mot : vp ≠ .mot) (h_ctl : vp ≠ .ctl) (h_flt : vp ≠ .flt) :
    view vp (apcSample s k code) = view vp s := by
  unfold apcSample
  dsimp only
  split
  · rfl
  · split
    · simp [h_out, h_pins, h_btu, h_mot, h_ctl, h_flt]
    · rw [apcWatch_view, sendLater_view, measureBeam_view, evaluateSlot_view] <;> assumption

@[simp] theorem spinExpires_view {vp : Part} (s : State) (k : Fin 6) (h_clk : vp ≠ .clk) (h_btu : vp ≠ .btu)
    (h_flt : vp ≠ .flt) :
    view vp (spinExpires s k) = view vp s := by
  unfold spinExpires
  simp [h_clk, h_btu, h_flt]

@[simp] theorem searchExpires_view {vp : Part} (s : State) (k : Fin 6) (h_clk : vp ≠ .clk) (h_btu : vp ≠ .btu)
    (h_flt : vp ≠ .flt) :
    view vp (searchExpires s k) = view vp s := by
  unfold searchExpires
  simp [h_clk, h_btu, h_flt]

@[simp] theorem laserInterlock_view {vp : Part} (s : State) (k : Fin 6) (h_clk : vp ≠ .clk) (h_led : vp ≠ .led)
    (h_btu : vp ≠ .btu) (h_flt : vp ≠ .flt) :
    view vp (laserInterlock s k) = view vp s := by
  unfold laserInterlock
  (repeat' split) <;> simp [h_clk, h_led, h_btu, h_flt]

@[simp] theorem interlockFirst_view {vp : Part} (s : State) (k : Fin 6) (h_clk : vp ≠ .clk) (h_led : vp ≠ .led)
    (h_btu : vp ≠ .btu) (h_flt : vp ≠ .flt) :
    view vp (interlockFirst s k) = view vp s := by
  unfold interlockFirst
  simp [h_clk, h_led, h_btu, h_flt]

@[simp] theorem loadImage_view {vp : Part} (s : State) (l : List Byte) (h_led : vp ≠ .led) :
    view vp (loadImage s l).1 = view vp s := by
  unfold loadImage
  simp [h_led] <;> (repeat' split) <;> simp_all

@[simp] theorem loadRecipeRun_view {vp : Part} (c : Cmd) (s : State) :
    view vp (loadRecipeRun c s).state = view vp s := by
  unfold loadRecipeRun
  (repeat' split) <;> simp 

@[simp] theorem queryRecipeRun_view {vp : Part} (c : Cmd) (s : State) :
    view vp (queryRecipeRun c s).state = view vp s := by
  unfold queryRecipeRun
  simp  <;> (repeat' split) <;> simp_all

@[simp] theorem activateRun_view {vp : Part} (c : Cmd) (s : State) (h_free : vp ≠ .free) (h_out : vp ≠ .out) (h_sys : vp ≠ .sys) (h_pins : vp ≠ .pins) (h_clk : vp ≠ .clk) (h_hif : vp ≠ .hif) (h_mgt : vp ≠ .mgt) (h_sup : vp ≠ .sup) (h_ktl : vp ≠ .ktl) (h_led : vp ≠ .led) (h_cad : vp ≠ .cad) (h_cdc : vp ≠ .cdc) (h_stp : vp ≠ .stp) (h_btu : vp ≠ .btu) (h_hdp : vp ≠ .hdp) (h_jnl : vp ≠ .jnl) (h_axs : vp ≠ .axs) (h_mot : vp ≠ .mot) (h_ctl : vp ≠ .ctl) (h_drc : vp ≠ .drc) (h_flt : vp ≠ .flt) :
    view vp (activateRun c s).state = view vp s := by
  unfold activateRun
  dsimp only
  split
  · simp
  · (repeat' (split; (first | (simp; done) | skip)))
    all_goals first
    | (simp; done)
    | skip
    all_goals
      rename_i heq
      have hr := journaled_view (vp := vp) s (recordRecipes s (activateSlots c)) { status := .ok, w0 := Cmd.p8 c 16 } (by simp [h_free, h_out, h_sys, h_pins, h_clk, h_hif, h_mgt, h_sup, h_ktl, h_led, h_cad, h_cdc, h_stp, h_btu, h_hdp, h_jnl, h_axs, h_mot, h_ctl, h_drc, h_flt])
      rw [heq] at hr
      simp only [Verdict.state_reply, Verdict.state_park] at hr ⊢
      simp [hr, h_free, h_out, h_sys, h_pins, h_clk, h_hif, h_mgt, h_sup, h_ktl, h_led, h_cad, h_cdc, h_stp, h_btu, h_hdp, h_jnl, h_axs, h_mot, h_ctl, h_drc, h_flt]

@[simp] theorem beforeRaises_view {vp : Part} (s : State) (h_flt : vp ≠ .flt) :
    view vp (beforeRaises s) = view vp s := by
  unfold beforeRaises
  simp [h_flt]

@[simp] theorem faultReadRun_view {vp : Part} (c : Cmd) (s : State) :
    view vp (faultReadRun c s).state = view vp s := by
  unfold faultReadRun
  simp  <;> (repeat' split) <;> simp_all

@[simp] theorem endPathStop_view {vp : Part} (s : State) (h_seq : vp ≠ .seq) (h_axs : vp ≠ .axs) (h_mot : vp ≠ .mot)
    (h_ctl : vp ≠ .ctl) :
    view vp (endPathStop s) = view vp s := by
  unfold endPathStop
  simp [h_seq, h_axs, h_mot, h_ctl]

set_option maxRecDepth 2048 in
@[simp] theorem releaseUnit_view {vp : Part} (s : State) (src : Nat) (h_pins : vp ≠ .pins) (h_cdc : vp ≠ .cdc)
    (h_btu : vp ≠ .btu) (h_hdp : vp ≠ .hdp) (h_seq : vp ≠ .seq) (h_axs : vp ≠ .axs) (h_mot : vp ≠ .mot)
    (h_ctl : vp ≠ .ctl) :
    view vp (releaseUnit s src) = view vp s := by
  unfold releaseUnit
  simp [h_pins, h_cdc, h_btu, h_hdp, h_seq, h_axs, h_mot, h_ctl]

@[simp] theorem clearSource_view {vp : Part} (s : State) (k : Fin 256) (h_out : vp ≠ .out) (h_hif : vp ≠ .hif)
    (h_flt : vp ≠ .flt) :
    view vp (clearSource s k) = view vp s := by
  unfold clearSource
  simp [h_out, h_hif, h_flt] <;> (repeat' split) <;> simp_all

@[simp] theorem faultClear_view {vp : Part} (s : State) (k : Fin 256) (h_out : vp ≠ .out) (h_sys : vp ≠ .sys)
    (h_pins : vp ≠ .pins) (h_hif : vp ≠ .hif) (h_led : vp ≠ .led) (h_cad : vp ≠ .cad) (h_cdc : vp ≠ .cdc)
    (h_stp : vp ≠ .stp) (h_btu : vp ≠ .btu) (h_hdp : vp ≠ .hdp) (h_jnl : vp ≠ .jnl) (h_seq : vp ≠ .seq)
    (h_axs : vp ≠ .axs) (h_mot : vp ≠ .mot) (h_ctl : vp ≠ .ctl) (h_flt : vp ≠ .flt) :
    view vp (faultClear s k) = view vp s := by
  unfold faultClear
  simp [h_out, h_sys, h_pins, h_hif, h_led, h_cad, h_cdc, h_stp, h_btu, h_hdp, h_jnl, h_seq, h_axs, h_mot, h_ctl, h_flt]

@[simp] theorem acknowledge_view {vp : Part} (s : State) (k : Fin 256) (h_sys : vp ≠ .sys) (h_led : vp ≠ .led)
    (h_jnl : vp ≠ .jnl) (h_flt : vp ≠ .flt) :
    view vp (acknowledge s k) = view vp s := by
  unfold acknowledge
  simp [h_sys, h_led, h_jnl, h_flt]

@[simp] theorem marchDone_view {vp : Part} (s : State) (fails : BitVec 36) (h_out : vp ≠ .out) (h_sys : vp ≠ .sys)
    (h_pins : vp ≠ .pins) (h_hif : vp ≠ .hif) (h_led : vp ≠ .led) (h_cad : vp ≠ .cad) (h_cdc : vp ≠ .cdc)
    (h_stp : vp ≠ .stp) (h_btu : vp ≠ .btu) (h_hdp : vp ≠ .hdp) (h_jnl : vp ≠ .jnl) (h_seq : vp ≠ .seq)
    (h_axs : vp ≠ .axs) (h_mot : vp ≠ .mot) (h_ctl : vp ≠ .ctl) (h_flt : vp ≠ .flt) :
    view vp (marchDone s fails).1 = view vp s := by
  unfold marchDone
  simp [h_out, h_sys, h_pins, h_hif, h_led, h_cad, h_cdc, h_stp, h_btu, h_hdp, h_jnl, h_seq, h_axs, h_mot, h_ctl, h_flt]

@[simp] theorem faultClearRun_view {vp : Part} (c : Cmd) (s : State) (h_out : vp ≠ .out) (h_sys : vp ≠ .sys)
    (h_pins : vp ≠ .pins) (h_hif : vp ≠ .hif) (h_led : vp ≠ .led) (h_cad : vp ≠ .cad) (h_cdc : vp ≠ .cdc)
    (h_stp : vp ≠ .stp) (h_btu : vp ≠ .btu) (h_hdp : vp ≠ .hdp) (h_jnl : vp ≠ .jnl) (h_seq : vp ≠ .seq)
    (h_axs : vp ≠ .axs) (h_mot : vp ≠ .mot) (h_ctl : vp ≠ .ctl) (h_flt : vp ≠ .flt) :
    view vp (faultClearRun c s).state = view vp s := by
  unfold faultClearRun
  simp [h_out, h_sys, h_pins, h_hif, h_led, h_cad, h_cdc, h_stp, h_btu, h_hdp, h_jnl, h_seq, h_axs, h_mot, h_ctl, h_flt]

@[simp] theorem faultSetSeverityRun_view {vp : Part} (c : Cmd) (s : State) (h_pins : vp ≠ .pins) (h_led : vp ≠ .led)
    (h_jnl : vp ≠ .jnl) (h_flt : vp ≠ .flt) :
    view vp (faultSetSeverityRun c s).state = view vp s := by
  unfold faultSetSeverityRun
  (repeat' split) <;> simp [h_pins, h_led, h_jnl, h_flt]

@[simp] theorem faultInjectRun_view {vp : Part} (c : Cmd) (s : State) (h_led : vp ≠ .led) (h_jnl : vp ≠ .jnl)
    (h_flt : vp ≠ .flt) :
    view vp (faultInjectRun c s).state = view vp s := by
  unfold faultInjectRun
  (repeat' split) <;> simp [h_led, h_jnl, h_flt]

@[simp] theorem ownDetection_view {vp : Part} (s : State) (src : Nat) (detail : Nat) (h_ctl : vp ≠ .ctl)
    (h_drc : vp ≠ .drc) (h_flt : vp ≠ .flt) :
    view vp (ownDetection s src detail) = view vp s := by
  unfold ownDetection
  simp [h_ctl, h_drc, h_flt]

@[simp] theorem detected_view {vp : Part} (s : State) (src : Fin 256) (detail : Word) (h_out : vp ≠ .out)
    (h_sys : vp ≠ .sys) (h_pins : vp ≠ .pins) (h_clk : vp ≠ .clk) (h_hif : vp ≠ .hif) (h_mgt : vp ≠ .mgt)
    (h_sup : vp ≠ .sup) (h_ktl : vp ≠ .ktl) (h_led : vp ≠ .led) (h_cad : vp ≠ .cad) (h_cdc : vp ≠ .cdc)
    (h_stp : vp ≠ .stp) (h_btu : vp ≠ .btu) (h_hdp : vp ≠ .hdp) (h_jnl : vp ≠ .jnl) (h_seq : vp ≠ .seq)
    (h_axs : vp ≠ .axs) (h_mot : vp ≠ .mot) (h_ctl : vp ≠ .ctl) (h_drc : vp ≠ .drc) (h_flt : vp ≠ .flt) :
    view vp (detected s src detail) = view vp s := by
  unfold detected
  simp [h_out, h_sys, h_pins, h_clk, h_hif, h_mgt, h_sup, h_ktl, h_led, h_cad, h_cdc, h_stp, h_btu, h_hdp, h_jnl, h_seq, h_axs, h_mot, h_ctl, h_drc, h_flt] <;> (repeat' split) <;> simp_all

@[simp] theorem injectTick_view {vp : Part} (s : State) (h_flt : vp ≠ .flt) :
    view vp (injectTick s) = view vp s := by
  unfold injectTick
  (repeat' split) <;> simp [h_flt]

@[simp] theorem injectionOver_view {vp : Part} (s : State) (h_flt : vp ≠ .flt) :
    view vp (injectionOver s) = view vp s := by
  unfold injectionOver
  (repeat' split) <;> simp [h_flt]

@[simp] theorem toPhase_view {vp : Part} (s : State) (d : Ingest) (p : IngestPhase) (h_cad : vp ≠ .cad) :
    view vp (toPhase s d p) = view vp s := by
  unfold toPhase
  simp [h_cad]

@[simp] theorem enterLeaf_view {vp : Part} (s : State) (d : Ingest) (l : Leaf) (zero : Bool) (h_out : vp ≠ .out)
    (h_hif : vp ≠ .hif) (h_cad : vp ≠ .cad) (h_cdc : vp ≠ .cdc) (h_drc : vp ≠ .drc) (h_flt : vp ≠ .flt) :
    view vp (enterLeaf s d l zero) = view vp s := by
  unfold enterLeaf
  simp [h_out, h_hif, h_cad, h_cdc, h_drc, h_flt]

@[simp] theorem testEnded_view {vp : Part} (s : State) (id : LaneId) (pass : Bool) (h_out : vp ≠ .out)
    (h_hif : vp ≠ .hif) (h_cad : vp ≠ .cad) (h_cdc : vp ≠ .cdc) (h_drc : vp ≠ .drc) (h_flt : vp ≠ .flt) :
    view vp (testEnded s id pass) = view vp s := by
  unfold testEnded
  simp [h_out, h_hif, h_cad, h_cdc, h_drc, h_flt]

@[simp] theorem laneFault_view {vp : Part} (s : State) (id : LaneId) (cause : Nat) (h_free : vp ≠ .free)
    (h_out : vp ≠ .out) (h_hif : vp ≠ .hif) (h_mgt : vp ≠ .mgt) (h_sup : vp ≠ .sup) (h_ktl : vp ≠ .ktl)
    (h_cad : vp ≠ .cad) (h_cdc : vp ≠ .cdc) (h_stp : vp ≠ .stp) (h_drc : vp ≠ .drc) (h_flt : vp ≠ .flt) :
    view vp (laneFault s id cause) = view vp s := by
  unfold laneFault
  simp [h_free, h_out, h_hif, h_mgt, h_sup, h_ktl, h_cad, h_cdc, h_stp, h_drc, h_flt] <;> (repeat' split) <;> simp_all

@[simp] theorem codecRunRun_view {vp : Part} (c : Cmd) (s : State) (h_cdc : vp ≠ .cdc) :
    view vp (codecRunRun c s).state = view vp s := by
  unfold codecRunRun
  simp [h_cdc] <;> (repeat' split) <;> simp_all

@[simp] theorem runEnded_view {vp : Part} (s : State) (id : LaneId) (dest : Nat) (new : List Byte) (v : Option Saved)
    (r : Res) (h_out : vp ≠ .out) (h_hif : vp ≠ .hif) (h_cad : vp ≠ .cad) (h_cdc : vp ≠ .cdc) (h_drc : vp ≠ .drc)
    (h_flt : vp ≠ .flt) :
    view vp (runEnded s id dest new v r) = view vp s := by
  unfold runEnded
  simp [h_out, h_hif, h_cad, h_cdc, h_drc, h_flt]

theorem codecDone_view {vp : Part} (s : State) (c : Cmd) (source : List Byte) (reached pending : Nat) (upset : Bool) (t : State) (r : Res)
    (h : codecDone s c source reached pending upset = some (t, r)) (h_free : vp ≠ .free) (h_out : vp ≠ .out) (h_hif : vp ≠ .hif) (h_cad : vp ≠ .cad) (h_cdc : vp ≠ .cdc) (h_drc : vp ≠ .drc) (h_flt : vp ≠ .flt) :
    view vp t = view vp s := by
  unfold codecDone at h
  dsimp only at h
  (repeat' split at h) <;> simp at h <;> obtain ⟨rfl, _⟩ := h <;> (repeat' split) <;> simp [h_free, h_out, h_hif, h_cad, h_cdc, h_drc, h_flt]

@[simp] theorem codecExpired_view {vp : Part} (s : State) (c : Cmd) (h_free : vp ≠ .free) (h_out : vp ≠ .out)
    (h_hif : vp ≠ .hif) (h_cad : vp ≠ .cad) (h_cdc : vp ≠ .cdc) (h_drc : vp ≠ .drc) (h_flt : vp ≠ .flt) :
    view vp (codecExpired s c).1 = view vp s := by
  unfold codecExpired
  simp [h_free, h_out, h_hif, h_cad, h_cdc, h_drc, h_flt] <;> (repeat' split) <;> simp_all

@[simp] theorem jobRecord_view {vp : Part} (s : State) (close : Bool) (j : Job) (h_led : vp ≠ .led) (h_jnl : vp ≠ .jnl)
    (h_flt : vp ≠ .flt) :
    view vp (jobRecord s close j) = view vp s := by
  unfold jobRecord
  simp [h_led, h_jnl, h_flt]

@[simp] theorem openJobRun_view {vp : Part} (c : Cmd) (s : State) (h_led : vp ≠ .led) (h_jnl : vp ≠ .jnl)
    (h_flt : vp ≠ .flt) :
    view vp (openJobRun c s).state = view vp s := by
  unfold openJobRun
  (repeat' split) <;> simp [h_led, h_jnl, h_flt]

@[simp] theorem closeJobRun_view {vp : Part} (c : Cmd) (s : State) (h_led : vp ≠ .led) (h_jnl : vp ≠ .jnl)
    (h_flt : vp ≠ .flt) :
    view vp (closeJobRun c s).state = view vp s := by
  unfold closeJobRun
  simp [h_led, h_jnl, h_flt] <;> (repeat' split) <;> simp_all

@[simp] theorem admitFull_view {vp : Part} (s : State) (h_jnl : vp ≠ .jnl) (h_flt : vp ≠ .flt) :
    view vp (admitFull s).state = view vp s := by
  unfold admitFull
  simp [h_jnl, h_flt]

@[simp] theorem admitSheetRun_view {vp : Part} (c : Cmd) (s : State) (h_led : vp ≠ .led) (h_jnl : vp ≠ .jnl)
    (h_flt : vp ≠ .flt) :
    view vp (admitSheetRun c s).state = view vp s := by
  unfold admitSheetRun
  simp [h_led, h_jnl, h_flt] <;> (repeat' split) <;> simp_all

@[simp] theorem joinSequences_view {vp : Part} (s : State) (i : Fin 512) (e : Sheet) (h_stp : vp ≠ .stp) :
    view vp (joinSequences s i e) = view vp s := by
  unfold joinSequences
  simp [h_stp]

@[simp] theorem commitSheet_view {vp : Part} (s : State) (i : Fin 512) (e : Sheet) (j : Job) (h_led : vp ≠ .led)
    (h_stp : vp ≠ .stp) (h_jnl : vp ≠ .jnl) (h_mot : vp ≠ .mot) (h_flt : vp ≠ .flt) :
    view vp (commitSheet s i e j) = view vp s := by
  unfold commitSheet
  simp [h_led, h_stp, h_jnl, h_mot, h_flt]

@[simp] theorem commitSheetRun_view {vp : Part} (c : Cmd) (s : State) (h_led : vp ≠ .led) (h_stp : vp ≠ .stp)
    (h_jnl : vp ≠ .jnl) (h_mot : vp ≠ .mot) (h_flt : vp ≠ .flt) :
    view vp (commitSheetRun c s).state = view vp s := by
  unfold commitSheetRun
  simp [h_led, h_stp, h_jnl, h_mot, h_flt] <;> (repeat' split) <;> simp_all

@[simp] theorem cancelOne_view {vp : Part} (s : State) (i : Fin 512) (e : Sheet) (h_led : vp ≠ .led)
    (h_cad : vp ≠ .cad) (h_stp : vp ≠ .stp) (h_hdp : vp ≠ .hdp) (h_jnl : vp ≠ .jnl) (h_flt : vp ≠ .flt) :
    view vp (cancelOne s i e) = view vp s := by
  unfold cancelOne
  simp [h_led, h_cad, h_stp, h_hdp, h_jnl, h_flt]

@[simp] theorem cancelSheetNow_view {vp : Part} (s : State) (i : Fin 512) (e : Sheet) (h_sys : vp ≠ .sys)
    (h_led : vp ≠ .led) (h_cad : vp ≠ .cad) (h_stp : vp ≠ .stp) (h_hdp : vp ≠ .hdp) (h_jnl : vp ≠ .jnl)
    (h_seq : vp ≠ .seq) (h_axs : vp ≠ .axs) (h_mot : vp ≠ .mot) (h_ctl : vp ≠ .ctl) (h_flt : vp ≠ .flt) :
    view vp (cancelSheetNow s i e) = view vp s := by
  unfold cancelSheetNow
  simp [h_sys, h_led, h_cad, h_stp, h_hdp, h_jnl, h_seq, h_axs, h_mot, h_ctl, h_flt]

@[simp] theorem cancelSheetRun_view {vp : Part} (c : Cmd) (s : State) (h_sys : vp ≠ .sys) (h_led : vp ≠ .led)
    (h_cad : vp ≠ .cad) (h_stp : vp ≠ .stp) (h_hdp : vp ≠ .hdp) (h_jnl : vp ≠ .jnl) (h_seq : vp ≠ .seq)
    (h_axs : vp ≠ .axs) (h_mot : vp ≠ .mot) (h_ctl : vp ≠ .ctl) (h_flt : vp ≠ .flt) :
    view vp (cancelSheetRun c s).state = view vp s := by
  unfold cancelSheetRun
  (repeat' split) <;> simp [h_sys, h_led, h_cad, h_stp, h_hdp, h_jnl, h_seq, h_axs, h_mot, h_ctl, h_flt]

@[simp] theorem querySheetRun_view {vp : Part} (c : Cmd) (s : State) :
    view vp (querySheetRun c s).state = view vp s := by
  unfold querySheetRun
  simp 

@[simp] theorem evictLeavesRun_view {vp : Part} (c : Cmd) (s : State) (h_out : vp ≠ .out) (h_hif : vp ≠ .hif)
    (h_cad : vp ≠ .cad) (h_cdc : vp ≠ .cdc) (h_drc : vp ≠ .drc) (h_flt : vp ≠ .flt) :
    view vp (evictLeavesRun c s).state = view vp s := by
  unfold evictLeavesRun
  simp [h_out, h_hif, h_cad, h_cdc, h_drc, h_flt] <;> (repeat' split) <;> simp_all

@[simp] theorem descriptorFetched_view {vp : Part} (s : State) (ring : Fin 8) (r : Fetch) (h_out : vp ≠ .out)
    (h_hif : vp ≠ .hif) (h_cad : vp ≠ .cad) (h_cdc : vp ≠ .cdc) (h_flt : vp ≠ .flt) :
    view vp (descriptorFetched s ring r) = view vp s := by
  unfold descriptorFetched
  (repeat' split) <;> simp [h_out, h_hif, h_cad, h_cdc, h_flt]

@[simp] theorem startIngest_view {vp : Part} (s : State) (d : Ingest) (h_out : vp ≠ .out) (h_hif : vp ≠ .hif)
    (h_cad : vp ≠ .cad) (h_cdc : vp ≠ .cdc) (h_drc : vp ≠ .drc) (h_flt : vp ≠ .flt) :
    view vp (startIngest s d) = view vp s := by
  unfold startIngest
  simp [h_out, h_hif, h_cad, h_cdc, h_drc, h_flt] <;> (repeat' split) <;> simp_all

@[simp] theorem leafRead_view {vp : Part} (s : State) (d : Ingest) (l : List Byte) (h_out : vp ≠ .out)
    (h_hif : vp ≠ .hif) (h_cad : vp ≠ .cad) (h_cdc : vp ≠ .cdc) (h_flt : vp ≠ .flt) :
    view vp (leafRead s d l) = view vp s := by
  unfold leafRead
  (repeat' split) <;> simp [h_out, h_hif, h_cad, h_cdc, h_flt]

@[simp] theorem bandRead_view {vp : Part} (s : State) (d : Ingest) (n : Fin 12) (l : List Byte) (h_out : vp ≠ .out)
    (h_hif : vp ≠ .hif) (h_cad : vp ≠ .cad) (h_cdc : vp ≠ .cdc) (h_drc : vp ≠ .drc) (h_flt : vp ≠ .flt) :
    view vp (bandRead s d n l) = view vp s := by
  unfold bandRead
  simp [h_out, h_hif, h_cad, h_cdc, h_drc, h_flt]

@[simp] theorem sourceRead_view {vp : Part} (s : State) (d : Ingest) (r : Fetch) (h_out : vp ≠ .out)
    (h_hif : vp ≠ .hif) (h_cad : vp ≠ .cad) (h_cdc : vp ≠ .cdc) (h_drc : vp ≠ .drc) (h_flt : vp ≠ .flt) :
    view vp (sourceRead s d r) = view vp s := by
  unfold sourceRead
  (repeat' split) <;> simp [h_out, h_hif, h_cad, h_cdc, h_drc, h_flt]

@[simp] theorem selfVerifyFailed_view {vp : Part} (s : State) (n : Fin 12) (h_out : vp ≠ .out) (h_hif : vp ≠ .hif)
    (h_cad : vp ≠ .cad) (h_cdc : vp ≠ .cdc) (h_drc : vp ≠ .drc) (h_flt : vp ≠ .flt) :
    view vp (selfVerifyFailed s n) = view vp s := by
  unfold selfVerifyFailed
  simp [h_out, h_hif, h_cad, h_cdc, h_drc, h_flt]

@[simp] theorem bodyMade_view {vp : Part} (s : State) (d : Ingest) (n : Fin 12) (zero : Bool) (e : Encoded)
    (h_out : vp ≠ .out) (h_hif : vp ≠ .hif) (h_cad : vp ≠ .cad) (h_cdc : vp ≠ .cdc) (h_drc : vp ≠ .drc)
    (h_flt : vp ≠ .flt) :
    view vp (bodyMade s d n zero e) = view vp s := by
  unfold bodyMade
  simp [h_out, h_hif, h_cad, h_cdc, h_drc, h_flt]

@[simp] theorem bandEncoded_view {vp : Part} (s : State) (d : Ingest) (n : Fin 12) (raw : List Byte) (upset : Bool)
    (h_out : vp ≠ .out) (h_hif : vp ≠ .hif) (h_cad : vp ≠ .cad) (h_cdc : vp ≠ .cdc) (h_drc : vp ≠ .drc)
    (h_flt : vp ≠ .flt) :
    view vp (bandEncoded s d n raw upset) = view vp s := by
  unfold bandEncoded
  simp [h_out, h_hif, h_cad, h_cdc, h_drc, h_flt]

@[simp] theorem encodeEnded_view {vp : Part} (s : State) (d : Ingest) (n : Fin 12) (e : EncodeEnd) (h_out : vp ≠ .out)
    (h_hif : vp ≠ .hif) (h_cad : vp ≠ .cad) (h_cdc : vp ≠ .cdc) (h_drc : vp ≠ .drc) (h_flt : vp ≠ .flt) :
    view vp (encodeEnded s d n e) = view vp s := by
  unfold encodeEnded
  (repeat' split) <;> simp [h_out, h_hif, h_cad, h_cdc, h_drc, h_flt]

@[simp] theorem leafEntry_view {vp : Part} (s : State) (d : Ingest) (l : Leaf) (zero : Bool) (h_out : vp ≠ .out)
    (h_hif : vp ≠ .hif) (h_cad : vp ≠ .cad) (h_cdc : vp ≠ .cdc) (h_drc : vp ≠ .drc) (h_flt : vp ≠ .flt) :
    view vp (leafEntry s d l zero) = view vp s := by
  unfold leafEntry
  (repeat' split) <;> simp [h_out, h_hif, h_cad, h_cdc, h_drc, h_flt]

@[simp] theorem modLeaf_view {vp : Part} (s : State) (job : Word) (key : Word) (g : Leaf → Leaf) (h_cad : vp ≠ .cad) :
    view vp (modLeaf s job key g) = view vp s := by
  unfold modLeaf
  simp [h_cad]

@[simp] theorem blankLost_view {vp : Part} (s : State) (job : Word) (key : Word) (h_led : vp ≠ .led)
    (h_stp : vp ≠ .stp) (h_flt : vp ≠ .flt) :
    view vp (blankLost s job key) = view vp s := by
  unfold blankLost
  apply view_foldl; intro u x; (repeat' split) <;> simp [h_led, h_stp, h_flt]

@[simp] theorem leafLost_view {vp : Part} (s : State) (l : Leaf) (h_led : vp ≠ .led) (h_cad : vp ≠ .cad)
    (h_stp : vp ≠ .stp) (h_flt : vp ≠ .flt) :
    view vp (leafLost s l) = view vp s := by
  unfold leafLost
  simp [h_led, h_cad, h_stp, h_flt]

@[simp] theorem copyBad_view {vp : Part} (s : State) (job : Word) (key : Word) (c : Fin 2) (repair : Bool)
    (h_led : vp ≠ .led) (h_cad : vp ≠ .cad) (h_stp : vp ≠ .stp) (h_flt : vp ≠ .flt) :
    view vp (copyBad s job key c repair) = view vp s := by
  unfold copyBad
  (repeat' split) <;> simp [h_led, h_cad, h_stp, h_flt]

@[simp] theorem guardRecovery_view {vp : Part} (s : State) (t : GuardTarget) (h_led : vp ≠ .led) (h_cad : vp ≠ .cad) (h_stp : vp ≠ .stp) (h_flt : vp ≠ .flt) :
    view vp (guardRecovery s t) = view vp s := by
  unfold guardRecovery; (repeat' split) <;> simp [h_led, h_cad, h_stp, h_flt]

@[simp] theorem applyRate_view {vp : Part} (s : State) (code : Nat) (deferred : Bool) (h_drc : vp ≠ .drc)
    (h_flt : vp ≠ .flt) :
    view vp (applyRate s code deferred).1 = view vp s := by
  unfold applyRate
  simp [h_drc, h_flt]

@[simp] theorem loseChannel_view {vp : Part} (s : State) (c : Fin 2) (h_out : vp ≠ .out) (h_sys : vp ≠ .sys)
    (h_pins : vp ≠ .pins) (h_clk : vp ≠ .clk) (h_hif : vp ≠ .hif) (h_led : vp ≠ .led) (h_cad : vp ≠ .cad)
    (h_cdc : vp ≠ .cdc) (h_stp : vp ≠ .stp) (h_btu : vp ≠ .btu) (h_hdp : vp ≠ .hdp) (h_jnl : vp ≠ .jnl)
    (h_seq : vp ≠ .seq) (h_axs : vp ≠ .axs) (h_mot : vp ≠ .mot) (h_ctl : vp ≠ .ctl) (h_drc : vp ≠ .drc)
    (h_flt : vp ≠ .flt) :
    view vp (loseChannel s c) = view vp s := by
  unfold loseChannel
  simp [h_out, h_sys, h_pins, h_clk, h_hif, h_led, h_cad, h_cdc, h_stp, h_btu, h_hdp, h_jnl, h_seq, h_axs, h_mot, h_ctl, h_drc, h_flt]

@[simp] theorem trainReply_view {vp : Part} (s : State) (t : Training) (h_out : vp ≠ .out) (h_sys : vp ≠ .sys)
    (h_clk : vp ≠ .clk) (h_hif : vp ≠ .hif) (h_mgt : vp ≠ .mgt) (h_sup : vp ≠ .sup) (h_ktl : vp ≠ .ktl)
    (h_cdc : vp ≠ .cdc) (h_hdp : vp ≠ .hdp) (h_axs : vp ≠ .axs) (h_mot : vp ≠ .mot) (h_ctl : vp ≠ .ctl)
    (h_drc : vp ≠ .drc) (h_flt : vp ≠ .flt) :
    view vp (trainReply s t) = view vp s := by
  unfold trainReply
  simp [h_out, h_sys, h_clk, h_hif, h_mgt, h_sup, h_ktl, h_cdc, h_hdp, h_axs, h_mot, h_ctl, h_drc, h_flt] <;> (repeat' split) <;> simp_all

@[simp] theorem trainOn_view {vp : Part} (s : State) (t : Option Training) (last : Training) (h_out : vp ≠ .out)
    (h_sys : vp ≠ .sys) (h_clk : vp ≠ .clk) (h_hif : vp ≠ .hif) (h_mgt : vp ≠ .mgt) (h_sup : vp ≠ .sup)
    (h_ktl : vp ≠ .ktl) (h_cdc : vp ≠ .cdc) (h_hdp : vp ≠ .hdp) (h_axs : vp ≠ .axs) (h_mot : vp ≠ .mot)
    (h_ctl : vp ≠ .ctl) (h_drc : vp ≠ .drc) (h_flt : vp ≠ .flt) :
    view vp (trainOn s t last) = view vp s := by
  unfold trainOn
  (repeat' split) <;> simp [h_out, h_sys, h_clk, h_hif, h_mgt, h_sup, h_ktl, h_cdc, h_hdp, h_axs, h_mot, h_ctl, h_drc, h_flt]

@[simp] theorem channelPassed_view {vp : Part} (s : State) (t : Training) (h_out : vp ≠ .out) (h_sys : vp ≠ .sys)
    (h_clk : vp ≠ .clk) (h_hif : vp ≠ .hif) (h_mgt : vp ≠ .mgt) (h_sup : vp ≠ .sup) (h_ktl : vp ≠ .ktl)
    (h_cdc : vp ≠ .cdc) (h_hdp : vp ≠ .hdp) (h_axs : vp ≠ .axs) (h_mot : vp ≠ .mot) (h_ctl : vp ≠ .ctl)
    (h_drc : vp ≠ .drc) (h_flt : vp ≠ .flt) :
    view vp (channelPassed s t) = view vp s := by
  unfold channelPassed
  simp [h_out, h_sys, h_clk, h_hif, h_mgt, h_sup, h_ktl, h_cdc, h_hdp, h_axs, h_mot, h_ctl, h_drc, h_flt]

@[simp] theorem stepPassed_view {vp : Part} (s : State) (t : Training) (h_out : vp ≠ .out) (h_sys : vp ≠ .sys)
    (h_clk : vp ≠ .clk) (h_hif : vp ≠ .hif) (h_mgt : vp ≠ .mgt) (h_sup : vp ≠ .sup) (h_ktl : vp ≠ .ktl)
    (h_cdc : vp ≠ .cdc) (h_hdp : vp ≠ .hdp) (h_axs : vp ≠ .axs) (h_mot : vp ≠ .mot) (h_ctl : vp ≠ .ctl)
    (h_drc : vp ≠ .drc) (h_flt : vp ≠ .flt) :
    view vp (stepPassed s t) = view vp s := by
  unfold stepPassed
  simp [h_out, h_sys, h_clk, h_hif, h_mgt, h_sup, h_ktl, h_cdc, h_hdp, h_axs, h_mot, h_ctl, h_drc, h_flt] <;> (repeat' split) <;> simp_all

@[simp] theorem stepFailed_view {vp : Part} (s : State) (t : Training) (h_out : vp ≠ .out) (h_sys : vp ≠ .sys)
    (h_pins : vp ≠ .pins) (h_clk : vp ≠ .clk) (h_hif : vp ≠ .hif) (h_mgt : vp ≠ .mgt) (h_sup : vp ≠ .sup)
    (h_ktl : vp ≠ .ktl) (h_led : vp ≠ .led) (h_cad : vp ≠ .cad) (h_cdc : vp ≠ .cdc) (h_stp : vp ≠ .stp)
    (h_btu : vp ≠ .btu) (h_hdp : vp ≠ .hdp) (h_jnl : vp ≠ .jnl) (h_seq : vp ≠ .seq) (h_axs : vp ≠ .axs)
    (h_mot : vp ≠ .mot) (h_ctl : vp ≠ .ctl) (h_drc : vp ≠ .drc) (h_flt : vp ≠ .flt) :
    view vp (stepFailed s t) = view vp s := by
  unfold stepFailed
  simp [h_out, h_sys, h_pins, h_clk, h_hif, h_mgt, h_sup, h_ktl, h_led, h_cad, h_cdc, h_stp, h_btu, h_hdp, h_jnl, h_seq, h_axs, h_mot, h_ctl, h_drc, h_flt]

@[simp] theorem deferredRate_view {vp : Part} (s : State) (h_out : vp ≠ .out) (h_hif : vp ≠ .hif) (h_mgt : vp ≠ .mgt)
    (h_sup : vp ≠ .sup) (h_ktl : vp ≠ .ktl) (h_drc : vp ≠ .drc) (h_flt : vp ≠ .flt) :
    view vp (deferredRate s) = view vp s := by
  unfold deferredRate
  simp [h_out, h_hif, h_mgt, h_sup, h_ktl, h_drc, h_flt] <;> (repeat' split) <;> simp_all

@[simp] theorem dramTrainRun_view {vp : Part} (c : Cmd) (s : State) (h_sys : vp ≠ .sys) (h_clk : vp ≠ .clk)
    (h_cdc : vp ≠ .cdc) (h_hdp : vp ≠ .hdp) (h_axs : vp ≠ .axs) (h_mot : vp ≠ .mot) (h_ctl : vp ≠ .ctl)
    (h_drc : vp ≠ .drc) :
    view vp (dramTrainRun c s).state = view vp s := by
  unfold dramTrainRun
  simp [h_sys, h_clk, h_cdc, h_hdp, h_axs, h_mot, h_ctl, h_drc]

@[simp] theorem dramSetRateRun_view {vp : Part} (c : Cmd) (s : State) (h_drc : vp ≠ .drc) (h_flt : vp ≠ .flt) :
    view vp (dramSetRateRun c s).state = view vp s := by
  unfold dramSetRateRun
  (repeat' split) <;> simp [h_drc, h_flt]

@[simp] theorem dramQueryRun_view {vp : Part} (c : Cmd) (s : State) :
    view vp (dramQueryRun c s).state = view vp s := by
  unfold dramQueryRun
  simp 

@[simp] theorem refreshCycle_view {vp : Part} (s : State) (h_drc : vp ≠ .drc) :
    view vp (refreshCycle s) = view vp s := by
  unfold refreshCycle
  simp [h_drc]

@[simp] theorem enterDoubled_view {vp : Part} (s : State) (c : Fin 2) (h_drc : vp ≠ .drc) (h_flt : vp ≠ .flt) :
    view vp (enterDoubled s c) = view vp s := by
  unfold enterDoubled
  simp [h_drc, h_flt]

@[simp] theorem dramReading_view {vp : Part} (s : State) (c : Fin 2) (t : Int) (h_drc : vp ≠ .drc) (h_flt : vp ≠ .flt) :
    view vp (dramReading s c t) = view vp s := by
  unfold dramReading
  simp [h_drc, h_flt]

@[simp] theorem dramSensorLost_view {vp : Part} (s : State) (c : Fin 2) (h_drc : vp ≠ .drc) (h_flt : vp ≠ .flt) :
    view vp (dramSensorLost s c) = view vp s := by
  unfold dramSensorLost
  simp [h_drc, h_flt]

@[simp] theorem replayed_view {vp : Part} (s : State) (c : Fin 2) (parity : Bool) (h_drc : vp ≠ .drc)
    (h_flt : vp ≠ .flt) :
    view vp (replayed s c parity) = view vp s := by
  unfold replayed
  simp [h_drc, h_flt]

@[simp] theorem replayFailed_view {vp : Part} (s : State) (c : Fin 2) (retrain : Bool) (h_out : vp ≠ .out)
    (h_sys : vp ≠ .sys) (h_pins : vp ≠ .pins) (h_clk : vp ≠ .clk) (h_hif : vp ≠ .hif) (h_led : vp ≠ .led)
    (h_cad : vp ≠ .cad) (h_cdc : vp ≠ .cdc) (h_stp : vp ≠ .stp) (h_btu : vp ≠ .btu) (h_hdp : vp ≠ .hdp)
    (h_jnl : vp ≠ .jnl) (h_seq : vp ≠ .seq) (h_axs : vp ≠ .axs) (h_mot : vp ≠ .mot) (h_ctl : vp ≠ .ctl)
    (h_drc : vp ≠ .drc) (h_flt : vp ≠ .flt) :
    view vp (replayFailed s c retrain) = view vp s := by
  unfold replayFailed
  simp [h_out, h_sys, h_pins, h_clk, h_hif, h_led, h_cad, h_cdc, h_stp, h_btu, h_hdp, h_jnl, h_seq, h_axs, h_mot, h_ctl, h_drc, h_flt]

@[simp] theorem senseRaises_view {vp : Part} (x : Sensed) (s : State) (h_flt : vp ≠ .flt) :
    view vp (senseRaises x s) = view vp s := by
  unfold senseRaises
  (repeat' split) <;> simp [h_flt]

@[simp] theorem senseFuses_view {vp : Part} (s : State) (weak : List (Nat × BitVec 72)) (h_flt : vp ≠ .flt)
    (h_fus : vp ≠ .fus) :
    view vp (senseFuses s weak) = view vp s := by
  unfold senseFuses
  simp [h_flt, h_fus]

@[simp] theorem burnRow_view {vp : Part} (s : State) (r : Nat) (bits : BitVec 72) (h_fus : vp ≠ .fus) :
    view vp (burnRow s r bits) = view vp s := by
  unfold burnRow
  simp [h_fus]

@[simp] theorem burnTo_view {vp : Part} (s : State) (r : Nat) (want : BitVec 72) (back : BitVec 72)
    (h_free : vp ≠ .free) (h_fus : vp ≠ .fus) :
    view vp (burnTo s r want back) = view vp s := by
  unfold burnTo
  simp [h_free, h_fus]

@[simp] theorem latchRow_view {vp : Part} (s : State) (w : Nat) (r : BitVec 72) (h_fus : vp ≠ .fus) :
    view vp (latchRow s w r) = view vp s := by
  unfold latchRow
  simp [h_fus]

@[simp] theorem trySpares_view {vp : Part} (w : Nat) (want : BitVec 72) (ks : List Nat) (back : List (BitVec 72)) (s : State) (h_free : vp ≠ .free) (h_flt : vp ≠ .flt) (h_fus : vp ≠ .fus) :
    view vp (trySpares w want ks back s).1 = view vp s := by
  induction ks generalizing back s with
  | nil => rfl
  | cons k ks ih => unfold trySpares; dsimp only; split <;> simp [ih, h_free, h_flt, h_fus]

@[simp] theorem burnWord_view {vp : Part} (s : State) (w : Nat) (bits : BitVec 64) (back : List (BitVec 72)) (h_free : vp ≠ .free) (h_flt : vp ≠ .flt) (h_fus : vp ≠ .fus) :
    view vp (burnWord s w bits back).1 = view vp s := by
  unfold burnWord
  dsimp only
  split
  · simp [h_free, h_flt, h_fus]
  · rw [trySpares_view, burnTo_view] <;> assumption

@[simp] theorem noteWords_view {vp : Part} (s : State) (l : List (Fin 256)) (h_fus : vp ≠ .fus) :
    view vp (noteWords s l) = view vp s := by
  unfold noteWords
  simp [h_fus]

@[simp] theorem fuseReadRun_view {vp : Part} (c : Cmd) (s : State) :
    view vp (fuseReadRun c s).state = view vp s := by
  unfold fuseReadRun
  simp 

@[simp] theorem fuseShadowRun_view {vp : Part} (c : Cmd) (s : State) (h_led : vp ≠ .led) (h_jnl : vp ≠ .jnl)
    (h_flt : vp ≠ .flt) (h_fus : vp ≠ .fus) :
    view vp (fuseShadowRun c s).state = view vp s := by
  unfold fuseShadowRun
  (repeat' split) <;> simp [h_led, h_jnl, h_flt, h_fus]

@[simp] theorem fuseBurnRun_view {vp : Part} (c : Cmd) (s : State) :
    view vp (fuseBurnRun c s).state = view vp s := by
  unfold fuseBurnRun
  (repeat' split) <;> simp 

@[simp] theorem fuseBurnDone_view {vp : Part} (s : State) (c : Cmd) (back : List (BitVec 72)) (h_free : vp ≠ .free)
    (h_led : vp ≠ .led) (h_jnl : vp ≠ .jnl) (h_flt : vp ≠ .flt) (h_fus : vp ≠ .fus) :
    view vp (fuseBurnDone s c back).1 = view vp s := by
  unfold fuseBurnDone
  simp [h_free, h_led, h_jnl, h_flt, h_fus]

@[simp] theorem fuseLockRun_view {vp : Part} (c : Cmd) (s : State) :
    view vp (fuseLockRun c s).state = view vp s := by
  unfold fuseLockRun
  (repeat' split) <;> simp 

@[simp] theorem lockRegion_view {vp : Part} (s : State) (r : Nat) (h_fus : vp ≠ .fus) :
    view vp (lockRegion s r) = view vp s := by
  unfold lockRegion
  simp [h_fus]

@[simp] theorem fuseLockDone_view {vp : Part} (s : State) (c : Cmd) (h_led : vp ≠ .led) (h_jnl : vp ≠ .jnl)
    (h_flt : vp ≠ .flt) (h_fus : vp ≠ .fus) :
    view vp (fuseLockDone s c).1 = view vp s := by
  unfold fuseLockDone
  simp [h_led, h_jnl, h_flt, h_fus]

@[simp] theorem provisionRun_view {vp : Part} (c : Cmd) (s : State) :
    view vp (provisionRun c s).state = view vp s := by
  unfold provisionRun
  simp 

@[simp] theorem burnKey_view {vp : Part} (s : State) (w : Nat) (l : List Byte) (h_fus : vp ≠ .fus) :
    view vp (burnKey s w l) = view vp s := by
  unfold burnKey
  simp [h_fus]

@[simp] theorem provisionCut_view {vp : Part} (s : State) (c : Cmd) (h_free : vp ≠ .free) (h_fus : vp ≠ .fus) :
    view vp (provisionCut s c) = view vp s := by
  unfold provisionCut
  simp [h_free, h_fus]

@[simp] theorem newRing_view {vp : Part} (s : State) (h_out : vp ≠ .out) (h_jnl : vp ≠ .jnl) :
    view vp (newRing s) = view vp s := by
  unfold newRing
  simp [h_out, h_jnl]

@[simp] theorem provisionDone_view {vp : Part} (s : State) (c : Cmd) (healthy : Bool) (key : BitVec 256)
    (h_out : vp ≠ .out) (h_led : vp ≠ .led) (h_jnl : vp ≠ .jnl) (h_flt : vp ≠ .flt) (h_fus : vp ≠ .fus) :
    view vp (provisionDone s c healthy key).1 = view vp s := by
  unfold provisionDone
  simp [h_out, h_led, h_jnl, h_flt, h_fus]

@[simp] theorem scanHead_view {vp : Part} (s : State) (h : Fin 8) (answer : Option (List Byte)) (h_hdp : vp ≠ .hdp)
    (h_flt : vp ≠ .flt) :
    view vp (scanHead s h answer) = view vp s := by
  unfold scanHead
  (repeat' split) <;> simp [h_hdp, h_flt]

@[simp] theorem headScanDone_view {vp : Part} (s : State) (c : Cmd) (mems : List (Option (List Byte)) )
    (h_hdp : vp ≠ .hdp) (h_flt : vp ≠ .flt) :
    view vp (headScanDone s c mems).1 = view vp s := by
  unfold headScanDone
  simp [h_hdp, h_flt]

@[simp] theorem readMemory_view {vp : Part} (s : State) (h : Fin 8) (h_out : vp ≠ .out) :
    view vp (readMemory s h) = view vp s := by
  unfold readMemory
  simp [h_out]

@[simp] theorem headScanRun_view {vp : Part} (c : Cmd) (s : State) (h_out : vp ≠ .out) :
    view vp (headScanRun c s).state = view vp s := by
  unfold headScanRun
  simp [h_out]

@[simp] theorem capMoveDone_view {vp : Part} (s : State) (h : Fin 8) (h_hdp : vp ≠ .hdp) :
    view vp (capMoveDone s h) = view vp s := by
  unfold capMoveDone
  (repeat' split) <;> simp [h_hdp]

@[simp] theorem headMaintainRun_view {vp : Part} (c : Cmd) (s : State) (h_hdp : vp ≠ .hdp) (h_axs : vp ≠ .axs) :
    view vp (headMaintainRun c s).state = view vp s := by
  unfold headMaintainRun
  simp [h_hdp, h_axs]

@[simp] theorem settleHead_view {vp : Part} (s : State) (h : Fin 8) (h_hdp : vp ≠ .hdp) :
    view vp (settleHead s h) = view vp s := by
  unfold settleHead
  simp [h_hdp]

@[simp] theorem settleHeads_view {vp : Part} (s : State) (h_hdp : vp ≠ .hdp) :
    view vp (settleHeads s) = view vp s := by
  unfold settleHeads
  simp [h_hdp]

@[simp] theorem spitCycle_view {vp : Part} (s : State) (h : Fin 8) (b : List Byte) (mem : HeadMem) (drops : List Nat)
    (n : Nat) (h_out : vp ≠ .out) (h_hdp : vp ≠ .hdp) (h_flt : vp ≠ .flt) :
    view vp (spitCycle s h b mem drops n) = view vp s := by
  unfold spitCycle
  simp [h_out, h_hdp, h_flt]

@[simp] theorem spit_view {vp : Part} (s : State) (h : Fin 8) (n : Nat) (h_out : vp ≠ .out) (h_hdp : vp ≠ .hdp)
    (h_flt : vp ≠ .flt) :
    view vp (spit s h n) = view vp s := by
  unfold spit
  simp [h_out, h_hdp, h_flt] <;> (repeat' split) <;> simp_all

@[simp] theorem headMaintainDone_view {vp : Part} (s : State) (c : Cmd) (h_out : vp ≠ .out) (h_hdp : vp ≠ .hdp)
    (h_flt : vp ≠ .flt) :
    view vp (headMaintainDone s c).1 = view vp s := by
  unfold headMaintainDone
  simp [h_out, h_hdp, h_flt] <;> (repeat' split) <;> simp_all

@[simp] theorem headMarkDeadRun_view {vp : Part} (c : Cmd) (s : State) (h_led : vp ≠ .led) (h_hdp : vp ≠ .hdp)
    (h_jnl : vp ≠ .jnl) (h_flt : vp ≠ .flt) :
    view vp (headMarkDeadRun c s).state = view vp s := by
  unfold headMarkDeadRun
  simp [h_led, h_hdp, h_jnl, h_flt] <;> (repeat' split) <;> simp_all

@[simp] theorem journalReadRun_view {vp : Part} (c : Cmd) (s : State) (h_out : vp ≠ .out) (h_sup : vp ≠ .sup)
    (h_jnl : vp ≠ .jnl) :
    view vp (journalReadRun c s).state = view vp s := by
  unfold journalReadRun
  simp [h_out, h_sup, h_jnl]

@[simp] theorem sealTicket_view {vp : Part} (s : State) (h_jnl : vp ≠ .jnl) :
    view vp (sealTicket s).1 = view vp s := by
  unfold sealTicket
  (repeat' split) <;> simp [h_jnl]

@[simp] theorem journalSealRun_view {vp : Part} (c : Cmd) (s : State) (h_led : vp ≠ .led) (h_jnl : vp ≠ .jnl) (h_flt : vp ≠ .flt) :
    view vp (journalSealRun c s).state = view vp s := by
  unfold journalSealRun
  have h0 := sealTicket_view (vp := vp) s h_jnl
  split
  · simp
  · split
    · rename_i heq; rw [heq] at h0; simpa using h0
    · dsimp only; split <;> simp [h_led, h_jnl, h_flt]

@[simp] theorem logCollected_view {vp : Part} (s : State) (k : Nat) (h_out : vp ≠ .out) (h_jnl : vp ≠ .jnl) :
    view vp (logCollected s k) = view vp s := by
  unfold logCollected
  simp [h_out, h_jnl]

@[simp] theorem journalCollectedRun_view {vp : Part} (c : Cmd) (s : State) (h_out : vp ≠ .out) (h_jnl : vp ≠ .jnl)
    (h_flt : vp ≠ .flt) :
    view vp (journalCollectedRun c s).state = view vp s := by
  unfold journalCollectedRun
  simp [h_out, h_jnl, h_flt]

@[simp] theorem serialQueryRun_view {vp : Part} (w1 : Cmd) (s : State) :
    view vp (serialQueryRun w1 s).state = view vp s := by
  unfold serialQueryRun
  simp 

@[simp] theorem anchorAt_view {vp : Part} (s : State) (base : Nat) (packet : List Byte) (h_led : vp ≠ .led)
    (h_jnl : vp ≠ .jnl) (h_flt : vp ≠ .flt) :
    view vp (anchorAt s base packet) = view vp s := by
  unfold anchorAt
  simp [h_led, h_jnl, h_flt]

@[simp] theorem serialAnchorRun_view {vp : Part} (c : Cmd) (s : State) (h_led : vp ≠ .led) (h_jnl : vp ≠ .jnl)
    (h_flt : vp ≠ .flt) :
    view vp (serialAnchorRun c s).state = view vp s := by
  unfold serialAnchorRun
  simp [h_led, h_jnl, h_flt] <;> (repeat' split) <;> simp_all

@[simp] theorem loopSetRun_view {vp : Part} (c : Cmd) (s : State) (h_ctl : vp ≠ .ctl) :
    view vp (loopSetRun c s).state = view vp s := by
  unfold loopSetRun
  simp [h_ctl]

@[simp] theorem loopSetpointRun_view {vp : Part} (c : Cmd) (s : State) (h_ctl : vp ≠ .ctl) :
    view vp (loopSetpointRun c s).state = view vp s := by
  unfold loopSetpointRun
  simp [h_ctl]

@[simp] theorem loopModeRun_view {vp : Part} (c : Cmd) (s : State) (h_pins : vp ≠ .pins) (h_ctl : vp ≠ .ctl) :
    view vp (loopModeRun c s).state = view vp s := by
  unfold loopModeRun
  simp [h_pins, h_ctl]

@[simp] theorem loopQueryRun_view {vp : Part} (c : Cmd) (s : State) :
    view vp (loopQueryRun c s).state = view vp s := by
  unfold loopQueryRun
  simp 

@[simp] theorem motorStartRun_view {vp : Part} (c : Cmd) (s : State) (h_mot : vp ≠ .mot) (h_ctl : vp ≠ .ctl) :
    view vp (motorStartRun c s).state = view vp s := by
  unfold motorStartRun
  simp [h_mot, h_ctl]

@[simp] theorem suspendInput_view {vp : Part} (s : State) (m : Fin 10) (h_mot : vp ≠ .mot) :
    view vp (suspendInput s m) = view vp s := by
  unfold suspendInput
  simp [h_mot]

@[simp] theorem motorStopRun_view {vp : Part} (c : Cmd) (s : State) (h_sys : vp ≠ .sys) (h_led : vp ≠ .led)
    (h_cad : vp ≠ .cad) (h_stp : vp ≠ .stp) (h_hdp : vp ≠ .hdp) (h_jnl : vp ≠ .jnl) (h_seq : vp ≠ .seq)
    (h_axs : vp ≠ .axs) (h_mot : vp ≠ .mot) (h_ctl : vp ≠ .ctl) (h_flt : vp ≠ .flt) :
    view vp (motorStopRun c s).state = view vp s := by
  unfold motorStopRun
  simp [h_sys, h_led, h_cad, h_stp, h_hdp, h_jnl, h_seq, h_axs, h_mot, h_ctl, h_flt]

@[simp] theorem motorRaise_view {vp : Part} (s : State) (m : Fin 10) (cause : Nat) (value : Nat) (flag : Nat)
    (h_mot : vp ≠ .mot) (h_flt : vp ≠ .flt) :
    view vp (motorRaise s m cause value flag) = view vp s := by
  unfold motorRaise
  simp [h_mot, h_flt]

@[simp] theorem atSpeed_view {vp : Part} (s : State) (m : Fin 10) (h_out : vp ≠ .out) (h_clk : vp ≠ .clk)
    (h_btu : vp ≠ .btu) (h_mot : vp ≠ .mot) (h_ctl : vp ≠ .ctl) (h_flt : vp ≠ .flt) :
    view vp (atSpeed s m) = view vp s := by
  unfold atSpeed
  simp [h_out, h_clk, h_btu, h_mot, h_ctl, h_flt]

@[simp] theorem speedReached_view {vp : Part} (s : State) (m : Fin 10) (h_out : vp ≠ .out) (h_clk : vp ≠ .clk)
    (h_btu : vp ≠ .btu) (h_mot : vp ≠ .mot) (h_ctl : vp ≠ .ctl) (h_flt : vp ≠ .flt) :
    view vp (speedReached s m) = view vp s := by
  unfold speedReached
  simp [h_out, h_clk, h_btu, h_mot, h_ctl, h_flt]

@[simp] theorem motorSetSpeedRun_view {vp : Part} (c : Cmd) (s : State) (h_out : vp ≠ .out) (h_clk : vp ≠ .clk)
    (h_btu : vp ≠ .btu) (h_mot : vp ≠ .mot) (h_ctl : vp ≠ .ctl) (h_flt : vp ≠ .flt) :
    view vp (motorSetSpeedRun c s).state = view vp s := by
  unfold motorSetSpeedRun
  simp [h_out, h_clk, h_btu, h_mot, h_ctl, h_flt]

@[simp] theorem motorQueryRun_view {vp : Part} (c : Cmd) (s : State) :
    view vp (motorQueryRun c s).state = view vp s := by
  unfold motorQueryRun
  simp 

theorem opSpecOf_view {vp : Part} (op : Nat) (sp : OpSpec) (h : opSpecOf op = some sp) (c : Cmd) (u : State) (h_free : vp ≠ .free) (h_out : vp ≠ .out) (h_sys : vp ≠ .sys) (h_pins : vp ≠ .pins) (h_clk : vp ≠ .clk) (h_hif : vp ≠ .hif) (h_mgt : vp ≠ .mgt) (h_sup : vp ≠ .sup) (h_ktl : vp ≠ .ktl) (h_led : vp ≠ .led) (h_cad : vp ≠ .cad) (h_cdc : vp ≠ .cdc) (h_stp : vp ≠ .stp) (h_btu : vp ≠ .btu) (h_hdp : vp ≠ .hdp) (h_jnl : vp ≠ .jnl) (h_seq : vp ≠ .seq) (h_axs : vp ≠ .axs) (h_mot : vp ≠ .mot) (h_ctl : vp ≠ .ctl) (h_drc : vp ≠ .drc) (h_flt : vp ≠ .flt) (h_fus : vp ≠ .fus) :
    view vp (sp.run c u).state = view vp u := by
  suffices hall : ∀ o ∈ opcodes, view vp (o.run c u).state = view vp u from hall sp (List.mem_of_find?_eq_some h)
  simp only [opcodes, sheetOpcodes, engineOpcodes, systemOpcodes, List.forall_mem_append, List.forall_mem_cons]
  repeat' apply And.intro
  all_goals first
  | (intro o ho; cases ho; done)
  | (simp only [nopSpec, echoSpec, getInfoSpec, getStatusSpec, setModeSpec, setWakeBudgetSpec, setEventRouteSpec, axisHomeSpec, axisMoveSpec, groupMoveSpec, axisStopSpec, axisQuerySpec, stationCalibrateSpec, stationLockSpec, stationQuerySpec, loadRecipeSpec, queryRecipeSpec, activateSpec, faultReadSpec, faultClearSpec, faultSetSeveritySpec, faultInjectSpec, codecRunSpec, openJobSpec, closeJobSpec, admitSheetSpec, commitSheetSpec, cancelSheetSpec, querySheetSpec, evictLeavesSpec, dramTrainSpec, dramSetRateSpec, dramQuerySpec, fuseReadSpec, fuseShadowSpec, fuseBurnSpec, fuseLockSpec, provisionSpec, headScanSpec, headMaintainSpec, headMarkDeadSpec, journalReadSpec, journalSealSpec, journalCollectedSpec, serialQuerySpec, serialAnchorSpec, loopSetSpec, loopSetpointSpec, loopModeSpec, loopQuerySpec, motorStartSpec, motorStopSpec, motorSetSpeedSpec, motorQuerySpec]; simp [h_free, h_out, h_sys, h_pins, h_clk, h_hif, h_mgt, h_sup, h_ktl, h_led, h_cad, h_cdc, h_stp, h_btu, h_hdp, h_jnl, h_seq, h_axs, h_mot, h_ctl, h_drc, h_flt, h_fus])

@[simp] theorem enter_view {vp : Part} (s : State) (src : Source) (raw : List Byte) (place : Place) (h_out : vp ≠ .out)
    (h_hif : vp ≠ .hif) (h_mgt : vp ≠ .mgt) (h_sup : vp ≠ .sup) (h_ktl : vp ≠ .ktl) :
    view vp (enter s src raw place) = view vp s := by
  unfold enter
  simp [h_out, h_hif, h_mgt, h_sup, h_ktl]

@[simp] theorem takePlace_view {vp : Part} (s : State) (src : Source) (turn : Nat) (h_ktl : vp ≠ .ktl) :
    view vp (takePlace s src turn) = view vp s := by
  unfold takePlace
  simp [h_ktl]

@[simp] theorem placeOne_view {vp : Part} (s : State) (h_ktl : vp ≠ .ktl) :
    view vp (placeOne s) = view vp s := by
  unfold placeOne
  simp [h_ktl]

@[simp] theorem fillIntake_view {vp : Part} (s : State) (h_ktl : vp ≠ .ktl) :
    view vp (fillIntake s) = view vp s := by
  unfold fillIntake
  simp [h_ktl]

@[simp] theorem proceed_view {vp : Part} (sp : OpSpec) (p : Packet) (reads : List Fetch) (s : State)
    (h_out : vp ≠ .out) (h_hif : vp ≠ .hif) (h_mgt : vp ≠ .mgt) (h_sup : vp ≠ .sup) (h_ktl : vp ≠ .ktl)
    (h_flt : vp ≠ .flt) (hrun : ∀ c u, view vp (sp.run c u).state = view vp u) :
    view vp (proceed sp p reads s) = view vp s := by
  unfold proceed
  (repeat' split) <;> simp [h_out, h_hif, h_mgt, h_sup, h_ktl, h_flt, hrun]

@[simp] theorem startNext_view {vp : Part} (s : State) (reads : List Fetch) (h_free : vp ≠ .free) (h_out : vp ≠ .out) (h_sys : vp ≠ .sys) (h_pins : vp ≠ .pins) (h_clk : vp ≠ .clk) (h_hif : vp ≠ .hif) (h_mgt : vp ≠ .mgt) (h_sup : vp ≠ .sup) (h_ktl : vp ≠ .ktl) (h_led : vp ≠ .led) (h_cad : vp ≠ .cad) (h_cdc : vp ≠ .cdc) (h_stp : vp ≠ .stp) (h_btu : vp ≠ .btu) (h_hdp : vp ≠ .hdp) (h_jnl : vp ≠ .jnl) (h_seq : vp ≠ .seq) (h_axs : vp ≠ .axs) (h_mot : vp ≠ .mot) (h_ctl : vp ≠ .ctl) (h_drc : vp ≠ .drc) (h_flt : vp ≠ .flt) (h_fus : vp ≠ .fus) :
    view vp (startNext s reads) = view vp s := by
  unfold startNext
  split
  · rfl
  · split
    · rfl
    · dsimp only
      split
      · rename_i sp h
        have hr := fun c u => opSpecOf_view (vp := vp) _ sp h c u h_free h_out h_sys h_pins h_clk h_hif h_mgt h_sup h_ktl h_led h_cad h_cdc h_stp h_btu h_hdp h_jnl h_seq h_axs h_mot h_ctl h_drc h_flt h_fus
        simp [hr, h_free, h_out, h_sys, h_pins, h_clk, h_hif, h_mgt, h_sup, h_ktl, h_led, h_cad, h_cdc, h_stp, h_btu, h_hdp, h_jnl, h_seq, h_axs, h_mot, h_ctl, h_drc, h_flt, h_fus]
      · simp [h_free, h_out, h_sys, h_pins, h_clk, h_hif, h_mgt, h_sup, h_ktl, h_led, h_cad, h_cdc, h_stp, h_btu, h_hdp, h_jnl, h_seq, h_axs, h_mot, h_ctl, h_drc, h_flt, h_fus]

@[simp] theorem blockFetched_view {vp : Part} (s : State) (r : Fetch) (reads : List Fetch) (h_free : vp ≠ .free) (h_out : vp ≠ .out) (h_sys : vp ≠ .sys) (h_pins : vp ≠ .pins) (h_clk : vp ≠ .clk) (h_hif : vp ≠ .hif) (h_mgt : vp ≠ .mgt) (h_sup : vp ≠ .sup) (h_ktl : vp ≠ .ktl) (h_led : vp ≠ .led) (h_cad : vp ≠ .cad) (h_cdc : vp ≠ .cdc) (h_stp : vp ≠ .stp) (h_btu : vp ≠ .btu) (h_hdp : vp ≠ .hdp) (h_jnl : vp ≠ .jnl) (h_seq : vp ≠ .seq) (h_axs : vp ≠ .axs) (h_mot : vp ≠ .mot) (h_ctl : vp ≠ .ctl) (h_drc : vp ≠ .drc) (h_flt : vp ≠ .flt) (h_fus : vp ≠ .fus) :
    view vp (blockFetched s r reads) = view vp s := by
  unfold blockFetched
  split
  · rfl
  · dsimp only
    split
    · rename_i sp h
      have hr := fun c u => opSpecOf_view (vp := vp) _ sp h c u h_free h_out h_sys h_pins h_clk h_hif h_mgt h_sup h_ktl h_led h_cad h_cdc h_stp h_btu h_hdp h_jnl h_seq h_axs h_mot h_ctl h_drc h_flt h_fus
      simp [hr, h_free, h_out, h_sys, h_pins, h_clk, h_hif, h_mgt, h_sup, h_ktl, h_led, h_cad, h_cdc, h_stp, h_btu, h_hdp, h_jnl, h_seq, h_axs, h_mot, h_ctl, h_drc, h_flt, h_fus]
    · simp [h_free, h_out, h_sys, h_pins, h_clk, h_hif, h_mgt, h_sup, h_ktl, h_led, h_cad, h_cdc, h_stp, h_btu, h_hdp, h_jnl, h_seq, h_axs, h_mot, h_ctl, h_drc, h_flt, h_fus]

@[simp] theorem entryFetched_view {vp : Part} (s : State) (n : Fin 4) (r : Fetch) (h_out : vp ≠ .out)
    (h_hif : vp ≠ .hif) (h_mgt : vp ≠ .mgt) (h_sup : vp ≠ .sup) (h_ktl : vp ≠ .ktl) (h_flt : vp ≠ .flt) :
    view vp (entryFetched s n r) = view vp s := by
  unfold entryFetched
  (repeat' split) <;> simp [h_out, h_hif, h_mgt, h_sup, h_ktl, h_flt]

@[simp] theorem badFrame_view {vp : Part} (s : State) (p : SpiPort) (crc : Bool) (h_mgt : vp ≠ .mgt)
    (h_sup : vp ≠ .sup) (h_flt : vp ≠ .flt) :
    view vp (badFrame s p crc) = view vp s := by
  unfold badFrame
  simp [h_mgt, h_sup, h_flt]

@[simp] theorem onFrame_view {vp : Part} (s : State) (p : SpiPort) (good : Bool) (f : State → State)
    (h_mgt : vp ≠ .mgt) (h_sup : vp ≠ .sup) (h_flt : vp ≠ .flt) (hf : ∀ u, view vp (f u) = view vp u) :
    view vp (onFrame s p good f) = view vp s := by
  unfold onFrame
  simp [h_mgt, h_sup, h_flt, hf]

@[simp] theorem answer_view {vp : Part} (s : State) (p : SpiPort) (head : List Byte) (data : List Byte)
    (h_out : vp ≠ .out) :
    view vp (answer s p head data) = view vp s := by
  unfold answer
  simp [h_out]

@[simp] theorem writeWords_view {vp : Part} (p : Path) (a : Nat) (l : List Byte) (n : Nat) (s : State) (h_out : vp ≠ .out) (h_clk : vp ≠ .clk) (h_hif : vp ≠ .hif) (h_mgt : vp ≠ .mgt) (h_ktl : vp ≠ .ktl) (h_cad : vp ≠ .cad) (h_btu : vp ≠ .btu) (h_hdp : vp ≠ .hdp) (h_seq : vp ≠ .seq) (h_axs : vp ≠ .axs) (h_mot : vp ≠ .mot) (h_ctl : vp ≠ .ctl) (h_drc : vp ≠ .drc) (h_flt : vp ≠ .flt) (h_tmp : vp ≠ .tmp) :
    view vp (writeWords p a l n s) = view vp s := by
  induction n generalizing a l s with
  | zero => simp [writeWords]
  | succ n ih => simp [writeWords, ih, h_out, h_clk, h_hif, h_mgt, h_ktl, h_cad, h_btu, h_hdp, h_seq, h_axs, h_mot, h_ctl, h_drc, h_flt, h_tmp]

@[simp] theorem readWords_view {vp : Part} (p : Path) (a n : Nat) (s : State) (h_out : vp ≠ .out) (h_hif : vp ≠ .hif) (h_mot : vp ≠ .mot) (h_tmp : vp ≠ .tmp) :
    view vp (readWords p a n s).2 = view vp s := by
  induction n generalizing a s with
  | zero => simp [readWords]
  | succ n ih => simp [readWords, ih, h_out, h_hif, h_mot, h_tmp]

@[simp] theorem writeFrame_view {vp : Part} (s : State) (frame : List Byte) (h_out : vp ≠ .out) (h_clk : vp ≠ .clk) (h_hif : vp ≠ .hif) (h_mgt : vp ≠ .mgt) (h_sup : vp ≠ .sup) (h_ktl : vp ≠ .ktl) (h_cad : vp ≠ .cad) (h_btu : vp ≠ .btu) (h_hdp : vp ≠ .hdp) (h_seq : vp ≠ .seq) (h_axs : vp ≠ .axs) (h_mot : vp ≠ .mot) (h_ctl : vp ≠ .ctl) (h_drc : vp ≠ .drc) (h_flt : vp ≠ .flt) (h_tmp : vp ≠ .tmp) :
    view vp (writeFrame s frame) = view vp s := by
  unfold writeFrame
  (try dsimp only)
  rw [onFrame_view] <;> try assumption
  intro u
  first
  | (simp [h_out, h_clk, h_hif, h_mgt, h_sup, h_ktl, h_cad, h_btu, h_hdp, h_seq, h_axs, h_mot, h_ctl, h_drc, h_flt, h_tmp]; done)
  | ((repeat' split) <;> simp [h_out, h_clk, h_hif, h_mgt, h_sup, h_ktl, h_cad, h_btu, h_hdp, h_seq, h_axs, h_mot, h_ctl, h_drc, h_flt, h_tmp]; done)
  | (simp only [answer_view, readWords_view, h_out, h_clk, h_hif, h_mgt, h_sup, h_ktl, h_cad, h_btu, h_hdp, h_seq, h_axs, h_mot, h_ctl, h_drc, h_flt, h_tmp, ne_eq, not_false_eq_true]; done)
  | (split <;> (try simp [h_out, h_clk, h_hif, h_mgt, h_sup, h_ktl, h_cad, h_btu, h_hdp, h_seq, h_axs, h_mot, h_ctl, h_drc, h_flt, h_tmp]; done) <;> (rw [takePacket_view] <;> try assumption) <;> intro v <;> simp [h_out, h_clk, h_hif, h_mgt, h_sup, h_ktl, h_cad, h_btu, h_hdp, h_seq, h_axs, h_mot, h_ctl, h_drc, h_flt, h_tmp] <;> (try split) <;> simp [h_out, h_clk, h_hif, h_mgt, h_sup, h_ktl, h_cad, h_btu, h_hdp, h_seq, h_axs, h_mot, h_ctl, h_drc, h_flt, h_tmp]; done)
  | (split <;> (try simp [h_out, h_clk, h_hif, h_mgt, h_sup, h_ktl, h_cad, h_btu, h_hdp, h_seq, h_axs, h_mot, h_ctl, h_drc, h_flt, h_tmp]; done) <;> (rw [takePacket_view] <;> try assumption) <;> intro v <;> rw [fillIntake_view] <;> simp [h_out, h_clk, h_hif, h_mgt, h_sup, h_ktl, h_cad, h_btu, h_hdp, h_seq, h_axs, h_mot, h_ctl, h_drc, h_flt, h_tmp]; done)
  | (split <;> (try simp [h_out, h_clk, h_hif, h_mgt, h_sup, h_ktl, h_cad, h_btu, h_hdp, h_seq, h_axs, h_mot, h_ctl, h_drc, h_flt, h_tmp]; done) <;> (rw [takePacket_view] <;> try assumption) <;> intro v <;> simp [h_out, h_clk, h_hif, h_mgt, h_sup, h_ktl, h_cad, h_btu, h_hdp, h_seq, h_axs, h_mot, h_ctl, h_drc, h_flt, h_tmp]; done)

@[simp] theorem readFrame_view {vp : Part} (s : State) (p : SpiPort) (frame : List Byte) (h_out : vp ≠ .out) (h_hif : vp ≠ .hif) (h_mgt : vp ≠ .mgt) (h_sup : vp ≠ .sup) (h_mot : vp ≠ .mot) (h_flt : vp ≠ .flt) (h_tmp : vp ≠ .tmp) :
    view vp (readFrame s p frame) = view vp s := by
  unfold readFrame
  (try dsimp only)
  rw [onFrame_view] <;> try assumption
  intro u
  first
  | (simp [h_out, h_hif, h_mgt, h_sup, h_mot, h_flt, h_tmp]; done)
  | ((repeat' split) <;> simp [h_out, h_hif, h_mgt, h_sup, h_mot, h_flt, h_tmp]; done)
  | (simp only [answer_view, readWords_view, h_out, h_hif, h_mgt, h_sup, h_mot, h_flt, h_tmp, ne_eq, not_false_eq_true]; done)
  | (split <;> (try simp [h_out, h_hif, h_mgt, h_sup, h_mot, h_flt, h_tmp]; done) <;> (rw [takePacket_view] <;> try assumption) <;> intro v <;> simp [h_out, h_hif, h_mgt, h_sup, h_mot, h_flt, h_tmp] <;> (try split) <;> simp [h_out, h_hif, h_mgt, h_sup, h_mot, h_flt, h_tmp]; done)
  | (split <;> (try simp [h_out, h_hif, h_mgt, h_sup, h_mot, h_flt, h_tmp]; done) <;> (rw [takePacket_view] <;> try assumption) <;> intro v <;> rw [fillIntake_view] <;> simp [h_out, h_hif, h_mgt, h_sup, h_mot, h_flt, h_tmp]; done)
  | (split <;> (try simp [h_out, h_hif, h_mgt, h_sup, h_mot, h_flt, h_tmp]; done) <;> (rw [takePacket_view] <;> try assumption) <;> intro v <;> simp [h_out, h_hif, h_mgt, h_sup, h_mot, h_flt, h_tmp]; done)

@[simp] theorem statusFrame_view {vp : Part} (s : State) (p : SpiPort) (frame : List Byte) (h_out : vp ≠ .out)
    (h_mgt : vp ≠ .mgt) (h_sup : vp ≠ .sup) (h_flt : vp ≠ .flt) :
    view vp (statusFrame s p frame) = view vp s := by
  unfold statusFrame
  simp [h_out, h_mgt, h_sup, h_flt]

@[simp] theorem takePacket_view {vp : Part} (s : State) (p : SpiPort) (packet : List Byte) (go : State → State)
    (h_mgt : vp ≠ .mgt) (h_sup : vp ≠ .sup) (hf : ∀ u, view vp (go u) = view vp u) :
    view vp (takePacket s p packet go) = view vp s := by
  unfold takePacket
  simp [h_mgt, h_sup, hf]

@[simp] theorem submitFrame_view {vp : Part} (s : State) (p : SpiPort) (frame : List Byte) (h_out : vp ≠ .out) (h_hif : vp ≠ .hif) (h_mgt : vp ≠ .mgt) (h_sup : vp ≠ .sup) (h_ktl : vp ≠ .ktl) (h_flt : vp ≠ .flt) :
    view vp (submitFrame s p frame) = view vp s := by
  unfold submitFrame
  (try dsimp only)
  rw [onFrame_view] <;> try assumption
  intro u
  first
  | (simp [h_out, h_hif, h_mgt, h_sup, h_ktl, h_flt]; done)
  | ((repeat' split) <;> simp [h_out, h_hif, h_mgt, h_sup, h_ktl, h_flt]; done)
  | (simp only [answer_view, readWords_view, h_out, h_hif, h_mgt, h_sup, h_ktl, h_flt, ne_eq, not_false_eq_true]; done)
  | (split <;> (try simp [h_out, h_hif, h_mgt, h_sup, h_ktl, h_flt]; done) <;> (rw [takePacket_view] <;> try assumption) <;> intro v <;> simp [h_out, h_hif, h_mgt, h_sup, h_ktl, h_flt] <;> (try split) <;> simp [h_out, h_hif, h_mgt, h_sup, h_ktl, h_flt]; done)
  | (split <;> (try simp [h_out, h_hif, h_mgt, h_sup, h_ktl, h_flt]; done) <;> (rw [takePacket_view] <;> try assumption) <;> intro v <;> rw [fillIntake_view] <;> simp [h_out, h_hif, h_mgt, h_sup, h_ktl, h_flt]; done)
  | (split <;> (try simp [h_out, h_hif, h_mgt, h_sup, h_ktl, h_flt]; done) <;> (rw [takePacket_view] <;> try assumption) <;> intro v <;> simp [h_out, h_hif, h_mgt, h_sup, h_ktl, h_flt]; done)

@[simp] theorem fetchFrame_view {vp : Part} (s : State) (p : SpiPort) (frame : List Byte) (h_out : vp ≠ .out) (h_mgt : vp ≠ .mgt) (h_sup : vp ≠ .sup) (h_flt : vp ≠ .flt) :
    view vp (fetchFrame s p frame) = view vp s := by
  unfold fetchFrame
  (try dsimp only)
  rw [onFrame_view] <;> try assumption
  intro u
  first
  | (simp [h_out, h_mgt, h_sup, h_flt]; done)
  | ((repeat' split) <;> simp [h_out, h_mgt, h_sup, h_flt]; done)
  | (simp only [answer_view, readWords_view, h_out, h_mgt, h_sup, h_flt, ne_eq, not_false_eq_true]; done)
  | (split <;> (try simp [h_out, h_mgt, h_sup, h_flt]; done) <;> (rw [takePacket_view] <;> try assumption) <;> intro v <;> simp [h_out, h_mgt, h_sup, h_flt] <;> (try split) <;> simp [h_out, h_mgt, h_sup, h_flt]; done)
  | (split <;> (try simp [h_out, h_mgt, h_sup, h_flt]; done) <;> (rw [takePacket_view] <;> try assumption) <;> intro v <;> rw [fillIntake_view] <;> simp [h_out, h_mgt, h_sup, h_flt]; done)
  | (split <;> (try simp [h_out, h_mgt, h_sup, h_flt]; done) <;> (rw [takePacket_view] <;> try assumption) <;> intro v <;> simp [h_out, h_mgt, h_sup, h_flt]; done)

@[simp] theorem portTimeout_view {vp : Part} (s : State) (p : SpiPort) (tag : BitVec 16) (h_mgt : vp ≠ .mgt)
    (h_sup : vp ≠ .sup) :
    view vp (portTimeout s p tag) = view vp s := by
  unfold portTimeout
  simp [h_mgt, h_sup] <;> (repeat' split) <;> simp_all

@[simp] theorem startVerify_view {vp : Part} (s : State) (h_free : vp ≠ .free) (h_sup : vp ≠ .sup) :
    view vp (startVerify s) = view vp s := by
  unfold startVerify
  (repeat' split) <;> simp [h_free, h_sup]

@[simp] theorem signedFrame_view {vp : Part} (s : State) (frame : List Byte) (h_free : vp ≠ .free) (h_mgt : vp ≠ .mgt) (h_sup : vp ≠ .sup) (h_ktl : vp ≠ .ktl) (h_flt : vp ≠ .flt) :
    view vp (signedFrame s frame) = view vp s := by
  unfold signedFrame
  (try dsimp only)
  rw [onFrame_view] <;> try assumption
  intro u
  first
  | (simp [h_free, h_mgt, h_sup, h_ktl, h_flt]; done)
  | ((repeat' split) <;> simp [h_free, h_mgt, h_sup, h_ktl, h_flt]; done)
  | (simp only [answer_view, readWords_view, h_free, h_mgt, h_sup, h_ktl, h_flt, ne_eq, not_false_eq_true]; done)
  | (split <;> (try simp [h_free, h_mgt, h_sup, h_ktl, h_flt]; done) <;> (rw [takePacket_view] <;> try assumption) <;> intro v <;> simp [h_free, h_mgt, h_sup, h_ktl, h_flt] <;> (try split) <;> simp [h_free, h_mgt, h_sup, h_ktl, h_flt]; done)
  | (split <;> (try simp [h_free, h_mgt, h_sup, h_ktl, h_flt]; done) <;> (rw [takePacket_view] <;> try assumption) <;> intro v <;> rw [fillIntake_view] <;> simp [h_free, h_mgt, h_sup, h_ktl, h_flt]; done)
  | (split <;> (try simp [h_free, h_mgt, h_sup, h_ktl, h_flt]; done) <;> (rw [takePacket_view] <;> try assumption) <;> intro v <;> simp [h_free, h_mgt, h_sup, h_ktl, h_flt]; done)

@[simp] theorem dropVerifying_view {vp : Part} (s : State) (h_ktl : vp ≠ .ktl) :
    view vp (dropVerifying s) = view vp s := by
  unfold dropVerifying
  simp [h_ktl]

@[simp] theorem admitVerified_view {vp : Part} (s : State) (f : SignedFrame) (h_out : vp ≠ .out) (h_hif : vp ≠ .hif)
    (h_mgt : vp ≠ .mgt) (h_sup : vp ≠ .sup) (h_ktl : vp ≠ .ktl) :
    view vp (admitVerified s f) = view vp s := by
  unfold admitVerified
  simp [h_out, h_hif, h_mgt, h_sup, h_ktl] <;> (repeat' split) <;> simp_all

@[simp] theorem verified_view {vp : Part} (s : State) (h_free : vp ≠ .free) (h_out : vp ≠ .out) (h_hif : vp ≠ .hif)
    (h_mgt : vp ≠ .mgt) (h_sup : vp ≠ .sup) (h_ktl : vp ≠ .ktl) (h_flt : vp ≠ .flt) :
    view vp (verified s) = view vp s := by
  unfold verified
  (repeat' split) <;> simp [h_free, h_out, h_hif, h_mgt, h_sup, h_ktl, h_flt]

@[simp] theorem jbufFrame_view {vp : Part} (s : State) (frame : List Byte) (h_out : vp ≠ .out) (h_mgt : vp ≠ .mgt)
    (h_sup : vp ≠ .sup) (h_flt : vp ≠ .flt) :
    view vp (jbufFrame s frame) = view vp s := by
  unfold jbufFrame
  simp [h_out, h_mgt, h_sup, h_flt]

theorem resumed_view {vp : Part} (s : State) (op : Nat) (c : Cmd) (d : Resume) (t : State) (r : Res) (h : resumed s op c d = some (t, r)) (h_free : vp ≠ .free) (h_out : vp ≠ .out) (h_sys : vp ≠ .sys) (h_pins : vp ≠ .pins) (h_hif : vp ≠ .hif) (h_led : vp ≠ .led) (h_cad : vp ≠ .cad) (h_cdc : vp ≠ .cdc) (h_stp : vp ≠ .stp) (h_btu : vp ≠ .btu) (h_hdp : vp ≠ .hdp) (h_jnl : vp ≠ .jnl) (h_seq : vp ≠ .seq) (h_axs : vp ≠ .axs) (h_mot : vp ≠ .mot) (h_ctl : vp ≠ .ctl) (h_drc : vp ≠ .drc) (h_flt : vp ≠ .flt) (h_fus : vp ≠ .fus) :
    view vp t = view vp s := by
  unfold resumed at h
  split at h
  all_goals first
  | exact codecDone_view s c _ _ _ _ t r h h_free h_out h_hif h_cad h_cdc h_drc h_flt
  | exact calibrateDone_view s c t r h h_btu
  | (simp only [Option.some.injEq] at h; have h := congrArg Prod.fst h; simp only at h; rw [← h]; simp [h_free, h_out, h_sys, h_pins, h_hif, h_led, h_cad, h_cdc, h_stp, h_btu, h_hdp, h_jnl, h_seq, h_axs, h_mot, h_ctl, h_drc, h_flt, h_fus]; done)
  | simp at h

@[simp] theorem journaledEnd_view {vp : Part} (before : State) (s : State) (r : Res) :
    view vp (journaledEnd before s r).state = view vp s := by
  unfold journaledEnd
  simp 

@[simp] theorem retryRoom_view {vp : Part} (s : State) (h_free : vp ≠ .free) (h_out : vp ≠ .out) (h_sys : vp ≠ .sys) (h_pins : vp ≠ .pins) (h_clk : vp ≠ .clk) (h_hif : vp ≠ .hif) (h_mgt : vp ≠ .mgt) (h_sup : vp ≠ .sup) (h_ktl : vp ≠ .ktl) (h_led : vp ≠ .led) (h_cad : vp ≠ .cad) (h_cdc : vp ≠ .cdc) (h_stp : vp ≠ .stp) (h_btu : vp ≠ .btu) (h_hdp : vp ≠ .hdp) (h_jnl : vp ≠ .jnl) (h_seq : vp ≠ .seq) (h_axs : vp ≠ .axs) (h_mot : vp ≠ .mot) (h_ctl : vp ≠ .ctl) (h_drc : vp ≠ .drc) (h_flt : vp ≠ .flt) (h_fus : vp ≠ .fus) :
    view vp (retryRoom s) = view vp s := by
  unfold retryRoom
  split
  · rfl
  · split
    · rfl
    · split
      · rename_i sp h
        have hr := fun c u => opSpecOf_view (vp := vp) _ sp h c u h_free h_out h_sys h_pins h_clk h_hif h_mgt h_sup h_ktl h_led h_cad h_cdc h_stp h_btu h_hdp h_jnl h_seq h_axs h_mot h_ctl h_drc h_flt h_fus
        simp [hr, h_free, h_out, h_sys, h_pins, h_clk, h_hif, h_mgt, h_sup, h_ktl, h_led, h_cad, h_cdc, h_stp, h_btu, h_hdp, h_jnl, h_seq, h_axs, h_mot, h_ctl, h_drc, h_flt, h_fus]
      · simp [h_free, h_out, h_sys, h_pins, h_clk, h_hif, h_mgt, h_sup, h_ktl, h_led, h_cad, h_cdc, h_stp, h_btu, h_hdp, h_jnl, h_seq, h_axs, h_mot, h_ctl, h_drc, h_flt, h_fus]

@[simp] theorem resumeParked_view {vp : Part} (s : State) (k : Nat) (d : Resume) (h_free : vp ≠ .free) (h_out : vp ≠ .out) (h_sys : vp ≠ .sys) (h_pins : vp ≠ .pins) (h_hif : vp ≠ .hif) (h_mgt : vp ≠ .mgt) (h_sup : vp ≠ .sup) (h_ktl : vp ≠ .ktl) (h_led : vp ≠ .led) (h_cad : vp ≠ .cad) (h_cdc : vp ≠ .cdc) (h_stp : vp ≠ .stp) (h_btu : vp ≠ .btu) (h_hdp : vp ≠ .hdp) (h_jnl : vp ≠ .jnl) (h_seq : vp ≠ .seq) (h_axs : vp ≠ .axs) (h_mot : vp ≠ .mot) (h_ctl : vp ≠ .ctl) (h_drc : vp ≠ .drc) (h_flt : vp ≠ .flt) (h_fus : vp ≠ .fus) :
    view vp (resumeParked s k d) = view vp s := by
  unfold resumeParked
  split
  · rfl
  · split
    · rfl
    · split
      · rfl
      · rename_i t r h
        have ht : view vp t = view vp s := resumed_view s _ _ d t r (h := h) h_free h_out h_sys h_pins h_hif h_led h_cad h_cdc h_stp h_btu h_hdp h_jnl h_seq h_axs h_mot h_ctl h_drc h_flt h_fus
        split
        · have hj := journaledEnd_view (vp := vp) s t r
          split <;> simp_all
        · simp [ht, h_free, h_out, h_sys, h_pins, h_hif, h_mgt, h_sup, h_ktl, h_led, h_cad, h_cdc, h_stp, h_btu, h_hdp, h_jnl, h_seq, h_axs, h_mot, h_ctl, h_drc, h_flt, h_fus]

@[simp] theorem withdraw_view {vp : Part} (s : State) (op : Nat) (c : Cmd) (h_btu : vp ≠ .btu) (h_hdp : vp ≠ .hdp)
    (h_drc : vp ≠ .drc) :
    view vp (withdraw s op c) = view vp s := by
  unfold withdraw
  simp [h_btu, h_hdp, h_drc]

@[simp] theorem parkedExpired_view {vp : Part} (s : State) (k : Nat) (p : Parked) (h_free : vp ≠ .free)
    (h_out : vp ≠ .out) (h_hif : vp ≠ .hif) (h_mgt : vp ≠ .mgt) (h_sup : vp ≠ .sup) (h_ktl : vp ≠ .ktl)
    (h_cad : vp ≠ .cad) (h_cdc : vp ≠ .cdc) (h_btu : vp ≠ .btu) (h_hdp : vp ≠ .hdp) (h_drc : vp ≠ .drc)
    (h_flt : vp ≠ .flt) :
    view vp (parkedExpired s k p) = view vp s := by
  unfold parkedExpired
  (repeat' split) <;> simp [h_free, h_out, h_hif, h_mgt, h_sup, h_ktl, h_cad, h_cdc, h_btu, h_hdp, h_drc, h_flt]

@[simp] theorem fetchExpired_view {vp : Part} (s : State) (k : Nat) (p : Packet) (h_out : vp ≠ .out)
    (h_hif : vp ≠ .hif) (h_mgt : vp ≠ .mgt) (h_sup : vp ≠ .sup) (h_ktl : vp ≠ .ktl) :
    view vp (fetchExpired s k p) = view vp s := by
  unfold fetchExpired
  simp [h_out, h_hif, h_mgt, h_sup, h_ktl]

@[simp] theorem dropFrame_view {vp : Part} (s : State) (j : Nat) (h_free : vp ≠ .free) (h_sup : vp ≠ .sup) :
    view vp (dropFrame s j) = view vp s := by
  unfold dropFrame
  simp [h_free, h_sup]

@[simp] theorem waitExpired_view {vp : Part} (s : State) (k : Nat) (p : Packet) (h_free : vp ≠ .free)
    (h_out : vp ≠ .out) (h_hif : vp ≠ .hif) (h_mgt : vp ≠ .mgt) (h_sup : vp ≠ .sup) (h_ktl : vp ≠ .ktl) :
    view vp (waitExpired s k p) = view vp s := by
  unfold waitExpired
  simp [h_free, h_out, h_hif, h_mgt, h_sup, h_ktl]

@[simp] theorem deadline_view {vp : Part} (s : State) (src : Source) (tag : BitVec 16) (h_free : vp ≠ .free)
    (h_out : vp ≠ .out) (h_hif : vp ≠ .hif) (h_mgt : vp ≠ .mgt) (h_sup : vp ≠ .sup) (h_ktl : vp ≠ .ktl)
    (h_cad : vp ≠ .cad) (h_cdc : vp ≠ .cdc) (h_btu : vp ≠ .btu) (h_hdp : vp ≠ .hdp) (h_drc : vp ≠ .drc)
    (h_flt : vp ≠ .flt) :
    view vp (deadline s src tag) = view vp s := by
  unfold deadline
  (repeat' split) <;> simp [h_free, h_out, h_hif, h_mgt, h_sup, h_ktl, h_cad, h_cdc, h_btu, h_hdp, h_drc, h_flt]

@[simp] theorem interruptParked_view {vp : Part} (s : State) (p : Parked) (h_free : vp ≠ .free) (h_cdc : vp ≠ .cdc)
    (h_btu : vp ≠ .btu) (h_hdp : vp ≠ .hdp) (h_drc : vp ≠ .drc) (h_fus : vp ≠ .fus) :
    view vp (interruptParked s p) = view vp s := by
  unfold interruptParked
  (repeat' split) <;> simp [h_free, h_cdc, h_btu, h_hdp, h_drc, h_fus]

@[simp] theorem replyParked_view {vp : Part} (s : State) (p : Parked) (h_free : vp ≠ .free) (h_out : vp ≠ .out)
    (h_hif : vp ≠ .hif) (h_mgt : vp ≠ .mgt) (h_sup : vp ≠ .sup) (h_ktl : vp ≠ .ktl) (h_cdc : vp ≠ .cdc)
    (h_btu : vp ≠ .btu) (h_hdp : vp ≠ .hdp) (h_drc : vp ≠ .drc) (h_flt : vp ≠ .flt) (h_fus : vp ≠ .fus) :
    view vp (replyParked s p) = view vp s := by
  unfold replyParked
  simp [h_free, h_out, h_hif, h_mgt, h_sup, h_ktl, h_cdc, h_btu, h_hdp, h_drc, h_flt, h_fus]

@[simp] theorem replyFetching_view {vp : Part} (s : State) (p : Packet) (h_out : vp ≠ .out) (h_hif : vp ≠ .hif)
    (h_mgt : vp ≠ .mgt) (h_sup : vp ≠ .sup) (h_ktl : vp ≠ .ktl) (h_flt : vp ≠ .flt) :
    view vp (replyFetching s p) = view vp s := by
  unfold replyFetching
  simp [h_out, h_hif, h_mgt, h_sup, h_ktl, h_flt]

@[simp] theorem restart_view {vp : Part} (s : State) (h_free : vp ≠ .free) (h_out : vp ≠ .out) (h_hif : vp ≠ .hif)
    (h_mgt : vp ≠ .mgt) (h_sup : vp ≠ .sup) (h_ktl : vp ≠ .ktl) (h_cdc : vp ≠ .cdc) (h_btu : vp ≠ .btu)
    (h_hdp : vp ≠ .hdp) (h_drc : vp ≠ .drc) (h_flt : vp ≠ .flt) (h_fus : vp ≠ .fus) :
    view vp (restart s) = view vp s := by
  unfold restart
  simp [h_free, h_out, h_hif, h_mgt, h_sup, h_ktl, h_cdc, h_btu, h_hdp, h_drc, h_flt, h_fus]

@[simp] theorem kettleDead_view {vp : Part} (s : State) (detail : Nat) (h_out : vp ≠ .out) (h_sys : vp ≠ .sys)
    (h_pins : vp ≠ .pins) (h_clk : vp ≠ .clk) (h_hif : vp ≠ .hif) (h_ktl : vp ≠ .ktl) (h_led : vp ≠ .led)
    (h_cad : vp ≠ .cad) (h_cdc : vp ≠ .cdc) (h_stp : vp ≠ .stp) (h_btu : vp ≠ .btu) (h_hdp : vp ≠ .hdp)
    (h_jnl : vp ≠ .jnl) (h_seq : vp ≠ .seq) (h_axs : vp ≠ .axs) (h_mot : vp ≠ .mot) (h_ctl : vp ≠ .ctl)
    (h_drc : vp ≠ .drc) (h_flt : vp ≠ .flt) :
    view vp (kettleDead s detail) = view vp s := by
  unfold kettleDead
  simp [h_out, h_sys, h_pins, h_clk, h_hif, h_ktl, h_led, h_cad, h_cdc, h_stp, h_btu, h_hdp, h_jnl, h_seq, h_axs, h_mot, h_ctl, h_drc, h_flt]

@[simp] theorem kettleTrigger_view {vp : Part} (s : State) (detail : Nat) (selfTest : Bool) (h_free : vp ≠ .free)
    (h_out : vp ≠ .out) (h_sys : vp ≠ .sys) (h_pins : vp ≠ .pins) (h_clk : vp ≠ .clk) (h_hif : vp ≠ .hif)
    (h_mgt : vp ≠ .mgt) (h_sup : vp ≠ .sup) (h_ktl : vp ≠ .ktl) (h_led : vp ≠ .led) (h_cad : vp ≠ .cad)
    (h_cdc : vp ≠ .cdc) (h_stp : vp ≠ .stp) (h_btu : vp ≠ .btu) (h_hdp : vp ≠ .hdp) (h_jnl : vp ≠ .jnl)
    (h_seq : vp ≠ .seq) (h_axs : vp ≠ .axs) (h_mot : vp ≠ .mot) (h_ctl : vp ≠ .ctl) (h_drc : vp ≠ .drc)
    (h_flt : vp ≠ .flt) (h_fus : vp ≠ .fus) :
    view vp (kettleTrigger s detail selfTest) = view vp s := by
  unfold kettleTrigger
  simp [h_free, h_out, h_sys, h_pins, h_clk, h_hif, h_mgt, h_sup, h_ktl, h_led, h_cad, h_cdc, h_stp, h_btu, h_hdp, h_jnl, h_seq, h_axs, h_mot, h_ctl, h_drc, h_flt, h_fus]

@[simp] theorem resetState_view {vp : Part} (s : State) (flash : List (Nat × Byte)) (h_now : vp ≠ .now) (h_sys : vp ≠ .sys) (h_pins : vp ≠ .pins) (h_clk : vp ≠ .clk) (h_hif : vp ≠ .hif) (h_mgt : vp ≠ .mgt) (h_sup : vp ≠ .sup) (h_ktl : vp ≠ .ktl) (h_led : vp ≠ .led) (h_cad : vp ≠ .cad) (h_cdc : vp ≠ .cdc) (h_stp : vp ≠ .stp) (h_btu : vp ≠ .btu) (h_hdp : vp ≠ .hdp) (h_jnl : vp ≠ .jnl) (h_seq : vp ≠ .seq) (h_axs : vp ≠ .axs) (h_mot : vp ≠ .mot) (h_ctl : vp ≠ .ctl) (h_drc : vp ≠ .drc) (h_flt : vp ≠ .flt) (h_fus : vp ≠ .fus) (h_tmp : vp ≠ .tmp) :
    view vp (resetState s flash) = view vp s := by
  cases vp <;> first | rfl | simp_all

@[simp] theorem enterReset_view {vp : Part} (s : State) (h_now : vp ≠ .now) (h_free : vp ≠ .free) (h_sys : vp ≠ .sys)
    (h_pins : vp ≠ .pins) (h_clk : vp ≠ .clk) (h_hif : vp ≠ .hif) (h_mgt : vp ≠ .mgt) (h_sup : vp ≠ .sup)
    (h_ktl : vp ≠ .ktl) (h_led : vp ≠ .led) (h_cad : vp ≠ .cad) (h_cdc : vp ≠ .cdc) (h_stp : vp ≠ .stp)
    (h_btu : vp ≠ .btu) (h_hdp : vp ≠ .hdp) (h_jnl : vp ≠ .jnl) (h_seq : vp ≠ .seq) (h_axs : vp ≠ .axs)
    (h_mot : vp ≠ .mot) (h_ctl : vp ≠ .ctl) (h_drc : vp ≠ .drc) (h_flt : vp ≠ .flt) (h_fus : vp ≠ .fus)
    (h_tmp : vp ≠ .tmp) :
    view vp (enterReset s) = view vp s := by
  unfold enterReset
  simp [h_now, h_free, h_sys, h_pins, h_clk, h_hif, h_mgt, h_sup, h_ktl, h_led, h_cad, h_cdc, h_stp, h_btu, h_hdp, h_jnl, h_seq, h_axs, h_mot, h_ctl, h_drc, h_flt, h_fus, h_tmp]

@[simp] theorem stopEncodes_view {vp : Part} (s : State) (h_free : vp ≠ .free) (h_out : vp ≠ .out) (h_hif : vp ≠ .hif)
    (h_mgt : vp ≠ .mgt) (h_sup : vp ≠ .sup) (h_ktl : vp ≠ .ktl) (h_cdc : vp ≠ .cdc) (h_flt : vp ≠ .flt) :
    view vp (stopEncodes s) = view vp s := by
  unfold stopEncodes
  simp [h_free, h_out, h_hif, h_mgt, h_sup, h_ktl, h_cdc, h_flt]

@[simp] theorem powerStops_view {vp : Part} (s : State) (h_free : vp ≠ .free) (h_out : vp ≠ .out) (h_sys : vp ≠ .sys)
    (h_pins : vp ≠ .pins) (h_clk : vp ≠ .clk) (h_hif : vp ≠ .hif) (h_mgt : vp ≠ .mgt) (h_sup : vp ≠ .sup)
    (h_ktl : vp ≠ .ktl) (h_led : vp ≠ .led) (h_cad : vp ≠ .cad) (h_cdc : vp ≠ .cdc) (h_stp : vp ≠ .stp)
    (h_btu : vp ≠ .btu) (h_hdp : vp ≠ .hdp) (h_axs : vp ≠ .axs) (h_mot : vp ≠ .mot) (h_ctl : vp ≠ .ctl)
    (h_drc : vp ≠ .drc) (h_flt : vp ≠ .flt) :
    view vp (powerStops s) = view vp s := by
  unfold powerStops
  simp [h_free, h_out, h_sys, h_pins, h_clk, h_hif, h_mgt, h_sup, h_ktl, h_led, h_cad, h_cdc, h_stp, h_btu, h_hdp, h_axs, h_mot, h_ctl, h_drc, h_flt]

@[simp] theorem powerLoss_view {vp : Part} (s : State) (h_free : vp ≠ .free) (h_out : vp ≠ .out) (h_sys : vp ≠ .sys)
    (h_pins : vp ≠ .pins) (h_clk : vp ≠ .clk) (h_hif : vp ≠ .hif) (h_mgt : vp ≠ .mgt) (h_sup : vp ≠ .sup)
    (h_ktl : vp ≠ .ktl) (h_led : vp ≠ .led) (h_cad : vp ≠ .cad) (h_cdc : vp ≠ .cdc) (h_stp : vp ≠ .stp)
    (h_btu : vp ≠ .btu) (h_hdp : vp ≠ .hdp) (h_jnl : vp ≠ .jnl) (h_axs : vp ≠ .axs) (h_mot : vp ≠ .mot)
    (h_ctl : vp ≠ .ctl) (h_drc : vp ≠ .drc) (h_flt : vp ≠ .flt) :
    view vp (powerLoss s) = view vp s := by
  unfold powerLoss
  simp [h_free, h_out, h_sys, h_pins, h_clk, h_hif, h_mgt, h_sup, h_ktl, h_led, h_cad, h_cdc, h_stp, h_btu, h_hdp, h_jnl, h_axs, h_mot, h_ctl, h_drc, h_flt]

@[simp] theorem release_view {vp : Part} (s : State) (compat sris : StrapLevel) (h_now : vp ≠ .now) (h_free : vp ≠ .free) (h_sys : vp ≠ .sys) (h_clk : vp ≠ .clk) (h_hif : vp ≠ .hif) (h_sup : vp ≠ .sup) :
    view vp (release s compat sris) = view vp s := by
  have h1 : ∀ u (l : StrapLevel), view vp (strap u l).2 = view vp u := by
    intro u l; cases l <;> simp [strap, h_free]
  unfold release
  dsimp only
  rw [view_with_now _ _ h_now]
  simp [h1, h_now, h_free, h_sys, h_clk, h_hif, h_sup]

@[simp] theorem toStage_view {vp : Part} (s : State) (k : Nat) (h_sys : vp ≠ .sys) :
    view vp (toStage s k) = view vp s := by
  unfold toStage
  simp [h_sys]

@[simp] theorem mapDram_view {vp : Part} (s : State) (gs : List (Option Geometry)) (h_cad : vp ≠ .cad)
    (h_drc : vp ≠ .drc) :
    view vp (mapDram s gs) = view vp s := by
  unfold mapDram
  simp [h_cad, h_drc]

@[simp] theorem bootFailed_view {vp : Part} (s : State) (c : Nat) (l : Level) (h_free : vp ≠ .free) (h_flt : vp ≠ .flt) :
    view vp (bootFailed s c l) = view vp s := by
  unfold bootFailed
  simp [h_free, h_flt]

@[simp] theorem recordWake_view {vp : Part} (s : State) (w : Wake) (ms : Nat) (h_sys : vp ≠ .sys) :
    view vp (recordWake s w ms) = view vp s := by
  unfold recordWake
  simp [h_sys]

@[simp] theorem applyOutputs_view {vp : Part} (s : State) (h_mot : vp ≠ .mot) (h_ctl : vp ≠ .ctl) :
    view vp (applyOutputs s) = view vp s := by
  unfold applyOutputs
  simp [h_mot, h_ctl]

@[simp] theorem releaseInners_view {vp : Part} (s : State) (h_ctl : vp ≠ .ctl) :
    view vp (releaseInners s) = view vp s := by
  unfold releaseInners
  simp [h_ctl]

@[simp] theorem fuserWatch_view {vp : Part} (s : State) (h_seq : vp ≠ .seq) :
    view vp (fuserWatch s) = view vp s := by
  unfold fuserWatch
  simp [h_seq]

@[simp] theorem keepZones_view {vp : Part} (s : State) (h_ctl : vp ≠ .ctl) :
    view vp (keepZones s) = view vp s := by
  unfold keepZones
  simp [h_ctl]

@[simp] theorem takeSetpoints_view {vp : Part} (s : State) (h_ctl : vp ≠ .ctl) :
    view vp (takeSetpoints s) = view vp s := by
  unfold takeSetpoints
  apply view_foldl; intro u x; (repeat' split) <;> simp [h_ctl]

@[simp] theorem loopFrame_view {vp : Part} (s : State) (ain : List (BitVec 12)) (late : List (Fin 160))
    (h_sys : vp ≠ .sys) (h_pins : vp ≠ .pins) (h_clk : vp ≠ .clk) (h_cdc : vp ≠ .cdc) (h_hdp : vp ≠ .hdp)
    (h_seq : vp ≠ .seq) (h_axs : vp ≠ .axs) (h_mot : vp ≠ .mot) (h_ctl : vp ≠ .ctl) (h_drc : vp ≠ .drc)
    (h_flt : vp ≠ .flt) :
    view vp (loopFrame s ain late) = view vp s := by
  unfold loopFrame
  simp [h_sys, h_pins, h_clk, h_cdc, h_hdp, h_seq, h_axs, h_mot, h_ctl, h_drc, h_flt]

@[simp] theorem mainsLost_view {vp : Part} (s : State) (why : Nat) (h_ctl : vp ≠ .ctl) (h_flt : vp ≠ .flt) :
    view vp (mainsLost s why) = view vp s := by
  unfold mainsLost
  simp [h_ctl, h_flt]

@[simp] theorem mainsDeliver_view {vp : Part} (s : State) (h_ctl : vp ≠ .ctl) :
    view vp (mainsDeliver s) = view vp s := by
  unfold mainsDeliver
  simp [h_ctl]

@[simp] theorem htrCycle_view {vp : Part} (s : State) (h_ctl : vp ≠ .ctl) :
    view vp (htrCycle s) = view vp s := by
  unfold htrCycle
  (repeat' split) <;> simp [h_ctl]

@[simp] theorem mainsEdge_view {vp : Part} (s : State) (half : Nat) (h_ctl : vp ≠ .ctl) (h_flt : vp ≠ .flt) :
    view vp (mainsEdge s half) = view vp s := by
  unfold mainsEdge
  simp [h_ctl, h_flt]

@[simp] theorem hvFault_view {vp : Part} (s : State) (h_pins : vp ≠ .pins) (h_ctl : vp ≠ .ctl) (h_flt : vp ≠ .flt) :
    view vp (hvFault s) = view vp s := by
  unfold hvFault
  simp [h_pins, h_ctl, h_flt]

@[simp] theorem throttleTo_view {vp : Part} (s : State) (step : Nat) (h_flt : vp ≠ .flt) (h_tmp : vp ≠ .tmp) :
    view vp (throttleTo s step) = view vp s := by
  unfold throttleTo
  simp [h_flt, h_tmp]

@[simp] theorem brokenSample_view {vp : Part} (s : State) (h_flt : vp ≠ .flt) (h_tmp : vp ≠ .tmp) :
    view vp (brokenSample s) = view vp s := by
  unfold brokenSample
  simp [h_flt, h_tmp]

@[simp] theorem warnEntered_view {vp : Part} (s : State) (h_flt : vp ≠ .flt) (h_tmp : vp ≠ .tmp) :
    view vp (warnEntered s) = view vp s := by
  unfold warnEntered
  simp [h_flt, h_tmp]

@[simp] theorem hotEntered_view {vp : Part} (s : State) (trips : Bool) (h_sys : vp ≠ .sys) (h_led : vp ≠ .led)
    (h_stp : vp ≠ .stp) (h_seq : vp ≠ .seq) (h_axs : vp ≠ .axs) (h_ctl : vp ≠ .ctl) (h_flt : vp ≠ .flt)
    (h_tmp : vp ≠ .tmp) :
    view vp (hotEntered s trips) = view vp s := by
  unfold hotEntered
  simp [h_sys, h_led, h_stp, h_seq, h_axs, h_ctl, h_flt, h_tmp]

@[simp] theorem goodSample_view {vp : Part} (s : State) (t : Int) (h_sys : vp ≠ .sys) (h_led : vp ≠ .led)
    (h_stp : vp ≠ .stp) (h_seq : vp ≠ .seq) (h_axs : vp ≠ .axs) (h_ctl : vp ≠ .ctl) (h_flt : vp ≠ .flt)
    (h_tmp : vp ≠ .tmp) :
    view vp (goodSample s t) = view vp s := by
  unfold goodSample
  simp [h_sys, h_led, h_stp, h_seq, h_axs, h_ctl, h_flt, h_tmp]

@[simp] theorem columnsWatch_view {vp : Part} (s : State) (h_clk : vp ≠ .clk) :
    view vp (columnsWatch s) = view vp s := by
  unfold columnsWatch
  simp [h_clk]

@[simp] theorem calibrationsDrift_view {vp : Part} (s : State) (h_btu : vp ≠ .btu) :
    view vp (calibrationsDrift s) = view vp s := by
  unfold calibrationsDrift
  simp [h_btu]

@[simp] theorem calibrationsWatch_view {vp : Part} (before : Int) (s : State) (h_flt : vp ≠ .flt) :
    view vp (calibrationsWatch before s) = view vp s := by
  unfold calibrationsWatch
  simp [h_flt]

@[simp] theorem resenseWatch_view {vp : Part} (s : State) (before : Int) (t : Int) (h_fus : vp ≠ .fus) :
    view vp (resenseWatch s before t) = view vp s := by
  unfold resenseWatch
  simp [h_fus]

@[simp] theorem dieTempSample_view {vp : Part} (s : State) (code : Option (BitVec 16)) (h_sys : vp ≠ .sys)
    (h_clk : vp ≠ .clk) (h_led : vp ≠ .led) (h_stp : vp ≠ .stp) (h_btu : vp ≠ .btu) (h_seq : vp ≠ .seq)
    (h_axs : vp ≠ .axs) (h_ctl : vp ≠ .ctl) (h_flt : vp ≠ .flt) (h_fus : vp ≠ .fus) (h_tmp : vp ≠ .tmp) :
    view vp (dieTempSample s code) = view vp s := by
  unfold dieTempSample
  simp [h_sys, h_clk, h_led, h_stp, h_btu, h_seq, h_axs, h_ctl, h_flt, h_fus, h_tmp] <;> (repeat' split) <;> simp_all

@[simp] theorem resense_view {vp : Part} (s : State) (differs : List (Fin 256)) (h_flt : vp ≠ .flt) (h_fus : vp ≠ .fus) :
    view vp (resense s differs) = view vp s := by
  unfold resense
  simp [h_flt, h_fus]

@[simp] theorem waitingResense_view {vp : Part} (s : State) (h_flt : vp ≠ .flt) (h_fus : vp ≠ .fus) :
    view vp (waitingResense s) = view vp s := by
  unfold waitingResense
  (repeat' split) <;> simp [h_flt, h_fus]

@[simp] theorem modMark_view {vp : Part} (s : State) (i : Fin 512) (k : Nat) (g : Mark → Mark) (h_led : vp ≠ .led) :
    view vp (modMark s i k g) = view vp s := by
  unfold modMark
  simp [h_led]

@[simp] theorem endField_view {vp : Part} (s : State) (h : Fin 8) (h_hdp : vp ≠ .hdp) :
    view vp (endField s h) = view vp s := by
  unfold endField
  simp [h_hdp]

@[simp] theorem skipField_view {vp : Part} (s : State) (h : Fin 8) (i : Fin 512) (k : Nat) (r : Spoil)
    (h_led : vp ≠ .led) (h_hdp : vp ≠ .hdp) :
    view vp (skipField s h i k r) = view vp s := by
  unfold skipField
  simp [h_led, h_hdp]

@[simp] theorem breakField_view {vp : Part} (s : State) (h : Fin 8) (h_led : vp ≠ .led) (h_hdp : vp ≠ .hdp) :
    view vp (breakField s h) = view vp s := by
  unfold breakField
  (repeat' split) <;> simp [h_led, h_hdp]

@[simp] theorem lineUnavailable_view {vp : Part} (s : State) (h : Fin 8) (i : Fin 512) (k : Nat) (line : Nat)
    (h_led : vp ≠ .led) (h_hdp : vp ≠ .hdp) (h_flt : vp ≠ .flt) :
    view vp (lineUnavailable s h i k line) = view vp s := by
  unfold lineUnavailable
  simp [h_led, h_hdp, h_flt]

@[simp] theorem fetchLine_view {vp : Part} (s : State) (h : Fin 8) (good0 : Bool) (good1 : Bool) (h_led : vp ≠ .led)
    (h_hdp : vp ≠ .hdp) (h_flt : vp ≠ .flt) :
    view vp (fetchLine s h good0 good1) = view vp s := by
  unfold fetchLine
  (repeat' split) <;> simp [h_led, h_hdp, h_flt]

@[simp] theorem dutySuppress_view {vp : Part} (s : State) (h : Fin 8) (i : Fin 512) (instant : Nat) (count : Nat)
    (h_led : vp ≠ .led) (h_hdp : vp ≠ .hdp) (h_flt : vp ≠ .flt) :
    view vp (dutySuppress s h i instant count) = view vp s := by
  unfold dutySuppress
  simp [h_led, h_hdp, h_flt]

@[simp] theorem strobe_view {vp : Part} (s : State) (h : Fin 8) (i : Fin 512) (k : Nat) (wave : Nat) (instant : Nat)
    (drops : List Nat) (h_out : vp ≠ .out) (h_led : vp ≠ .led) (h_hdp : vp ≠ .hdp) :
    view vp (strobe s h i k wave instant drops) = view vp s := by
  unfold strobe
  simp [h_out, h_led, h_hdp]

@[simp] theorem dropInstant_view {vp : Part} (s : State) (h : Fin 8) (i : Fin 512) (k : Nat) (instant : Nat)
    (h_led : vp ≠ .led) (h_hdp : vp ≠ .hdp) (h_flt : vp ≠ .flt) :
    view vp (dropInstant s h i k instant) = view vp s := by
  unfold dropInstant
  simp [h_led, h_hdp, h_flt]

@[simp] theorem fireCycle_view {vp : Part} (s : State) (h : Fin 8) (mem : HeadMem) (i : Fin 512) (k : Nat) (m : Mark)
    (instant : Nat) (h_out : vp ≠ .out) (h_led : vp ≠ .led) (h_hdp : vp ≠ .hdp) (h_flt : vp ≠ .flt) :
    view vp (fireCycle s h mem i k m instant) = view vp s := by
  unfold fireCycle
  simp [h_out, h_led, h_hdp, h_flt]

@[simp] theorem fireOrDrop_view {vp : Part} (s : State) (h : Fin 8) (mem : HeadMem) (i : Fin 512) (k : Nat) (m : Mark)
    (instant : Nat) (h_out : vp ≠ .out) (h_led : vp ≠ .led) (h_hdp : vp ≠ .hdp) (h_flt : vp ≠ .flt) :
    view vp (fireOrDrop s h mem i k m instant) = view vp s := by
  unfold fireOrDrop
  simp [h_out, h_led, h_hdp, h_flt]

@[simp] theorem fireInstant_view {vp : Part} (s : State) (h : Fin 8) (h_out : vp ≠ .out) (h_led : vp ≠ .led)
    (h_hdp : vp ≠ .hdp) (h_flt : vp ≠ .flt) :
    view vp (fireInstant s h) = view vp s := by
  unfold fireInstant
  (repeat' split) <;> simp [h_out, h_led, h_hdp, h_flt]

@[simp] theorem strobeCut_view {vp : Part} (s : State) (h : Fin 8) (high : Nat) (spacing : Nat) (h_led : vp ≠ .led)
    (h_hdp : vp ≠ .hdp) (h_flt : vp ≠ .flt) :
    view vp (strobeCut s h high spacing) = view vp s := by
  unfold strobeCut
  (repeat' split) <;> simp [h_led, h_hdp, h_flt]

@[simp] theorem tempSample_view {vp : Part} (s : State) (h : Fin 8) (code : Nat) (h_free : vp ≠ .free)
    (h_out : vp ≠ .out) (h_led : vp ≠ .led) (h_hdp : vp ≠ .hdp) (h_flt : vp ≠ .flt) :
    view vp (tempSample s h code) = view vp s := by
  unfold tempSample
  simp [h_free, h_out, h_led, h_hdp, h_flt] <;> (repeat' split) <;> simp_all

@[simp] theorem dutyWindow_view {vp : Part} (s : State) (h_hdp : vp ≠ .hdp) :
    view vp (dutyWindow s) = view vp s := by
  unfold dutyWindow
  simp [h_hdp]

@[simp] theorem renderMarks_view {vp : Part} (s : State) (i : Fin 512) (h_led : vp ≠ .led) :
    view vp (renderMarks s i) = view vp s := by
  unfold renderMarks
  simp [h_led]

@[simp] theorem gatesCycle_view {vp : Part} (s : State) (h_mot : vp ≠ .mot) :
    view vp (gatesCycle s) = view vp s := by
  unfold gatesCycle
  simp [h_mot]

@[simp] theorem closeLoop_view {vp : Part} (s : State) (m : Fin 10) (h_mot : vp ≠ .mot) (h_ctl : vp ≠ .ctl) :
    view vp (closeLoop s m) = view vp s := by
  unfold closeLoop
  simp [h_mot, h_ctl]

@[simp] theorem beginAlign_view {vp : Part} (s : State) (m : Fin 10) (h_mot : vp ≠ .mot) (h_ctl : vp ≠ .ctl) :
    view vp (beginAlign s m) = view vp s := by
  unfold beginAlign
  simp [h_mot, h_ctl]

@[simp] theorem loseSync_view {vp : Part} (s : State) (m : Fin 10) (h_mot : vp ≠ .mot) (h_ctl : vp ≠ .ctl)
    (h_flt : vp ≠ .flt) :
    view vp (loseSync s m) = view vp s := by
  unfold loseSync
  simp [h_mot, h_ctl, h_flt]

@[simp] theorem brakeEnd_view {vp : Part} (s : State) (m : Fin 10) (h_mot : vp ≠ .mot) (h_ctl : vp ≠ .ctl) :
    view vp (brakeEnd s m) = view vp s := by
  unfold brakeEnd
  simp [h_mot, h_ctl]

@[simp] theorem zeroCrossing_view {vp : Part} (s : State) (m : Fin 10) (phase : Fin 3) (rising : Bool) (prev : Nat)
    (last : Nat) (since : Nat) (h_mot : vp ≠ .mot) (h_ctl : vp ≠ .ctl) (h_flt : vp ≠ .flt) :
    view vp (zeroCrossing s m phase rising prev last since) = view vp s := by
  unfold zeroCrossing
  simp [h_mot, h_ctl, h_flt] <;> (repeat' split) <;> simp_all

@[simp] theorem commutate_view {vp : Part} (s : State) (m : Fin 10) (h_mot : vp ≠ .mot) :
    view vp (commutate s m) = view vp s := by
  unfold commutate
  simp [h_mot]

@[simp] theorem motorProtect_view {vp : Part} (s : State) (m : Fin 10) (cause : Nat) (value : Nat) (flag : Nat)
    (h_sys : vp ≠ .sys) (h_led : vp ≠ .led) (h_cad : vp ≠ .cad) (h_stp : vp ≠ .stp) (h_hdp : vp ≠ .hdp)
    (h_jnl : vp ≠ .jnl) (h_seq : vp ≠ .seq) (h_axs : vp ≠ .axs) (h_mot : vp ≠ .mot) (h_ctl : vp ≠ .ctl)
    (h_flt : vp ≠ .flt) :
    view vp (motorProtect s m cause value flag) = view vp s := by
  unfold motorProtect
  simp [h_sys, h_led, h_cad, h_stp, h_hdp, h_jnl, h_seq, h_axs, h_mot, h_ctl, h_flt]

@[simp] theorem motorPwm_view {vp : Part} (s : State) (m : Fin 10) (bitsU : List Bool) (bitsV : List Bool)
    (h_free : vp ≠ .free) (h_sys : vp ≠ .sys) (h_led : vp ≠ .led) (h_cad : vp ≠ .cad) (h_stp : vp ≠ .stp)
    (h_hdp : vp ≠ .hdp) (h_jnl : vp ≠ .jnl) (h_seq : vp ≠ .seq) (h_axs : vp ≠ .axs) (h_mot : vp ≠ .mot)
    (h_ctl : vp ≠ .ctl) (h_flt : vp ≠ .flt) :
    view vp (motorPwm s m bitsU bitsV) = view vp s := by
  unfold motorPwm
  simp [h_free, h_sys, h_led, h_cad, h_stp, h_hdp, h_jnl, h_seq, h_axs, h_mot, h_ctl, h_flt] <;> (repeat' split) <;> simp_all

@[simp] theorem catchDecision_view {vp : Part} (s : State) (m : Fin 10) (h_mot : vp ≠ .mot) (h_ctl : vp ≠ .ctl)
    (h_flt : vp ≠ .flt) :
    view vp (catchDecision s m) = view vp s := by
  unfold catchDecision
  simp [h_mot, h_ctl, h_flt]

@[simp] theorem alignElapsed_view {vp : Part} (s : State) (m : Fin 10) (h_mot : vp ≠ .mot) (h_ctl : vp ≠ .ctl) :
    view vp (alignElapsed s m) = view vp s := by
  unfold alignElapsed
  simp [h_mot, h_ctl]

@[simp] theorem rampTimeout_view {vp : Part} (s : State) (m : Fin 10) (h_mot : vp ≠ .mot) (h_ctl : vp ≠ .ctl)
    (h_flt : vp ≠ .flt) :
    view vp (rampTimeout s m) = view vp s := by
  unfold rampTimeout
  simp [h_mot, h_ctl, h_flt]

@[simp] theorem losTimeout_view {vp : Part} (s : State) (m : Fin 10) (h_mot : vp ≠ .mot) (h_ctl : vp ≠ .ctl)
    (h_flt : vp ≠ .flt) :
    view vp (losTimeout s m) = view vp s := by
  unfold losTimeout
  simp [h_mot, h_ctl, h_flt]

@[simp] theorem losRestart_view {vp : Part} (s : State) (m : Fin 10) (h_mot : vp ≠ .mot) :
    view vp (losRestart s m) = view vp s := by
  unfold losRestart
  simp [h_mot]

@[simp] theorem coastStopped_view {vp : Part} (s : State) (m : Fin 10) (h_mot : vp ≠ .mot) (h_flt : vp ≠ .flt) :
    view vp (coastStopped s m) = view vp s := by
  unfold coastStopped
  simp [h_mot, h_flt]

@[simp] theorem brakingCoasts_view {vp : Part} (s : State) (h_mot : vp ≠ .mot) (h_ctl : vp ≠ .ctl) (h_flt : vp ≠ .flt) :
    view vp (brakingCoasts s) = view vp s := by
  unfold brakingCoasts
  simp [h_mot, h_ctl, h_flt]

@[simp] theorem busHardLimit_view {vp : Part} (s : State) (h_out : vp ≠ .out) (h_sys : vp ≠ .sys) (h_pins : vp ≠ .pins)
    (h_clk : vp ≠ .clk) (h_hif : vp ≠ .hif) (h_led : vp ≠ .led) (h_cad : vp ≠ .cad) (h_cdc : vp ≠ .cdc)
    (h_stp : vp ≠ .stp) (h_btu : vp ≠ .btu) (h_hdp : vp ≠ .hdp) (h_jnl : vp ≠ .jnl) (h_seq : vp ≠ .seq)
    (h_axs : vp ≠ .axs) (h_mot : vp ≠ .mot) (h_ctl : vp ≠ .ctl) (h_drc : vp ≠ .drc) (h_flt : vp ≠ .flt) :
    view vp (busHardLimit s) = view vp s := by
  unfold busHardLimit
  simp [h_out, h_sys, h_pins, h_clk, h_hif, h_led, h_cad, h_cdc, h_stp, h_btu, h_hdp, h_jnl, h_seq, h_axs, h_mot, h_ctl, h_drc, h_flt]

@[simp] theorem busSample_view {vp : Part} (s : State) (code : BitVec 12) (fb : Bool) (h_out : vp ≠ .out)
    (h_sys : vp ≠ .sys) (h_pins : vp ≠ .pins) (h_clk : vp ≠ .clk) (h_hif : vp ≠ .hif) (h_led : vp ≠ .led)
    (h_cad : vp ≠ .cad) (h_cdc : vp ≠ .cdc) (h_stp : vp ≠ .stp) (h_btu : vp ≠ .btu) (h_hdp : vp ≠ .hdp)
    (h_jnl : vp ≠ .jnl) (h_seq : vp ≠ .seq) (h_axs : vp ≠ .axs) (h_mot : vp ≠ .mot) (h_ctl : vp ≠ .ctl)
    (h_drc : vp ≠ .drc) (h_flt : vp ≠ .flt) :
    view vp (busSample s code fb) = view vp s := by
  unfold busSample
  simp [h_out, h_sys, h_pins, h_clk, h_hif, h_led, h_cad, h_cdc, h_stp, h_btu, h_hdp, h_jnl, h_seq, h_axs, h_mot, h_ctl, h_drc, h_flt]

@[simp] theorem busUndervoltage_view {vp : Part} (s : State) (h_mot : vp ≠ .mot) (h_ctl : vp ≠ .ctl)
    (h_flt : vp ≠ .flt) :
    view vp (busUndervoltage s) = view vp s := by
  unfold busUndervoltage
  simp [h_mot, h_ctl, h_flt]

@[simp] theorem chopperFault_view {vp : Part} (s : State) (c : ChopperCause) (h_mot : vp ≠ .mot) (h_ctl : vp ≠ .ctl)
    (h_flt : vp ≠ .flt) :
    view vp (chopperFault s c) = view vp s := by
  unfold chopperFault
  simp [h_mot, h_ctl, h_flt]

@[simp] theorem spdResume_view {vp : Part} (s : State) (m : Fin 10) (set : Nat) (h_mot : vp ≠ .mot) :
    view vp (spdResume s m set) = view vp s := by
  unfold spdResume
  simp [h_mot]

@[simp] theorem spdUpdate_view {vp : Part} (s : State) (n : Fin 2) (fraction : Nat) (h_mot : vp ≠ .mot)
    (h_ctl : vp ≠ .ctl) :
    view vp (spdUpdate s n fraction) = view vp s := by
  unfold spdUpdate
  simp [h_mot, h_ctl]

@[simp] theorem spdDropout_view {vp : Part} (s : State) (n : Fin 2) (h_mot : vp ≠ .mot) (h_ctl : vp ≠ .ctl)
    (h_flt : vp ≠ .flt) :
    view vp (spdDropout s n) = view vp s := by
  unfold spdDropout
  simp [h_mot, h_ctl, h_flt]

@[simp] theorem bankLoss_view {vp : Part} (s : State) (b : Fin 8) (h_free : vp ≠ .free) (h_pins : vp ≠ .pins)
    (h_mot : vp ≠ .mot) :
    view vp (bankLoss s b) = view vp s := by
  unfold bankLoss
  simp [h_free, h_pins, h_mot]

@[simp] theorem bankReturn_view {vp : Part} (s : State) (b : Fin 8) (h_pins : vp ≠ .pins) :
    view vp (bankReturn s b) = view vp s := by
  unfold bankReturn
  simp [h_pins]

@[simp] theorem tapEdge_view {vp : Part} (s : State) (tms : Bool) (trstN : Bool) (h_free : vp ≠ .free)
    (h_pins : vp ≠ .pins) :
    view vp (tapEdge s tms trstN) = view vp s := by
  unfold tapEdge
  simp [h_free, h_pins]

@[simp] theorem restoreLog_view {vp : Part} (s : State) (unreadable : List Nat) (high : Option Nat) (h_jnl : vp ≠ .jnl) :
    view vp (restoreLog s unreadable high) = view vp s := by
  unfold restoreLog
  (repeat' split) <;> simp [h_jnl]

@[simp] theorem bootRecord_view {vp : Part} (s : State) (newest : Option Nat) (h_led : vp ≠ .led) (h_jnl : vp ≠ .jnl)
    (h_flt : vp ≠ .flt) :
    view vp (bootRecord s newest) = view vp s := by
  unfold bootRecord
  simp [h_led, h_jnl, h_flt]

@[simp] theorem bootGap_view {vp : Part} (s : State) (start : Nat) (w : Walk) (h_led : vp ≠ .led) (h_jnl : vp ≠ .jnl)
    (h_flt : vp ≠ .flt) :
    view vp (bootGap s start w) = view vp s := by
  unfold bootGap
  simp [h_led, h_jnl, h_flt]

@[simp] theorem bootVoids_view {vp : Part} (s : State) (w : Walk) (h_led : vp ≠ .led) (h_jnl : vp ≠ .jnl)
    (h_flt : vp ≠ .flt) :
    view vp (bootVoids s w) = view vp s := by
  unfold bootVoids
  simp [h_led, h_jnl, h_flt]

@[simp] theorem resumeRing_view {vp : Part} (s : State) (start : Nat) (w : Walk) (h_led : vp ≠ .led)
    (h_jnl : vp ≠ .jnl) (h_flt : vp ≠ .flt) :
    view vp (resumeRing s start w) = view vp s := by
  unfold resumeRing
  simp [h_led, h_jnl, h_flt]

@[simp] theorem freshRing_view {vp : Part} (s : State) (h_led : vp ≠ .led) (h_jnl : vp ≠ .jnl) (h_flt : vp ≠ .flt) :
    view vp (freshRing s) = view vp s := by
  unfold freshRing
  simp [h_led, h_jnl, h_flt]

@[simp] theorem scanFlash_view {vp : Part} (s : State) (unreadable : List Nat) (h_led : vp ≠ .led) (h_jnl : vp ≠ .jnl)
    (h_flt : vp ≠ .flt) :
    view vp (scanFlash s unreadable) = view vp s := by
  unfold scanFlash
  simp [h_led, h_jnl, h_flt] <;> (repeat' split) <;> simp_all

@[simp] theorem endStage4_view {vp : Part} (s : State) (h_sys : vp ≠ .sys) (h_ctl : vp ≠ .ctl) (h_flt : vp ≠ .flt) :
    view vp (endStage4 s) = view vp s := by
  unfold endStage4
  simp [h_sys, h_ctl, h_flt]

@[simp] theorem takeUnits_view {vp : Part} (s : State) (h_seq : vp ≠ .seq) (h_axs : vp ≠ .axs) (h_mot : vp ≠ .mot) :
    view vp (takeUnits s) = view vp s := by
  unfold takeUnits
  simp [h_seq, h_axs, h_mot]

@[simp] theorem scheduleBands_view {vp : Part} (s : State) (i : Fin 512) (t : Nat) (h_stp : vp ≠ .stp) :
    view vp (scheduleBands s i t) = view vp s := by
  unfold scheduleBands
  simp [h_stp]

@[simp] theorem phasePair_view {vp : Part} (s : State) (t : Nat) (h_axs : vp ≠ .axs) :
    view vp (phasePair s t) = view vp s := by
  unfold phasePair
  simp [h_axs]

@[simp] theorem pickSheet_view {vp : Part} (s : State) (i : Fin 512) (e : Sheet) (h_sys : vp ≠ .sys)
    (h_led : vp ≠ .led) (h_stp : vp ≠ .stp) (h_seq : vp ≠ .seq) (h_axs : vp ≠ .axs) (h_mot : vp ≠ .mot)
    (h_ctl : vp ≠ .ctl) (h_flt : vp ≠ .flt) :
    view vp (pickSheet s i e) = view vp s := by
  unfold pickSheet
  simp [h_sys, h_led, h_stp, h_seq, h_axs, h_mot, h_ctl, h_flt]

@[simp] theorem sheetPick_view {vp : Part} (s : State) (h_sys : vp ≠ .sys) (h_led : vp ≠ .led) (h_stp : vp ≠ .stp)
    (h_seq : vp ≠ .seq) (h_axs : vp ≠ .axs) (h_mot : vp ≠ .mot) (h_ctl : vp ≠ .ctl) (h_flt : vp ≠ .flt) :
    view vp (sheetPick s) = view vp s := by
  unfold sheetPick
  (repeat' split) <;> simp [h_sys, h_led, h_stp, h_seq, h_axs, h_mot, h_ctl, h_flt]

@[simp] theorem pickWait_view {vp : Part} (s : State) (h_seq : vp ≠ .seq) (h_flt : vp ≠ .flt) :
    view vp (pickWait s) = view vp s := by
  unfold pickWait
  simp [h_seq, h_flt]

@[simp] theorem pickPause_view {vp : Part} (s : State) (h_seq : vp ≠ .seq) (h_flt : vp ≠ .flt) :
    view vp (pickPause s) = view vp s := by
  unfold pickPause
  simp [h_seq, h_flt]

@[simp] theorem headWait_view {vp : Part} (s : State) (h_seq : vp ≠ .seq) :
    view vp (headWait s) = view vp s := by
  unfold headWait
  simp [h_seq]

@[simp] theorem skew_view {vp : Part} (s : State) (why : Nat) (h_axs : vp ≠ .axs) (h_flt : vp ≠ .flt) :
    view vp (skew s why) = view vp s := by
  unfold skew
  simp [h_axs, h_flt]

@[simp] theorem oweShare_view {vp : Part} (s : State) (a : Nat) (share : Int) (h_axs : vp ≠ .axs) :
    view vp (oweShare s a share) = view vp s := by
  unfold oweShare
  simp [h_axs]

@[simp] theorem deskewSheet_view {vp : Part} (s : State) (t : Nat) (tL : Nat) (tR : Nat) (h_axs : vp ≠ .axs)
    (h_flt : vp ≠ .flt) :
    view vp (deskewSheet s t tL tR) = view vp s := by
  unfold deskewSheet
  simp [h_axs, h_flt]

@[simp] theorem deskewEdge_view {vp : Part} (s : State) (i : Fin 512) (k : Nat) (h_axs : vp ≠ .axs) (h_flt : vp ≠ .flt) :
    view vp (deskewEdge s i k) = view vp s := by
  unfold deskewEdge
  simp [h_axs, h_flt] <;> (repeat' split) <;> simp_all

@[simp] theorem deskewLate_view {vp : Part} (s : State) (h_axs : vp ≠ .axs) (h_flt : vp ≠ .flt) :
    view vp (deskewLate s) = view vp s := by
  unfold deskewLate
  simp [h_axs, h_flt]

@[simp] theorem modWindow_view {vp : Part} (s : State) (i : Fin 512) (k : Nat) (g : Window → Window)
    (h_led : vp ≠ .led) :
    view vp (modWindow s i k g) = view vp s := by
  unfold modWindow
  simp [h_led]

@[simp] theorem passGate_view {vp : Part} (s : State) (i : Fin 512) (k : Nat) (h_led : vp ≠ .led) :
    view vp (passGate s i k) = view vp s := by
  unfold passGate
  simp [h_led]

@[simp] theorem leadingEdge_view {vp : Part} (s : State) (i : Fin 512) (e : Sheet) (k : Nat) (h_sys : vp ≠ .sys)
    (h_led : vp ≠ .led) (h_cad : vp ≠ .cad) (h_stp : vp ≠ .stp) (h_hdp : vp ≠ .hdp) (h_jnl : vp ≠ .jnl)
    (h_seq : vp ≠ .seq) (h_axs : vp ≠ .axs) (h_mot : vp ≠ .mot) (h_ctl : vp ≠ .ctl) (h_flt : vp ≠ .flt) :
    view vp (leadingEdge s i e k) = view vp s := by
  unfold leadingEdge
  (repeat' split) <;> simp [h_sys, h_led, h_cad, h_stp, h_hdp, h_jnl, h_seq, h_axs, h_mot, h_ctl, h_flt]

@[simp] theorem jamStop_view {vp : Part} (s : State) (jams : List Jam) (h_sys : vp ≠ .sys) (h_led : vp ≠ .led)
    (h_cad : vp ≠ .cad) (h_stp : vp ≠ .stp) (h_hdp : vp ≠ .hdp) (h_jnl : vp ≠ .jnl) (h_seq : vp ≠ .seq)
    (h_axs : vp ≠ .axs) (h_mot : vp ≠ .mot) (h_ctl : vp ≠ .ctl) (h_flt : vp ≠ .flt) :
    view vp (jamStop s jams) = view vp s := by
  unfold jamStop
  simp [h_sys, h_led, h_cad, h_stp, h_hdp, h_jnl, h_seq, h_axs, h_mot, h_ctl, h_flt] <;> (repeat' split) <;> simp_all

@[simp] theorem trailingEdge_view {vp : Part} (s : State) (i : Fin 512) (e : Sheet) (k : Nat) (h_led : vp ≠ .led)
    (h_cad : vp ≠ .cad) (h_hdp : vp ≠ .hdp) (h_jnl : vp ≠ .jnl) (h_seq : vp ≠ .seq) (h_axs : vp ≠ .axs)
    (h_mot : vp ≠ .mot) (h_flt : vp ≠ .flt) :
    view vp (trailingEdge s i e k) = view vp s := by
  unfold trailingEdge
  (repeat' split) <;> simp [h_led, h_cad, h_hdp, h_jnl, h_seq, h_axs, h_mot, h_flt]

@[simp] theorem sensorEdge_view {vp : Part} (s : State) (k : Fin 32) (paper : Bool) (h_sys : vp ≠ .sys)
    (h_led : vp ≠ .led) (h_cad : vp ≠ .cad) (h_stp : vp ≠ .stp) (h_hdp : vp ≠ .hdp) (h_jnl : vp ≠ .jnl)
    (h_seq : vp ≠ .seq) (h_axs : vp ≠ .axs) (h_mot : vp ≠ .mot) (h_ctl : vp ≠ .ctl) (h_flt : vp ≠ .flt) :
    view vp (sensorEdge s k paper) = view vp s := by
  unfold sensorEdge
  simp [h_sys, h_led, h_cad, h_stp, h_hdp, h_jnl, h_seq, h_axs, h_mot, h_ctl, h_flt] <;> (repeat' split) <;> simp_all

@[simp] theorem windowExpires_view {vp : Part} (s : State) (k : Nat) (h_sys : vp ≠ .sys) (h_led : vp ≠ .led)
    (h_cad : vp ≠ .cad) (h_stp : vp ≠ .stp) (h_hdp : vp ≠ .hdp) (h_jnl : vp ≠ .jnl) (h_seq : vp ≠ .seq)
    (h_axs : vp ≠ .axs) (h_mot : vp ≠ .mot) (h_ctl : vp ≠ .ctl) (h_flt : vp ≠ .flt) :
    view vp (windowExpires s k) = view vp s := by
  unfold windowExpires
  simp [h_sys, h_led, h_cad, h_stp, h_hdp, h_jnl, h_seq, h_axs, h_mot, h_ctl, h_flt] <;> (repeat' split) <;> simp_all

@[simp] theorem moveDiverters_view {vp : Part} (s : State) (d : Nat) (h_axs : vp ≠ .axs) :
    view vp (moveDiverters s d) = view vp s := by
  unfold moveDiverters
  simp [h_axs]

@[simp] theorem fixRoute_view {vp : Part} (s : State) (i : Fin 512) (e : Sheet) (h_led : vp ≠ .led) (h_axs : vp ≠ .axs) :
    view vp (fixRoute s i e) = view vp s := by
  unfold fixRoute
  simp [h_led, h_axs]

@[simp] theorem routeDecision_view {vp : Part} (s : State) (h_led : vp ≠ .led) (h_axs : vp ≠ .axs) :
    view vp (routeDecision s) = view vp s := by
  unfold routeDecision
  split
  · rfl
  · apply view_foldl
    intro u x
    (repeat' split) <;> simp [h_led, h_axs]

@[simp] theorem mainDriveOut_view {vp : Part} (s : State) (h_sys : vp ≠ .sys) (h_led : vp ≠ .led) (h_cad : vp ≠ .cad)
    (h_stp : vp ≠ .stp) (h_hdp : vp ≠ .hdp) (h_jnl : vp ≠ .jnl) (h_seq : vp ≠ .seq) (h_axs : vp ≠ .axs)
    (h_mot : vp ≠ .mot) (h_ctl : vp ≠ .ctl) (h_flt : vp ≠ .flt) :
    view vp (mainDriveOut s) = view vp s := by
  unfold mainDriveOut
  simp [h_sys, h_led, h_cad, h_stp, h_hdp, h_jnl, h_seq, h_axs, h_mot, h_ctl, h_flt]

@[simp] theorem assignBand_view {vp : Part} (s : State) (w : Work) (b : Band) (lane : Fin 16) (slot : Fin 6)
    (mirror : Bool) (h_cdc : vp ≠ .cdc) (h_stp : vp ≠ .stp) (h_drc : vp ≠ .drc) :
    view vp (assignBand s w b lane slot mirror) = view vp s := by
  unfold assignBand
  simp [h_cdc, h_stp, h_drc]

@[simp] theorem migrated_view {vp : Part} (s : State) (key : Word) (h_free : vp ≠ .free) (h_stp : vp ≠ .stp)
    (h_flt : vp ≠ .flt) :
    view vp (migrated s key) = view vp s := by
  unfold migrated
  simp [h_free, h_stp, h_flt] <;> (repeat' split) <;> simp_all

theorem tryAssign_view {vp : Part} (s : State) (w : Work) (t : State) (h : tryAssign s w = some t) (h_free : vp ≠ .free) (h_cdc : vp ≠ .cdc) (h_stp : vp ≠ .stp) (h_drc : vp ≠ .drc) (h_flt : vp ≠ .flt) :
    view vp t = view vp s := by
  unfold tryAssign at h
  (repeat' split at h) <;> simp at h <;> subst h <;> simp [h_free, h_cdc, h_stp, h_drc, h_flt]

@[simp] theorem strike_view {vp : Part} (s : State) (n : Fin 16) (h_cdc : vp ≠ .cdc) (h_flt : vp ≠ .flt) :
    view vp (strike s n) = view vp s := by
  unfold strike
  simp [h_cdc, h_flt]

@[simp] theorem bandPassed_view {vp : Part} (s : State) (k : Fin 6) (i : Nat) (b : Band) (lane : Fin 16)
    (h_cdc : vp ≠ .cdc) (h_stp : vp ≠ .stp) (h_flt : vp ≠ .flt) :
    view vp (bandPassed s k i b lane) = view vp s := by
  unfold bandPassed
  (repeat' split) <;> simp [h_cdc, h_stp, h_flt]

@[simp] theorem bandFailed_view {vp : Part} (s : State) (k : Fin 6) (i : Nat) (b : Band) (lane : Fin 16)
    (outcome : Nat) (h_led : vp ≠ .led) (h_stp : vp ≠ .stp) (h_flt : vp ≠ .flt) :
    view vp (bandFailed s k i b lane outcome) = view vp s := by
  unfold bandFailed
  simp [h_led, h_stp, h_flt]

@[simp] theorem reportAttempt_view {vp : Part} (s : State) (lane : Fin 16) (a : Assign) (u : AttemptUpset)
    (h_free : vp ≠ .free) (h_led : vp ≠ .led) (h_cad : vp ≠ .cad) (h_cdc : vp ≠ .cdc) (h_stp : vp ≠ .stp)
    (h_flt : vp ≠ .flt) :
    view vp (reportAttempt s lane a u) = view vp s := by
  unfold reportAttempt
  simp [h_free, h_led, h_cad, h_cdc, h_stp, h_flt] <;> (repeat' split) <;> simp_all

@[simp] theorem firstLine_view {vp : Part} (s : State) (k : Fin 6) (h_stp : vp ≠ .stp) (h_flt : vp ≠ .flt) :
    view vp (firstLine s k) = view vp s := by
  unfold firstLine
  (repeat' split) <;> simp [h_stp, h_flt]

@[simp] theorem bandFirstLine_view {vp : Part} (s : State) (k : Fin 6) (h_stp : vp ≠ .stp) (h_btu : vp ≠ .btu)
    (h_flt : vp ≠ .flt) :
    view vp (bandFirstLine s k) = view vp s := by
  unfold bandFirstLine
  simp [h_stp, h_btu, h_flt]

@[simp] theorem readsDue_view {vp : Part} (s : State) (k : Fin 6) (h_out : vp ≠ .out) (h_stp : vp ≠ .stp)
    (h_btu : vp ≠ .btu) (h_flt : vp ≠ .flt) :
    view vp (readsDue s k) = view vp s := by
  unfold readsDue
  simp [h_out, h_stp, h_btu, h_flt] <;> (repeat' split) <;> simp_all

@[simp] theorem finishBand_view {vp : Part} (s : State) (k : Fin 6) (i : Nat) (b : Band) (h_led : vp ≠ .led)
    (h_cad : vp ≠ .cad) (h_stp : vp ≠ .stp) (h_flt : vp ≠ .flt) :
    view vp (finishBand s k i b) = view vp s := by
  unfold finishBand
  simp [h_led, h_cad, h_stp, h_flt]

@[simp] theorem slotError_view {vp : Part} (s : State) (k : Fin 6) (i : Nat) (b : Band) (n : Fin 6) (word : Nat)
    (data : BitVec 64) (check : Byte) (h_led : vp ≠ .led) (h_stp : vp ≠ .stp) (h_flt : vp ≠ .flt) :
    view vp (slotError s k i b n word data check) = view vp s := by
  unfold slotError
  simp [h_led, h_stp, h_flt]

@[simp] theorem xclkCycle_view {vp : Part} (s : State) (h_now : vp ≠ .now) (h_clk : vp ≠ .clk) (h_hif : vp ≠ .hif)
    (h_axs : vp ≠ .axs) (h_mot : vp ≠ .mot) (h_ctl : vp ≠ .ctl) (h_drc : vp ≠ .drc) (h_flt : vp ≠ .flt)
    (h_fus : vp ≠ .fus) :
    view vp (xclkCycle s) = view vp s := by
  unfold xclkCycle
  simp [h_now, h_clk, h_hif, h_axs, h_mot, h_ctl, h_drc, h_flt, h_fus]

@[simp] theorem pauseOver_view {vp : Part} (s : State) (h_seq : vp ≠ .seq) :
    view vp (pauseOver s) = view vp s := by
  unfold pauseOver
  simp [h_seq]

@[simp] theorem follows_view {vp : Part} (s : State) (h_free : vp ≠ .free) (h_out : vp ≠ .out) (h_sys : vp ≠ .sys)
    (h_pins : vp ≠ .pins) (h_clk : vp ≠ .clk) (h_hif : vp ≠ .hif) (h_mgt : vp ≠ .mgt) (h_sup : vp ≠ .sup)
    (h_ktl : vp ≠ .ktl) (h_led : vp ≠ .led) (h_cad : vp ≠ .cad) (h_cdc : vp ≠ .cdc) (h_stp : vp ≠ .stp)
    (h_btu : vp ≠ .btu) (h_hdp : vp ≠ .hdp) (h_jnl : vp ≠ .jnl) (h_seq : vp ≠ .seq) (h_axs : vp ≠ .axs)
    (h_mot : vp ≠ .mot) (h_ctl : vp ≠ .ctl) (h_drc : vp ≠ .drc) (h_flt : vp ≠ .flt) (h_fus : vp ≠ .fus) :
    view vp (follows s) = view vp s := by
  unfold follows
  simp [h_free, h_out, h_sys, h_pins, h_clk, h_hif, h_mgt, h_sup, h_ktl, h_led, h_cad, h_cdc, h_stp, h_btu, h_hdp, h_jnl, h_seq, h_axs, h_mot, h_ctl, h_drc, h_flt, h_fus]

end Sys2Proof.Machine
end

