-- ==== Sys2Proof/Laws/State.lean ====
section
/-!
SUPPORT. What each update of one part of the state leaves in every field: one lemma per field per update, so that no proof
unfolds a record update.
-/

namespace Sys2Proof.Machine

@[simp] theorem State.modSys_pending (s : State) (g : Sys → Sys) : (s.modSys g).pending = s.pending := rfl
@[simp] theorem State.modSys_now (s : State) (g : Sys → Sys) : (s.modSys g).now = s.now := rfl
@[simp] theorem State.modSys_free (s : State) (g : Sys → Sys) : (s.modSys g).free = s.free := rfl
@[simp] theorem State.modSys_out (s : State) (g : Sys → Sys) : (s.modSys g).out = s.out := rfl
@[simp] theorem State.modSys_sys (s : State) (g : Sys → Sys) : (s.modSys g).sys = g s.sys := rfl
@[simp] theorem State.modSys_pins (s : State) (g : Sys → Sys) : (s.modSys g).pins = s.pins := rfl
@[simp] theorem State.modSys_clk (s : State) (g : Sys → Sys) : (s.modSys g).clk = s.clk := rfl
@[simp] theorem State.modSys_hif (s : State) (g : Sys → Sys) : (s.modSys g).hif = s.hif := rfl
@[simp] theorem State.modSys_mgt (s : State) (g : Sys → Sys) : (s.modSys g).mgt = s.mgt := rfl
@[simp] theorem State.modSys_sup (s : State) (g : Sys → Sys) : (s.modSys g).sup = s.sup := rfl
@[simp] theorem State.modSys_ktl (s : State) (g : Sys → Sys) : (s.modSys g).ktl = s.ktl := rfl
@[simp] theorem State.modSys_led (s : State) (g : Sys → Sys) : (s.modSys g).led = s.led := rfl
@[simp] theorem State.modSys_cad (s : State) (g : Sys → Sys) : (s.modSys g).cad = s.cad := rfl
@[simp] theorem State.modSys_cdc (s : State) (g : Sys → Sys) : (s.modSys g).cdc = s.cdc := rfl
@[simp] theorem State.modSys_stp (s : State) (g : Sys → Sys) : (s.modSys g).stp = s.stp := rfl
@[simp] theorem State.modSys_btu (s : State) (g : Sys → Sys) : (s.modSys g).btu = s.btu := rfl
@[simp] theorem State.modSys_hdp (s : State) (g : Sys → Sys) : (s.modSys g).hdp = s.hdp := rfl
@[simp] theorem State.modSys_jnl (s : State) (g : Sys → Sys) : (s.modSys g).jnl = s.jnl := rfl
@[simp] theorem State.modSys_seq (s : State) (g : Sys → Sys) : (s.modSys g).seq = s.seq := rfl
@[simp] theorem State.modSys_axs (s : State) (g : Sys → Sys) : (s.modSys g).axs = s.axs := rfl
@[simp] theorem State.modSys_mot (s : State) (g : Sys → Sys) : (s.modSys g).mot = s.mot := rfl
@[simp] theorem State.modSys_ctl (s : State) (g : Sys → Sys) : (s.modSys g).ctl = s.ctl := rfl
@[simp] theorem State.modSys_drc (s : State) (g : Sys → Sys) : (s.modSys g).drc = s.drc := rfl
@[simp] theorem State.modSys_flt (s : State) (g : Sys → Sys) : (s.modSys g).flt = s.flt := rfl
@[simp] theorem State.modSys_fus (s : State) (g : Sys → Sys) : (s.modSys g).fus = s.fus := rfl
@[simp] theorem State.modSys_tmp (s : State) (g : Sys → Sys) : (s.modSys g).tmp = s.tmp := rfl
@[simp] theorem State.modPins_pending (s : State) (g : Pins → Pins) : (s.modPins g).pending = s.pending := rfl
@[simp] theorem State.modPins_now (s : State) (g : Pins → Pins) : (s.modPins g).now = s.now := rfl
@[simp] theorem State.modPins_free (s : State) (g : Pins → Pins) : (s.modPins g).free = s.free := rfl
@[simp] theorem State.modPins_out (s : State) (g : Pins → Pins) : (s.modPins g).out = s.out := rfl
@[simp] theorem State.modPins_sys (s : State) (g : Pins → Pins) : (s.modPins g).sys = s.sys := rfl
@[simp] theorem State.modPins_pins (s : State) (g : Pins → Pins) : (s.modPins g).pins = g s.pins := rfl
@[simp] theorem State.modPins_clk (s : State) (g : Pins → Pins) : (s.modPins g).clk = s.clk := rfl
@[simp] theorem State.modPins_hif (s : State) (g : Pins → Pins) : (s.modPins g).hif = s.hif := rfl
@[simp] theorem State.modPins_mgt (s : State) (g : Pins → Pins) : (s.modPins g).mgt = s.mgt := rfl
@[simp] theorem State.modPins_sup (s : State) (g : Pins → Pins) : (s.modPins g).sup = s.sup := rfl
@[simp] theorem State.modPins_ktl (s : State) (g : Pins → Pins) : (s.modPins g).ktl = s.ktl := rfl
@[simp] theorem State.modPins_led (s : State) (g : Pins → Pins) : (s.modPins g).led = s.led := rfl
@[simp] theorem State.modPins_cad (s : State) (g : Pins → Pins) : (s.modPins g).cad = s.cad := rfl
@[simp] theorem State.modPins_cdc (s : State) (g : Pins → Pins) : (s.modPins g).cdc = s.cdc := rfl
@[simp] theorem State.modPins_stp (s : State) (g : Pins → Pins) : (s.modPins g).stp = s.stp := rfl
@[simp] theorem State.modPins_btu (s : State) (g : Pins → Pins) : (s.modPins g).btu = s.btu := rfl
@[simp] theorem State.modPins_hdp (s : State) (g : Pins → Pins) : (s.modPins g).hdp = s.hdp := rfl
@[simp] theorem State.modPins_jnl (s : State) (g : Pins → Pins) : (s.modPins g).jnl = s.jnl := rfl
@[simp] theorem State.modPins_seq (s : State) (g : Pins → Pins) : (s.modPins g).seq = s.seq := rfl
@[simp] theorem State.modPins_axs (s : State) (g : Pins → Pins) : (s.modPins g).axs = s.axs := rfl
@[simp] theorem State.modPins_mot (s : State) (g : Pins → Pins) : (s.modPins g).mot = s.mot := rfl
@[simp] theorem State.modPins_ctl (s : State) (g : Pins → Pins) : (s.modPins g).ctl = s.ctl := rfl
@[simp] theorem State.modPins_drc (s : State) (g : Pins → Pins) : (s.modPins g).drc = s.drc := rfl
@[simp] theorem State.modPins_flt (s : State) (g : Pins → Pins) : (s.modPins g).flt = s.flt := rfl
@[simp] theorem State.modPins_fus (s : State) (g : Pins → Pins) : (s.modPins g).fus = s.fus := rfl
@[simp] theorem State.modPins_tmp (s : State) (g : Pins → Pins) : (s.modPins g).tmp = s.tmp := rfl
@[simp] theorem State.modClk_pending (s : State) (g : Clk → Clk) : (s.modClk g).pending = s.pending := rfl
@[simp] theorem State.modClk_now (s : State) (g : Clk → Clk) : (s.modClk g).now = s.now := rfl
@[simp] theorem State.modClk_free (s : State) (g : Clk → Clk) : (s.modClk g).free = s.free := rfl
@[simp] theorem State.modClk_out (s : State) (g : Clk → Clk) : (s.modClk g).out = s.out := rfl
@[simp] theorem State.modClk_sys (s : State) (g : Clk → Clk) : (s.modClk g).sys = s.sys := rfl
@[simp] theorem State.modClk_pins (s : State) (g : Clk → Clk) : (s.modClk g).pins = s.pins := rfl
@[simp] theorem State.modClk_clk (s : State) (g : Clk → Clk) : (s.modClk g).clk = g s.clk := rfl
@[simp] theorem State.modClk_hif (s : State) (g : Clk → Clk) : (s.modClk g).hif = s.hif := rfl
@[simp] theorem State.modClk_mgt (s : State) (g : Clk → Clk) : (s.modClk g).mgt = s.mgt := rfl
@[simp] theorem State.modClk_sup (s : State) (g : Clk → Clk) : (s.modClk g).sup = s.sup := rfl
@[simp] theorem State.modClk_ktl (s : State) (g : Clk → Clk) : (s.modClk g).ktl = s.ktl := rfl
@[simp] theorem State.modClk_led (s : State) (g : Clk → Clk) : (s.modClk g).led = s.led := rfl
@[simp] theorem State.modClk_cad (s : State) (g : Clk → Clk) : (s.modClk g).cad = s.cad := rfl
@[simp] theorem State.modClk_cdc (s : State) (g : Clk → Clk) : (s.modClk g).cdc = s.cdc := rfl
@[simp] theorem State.modClk_stp (s : State) (g : Clk → Clk) : (s.modClk g).stp = s.stp := rfl
@[simp] theorem State.modClk_btu (s : State) (g : Clk → Clk) : (s.modClk g).btu = s.btu := rfl
@[simp] theorem State.modClk_hdp (s : State) (g : Clk → Clk) : (s.modClk g).hdp = s.hdp := rfl
@[simp] theorem State.modClk_jnl (s : State) (g : Clk → Clk) : (s.modClk g).jnl = s.jnl := rfl
@[simp] theorem State.modClk_seq (s : State) (g : Clk → Clk) : (s.modClk g).seq = s.seq := rfl
@[simp] theorem State.modClk_axs (s : State) (g : Clk → Clk) : (s.modClk g).axs = s.axs := rfl
@[simp] theorem State.modClk_mot (s : State) (g : Clk → Clk) : (s.modClk g).mot = s.mot := rfl
@[simp] theorem State.modClk_ctl (s : State) (g : Clk → Clk) : (s.modClk g).ctl = s.ctl := rfl
@[simp] theorem State.modClk_drc (s : State) (g : Clk → Clk) : (s.modClk g).drc = s.drc := rfl
@[simp] theorem State.modClk_flt (s : State) (g : Clk → Clk) : (s.modClk g).flt = s.flt := rfl
@[simp] theorem State.modClk_fus (s : State) (g : Clk → Clk) : (s.modClk g).fus = s.fus := rfl
@[simp] theorem State.modClk_tmp (s : State) (g : Clk → Clk) : (s.modClk g).tmp = s.tmp := rfl
@[simp] theorem State.modHif_pending (s : State) (g : Hif → Hif) : (s.modHif g).pending = s.pending := rfl
@[simp] theorem State.modHif_now (s : State) (g : Hif → Hif) : (s.modHif g).now = s.now := rfl
@[simp] theorem State.modHif_free (s : State) (g : Hif → Hif) : (s.modHif g).free = s.free := rfl
@[simp] theorem State.modHif_out (s : State) (g : Hif → Hif) : (s.modHif g).out = s.out := rfl
@[simp] theorem State.modHif_sys (s : State) (g : Hif → Hif) : (s.modHif g).sys = s.sys := rfl
@[simp] theorem State.modHif_pins (s : State) (g : Hif → Hif) : (s.modHif g).pins = s.pins := rfl
@[simp] theorem State.modHif_clk (s : State) (g : Hif → Hif) : (s.modHif g).clk = s.clk := rfl
@[simp] theorem State.modHif_hif (s : State) (g : Hif → Hif) : (s.modHif g).hif = g s.hif := rfl
@[simp] theorem State.modHif_mgt (s : State) (g : Hif → Hif) : (s.modHif g).mgt = s.mgt := rfl
@[simp] theorem State.modHif_sup (s : State) (g : Hif → Hif) : (s.modHif g).sup = s.sup := rfl
@[simp] theorem State.modHif_ktl (s : State) (g : Hif → Hif) : (s.modHif g).ktl = s.ktl := rfl
@[simp] theorem State.modHif_led (s : State) (g : Hif → Hif) : (s.modHif g).led = s.led := rfl
@[simp] theorem State.modHif_cad (s : State) (g : Hif → Hif) : (s.modHif g).cad = s.cad := rfl
@[simp] theorem State.modHif_cdc (s : State) (g : Hif → Hif) : (s.modHif g).cdc = s.cdc := rfl
@[simp] theorem State.modHif_stp (s : State) (g : Hif → Hif) : (s.modHif g).stp = s.stp := rfl
@[simp] theorem State.modHif_btu (s : State) (g : Hif → Hif) : (s.modHif g).btu = s.btu := rfl
@[simp] theorem State.modHif_hdp (s : State) (g : Hif → Hif) : (s.modHif g).hdp = s.hdp := rfl
@[simp] theorem State.modHif_jnl (s : State) (g : Hif → Hif) : (s.modHif g).jnl = s.jnl := rfl
@[simp] theorem State.modHif_seq (s : State) (g : Hif → Hif) : (s.modHif g).seq = s.seq := rfl
@[simp] theorem State.modHif_axs (s : State) (g : Hif → Hif) : (s.modHif g).axs = s.axs := rfl
@[simp] theorem State.modHif_mot (s : State) (g : Hif → Hif) : (s.modHif g).mot = s.mot := rfl
@[simp] theorem State.modHif_ctl (s : State) (g : Hif → Hif) : (s.modHif g).ctl = s.ctl := rfl
@[simp] theorem State.modHif_drc (s : State) (g : Hif → Hif) : (s.modHif g).drc = s.drc := rfl
@[simp] theorem State.modHif_flt (s : State) (g : Hif → Hif) : (s.modHif g).flt = s.flt := rfl
@[simp] theorem State.modHif_fus (s : State) (g : Hif → Hif) : (s.modHif g).fus = s.fus := rfl
@[simp] theorem State.modHif_tmp (s : State) (g : Hif → Hif) : (s.modHif g).tmp = s.tmp := rfl
@[simp] theorem State.modMgt_pending (s : State) (g : Spi → Spi) : (s.modMgt g).pending = s.pending := rfl
@[simp] theorem State.modMgt_now (s : State) (g : Spi → Spi) : (s.modMgt g).now = s.now := rfl
@[simp] theorem State.modMgt_free (s : State) (g : Spi → Spi) : (s.modMgt g).free = s.free := rfl
@[simp] theorem State.modMgt_out (s : State) (g : Spi → Spi) : (s.modMgt g).out = s.out := rfl
@[simp] theorem State.modMgt_sys (s : State) (g : Spi → Spi) : (s.modMgt g).sys = s.sys := rfl
@[simp] theorem State.modMgt_pins (s : State) (g : Spi → Spi) : (s.modMgt g).pins = s.pins := rfl
@[simp] theorem State.modMgt_clk (s : State) (g : Spi → Spi) : (s.modMgt g).clk = s.clk := rfl
@[simp] theorem State.modMgt_hif (s : State) (g : Spi → Spi) : (s.modMgt g).hif = s.hif := rfl
@[simp] theorem State.modMgt_mgt (s : State) (g : Spi → Spi) : (s.modMgt g).mgt = g s.mgt := rfl
@[simp] theorem State.modMgt_sup (s : State) (g : Spi → Spi) : (s.modMgt g).sup = s.sup := rfl
@[simp] theorem State.modMgt_ktl (s : State) (g : Spi → Spi) : (s.modMgt g).ktl = s.ktl := rfl
@[simp] theorem State.modMgt_led (s : State) (g : Spi → Spi) : (s.modMgt g).led = s.led := rfl
@[simp] theorem State.modMgt_cad (s : State) (g : Spi → Spi) : (s.modMgt g).cad = s.cad := rfl
@[simp] theorem State.modMgt_cdc (s : State) (g : Spi → Spi) : (s.modMgt g).cdc = s.cdc := rfl
@[simp] theorem State.modMgt_stp (s : State) (g : Spi → Spi) : (s.modMgt g).stp = s.stp := rfl
@[simp] theorem State.modMgt_btu (s : State) (g : Spi → Spi) : (s.modMgt g).btu = s.btu := rfl
@[simp] theorem State.modMgt_hdp (s : State) (g : Spi → Spi) : (s.modMgt g).hdp = s.hdp := rfl
@[simp] theorem State.modMgt_jnl (s : State) (g : Spi → Spi) : (s.modMgt g).jnl = s.jnl := rfl
@[simp] theorem State.modMgt_seq (s : State) (g : Spi → Spi) : (s.modMgt g).seq = s.seq := rfl
@[simp] theorem State.modMgt_axs (s : State) (g : Spi → Spi) : (s.modMgt g).axs = s.axs := rfl
@[simp] theorem State.modMgt_mot (s : State) (g : Spi → Spi) : (s.modMgt g).mot = s.mot := rfl
@[simp] theorem State.modMgt_ctl (s : State) (g : Spi → Spi) : (s.modMgt g).ctl = s.ctl := rfl
@[simp] theorem State.modMgt_drc (s : State) (g : Spi → Spi) : (s.modMgt g).drc = s.drc := rfl
@[simp] theorem State.modMgt_flt (s : State) (g : Spi → Spi) : (s.modMgt g).flt = s.flt := rfl
@[simp] theorem State.modMgt_fus (s : State) (g : Spi → Spi) : (s.modMgt g).fus = s.fus := rfl
@[simp] theorem State.modMgt_tmp (s : State) (g : Spi → Spi) : (s.modMgt g).tmp = s.tmp := rfl
@[simp] theorem State.modSup_pending (s : State) (g : Spi → Spi) : (s.modSup g).pending = s.pending := rfl
@[simp] theorem State.modSup_now (s : State) (g : Spi → Spi) : (s.modSup g).now = s.now := rfl
@[simp] theorem State.modSup_free (s : State) (g : Spi → Spi) : (s.modSup g).free = s.free := rfl
@[simp] theorem State.modSup_out (s : State) (g : Spi → Spi) : (s.modSup g).out = s.out := rfl
@[simp] theorem State.modSup_sys (s : State) (g : Spi → Spi) : (s.modSup g).sys = s.sys := rfl
@[simp] theorem State.modSup_pins (s : State) (g : Spi → Spi) : (s.modSup g).pins = s.pins := rfl
@[simp] theorem State.modSup_clk (s : State) (g : Spi → Spi) : (s.modSup g).clk = s.clk := rfl
@[simp] theorem State.modSup_hif (s : State) (g : Spi → Spi) : (s.modSup g).hif = s.hif := rfl
@[simp] theorem State.modSup_mgt (s : State) (g : Spi → Spi) : (s.modSup g).mgt = s.mgt := rfl
@[simp] theorem State.modSup_sup (s : State) (g : Spi → Spi) : (s.modSup g).sup = g s.sup := rfl
@[simp] theorem State.modSup_ktl (s : State) (g : Spi → Spi) : (s.modSup g).ktl = s.ktl := rfl
@[simp] theorem State.modSup_led (s : State) (g : Spi → Spi) : (s.modSup g).led = s.led := rfl
@[simp] theorem State.modSup_cad (s : State) (g : Spi → Spi) : (s.modSup g).cad = s.cad := rfl
@[simp] theorem State.modSup_cdc (s : State) (g : Spi → Spi) : (s.modSup g).cdc = s.cdc := rfl
@[simp] theorem State.modSup_stp (s : State) (g : Spi → Spi) : (s.modSup g).stp = s.stp := rfl
@[simp] theorem State.modSup_btu (s : State) (g : Spi → Spi) : (s.modSup g).btu = s.btu := rfl
@[simp] theorem State.modSup_hdp (s : State) (g : Spi → Spi) : (s.modSup g).hdp = s.hdp := rfl
@[simp] theorem State.modSup_jnl (s : State) (g : Spi → Spi) : (s.modSup g).jnl = s.jnl := rfl
@[simp] theorem State.modSup_seq (s : State) (g : Spi → Spi) : (s.modSup g).seq = s.seq := rfl
@[simp] theorem State.modSup_axs (s : State) (g : Spi → Spi) : (s.modSup g).axs = s.axs := rfl
@[simp] theorem State.modSup_mot (s : State) (g : Spi → Spi) : (s.modSup g).mot = s.mot := rfl
@[simp] theorem State.modSup_ctl (s : State) (g : Spi → Spi) : (s.modSup g).ctl = s.ctl := rfl
@[simp] theorem State.modSup_drc (s : State) (g : Spi → Spi) : (s.modSup g).drc = s.drc := rfl
@[simp] theorem State.modSup_flt (s : State) (g : Spi → Spi) : (s.modSup g).flt = s.flt := rfl
@[simp] theorem State.modSup_fus (s : State) (g : Spi → Spi) : (s.modSup g).fus = s.fus := rfl
@[simp] theorem State.modSup_tmp (s : State) (g : Spi → Spi) : (s.modSup g).tmp = s.tmp := rfl
@[simp] theorem State.modKtl_pending (s : State) (g : Kettle → Kettle) : (s.modKtl g).pending = s.pending := rfl
@[simp] theorem State.modKtl_now (s : State) (g : Kettle → Kettle) : (s.modKtl g).now = s.now := rfl
@[simp] theorem State.modKtl_free (s : State) (g : Kettle → Kettle) : (s.modKtl g).free = s.free := rfl
@[simp] theorem State.modKtl_out (s : State) (g : Kettle → Kettle) : (s.modKtl g).out = s.out := rfl
@[simp] theorem State.modKtl_sys (s : State) (g : Kettle → Kettle) : (s.modKtl g).sys = s.sys := rfl
@[simp] theorem State.modKtl_pins (s : State) (g : Kettle → Kettle) : (s.modKtl g).pins = s.pins := rfl
@[simp] theorem State.modKtl_clk (s : State) (g : Kettle → Kettle) : (s.modKtl g).clk = s.clk := rfl
@[simp] theorem State.modKtl_hif (s : State) (g : Kettle → Kettle) : (s.modKtl g).hif = s.hif := rfl
@[simp] theorem State.modKtl_mgt (s : State) (g : Kettle → Kettle) : (s.modKtl g).mgt = s.mgt := rfl
@[simp] theorem State.modKtl_sup (s : State) (g : Kettle → Kettle) : (s.modKtl g).sup = s.sup := rfl
@[simp] theorem State.modKtl_ktl (s : State) (g : Kettle → Kettle) : (s.modKtl g).ktl = g s.ktl := rfl
@[simp] theorem State.modKtl_led (s : State) (g : Kettle → Kettle) : (s.modKtl g).led = s.led := rfl
@[simp] theorem State.modKtl_cad (s : State) (g : Kettle → Kettle) : (s.modKtl g).cad = s.cad := rfl
@[simp] theorem State.modKtl_cdc (s : State) (g : Kettle → Kettle) : (s.modKtl g).cdc = s.cdc := rfl
@[simp] theorem State.modKtl_stp (s : State) (g : Kettle → Kettle) : (s.modKtl g).stp = s.stp := rfl
@[simp] theorem State.modKtl_btu (s : State) (g : Kettle → Kettle) : (s.modKtl g).btu = s.btu := rfl
@[simp] theorem State.modKtl_hdp (s : State) (g : Kettle → Kettle) : (s.modKtl g).hdp = s.hdp := rfl
@[simp] theorem State.modKtl_jnl (s : State) (g : Kettle → Kettle) : (s.modKtl g).jnl = s.jnl := rfl
@[simp] theorem State.modKtl_seq (s : State) (g : Kettle → Kettle) : (s.modKtl g).seq = s.seq := rfl
@[simp] theorem State.modKtl_axs (s : State) (g : Kettle → Kettle) : (s.modKtl g).axs = s.axs := rfl
@[simp] theorem State.modKtl_mot (s : State) (g : Kettle → Kettle) : (s.modKtl g).mot = s.mot := rfl
@[simp] theorem State.modKtl_ctl (s : State) (g : Kettle → Kettle) : (s.modKtl g).ctl = s.ctl := rfl
@[simp] theorem State.modKtl_drc (s : State) (g : Kettle → Kettle) : (s.modKtl g).drc = s.drc := rfl
@[simp] theorem State.modKtl_flt (s : State) (g : Kettle → Kettle) : (s.modKtl g).flt = s.flt := rfl
@[simp] theorem State.modKtl_fus (s : State) (g : Kettle → Kettle) : (s.modKtl g).fus = s.fus := rfl
@[simp] theorem State.modKtl_tmp (s : State) (g : Kettle → Kettle) : (s.modKtl g).tmp = s.tmp := rfl
@[simp] theorem State.modLed_pending (s : State) (g : Ledger → Ledger) : (s.modLed g).pending = s.pending := rfl
@[simp] theorem State.modLed_now (s : State) (g : Ledger → Ledger) : (s.modLed g).now = s.now := rfl
@[simp] theorem State.modLed_free (s : State) (g : Ledger → Ledger) : (s.modLed g).free = s.free := rfl
@[simp] theorem State.modLed_out (s : State) (g : Ledger → Ledger) : (s.modLed g).out = s.out := rfl
@[simp] theorem State.modLed_sys (s : State) (g : Ledger → Ledger) : (s.modLed g).sys = s.sys := rfl
@[simp] theorem State.modLed_pins (s : State) (g : Ledger → Ledger) : (s.modLed g).pins = s.pins := rfl
@[simp] theorem State.modLed_clk (s : State) (g : Ledger → Ledger) : (s.modLed g).clk = s.clk := rfl
@[simp] theorem State.modLed_hif (s : State) (g : Ledger → Ledger) : (s.modLed g).hif = s.hif := rfl
@[simp] theorem State.modLed_mgt (s : State) (g : Ledger → Ledger) : (s.modLed g).mgt = s.mgt := rfl
@[simp] theorem State.modLed_sup (s : State) (g : Ledger → Ledger) : (s.modLed g).sup = s.sup := rfl
@[simp] theorem State.modLed_ktl (s : State) (g : Ledger → Ledger) : (s.modLed g).ktl = s.ktl := rfl
@[simp] theorem State.modLed_led (s : State) (g : Ledger → Ledger) : (s.modLed g).led = g s.led := rfl
@[simp] theorem State.modLed_cad (s : State) (g : Ledger → Ledger) : (s.modLed g).cad = s.cad := rfl
@[simp] theorem State.modLed_cdc (s : State) (g : Ledger → Ledger) : (s.modLed g).cdc = s.cdc := rfl
@[simp] theorem State.modLed_stp (s : State) (g : Ledger → Ledger) : (s.modLed g).stp = s.stp := rfl
@[simp] theorem State.modLed_btu (s : State) (g : Ledger → Ledger) : (s.modLed g).btu = s.btu := rfl
@[simp] theorem State.modLed_hdp (s : State) (g : Ledger → Ledger) : (s.modLed g).hdp = s.hdp := rfl
@[simp] theorem State.modLed_jnl (s : State) (g : Ledger → Ledger) : (s.modLed g).jnl = s.jnl := rfl
@[simp] theorem State.modLed_seq (s : State) (g : Ledger → Ledger) : (s.modLed g).seq = s.seq := rfl
@[simp] theorem State.modLed_axs (s : State) (g : Ledger → Ledger) : (s.modLed g).axs = s.axs := rfl
@[simp] theorem State.modLed_mot (s : State) (g : Ledger → Ledger) : (s.modLed g).mot = s.mot := rfl
@[simp] theorem State.modLed_ctl (s : State) (g : Ledger → Ledger) : (s.modLed g).ctl = s.ctl := rfl
@[simp] theorem State.modLed_drc (s : State) (g : Ledger → Ledger) : (s.modLed g).drc = s.drc := rfl
@[simp] theorem State.modLed_flt (s : State) (g : Ledger → Ledger) : (s.modLed g).flt = s.flt := rfl
@[simp] theorem State.modLed_fus (s : State) (g : Ledger → Ledger) : (s.modLed g).fus = s.fus := rfl
@[simp] theorem State.modLed_tmp (s : State) (g : Ledger → Ledger) : (s.modLed g).tmp = s.tmp := rfl
@[simp] theorem State.modCad_pending (s : State) (g : Caddy → Caddy) : (s.modCad g).pending = s.pending := rfl
@[simp] theorem State.modCad_now (s : State) (g : Caddy → Caddy) : (s.modCad g).now = s.now := rfl
@[simp] theorem State.modCad_free (s : State) (g : Caddy → Caddy) : (s.modCad g).free = s.free := rfl
@[simp] theorem State.modCad_out (s : State) (g : Caddy → Caddy) : (s.modCad g).out = s.out := rfl
@[simp] theorem State.modCad_sys (s : State) (g : Caddy → Caddy) : (s.modCad g).sys = s.sys := rfl
@[simp] theorem State.modCad_pins (s : State) (g : Caddy → Caddy) : (s.modCad g).pins = s.pins := rfl
@[simp] theorem State.modCad_clk (s : State) (g : Caddy → Caddy) : (s.modCad g).clk = s.clk := rfl
@[simp] theorem State.modCad_hif (s : State) (g : Caddy → Caddy) : (s.modCad g).hif = s.hif := rfl
@[simp] theorem State.modCad_mgt (s : State) (g : Caddy → Caddy) : (s.modCad g).mgt = s.mgt := rfl
@[simp] theorem State.modCad_sup (s : State) (g : Caddy → Caddy) : (s.modCad g).sup = s.sup := rfl
@[simp] theorem State.modCad_ktl (s : State) (g : Caddy → Caddy) : (s.modCad g).ktl = s.ktl := rfl
@[simp] theorem State.modCad_led (s : State) (g : Caddy → Caddy) : (s.modCad g).led = s.led := rfl
@[simp] theorem State.modCad_cad (s : State) (g : Caddy → Caddy) : (s.modCad g).cad = g s.cad := rfl
@[simp] theorem State.modCad_cdc (s : State) (g : Caddy → Caddy) : (s.modCad g).cdc = s.cdc := rfl
@[simp] theorem State.modCad_stp (s : State) (g : Caddy → Caddy) : (s.modCad g).stp = s.stp := rfl
@[simp] theorem State.modCad_btu (s : State) (g : Caddy → Caddy) : (s.modCad g).btu = s.btu := rfl
@[simp] theorem State.modCad_hdp (s : State) (g : Caddy → Caddy) : (s.modCad g).hdp = s.hdp := rfl
@[simp] theorem State.modCad_jnl (s : State) (g : Caddy → Caddy) : (s.modCad g).jnl = s.jnl := rfl
@[simp] theorem State.modCad_seq (s : State) (g : Caddy → Caddy) : (s.modCad g).seq = s.seq := rfl
@[simp] theorem State.modCad_axs (s : State) (g : Caddy → Caddy) : (s.modCad g).axs = s.axs := rfl
@[simp] theorem State.modCad_mot (s : State) (g : Caddy → Caddy) : (s.modCad g).mot = s.mot := rfl
@[simp] theorem State.modCad_ctl (s : State) (g : Caddy → Caddy) : (s.modCad g).ctl = s.ctl := rfl
@[simp] theorem State.modCad_drc (s : State) (g : Caddy → Caddy) : (s.modCad g).drc = s.drc := rfl
@[simp] theorem State.modCad_flt (s : State) (g : Caddy → Caddy) : (s.modCad g).flt = s.flt := rfl
@[simp] theorem State.modCad_fus (s : State) (g : Caddy → Caddy) : (s.modCad g).fus = s.fus := rfl
@[simp] theorem State.modCad_tmp (s : State) (g : Caddy → Caddy) : (s.modCad g).tmp = s.tmp := rfl
@[simp] theorem State.modCdc_pending (s : State) (g : Codec → Codec) : (s.modCdc g).pending = s.pending := rfl
@[simp] theorem State.modCdc_now (s : State) (g : Codec → Codec) : (s.modCdc g).now = s.now := rfl
@[simp] theorem State.modCdc_free (s : State) (g : Codec → Codec) : (s.modCdc g).free = s.free := rfl
@[simp] theorem State.modCdc_out (s : State) (g : Codec → Codec) : (s.modCdc g).out = s.out := rfl
@[simp] theorem State.modCdc_sys (s : State) (g : Codec → Codec) : (s.modCdc g).sys = s.sys := rfl
@[simp] theorem State.modCdc_pins (s : State) (g : Codec → Codec) : (s.modCdc g).pins = s.pins := rfl
@[simp] theorem State.modCdc_clk (s : State) (g : Codec → Codec) : (s.modCdc g).clk = s.clk := rfl
@[simp] theorem State.modCdc_hif (s : State) (g : Codec → Codec) : (s.modCdc g).hif = s.hif := rfl
@[simp] theorem State.modCdc_mgt (s : State) (g : Codec → Codec) : (s.modCdc g).mgt = s.mgt := rfl
@[simp] theorem State.modCdc_sup (s : State) (g : Codec → Codec) : (s.modCdc g).sup = s.sup := rfl
@[simp] theorem State.modCdc_ktl (s : State) (g : Codec → Codec) : (s.modCdc g).ktl = s.ktl := rfl
@[simp] theorem State.modCdc_led (s : State) (g : Codec → Codec) : (s.modCdc g).led = s.led := rfl
@[simp] theorem State.modCdc_cad (s : State) (g : Codec → Codec) : (s.modCdc g).cad = s.cad := rfl
@[simp] theorem State.modCdc_cdc (s : State) (g : Codec → Codec) : (s.modCdc g).cdc = g s.cdc := rfl
@[simp] theorem State.modCdc_stp (s : State) (g : Codec → Codec) : (s.modCdc g).stp = s.stp := rfl
@[simp] theorem State.modCdc_btu (s : State) (g : Codec → Codec) : (s.modCdc g).btu = s.btu := rfl
@[simp] theorem State.modCdc_hdp (s : State) (g : Codec → Codec) : (s.modCdc g).hdp = s.hdp := rfl
@[simp] theorem State.modCdc_jnl (s : State) (g : Codec → Codec) : (s.modCdc g).jnl = s.jnl := rfl
@[simp] theorem State.modCdc_seq (s : State) (g : Codec → Codec) : (s.modCdc g).seq = s.seq := rfl
@[simp] theorem State.modCdc_axs (s : State) (g : Codec → Codec) : (s.modCdc g).axs = s.axs := rfl
@[simp] theorem State.modCdc_mot (s : State) (g : Codec → Codec) : (s.modCdc g).mot = s.mot := rfl
@[simp] theorem State.modCdc_ctl (s : State) (g : Codec → Codec) : (s.modCdc g).ctl = s.ctl := rfl
@[simp] theorem State.modCdc_drc (s : State) (g : Codec → Codec) : (s.modCdc g).drc = s.drc := rfl
@[simp] theorem State.modCdc_flt (s : State) (g : Codec → Codec) : (s.modCdc g).flt = s.flt := rfl
@[simp] theorem State.modCdc_fus (s : State) (g : Codec → Codec) : (s.modCdc g).fus = s.fus := rfl
@[simp] theorem State.modCdc_tmp (s : State) (g : Codec → Codec) : (s.modCdc g).tmp = s.tmp := rfl
@[simp] theorem State.modStp_pending (s : State) (g : Steep → Steep) : (s.modStp g).pending = s.pending := rfl
@[simp] theorem State.modStp_now (s : State) (g : Steep → Steep) : (s.modStp g).now = s.now := rfl
@[simp] theorem State.modStp_free (s : State) (g : Steep → Steep) : (s.modStp g).free = s.free := rfl
@[simp] theorem State.modStp_out (s : State) (g : Steep → Steep) : (s.modStp g).out = s.out := rfl
@[simp] theorem State.modStp_sys (s : State) (g : Steep → Steep) : (s.modStp g).sys = s.sys := rfl
@[simp] theorem State.modStp_pins (s : State) (g : Steep → Steep) : (s.modStp g).pins = s.pins := rfl
@[simp] theorem State.modStp_clk (s : State) (g : Steep → Steep) : (s.modStp g).clk = s.clk := rfl
@[simp] theorem State.modStp_hif (s : State) (g : Steep → Steep) : (s.modStp g).hif = s.hif := rfl
@[simp] theorem State.modStp_mgt (s : State) (g : Steep → Steep) : (s.modStp g).mgt = s.mgt := rfl
@[simp] theorem State.modStp_sup (s : State) (g : Steep → Steep) : (s.modStp g).sup = s.sup := rfl
@[simp] theorem State.modStp_ktl (s : State) (g : Steep → Steep) : (s.modStp g).ktl = s.ktl := rfl
@[simp] theorem State.modStp_led (s : State) (g : Steep → Steep) : (s.modStp g).led = s.led := rfl
@[simp] theorem State.modStp_cad (s : State) (g : Steep → Steep) : (s.modStp g).cad = s.cad := rfl
@[simp] theorem State.modStp_cdc (s : State) (g : Steep → Steep) : (s.modStp g).cdc = s.cdc := rfl
@[simp] theorem State.modStp_stp (s : State) (g : Steep → Steep) : (s.modStp g).stp = g s.stp := rfl
@[simp] theorem State.modStp_btu (s : State) (g : Steep → Steep) : (s.modStp g).btu = s.btu := rfl
@[simp] theorem State.modStp_hdp (s : State) (g : Steep → Steep) : (s.modStp g).hdp = s.hdp := rfl
@[simp] theorem State.modStp_jnl (s : State) (g : Steep → Steep) : (s.modStp g).jnl = s.jnl := rfl
@[simp] theorem State.modStp_seq (s : State) (g : Steep → Steep) : (s.modStp g).seq = s.seq := rfl
@[simp] theorem State.modStp_axs (s : State) (g : Steep → Steep) : (s.modStp g).axs = s.axs := rfl
@[simp] theorem State.modStp_mot (s : State) (g : Steep → Steep) : (s.modStp g).mot = s.mot := rfl
@[simp] theorem State.modStp_ctl (s : State) (g : Steep → Steep) : (s.modStp g).ctl = s.ctl := rfl
@[simp] theorem State.modStp_drc (s : State) (g : Steep → Steep) : (s.modStp g).drc = s.drc := rfl
@[simp] theorem State.modStp_flt (s : State) (g : Steep → Steep) : (s.modStp g).flt = s.flt := rfl
@[simp] theorem State.modStp_fus (s : State) (g : Steep → Steep) : (s.modStp g).fus = s.fus := rfl
@[simp] theorem State.modStp_tmp (s : State) (g : Steep → Steep) : (s.modStp g).tmp = s.tmp := rfl
@[simp] theorem State.modJnl_pending (s : State) (g : Journal → Journal) : (s.modJnl g).pending = s.pending := rfl
@[simp] theorem State.modJnl_now (s : State) (g : Journal → Journal) : (s.modJnl g).now = s.now := rfl
@[simp] theorem State.modJnl_free (s : State) (g : Journal → Journal) : (s.modJnl g).free = s.free := rfl
@[simp] theorem State.modJnl_out (s : State) (g : Journal → Journal) : (s.modJnl g).out = s.out := rfl
@[simp] theorem State.modJnl_sys (s : State) (g : Journal → Journal) : (s.modJnl g).sys = s.sys := rfl
@[simp] theorem State.modJnl_pins (s : State) (g : Journal → Journal) : (s.modJnl g).pins = s.pins := rfl
@[simp] theorem State.modJnl_clk (s : State) (g : Journal → Journal) : (s.modJnl g).clk = s.clk := rfl
@[simp] theorem State.modJnl_hif (s : State) (g : Journal → Journal) : (s.modJnl g).hif = s.hif := rfl
@[simp] theorem State.modJnl_mgt (s : State) (g : Journal → Journal) : (s.modJnl g).mgt = s.mgt := rfl
@[simp] theorem State.modJnl_sup (s : State) (g : Journal → Journal) : (s.modJnl g).sup = s.sup := rfl
@[simp] theorem State.modJnl_ktl (s : State) (g : Journal → Journal) : (s.modJnl g).ktl = s.ktl := rfl
@[simp] theorem State.modJnl_led (s : State) (g : Journal → Journal) : (s.modJnl g).led = s.led := rfl
@[simp] theorem State.modJnl_cad (s : State) (g : Journal → Journal) : (s.modJnl g).cad = s.cad := rfl
@[simp] theorem State.modJnl_cdc (s : State) (g : Journal → Journal) : (s.modJnl g).cdc = s.cdc := rfl
@[simp] theorem State.modJnl_stp (s : State) (g : Journal → Journal) : (s.modJnl g).stp = s.stp := rfl
@[simp] theorem State.modJnl_btu (s : State) (g : Journal → Journal) : (s.modJnl g).btu = s.btu := rfl
@[simp] theorem State.modJnl_hdp (s : State) (g : Journal → Journal) : (s.modJnl g).hdp = s.hdp := rfl
@[simp] theorem State.modJnl_jnl (s : State) (g : Journal → Journal) : (s.modJnl g).jnl = g s.jnl := rfl
@[simp] theorem State.modJnl_seq (s : State) (g : Journal → Journal) : (s.modJnl g).seq = s.seq := rfl
@[simp] theorem State.modJnl_axs (s : State) (g : Journal → Journal) : (s.modJnl g).axs = s.axs := rfl
@[simp] theorem State.modJnl_mot (s : State) (g : Journal → Journal) : (s.modJnl g).mot = s.mot := rfl
@[simp] theorem State.modJnl_ctl (s : State) (g : Journal → Journal) : (s.modJnl g).ctl = s.ctl := rfl
@[simp] theorem State.modJnl_drc (s : State) (g : Journal → Journal) : (s.modJnl g).drc = s.drc := rfl
@[simp] theorem State.modJnl_flt (s : State) (g : Journal → Journal) : (s.modJnl g).flt = s.flt := rfl
@[simp] theorem State.modJnl_fus (s : State) (g : Journal → Journal) : (s.modJnl g).fus = s.fus := rfl
@[simp] theorem State.modJnl_tmp (s : State) (g : Journal → Journal) : (s.modJnl g).tmp = s.tmp := rfl
@[simp] theorem State.modSeq_pending (s : State) (g : Seq → Seq) : (s.modSeq g).pending = s.pending := rfl
@[simp] theorem State.modSeq_now (s : State) (g : Seq → Seq) : (s.modSeq g).now = s.now := rfl
@[simp] theorem State.modSeq_free (s : State) (g : Seq → Seq) : (s.modSeq g).free = s.free := rfl
@[simp] theorem State.modSeq_out (s : State) (g : Seq → Seq) : (s.modSeq g).out = s.out := rfl
@[simp] theorem State.modSeq_sys (s : State) (g : Seq → Seq) : (s.modSeq g).sys = s.sys := rfl
@[simp] theorem State.modSeq_pins (s : State) (g : Seq → Seq) : (s.modSeq g).pins = s.pins := rfl
@[simp] theorem State.modSeq_clk (s : State) (g : Seq → Seq) : (s.modSeq g).clk = s.clk := rfl
@[simp] theorem State.modSeq_hif (s : State) (g : Seq → Seq) : (s.modSeq g).hif = s.hif := rfl
@[simp] theorem State.modSeq_mgt (s : State) (g : Seq → Seq) : (s.modSeq g).mgt = s.mgt := rfl
@[simp] theorem State.modSeq_sup (s : State) (g : Seq → Seq) : (s.modSeq g).sup = s.sup := rfl
@[simp] theorem State.modSeq_ktl (s : State) (g : Seq → Seq) : (s.modSeq g).ktl = s.ktl := rfl
@[simp] theorem State.modSeq_led (s : State) (g : Seq → Seq) : (s.modSeq g).led = s.led := rfl
@[simp] theorem State.modSeq_cad (s : State) (g : Seq → Seq) : (s.modSeq g).cad = s.cad := rfl
@[simp] theorem State.modSeq_cdc (s : State) (g : Seq → Seq) : (s.modSeq g).cdc = s.cdc := rfl
@[simp] theorem State.modSeq_stp (s : State) (g : Seq → Seq) : (s.modSeq g).stp = s.stp := rfl
@[simp] theorem State.modSeq_btu (s : State) (g : Seq → Seq) : (s.modSeq g).btu = s.btu := rfl
@[simp] theorem State.modSeq_hdp (s : State) (g : Seq → Seq) : (s.modSeq g).hdp = s.hdp := rfl
@[simp] theorem State.modSeq_jnl (s : State) (g : Seq → Seq) : (s.modSeq g).jnl = s.jnl := rfl
@[simp] theorem State.modSeq_seq (s : State) (g : Seq → Seq) : (s.modSeq g).seq = g s.seq := rfl
@[simp] theorem State.modSeq_axs (s : State) (g : Seq → Seq) : (s.modSeq g).axs = s.axs := rfl
@[simp] theorem State.modSeq_mot (s : State) (g : Seq → Seq) : (s.modSeq g).mot = s.mot := rfl
@[simp] theorem State.modSeq_ctl (s : State) (g : Seq → Seq) : (s.modSeq g).ctl = s.ctl := rfl
@[simp] theorem State.modSeq_drc (s : State) (g : Seq → Seq) : (s.modSeq g).drc = s.drc := rfl
@[simp] theorem State.modSeq_flt (s : State) (g : Seq → Seq) : (s.modSeq g).flt = s.flt := rfl
@[simp] theorem State.modSeq_fus (s : State) (g : Seq → Seq) : (s.modSeq g).fus = s.fus := rfl
@[simp] theorem State.modSeq_tmp (s : State) (g : Seq → Seq) : (s.modSeq g).tmp = s.tmp := rfl
@[simp] theorem State.modMot_pending (s : State) (g : Motors → Motors) : (s.modMot g).pending = s.pending := rfl
@[simp] theorem State.modMot_now (s : State) (g : Motors → Motors) : (s.modMot g).now = s.now := rfl
@[simp] theorem State.modMot_free (s : State) (g : Motors → Motors) : (s.modMot g).free = s.free := rfl
@[simp] theorem State.modMot_out (s : State) (g : Motors → Motors) : (s.modMot g).out = s.out := rfl
@[simp] theorem State.modMot_sys (s : State) (g : Motors → Motors) : (s.modMot g).sys = s.sys := rfl
@[simp] theorem State.modMot_pins (s : State) (g : Motors → Motors) : (s.modMot g).pins = s.pins := rfl
@[simp] theorem State.modMot_clk (s : State) (g : Motors → Motors) : (s.modMot g).clk = s.clk := rfl
@[simp] theorem State.modMot_hif (s : State) (g : Motors → Motors) : (s.modMot g).hif = s.hif := rfl
@[simp] theorem State.modMot_mgt (s : State) (g : Motors → Motors) : (s.modMot g).mgt = s.mgt := rfl
@[simp] theorem State.modMot_sup (s : State) (g : Motors → Motors) : (s.modMot g).sup = s.sup := rfl
@[simp] theorem State.modMot_ktl (s : State) (g : Motors → Motors) : (s.modMot g).ktl = s.ktl := rfl
@[simp] theorem State.modMot_led (s : State) (g : Motors → Motors) : (s.modMot g).led = s.led := rfl
@[simp] theorem State.modMot_cad (s : State) (g : Motors → Motors) : (s.modMot g).cad = s.cad := rfl
@[simp] theorem State.modMot_cdc (s : State) (g : Motors → Motors) : (s.modMot g).cdc = s.cdc := rfl
@[simp] theorem State.modMot_stp (s : State) (g : Motors → Motors) : (s.modMot g).stp = s.stp := rfl
@[simp] theorem State.modMot_btu (s : State) (g : Motors → Motors) : (s.modMot g).btu = s.btu := rfl
@[simp] theorem State.modMot_hdp (s : State) (g : Motors → Motors) : (s.modMot g).hdp = s.hdp := rfl
@[simp] theorem State.modMot_jnl (s : State) (g : Motors → Motors) : (s.modMot g).jnl = s.jnl := rfl
@[simp] theorem State.modMot_seq (s : State) (g : Motors → Motors) : (s.modMot g).seq = s.seq := rfl
@[simp] theorem State.modMot_axs (s : State) (g : Motors → Motors) : (s.modMot g).axs = s.axs := rfl
@[simp] theorem State.modMot_mot (s : State) (g : Motors → Motors) : (s.modMot g).mot = g s.mot := rfl
@[simp] theorem State.modMot_ctl (s : State) (g : Motors → Motors) : (s.modMot g).ctl = s.ctl := rfl
@[simp] theorem State.modMot_drc (s : State) (g : Motors → Motors) : (s.modMot g).drc = s.drc := rfl
@[simp] theorem State.modMot_flt (s : State) (g : Motors → Motors) : (s.modMot g).flt = s.flt := rfl
@[simp] theorem State.modMot_fus (s : State) (g : Motors → Motors) : (s.modMot g).fus = s.fus := rfl
@[simp] theorem State.modMot_tmp (s : State) (g : Motors → Motors) : (s.modMot g).tmp = s.tmp := rfl
@[simp] theorem State.modCtl_pending (s : State) (g : Engine → Engine) : (s.modCtl g).pending = s.pending := rfl
@[simp] theorem State.modCtl_now (s : State) (g : Engine → Engine) : (s.modCtl g).now = s.now := rfl
@[simp] theorem State.modCtl_free (s : State) (g : Engine → Engine) : (s.modCtl g).free = s.free := rfl
@[simp] theorem State.modCtl_out (s : State) (g : Engine → Engine) : (s.modCtl g).out = s.out := rfl
@[simp] theorem State.modCtl_sys (s : State) (g : Engine → Engine) : (s.modCtl g).sys = s.sys := rfl
@[simp] theorem State.modCtl_pins (s : State) (g : Engine → Engine) : (s.modCtl g).pins = s.pins := rfl
@[simp] theorem State.modCtl_clk (s : State) (g : Engine → Engine) : (s.modCtl g).clk = s.clk := rfl
@[simp] theorem State.modCtl_hif (s : State) (g : Engine → Engine) : (s.modCtl g).hif = s.hif := rfl
@[simp] theorem State.modCtl_mgt (s : State) (g : Engine → Engine) : (s.modCtl g).mgt = s.mgt := rfl
@[simp] theorem State.modCtl_sup (s : State) (g : Engine → Engine) : (s.modCtl g).sup = s.sup := rfl
@[simp] theorem State.modCtl_ktl (s : State) (g : Engine → Engine) : (s.modCtl g).ktl = s.ktl := rfl
@[simp] theorem State.modCtl_led (s : State) (g : Engine → Engine) : (s.modCtl g).led = s.led := rfl
@[simp] theorem State.modCtl_cad (s : State) (g : Engine → Engine) : (s.modCtl g).cad = s.cad := rfl
@[simp] theorem State.modCtl_cdc (s : State) (g : Engine → Engine) : (s.modCtl g).cdc = s.cdc := rfl
@[simp] theorem State.modCtl_stp (s : State) (g : Engine → Engine) : (s.modCtl g).stp = s.stp := rfl
@[simp] theorem State.modCtl_btu (s : State) (g : Engine → Engine) : (s.modCtl g).btu = s.btu := rfl
@[simp] theorem State.modCtl_hdp (s : State) (g : Engine → Engine) : (s.modCtl g).hdp = s.hdp := rfl
@[simp] theorem State.modCtl_jnl (s : State) (g : Engine → Engine) : (s.modCtl g).jnl = s.jnl := rfl
@[simp] theorem State.modCtl_seq (s : State) (g : Engine → Engine) : (s.modCtl g).seq = s.seq := rfl
@[simp] theorem State.modCtl_axs (s : State) (g : Engine → Engine) : (s.modCtl g).axs = s.axs := rfl
@[simp] theorem State.modCtl_mot (s : State) (g : Engine → Engine) : (s.modCtl g).mot = s.mot := rfl
@[simp] theorem State.modCtl_ctl (s : State) (g : Engine → Engine) : (s.modCtl g).ctl = g s.ctl := rfl
@[simp] theorem State.modCtl_drc (s : State) (g : Engine → Engine) : (s.modCtl g).drc = s.drc := rfl
@[simp] theorem State.modCtl_flt (s : State) (g : Engine → Engine) : (s.modCtl g).flt = s.flt := rfl
@[simp] theorem State.modCtl_fus (s : State) (g : Engine → Engine) : (s.modCtl g).fus = s.fus := rfl
@[simp] theorem State.modCtl_tmp (s : State) (g : Engine → Engine) : (s.modCtl g).tmp = s.tmp := rfl
@[simp] theorem State.modDrc_pending (s : State) (g : Dram → Dram) : (s.modDrc g).pending = s.pending := rfl
@[simp] theorem State.modDrc_now (s : State) (g : Dram → Dram) : (s.modDrc g).now = s.now := rfl
@[simp] theorem State.modDrc_free (s : State) (g : Dram → Dram) : (s.modDrc g).free = s.free := rfl
@[simp] theorem State.modDrc_out (s : State) (g : Dram → Dram) : (s.modDrc g).out = s.out := rfl
@[simp] theorem State.modDrc_sys (s : State) (g : Dram → Dram) : (s.modDrc g).sys = s.sys := rfl
@[simp] theorem State.modDrc_pins (s : State) (g : Dram → Dram) : (s.modDrc g).pins = s.pins := rfl
@[simp] theorem State.modDrc_clk (s : State) (g : Dram → Dram) : (s.modDrc g).clk = s.clk := rfl
@[simp] theorem State.modDrc_hif (s : State) (g : Dram → Dram) : (s.modDrc g).hif = s.hif := rfl
@[simp] theorem State.modDrc_mgt (s : State) (g : Dram → Dram) : (s.modDrc g).mgt = s.mgt := rfl
@[simp] theorem State.modDrc_sup (s : State) (g : Dram → Dram) : (s.modDrc g).sup = s.sup := rfl
@[simp] theorem State.modDrc_ktl (s : State) (g : Dram → Dram) : (s.modDrc g).ktl = s.ktl := rfl
@[simp] theorem State.modDrc_led (s : State) (g : Dram → Dram) : (s.modDrc g).led = s.led := rfl
@[simp] theorem State.modDrc_cad (s : State) (g : Dram → Dram) : (s.modDrc g).cad = s.cad := rfl
@[simp] theorem State.modDrc_cdc (s : State) (g : Dram → Dram) : (s.modDrc g).cdc = s.cdc := rfl
@[simp] theorem State.modDrc_stp (s : State) (g : Dram → Dram) : (s.modDrc g).stp = s.stp := rfl
@[simp] theorem State.modDrc_btu (s : State) (g : Dram → Dram) : (s.modDrc g).btu = s.btu := rfl
@[simp] theorem State.modDrc_hdp (s : State) (g : Dram → Dram) : (s.modDrc g).hdp = s.hdp := rfl
@[simp] theorem State.modDrc_jnl (s : State) (g : Dram → Dram) : (s.modDrc g).jnl = s.jnl := rfl
@[simp] theorem State.modDrc_seq (s : State) (g : Dram → Dram) : (s.modDrc g).seq = s.seq := rfl
@[simp] theorem State.modDrc_axs (s : State) (g : Dram → Dram) : (s.modDrc g).axs = s.axs := rfl
@[simp] theorem State.modDrc_mot (s : State) (g : Dram → Dram) : (s.modDrc g).mot = s.mot := rfl
@[simp] theorem State.modDrc_ctl (s : State) (g : Dram → Dram) : (s.modDrc g).ctl = s.ctl := rfl
@[simp] theorem State.modDrc_drc (s : State) (g : Dram → Dram) : (s.modDrc g).drc = g s.drc := rfl
@[simp] theorem State.modDrc_flt (s : State) (g : Dram → Dram) : (s.modDrc g).flt = s.flt := rfl
@[simp] theorem State.modDrc_fus (s : State) (g : Dram → Dram) : (s.modDrc g).fus = s.fus := rfl
@[simp] theorem State.modDrc_tmp (s : State) (g : Dram → Dram) : (s.modDrc g).tmp = s.tmp := rfl
@[simp] theorem State.modFlt_pending (s : State) (g : Fabric → Fabric) : (s.modFlt g).pending = s.pending := rfl
@[simp] theorem State.modFlt_now (s : State) (g : Fabric → Fabric) : (s.modFlt g).now = s.now := rfl
@[simp] theorem State.modFlt_free (s : State) (g : Fabric → Fabric) : (s.modFlt g).free = s.free := rfl
@[simp] theorem State.modFlt_out (s : State) (g : Fabric → Fabric) : (s.modFlt g).out = s.out := rfl
@[simp] theorem State.modFlt_sys (s : State) (g : Fabric → Fabric) : (s.modFlt g).sys = s.sys := rfl
@[simp] theorem State.modFlt_pins (s : State) (g : Fabric → Fabric) : (s.modFlt g).pins = s.pins := rfl
@[simp] theorem State.modFlt_clk (s : State) (g : Fabric → Fabric) : (s.modFlt g).clk = s.clk := rfl
@[simp] theorem State.modFlt_hif (s : State) (g : Fabric → Fabric) : (s.modFlt g).hif = s.hif := rfl
@[simp] theorem State.modFlt_mgt (s : State) (g : Fabric → Fabric) : (s.modFlt g).mgt = s.mgt := rfl
@[simp] theorem State.modFlt_sup (s : State) (g : Fabric → Fabric) : (s.modFlt g).sup = s.sup := rfl
@[simp] theorem State.modFlt_ktl (s : State) (g : Fabric → Fabric) : (s.modFlt g).ktl = s.ktl := rfl
@[simp] theorem State.modFlt_led (s : State) (g : Fabric → Fabric) : (s.modFlt g).led = s.led := rfl
@[simp] theorem State.modFlt_cad (s : State) (g : Fabric → Fabric) : (s.modFlt g).cad = s.cad := rfl
@[simp] theorem State.modFlt_cdc (s : State) (g : Fabric → Fabric) : (s.modFlt g).cdc = s.cdc := rfl
@[simp] theorem State.modFlt_stp (s : State) (g : Fabric → Fabric) : (s.modFlt g).stp = s.stp := rfl
@[simp] theorem State.modFlt_btu (s : State) (g : Fabric → Fabric) : (s.modFlt g).btu = s.btu := rfl
@[simp] theorem State.modFlt_hdp (s : State) (g : Fabric → Fabric) : (s.modFlt g).hdp = s.hdp := rfl
@[simp] theorem State.modFlt_jnl (s : State) (g : Fabric → Fabric) : (s.modFlt g).jnl = s.jnl := rfl
@[simp] theorem State.modFlt_seq (s : State) (g : Fabric → Fabric) : (s.modFlt g).seq = s.seq := rfl
@[simp] theorem State.modFlt_axs (s : State) (g : Fabric → Fabric) : (s.modFlt g).axs = s.axs := rfl
@[simp] theorem State.modFlt_mot (s : State) (g : Fabric → Fabric) : (s.modFlt g).mot = s.mot := rfl
@[simp] theorem State.modFlt_ctl (s : State) (g : Fabric → Fabric) : (s.modFlt g).ctl = s.ctl := rfl
@[simp] theorem State.modFlt_drc (s : State) (g : Fabric → Fabric) : (s.modFlt g).drc = s.drc := rfl
@[simp] theorem State.modFlt_flt (s : State) (g : Fabric → Fabric) : (s.modFlt g).flt = g s.flt := rfl
@[simp] theorem State.modFlt_fus (s : State) (g : Fabric → Fabric) : (s.modFlt g).fus = s.fus := rfl
@[simp] theorem State.modFlt_tmp (s : State) (g : Fabric → Fabric) : (s.modFlt g).tmp = s.tmp := rfl
@[simp] theorem State.modFus_pending (s : State) (g : Fuses → Fuses) : (s.modFus g).pending = s.pending := rfl
@[simp] theorem State.modFus_now (s : State) (g : Fuses → Fuses) : (s.modFus g).now = s.now := rfl
@[simp] theorem State.modFus_free (s : State) (g : Fuses → Fuses) : (s.modFus g).free = s.free := rfl
@[simp] theorem State.modFus_out (s : State) (g : Fuses → Fuses) : (s.modFus g).out = s.out := rfl
@[simp] theorem State.modFus_sys (s : State) (g : Fuses → Fuses) : (s.modFus g).sys = s.sys := rfl
@[simp] theorem State.modFus_pins (s : State) (g : Fuses → Fuses) : (s.modFus g).pins = s.pins := rfl
@[simp] theorem State.modFus_clk (s : State) (g : Fuses → Fuses) : (s.modFus g).clk = s.clk := rfl
@[simp] theorem State.modFus_hif (s : State) (g : Fuses → Fuses) : (s.modFus g).hif = s.hif := rfl
@[simp] theorem State.modFus_mgt (s : State) (g : Fuses → Fuses) : (s.modFus g).mgt = s.mgt := rfl
@[simp] theorem State.modFus_sup (s : State) (g : Fuses → Fuses) : (s.modFus g).sup = s.sup := rfl
@[simp] theorem State.modFus_ktl (s : State) (g : Fuses → Fuses) : (s.modFus g).ktl = s.ktl := rfl
@[simp] theorem State.modFus_led (s : State) (g : Fuses → Fuses) : (s.modFus g).led = s.led := rfl
@[simp] theorem State.modFus_cad (s : State) (g : Fuses → Fuses) : (s.modFus g).cad = s.cad := rfl
@[simp] theorem State.modFus_cdc (s : State) (g : Fuses → Fuses) : (s.modFus g).cdc = s.cdc := rfl
@[simp] theorem State.modFus_stp (s : State) (g : Fuses → Fuses) : (s.modFus g).stp = s.stp := rfl
@[simp] theorem State.modFus_btu (s : State) (g : Fuses → Fuses) : (s.modFus g).btu = s.btu := rfl
@[simp] theorem State.modFus_hdp (s : State) (g : Fuses → Fuses) : (s.modFus g).hdp = s.hdp := rfl
@[simp] theorem State.modFus_jnl (s : State) (g : Fuses → Fuses) : (s.modFus g).jnl = s.jnl := rfl
@[simp] theorem State.modFus_seq (s : State) (g : Fuses → Fuses) : (s.modFus g).seq = s.seq := rfl
@[simp] theorem State.modFus_axs (s : State) (g : Fuses → Fuses) : (s.modFus g).axs = s.axs := rfl
@[simp] theorem State.modFus_mot (s : State) (g : Fuses → Fuses) : (s.modFus g).mot = s.mot := rfl
@[simp] theorem State.modFus_ctl (s : State) (g : Fuses → Fuses) : (s.modFus g).ctl = s.ctl := rfl
@[simp] theorem State.modFus_drc (s : State) (g : Fuses → Fuses) : (s.modFus g).drc = s.drc := rfl
@[simp] theorem State.modFus_flt (s : State) (g : Fuses → Fuses) : (s.modFus g).flt = s.flt := rfl
@[simp] theorem State.modFus_fus (s : State) (g : Fuses → Fuses) : (s.modFus g).fus = g s.fus := rfl
@[simp] theorem State.modFus_tmp (s : State) (g : Fuses → Fuses) : (s.modFus g).tmp = s.tmp := rfl
@[simp] theorem State.modTmp_pending (s : State) (g : Temp → Temp) : (s.modTmp g).pending = s.pending := rfl
@[simp] theorem State.modTmp_now (s : State) (g : Temp → Temp) : (s.modTmp g).now = s.now := rfl
@[simp] theorem State.modTmp_free (s : State) (g : Temp → Temp) : (s.modTmp g).free = s.free := rfl
@[simp] theorem State.modTmp_out (s : State) (g : Temp → Temp) : (s.modTmp g).out = s.out := rfl
@[simp] theorem State.modTmp_sys (s : State) (g : Temp → Temp) : (s.modTmp g).sys = s.sys := rfl
@[simp] theorem State.modTmp_pins (s : State) (g : Temp → Temp) : (s.modTmp g).pins = s.pins := rfl
@[simp] theorem State.modTmp_clk (s : State) (g : Temp → Temp) : (s.modTmp g).clk = s.clk := rfl
@[simp] theorem State.modTmp_hif (s : State) (g : Temp → Temp) : (s.modTmp g).hif = s.hif := rfl
@[simp] theorem State.modTmp_mgt (s : State) (g : Temp → Temp) : (s.modTmp g).mgt = s.mgt := rfl
@[simp] theorem State.modTmp_sup (s : State) (g : Temp → Temp) : (s.modTmp g).sup = s.sup := rfl
@[simp] theorem State.modTmp_ktl (s : State) (g : Temp → Temp) : (s.modTmp g).ktl = s.ktl := rfl
@[simp] theorem State.modTmp_led (s : State) (g : Temp → Temp) : (s.modTmp g).led = s.led := rfl
@[simp] theorem State.modTmp_cad (s : State) (g : Temp → Temp) : (s.modTmp g).cad = s.cad := rfl
@[simp] theorem State.modTmp_cdc (s : State) (g : Temp → Temp) : (s.modTmp g).cdc = s.cdc := rfl
@[simp] theorem State.modTmp_stp (s : State) (g : Temp → Temp) : (s.modTmp g).stp = s.stp := rfl
@[simp] theorem State.modTmp_btu (s : State) (g : Temp → Temp) : (s.modTmp g).btu = s.btu := rfl
@[simp] theorem State.modTmp_hdp (s : State) (g : Temp → Temp) : (s.modTmp g).hdp = s.hdp := rfl
@[simp] theorem State.modTmp_jnl (s : State) (g : Temp → Temp) : (s.modTmp g).jnl = s.jnl := rfl
@[simp] theorem State.modTmp_seq (s : State) (g : Temp → Temp) : (s.modTmp g).seq = s.seq := rfl
@[simp] theorem State.modTmp_axs (s : State) (g : Temp → Temp) : (s.modTmp g).axs = s.axs := rfl
@[simp] theorem State.modTmp_mot (s : State) (g : Temp → Temp) : (s.modTmp g).mot = s.mot := rfl
@[simp] theorem State.modTmp_ctl (s : State) (g : Temp → Temp) : (s.modTmp g).ctl = s.ctl := rfl
@[simp] theorem State.modTmp_drc (s : State) (g : Temp → Temp) : (s.modTmp g).drc = s.drc := rfl
@[simp] theorem State.modTmp_flt (s : State) (g : Temp → Temp) : (s.modTmp g).flt = s.flt := rfl
@[simp] theorem State.modTmp_fus (s : State) (g : Temp → Temp) : (s.modTmp g).fus = s.fus := rfl
@[simp] theorem State.modTmp_tmp (s : State) (g : Temp → Temp) : (s.modTmp g).tmp = g s.tmp := rfl
@[simp] theorem State.modBtu_pending (s : State) (k : Fin 6) (g : Station → Station) : (s.modBtu k g).pending = s.pending := rfl
@[simp] theorem State.modBtu_now (s : State) (k : Fin 6) (g : Station → Station) : (s.modBtu k g).now = s.now := rfl
@[simp] theorem State.modBtu_free (s : State) (k : Fin 6) (g : Station → Station) : (s.modBtu k g).free = s.free := rfl
@[simp] theorem State.modBtu_out (s : State) (k : Fin 6) (g : Station → Station) : (s.modBtu k g).out = s.out := rfl
@[simp] theorem State.modBtu_sys (s : State) (k : Fin 6) (g : Station → Station) : (s.modBtu k g).sys = s.sys := rfl
@[simp] theorem State.modBtu_pins (s : State) (k : Fin 6) (g : Station → Station) : (s.modBtu k g).pins = s.pins := rfl
@[simp] theorem State.modBtu_clk (s : State) (k : Fin 6) (g : Station → Station) : (s.modBtu k g).clk = s.clk := rfl
@[simp] theorem State.modBtu_hif (s : State) (k : Fin 6) (g : Station → Station) : (s.modBtu k g).hif = s.hif := rfl
@[simp] theorem State.modBtu_mgt (s : State) (k : Fin 6) (g : Station → Station) : (s.modBtu k g).mgt = s.mgt := rfl
@[simp] theorem State.modBtu_sup (s : State) (k : Fin 6) (g : Station → Station) : (s.modBtu k g).sup = s.sup := rfl
@[simp] theorem State.modBtu_ktl (s : State) (k : Fin 6) (g : Station → Station) : (s.modBtu k g).ktl = s.ktl := rfl
@[simp] theorem State.modBtu_led (s : State) (k : Fin 6) (g : Station → Station) : (s.modBtu k g).led = s.led := rfl
@[simp] theorem State.modBtu_cad (s : State) (k : Fin 6) (g : Station → Station) : (s.modBtu k g).cad = s.cad := rfl
@[simp] theorem State.modBtu_cdc (s : State) (k : Fin 6) (g : Station → Station) : (s.modBtu k g).cdc = s.cdc := rfl
@[simp] theorem State.modBtu_stp (s : State) (k : Fin 6) (g : Station → Station) : (s.modBtu k g).stp = s.stp := rfl
@[simp] theorem State.modBtu_btu (s : State) (k : Fin 6) (g : Station → Station) : (s.modBtu k g).btu = updF s.btu k g := rfl
@[simp] theorem State.modBtu_hdp (s : State) (k : Fin 6) (g : Station → Station) : (s.modBtu k g).hdp = s.hdp := rfl
@[simp] theorem State.modBtu_jnl (s : State) (k : Fin 6) (g : Station → Station) : (s.modBtu k g).jnl = s.jnl := rfl
@[simp] theorem State.modBtu_seq (s : State) (k : Fin 6) (g : Station → Station) : (s.modBtu k g).seq = s.seq := rfl
@[simp] theorem State.modBtu_axs (s : State) (k : Fin 6) (g : Station → Station) : (s.modBtu k g).axs = s.axs := rfl
@[simp] theorem State.modBtu_mot (s : State) (k : Fin 6) (g : Station → Station) : (s.modBtu k g).mot = s.mot := rfl
@[simp] theorem State.modBtu_ctl (s : State) (k : Fin 6) (g : Station → Station) : (s.modBtu k g).ctl = s.ctl := rfl
@[simp] theorem State.modBtu_drc (s : State) (k : Fin 6) (g : Station → Station) : (s.modBtu k g).drc = s.drc := rfl
@[simp] theorem State.modBtu_flt (s : State) (k : Fin 6) (g : Station → Station) : (s.modBtu k g).flt = s.flt := rfl
@[simp] theorem State.modBtu_fus (s : State) (k : Fin 6) (g : Station → Station) : (s.modBtu k g).fus = s.fus := rfl
@[simp] theorem State.modBtu_tmp (s : State) (k : Fin 6) (g : Station → Station) : (s.modBtu k g).tmp = s.tmp := rfl
@[simp] theorem State.modHead_pending (s : State) (k : Fin 8) (g : Head → Head) : (s.modHead k g).pending = s.pending := rfl
@[simp] theorem State.modHead_now (s : State) (k : Fin 8) (g : Head → Head) : (s.modHead k g).now = s.now := rfl
@[simp] theorem State.modHead_free (s : State) (k : Fin 8) (g : Head → Head) : (s.modHead k g).free = s.free := rfl
@[simp] theorem State.modHead_out (s : State) (k : Fin 8) (g : Head → Head) : (s.modHead k g).out = s.out := rfl
@[simp] theorem State.modHead_sys (s : State) (k : Fin 8) (g : Head → Head) : (s.modHead k g).sys = s.sys := rfl
@[simp] theorem State.modHead_pins (s : State) (k : Fin 8) (g : Head → Head) : (s.modHead k g).pins = s.pins := rfl
@[simp] theorem State.modHead_clk (s : State) (k : Fin 8) (g : Head → Head) : (s.modHead k g).clk = s.clk := rfl
@[simp] theorem State.modHead_hif (s : State) (k : Fin 8) (g : Head → Head) : (s.modHead k g).hif = s.hif := rfl
@[simp] theorem State.modHead_mgt (s : State) (k : Fin 8) (g : Head → Head) : (s.modHead k g).mgt = s.mgt := rfl
@[simp] theorem State.modHead_sup (s : State) (k : Fin 8) (g : Head → Head) : (s.modHead k g).sup = s.sup := rfl
@[simp] theorem State.modHead_ktl (s : State) (k : Fin 8) (g : Head → Head) : (s.modHead k g).ktl = s.ktl := rfl
@[simp] theorem State.modHead_led (s : State) (k : Fin 8) (g : Head → Head) : (s.modHead k g).led = s.led := rfl
@[simp] theorem State.modHead_cad (s : State) (k : Fin 8) (g : Head → Head) : (s.modHead k g).cad = s.cad := rfl
@[simp] theorem State.modHead_cdc (s : State) (k : Fin 8) (g : Head → Head) : (s.modHead k g).cdc = s.cdc := rfl
@[simp] theorem State.modHead_stp (s : State) (k : Fin 8) (g : Head → Head) : (s.modHead k g).stp = s.stp := rfl
@[simp] theorem State.modHead_btu (s : State) (k : Fin 8) (g : Head → Head) : (s.modHead k g).btu = s.btu := rfl
@[simp] theorem State.modHead_hdp (s : State) (k : Fin 8) (g : Head → Head) : (s.modHead k g).hdp = updF s.hdp k g := rfl
@[simp] theorem State.modHead_jnl (s : State) (k : Fin 8) (g : Head → Head) : (s.modHead k g).jnl = s.jnl := rfl
@[simp] theorem State.modHead_seq (s : State) (k : Fin 8) (g : Head → Head) : (s.modHead k g).seq = s.seq := rfl
@[simp] theorem State.modHead_axs (s : State) (k : Fin 8) (g : Head → Head) : (s.modHead k g).axs = s.axs := rfl
@[simp] theorem State.modHead_mot (s : State) (k : Fin 8) (g : Head → Head) : (s.modHead k g).mot = s.mot := rfl
@[simp] theorem State.modHead_ctl (s : State) (k : Fin 8) (g : Head → Head) : (s.modHead k g).ctl = s.ctl := rfl
@[simp] theorem State.modHead_drc (s : State) (k : Fin 8) (g : Head → Head) : (s.modHead k g).drc = s.drc := rfl
@[simp] theorem State.modHead_flt (s : State) (k : Fin 8) (g : Head → Head) : (s.modHead k g).flt = s.flt := rfl
@[simp] theorem State.modHead_fus (s : State) (k : Fin 8) (g : Head → Head) : (s.modHead k g).fus = s.fus := rfl
@[simp] theorem State.modHead_tmp (s : State) (k : Fin 8) (g : Head → Head) : (s.modHead k g).tmp = s.tmp := rfl
@[simp] theorem State.modAxis_pending (s : State) (k : Fin 16) (g : Axis → Axis) : (s.modAxis k g).pending = s.pending := rfl
@[simp] theorem State.modAxis_now (s : State) (k : Fin 16) (g : Axis → Axis) : (s.modAxis k g).now = s.now := rfl
@[simp] theorem State.modAxis_free (s : State) (k : Fin 16) (g : Axis → Axis) : (s.modAxis k g).free = s.free := rfl
@[simp] theorem State.modAxis_out (s : State) (k : Fin 16) (g : Axis → Axis) : (s.modAxis k g).out = s.out := rfl
@[simp] theorem State.modAxis_sys (s : State) (k : Fin 16) (g : Axis → Axis) : (s.modAxis k g).sys = s.sys := rfl
@[simp] theorem State.modAxis_pins (s : State) (k : Fin 16) (g : Axis → Axis) : (s.modAxis k g).pins = s.pins := rfl
@[simp] theorem State.modAxis_clk (s : State) (k : Fin 16) (g : Axis → Axis) : (s.modAxis k g).clk = s.clk := rfl
@[simp] theorem State.modAxis_hif (s : State) (k : Fin 16) (g : Axis → Axis) : (s.modAxis k g).hif = s.hif := rfl
@[simp] theorem State.modAxis_mgt (s : State) (k : Fin 16) (g : Axis → Axis) : (s.modAxis k g).mgt = s.mgt := rfl
@[simp] theorem State.modAxis_sup (s : State) (k : Fin 16) (g : Axis → Axis) : (s.modAxis k g).sup = s.sup := rfl
@[simp] theorem State.modAxis_ktl (s : State) (k : Fin 16) (g : Axis → Axis) : (s.modAxis k g).ktl = s.ktl := rfl
@[simp] theorem State.modAxis_led (s : State) (k : Fin 16) (g : Axis → Axis) : (s.modAxis k g).led = s.led := rfl
@[simp] theorem State.modAxis_cad (s : State) (k : Fin 16) (g : Axis → Axis) : (s.modAxis k g).cad = s.cad := rfl
@[simp] theorem State.modAxis_cdc (s : State) (k : Fin 16) (g : Axis → Axis) : (s.modAxis k g).cdc = s.cdc := rfl
@[simp] theorem State.modAxis_stp (s : State) (k : Fin 16) (g : Axis → Axis) : (s.modAxis k g).stp = s.stp := rfl
@[simp] theorem State.modAxis_btu (s : State) (k : Fin 16) (g : Axis → Axis) : (s.modAxis k g).btu = s.btu := rfl
@[simp] theorem State.modAxis_hdp (s : State) (k : Fin 16) (g : Axis → Axis) : (s.modAxis k g).hdp = s.hdp := rfl
@[simp] theorem State.modAxis_jnl (s : State) (k : Fin 16) (g : Axis → Axis) : (s.modAxis k g).jnl = s.jnl := rfl
@[simp] theorem State.modAxis_seq (s : State) (k : Fin 16) (g : Axis → Axis) : (s.modAxis k g).seq = s.seq := rfl
@[simp] theorem State.modAxis_axs (s : State) (k : Fin 16) (g : Axis → Axis) : (s.modAxis k g).axs = updF s.axs k g := rfl
@[simp] theorem State.modAxis_mot (s : State) (k : Fin 16) (g : Axis → Axis) : (s.modAxis k g).mot = s.mot := rfl
@[simp] theorem State.modAxis_ctl (s : State) (k : Fin 16) (g : Axis → Axis) : (s.modAxis k g).ctl = s.ctl := rfl
@[simp] theorem State.modAxis_drc (s : State) (k : Fin 16) (g : Axis → Axis) : (s.modAxis k g).drc = s.drc := rfl
@[simp] theorem State.modAxis_flt (s : State) (k : Fin 16) (g : Axis → Axis) : (s.modAxis k g).flt = s.flt := rfl
@[simp] theorem State.modAxis_fus (s : State) (k : Fin 16) (g : Axis → Axis) : (s.modAxis k g).fus = s.fus := rfl
@[simp] theorem State.modAxis_tmp (s : State) (k : Fin 16) (g : Axis → Axis) : (s.modAxis k g).tmp = s.tmp := rfl
@[simp] theorem State.modMotor_pending (s : State) (k : Fin 10) (g : Motor → Motor) : (s.modMotor k g).pending = s.pending := rfl
@[simp] theorem State.modMotor_now (s : State) (k : Fin 10) (g : Motor → Motor) : (s.modMotor k g).now = s.now := rfl
@[simp] theorem State.modMotor_free (s : State) (k : Fin 10) (g : Motor → Motor) : (s.modMotor k g).free = s.free := rfl
@[simp] theorem State.modMotor_out (s : State) (k : Fin 10) (g : Motor → Motor) : (s.modMotor k g).out = s.out := rfl
@[simp] theorem State.modMotor_sys (s : State) (k : Fin 10) (g : Motor → Motor) : (s.modMotor k g).sys = s.sys := rfl
@[simp] theorem State.modMotor_pins (s : State) (k : Fin 10) (g : Motor → Motor) : (s.modMotor k g).pins = s.pins := rfl
@[simp] theorem State.modMotor_clk (s : State) (k : Fin 10) (g : Motor → Motor) : (s.modMotor k g).clk = s.clk := rfl
@[simp] theorem State.modMotor_hif (s : State) (k : Fin 10) (g : Motor → Motor) : (s.modMotor k g).hif = s.hif := rfl
@[simp] theorem State.modMotor_mgt (s : State) (k : Fin 10) (g : Motor → Motor) : (s.modMotor k g).mgt = s.mgt := rfl
@[simp] theorem State.modMotor_sup (s : State) (k : Fin 10) (g : Motor → Motor) : (s.modMotor k g).sup = s.sup := rfl
@[simp] theorem State.modMotor_ktl (s : State) (k : Fin 10) (g : Motor → Motor) : (s.modMotor k g).ktl = s.ktl := rfl
@[simp] theorem State.modMotor_led (s : State) (k : Fin 10) (g : Motor → Motor) : (s.modMotor k g).led = s.led := rfl
@[simp] theorem State.modMotor_cad (s : State) (k : Fin 10) (g : Motor → Motor) : (s.modMotor k g).cad = s.cad := rfl
@[simp] theorem State.modMotor_cdc (s : State) (k : Fin 10) (g : Motor → Motor) : (s.modMotor k g).cdc = s.cdc := rfl
@[simp] theorem State.modMotor_stp (s : State) (k : Fin 10) (g : Motor → Motor) : (s.modMotor k g).stp = s.stp := rfl
@[simp] theorem State.modMotor_btu (s : State) (k : Fin 10) (g : Motor → Motor) : (s.modMotor k g).btu = s.btu := rfl
@[simp] theorem State.modMotor_hdp (s : State) (k : Fin 10) (g : Motor → Motor) : (s.modMotor k g).hdp = s.hdp := rfl
@[simp] theorem State.modMotor_jnl (s : State) (k : Fin 10) (g : Motor → Motor) : (s.modMotor k g).jnl = s.jnl := rfl
@[simp] theorem State.modMotor_seq (s : State) (k : Fin 10) (g : Motor → Motor) : (s.modMotor k g).seq = s.seq := rfl
@[simp] theorem State.modMotor_axs (s : State) (k : Fin 10) (g : Motor → Motor) : (s.modMotor k g).axs = s.axs := rfl
@[simp] theorem State.modMotor_mot (s : State) (k : Fin 10) (g : Motor → Motor) : (s.modMotor k g).mot = { s.mot with ch := updF s.mot.ch k g } := rfl
@[simp] theorem State.modMotor_ctl (s : State) (k : Fin 10) (g : Motor → Motor) : (s.modMotor k g).ctl = s.ctl := rfl
@[simp] theorem State.modMotor_drc (s : State) (k : Fin 10) (g : Motor → Motor) : (s.modMotor k g).drc = s.drc := rfl
@[simp] theorem State.modMotor_flt (s : State) (k : Fin 10) (g : Motor → Motor) : (s.modMotor k g).flt = s.flt := rfl
@[simp] theorem State.modMotor_fus (s : State) (k : Fin 10) (g : Motor → Motor) : (s.modMotor k g).fus = s.fus := rfl
@[simp] theorem State.modMotor_tmp (s : State) (k : Fin 10) (g : Motor → Motor) : (s.modMotor k g).tmp = s.tmp := rfl
@[simp] theorem State.modLoop_pending (s : State) (k : Fin 160) (g : Loop → Loop) : (s.modLoop k g).pending = s.pending := rfl
@[simp] theorem State.modLoop_now (s : State) (k : Fin 160) (g : Loop → Loop) : (s.modLoop k g).now = s.now := rfl
@[simp] theorem State.modLoop_free (s : State) (k : Fin 160) (g : Loop → Loop) : (s.modLoop k g).free = s.free := rfl
@[simp] theorem State.modLoop_out (s : State) (k : Fin 160) (g : Loop → Loop) : (s.modLoop k g).out = s.out := rfl
@[simp] theorem State.modLoop_sys (s : State) (k : Fin 160) (g : Loop → Loop) : (s.modLoop k g).sys = s.sys := rfl
@[simp] theorem State.modLoop_pins (s : State) (k : Fin 160) (g : Loop → Loop) : (s.modLoop k g).pins = s.pins := rfl
@[simp] theorem State.modLoop_clk (s : State) (k : Fin 160) (g : Loop → Loop) : (s.modLoop k g).clk = s.clk := rfl
@[simp] theorem State.modLoop_hif (s : State) (k : Fin 160) (g : Loop → Loop) : (s.modLoop k g).hif = s.hif := rfl
@[simp] theorem State.modLoop_mgt (s : State) (k : Fin 160) (g : Loop → Loop) : (s.modLoop k g).mgt = s.mgt := rfl
@[simp] theorem State.modLoop_sup (s : State) (k : Fin 160) (g : Loop → Loop) : (s.modLoop k g).sup = s.sup := rfl
@[simp] theorem State.modLoop_ktl (s : State) (k : Fin 160) (g : Loop → Loop) : (s.modLoop k g).ktl = s.ktl := rfl
@[simp] theorem State.modLoop_led (s : State) (k : Fin 160) (g : Loop → Loop) : (s.modLoop k g).led = s.led := rfl
@[simp] theorem State.modLoop_cad (s : State) (k : Fin 160) (g : Loop → Loop) : (s.modLoop k g).cad = s.cad := rfl
@[simp] theorem State.modLoop_cdc (s : State) (k : Fin 160) (g : Loop → Loop) : (s.modLoop k g).cdc = s.cdc := rfl
@[simp] theorem State.modLoop_stp (s : State) (k : Fin 160) (g : Loop → Loop) : (s.modLoop k g).stp = s.stp := rfl
@[simp] theorem State.modLoop_btu (s : State) (k : Fin 160) (g : Loop → Loop) : (s.modLoop k g).btu = s.btu := rfl
@[simp] theorem State.modLoop_hdp (s : State) (k : Fin 160) (g : Loop → Loop) : (s.modLoop k g).hdp = s.hdp := rfl
@[simp] theorem State.modLoop_jnl (s : State) (k : Fin 160) (g : Loop → Loop) : (s.modLoop k g).jnl = s.jnl := rfl
@[simp] theorem State.modLoop_seq (s : State) (k : Fin 160) (g : Loop → Loop) : (s.modLoop k g).seq = s.seq := rfl
@[simp] theorem State.modLoop_axs (s : State) (k : Fin 160) (g : Loop → Loop) : (s.modLoop k g).axs = s.axs := rfl
@[simp] theorem State.modLoop_mot (s : State) (k : Fin 160) (g : Loop → Loop) : (s.modLoop k g).mot = s.mot := rfl
@[simp] theorem State.modLoop_ctl (s : State) (k : Fin 160) (g : Loop → Loop) : (s.modLoop k g).ctl = { s.ctl with loops := updF s.ctl.loops k g } := rfl
@[simp] theorem State.modLoop_drc (s : State) (k : Fin 160) (g : Loop → Loop) : (s.modLoop k g).drc = s.drc := rfl
@[simp] theorem State.modLoop_flt (s : State) (k : Fin 160) (g : Loop → Loop) : (s.modLoop k g).flt = s.flt := rfl
@[simp] theorem State.modLoop_fus (s : State) (k : Fin 160) (g : Loop → Loop) : (s.modLoop k g).fus = s.fus := rfl
@[simp] theorem State.modLoop_tmp (s : State) (k : Fin 160) (g : Loop → Loop) : (s.modLoop k g).tmp = s.tmp := rfl
@[simp] theorem State.modChan_pending (s : State) (k : Fin 2) (g : Channel → Channel) : (s.modChan k g).pending = s.pending := rfl
@[simp] theorem State.modChan_now (s : State) (k : Fin 2) (g : Channel → Channel) : (s.modChan k g).now = s.now := rfl
@[simp] theorem State.modChan_free (s : State) (k : Fin 2) (g : Channel → Channel) : (s.modChan k g).free = s.free := rfl
@[simp] theorem State.modChan_out (s : State) (k : Fin 2) (g : Channel → Channel) : (s.modChan k g).out = s.out := rfl
@[simp] theorem State.modChan_sys (s : State) (k : Fin 2) (g : Channel → Channel) : (s.modChan k g).sys = s.sys := rfl
@[simp] theorem State.modChan_pins (s : State) (k : Fin 2) (g : Channel → Channel) : (s.modChan k g).pins = s.pins := rfl
@[simp] theorem State.modChan_clk (s : State) (k : Fin 2) (g : Channel → Channel) : (s.modChan k g).clk = s.clk := rfl
@[simp] theorem State.modChan_hif (s : State) (k : Fin 2) (g : Channel → Channel) : (s.modChan k g).hif = s.hif := rfl
@[simp] theorem State.modChan_mgt (s : State) (k : Fin 2) (g : Channel → Channel) : (s.modChan k g).mgt = s.mgt := rfl
@[simp] theorem State.modChan_sup (s : State) (k : Fin 2) (g : Channel → Channel) : (s.modChan k g).sup = s.sup := rfl
@[simp] theorem State.modChan_ktl (s : State) (k : Fin 2) (g : Channel → Channel) : (s.modChan k g).ktl = s.ktl := rfl
@[simp] theorem State.modChan_led (s : State) (k : Fin 2) (g : Channel → Channel) : (s.modChan k g).led = s.led := rfl
@[simp] theorem State.modChan_cad (s : State) (k : Fin 2) (g : Channel → Channel) : (s.modChan k g).cad = s.cad := rfl
@[simp] theorem State.modChan_cdc (s : State) (k : Fin 2) (g : Channel → Channel) : (s.modChan k g).cdc = s.cdc := rfl
@[simp] theorem State.modChan_stp (s : State) (k : Fin 2) (g : Channel → Channel) : (s.modChan k g).stp = s.stp := rfl
@[simp] theorem State.modChan_btu (s : State) (k : Fin 2) (g : Channel → Channel) : (s.modChan k g).btu = s.btu := rfl
@[simp] theorem State.modChan_hdp (s : State) (k : Fin 2) (g : Channel → Channel) : (s.modChan k g).hdp = s.hdp := rfl
@[simp] theorem State.modChan_jnl (s : State) (k : Fin 2) (g : Channel → Channel) : (s.modChan k g).jnl = s.jnl := rfl
@[simp] theorem State.modChan_seq (s : State) (k : Fin 2) (g : Channel → Channel) : (s.modChan k g).seq = s.seq := rfl
@[simp] theorem State.modChan_axs (s : State) (k : Fin 2) (g : Channel → Channel) : (s.modChan k g).axs = s.axs := rfl
@[simp] theorem State.modChan_mot (s : State) (k : Fin 2) (g : Channel → Channel) : (s.modChan k g).mot = s.mot := rfl
@[simp] theorem State.modChan_ctl (s : State) (k : Fin 2) (g : Channel → Channel) : (s.modChan k g).ctl = s.ctl := rfl
@[simp] theorem State.modChan_drc (s : State) (k : Fin 2) (g : Channel → Channel) : (s.modChan k g).drc = { s.drc with ch := updF s.drc.ch k g } := rfl
@[simp] theorem State.modChan_flt (s : State) (k : Fin 2) (g : Channel → Channel) : (s.modChan k g).flt = s.flt := rfl
@[simp] theorem State.modChan_fus (s : State) (k : Fin 2) (g : Channel → Channel) : (s.modChan k g).fus = s.fus := rfl
@[simp] theorem State.modChan_tmp (s : State) (k : Fin 2) (g : Channel → Channel) : (s.modChan k g).tmp = s.tmp := rfl
@[simp] theorem State.modSrc_pending (s : State) (k : Fin 256) (g : Src → Src) : (s.modSrc k g).pending = s.pending := rfl
@[simp] theorem State.modSrc_now (s : State) (k : Fin 256) (g : Src → Src) : (s.modSrc k g).now = s.now := rfl
@[simp] theorem State.modSrc_free (s : State) (k : Fin 256) (g : Src → Src) : (s.modSrc k g).free = s.free := rfl
@[simp] theorem State.modSrc_out (s : State) (k : Fin 256) (g : Src → Src) : (s.modSrc k g).out = s.out := rfl
@[simp] theorem State.modSrc_sys (s : State) (k : Fin 256) (g : Src → Src) : (s.modSrc k g).sys = s.sys := rfl
@[simp] theorem State.modSrc_pins (s : State) (k : Fin 256) (g : Src → Src) : (s.modSrc k g).pins = s.pins := rfl
@[simp] theorem State.modSrc_clk (s : State) (k : Fin 256) (g : Src → Src) : (s.modSrc k g).clk = s.clk := rfl
@[simp] theorem State.modSrc_hif (s : State) (k : Fin 256) (g : Src → Src) : (s.modSrc k g).hif = s.hif := rfl
@[simp] theorem State.modSrc_mgt (s : State) (k : Fin 256) (g : Src → Src) : (s.modSrc k g).mgt = s.mgt := rfl
@[simp] theorem State.modSrc_sup (s : State) (k : Fin 256) (g : Src → Src) : (s.modSrc k g).sup = s.sup := rfl
@[simp] theorem State.modSrc_ktl (s : State) (k : Fin 256) (g : Src → Src) : (s.modSrc k g).ktl = s.ktl := rfl
@[simp] theorem State.modSrc_led (s : State) (k : Fin 256) (g : Src → Src) : (s.modSrc k g).led = s.led := rfl
@[simp] theorem State.modSrc_cad (s : State) (k : Fin 256) (g : Src → Src) : (s.modSrc k g).cad = s.cad := rfl
@[simp] theorem State.modSrc_cdc (s : State) (k : Fin 256) (g : Src → Src) : (s.modSrc k g).cdc = s.cdc := rfl
@[simp] theorem State.modSrc_stp (s : State) (k : Fin 256) (g : Src → Src) : (s.modSrc k g).stp = s.stp := rfl
@[simp] theorem State.modSrc_btu (s : State) (k : Fin 256) (g : Src → Src) : (s.modSrc k g).btu = s.btu := rfl
@[simp] theorem State.modSrc_hdp (s : State) (k : Fin 256) (g : Src → Src) : (s.modSrc k g).hdp = s.hdp := rfl
@[simp] theorem State.modSrc_jnl (s : State) (k : Fin 256) (g : Src → Src) : (s.modSrc k g).jnl = s.jnl := rfl
@[simp] theorem State.modSrc_seq (s : State) (k : Fin 256) (g : Src → Src) : (s.modSrc k g).seq = s.seq := rfl
@[simp] theorem State.modSrc_axs (s : State) (k : Fin 256) (g : Src → Src) : (s.modSrc k g).axs = s.axs := rfl
@[simp] theorem State.modSrc_mot (s : State) (k : Fin 256) (g : Src → Src) : (s.modSrc k g).mot = s.mot := rfl
@[simp] theorem State.modSrc_ctl (s : State) (k : Fin 256) (g : Src → Src) : (s.modSrc k g).ctl = s.ctl := rfl
@[simp] theorem State.modSrc_drc (s : State) (k : Fin 256) (g : Src → Src) : (s.modSrc k g).drc = s.drc := rfl
@[simp] theorem State.modSrc_flt (s : State) (k : Fin 256) (g : Src → Src) : (s.modSrc k g).flt = { s.flt with src := updF s.flt.src k g } := rfl
@[simp] theorem State.modSrc_fus (s : State) (k : Fin 256) (g : Src → Src) : (s.modSrc k g).fus = s.fus := rfl
@[simp] theorem State.modSrc_tmp (s : State) (k : Fin 256) (g : Src → Src) : (s.modSrc k g).tmp = s.tmp := rfl
@[simp] theorem State.modSynth_pending (s : State) (k : Fin 6) (g : Synth → Synth) : (s.modSynth k g).pending = s.pending := rfl
@[simp] theorem State.modSynth_now (s : State) (k : Fin 6) (g : Synth → Synth) : (s.modSynth k g).now = s.now := rfl
@[simp] theorem State.modSynth_free (s : State) (k : Fin 6) (g : Synth → Synth) : (s.modSynth k g).free = s.free := rfl
@[simp] theorem State.modSynth_out (s : State) (k : Fin 6) (g : Synth → Synth) : (s.modSynth k g).out = s.out := rfl
@[simp] theorem State.modSynth_sys (s : State) (k : Fin 6) (g : Synth → Synth) : (s.modSynth k g).sys = s.sys := rfl
@[simp] theorem State.modSynth_pins (s : State) (k : Fin 6) (g : Synth → Synth) : (s.modSynth k g).pins = s.pins := rfl
@[simp] theorem State.modSynth_clk (s : State) (k : Fin 6) (g : Synth → Synth) : (s.modSynth k g).clk = { s.clk with px := updF s.clk.px k g } := rfl
@[simp] theorem State.modSynth_hif (s : State) (k : Fin 6) (g : Synth → Synth) : (s.modSynth k g).hif = s.hif := rfl
@[simp] theorem State.modSynth_mgt (s : State) (k : Fin 6) (g : Synth → Synth) : (s.modSynth k g).mgt = s.mgt := rfl
@[simp] theorem State.modSynth_sup (s : State) (k : Fin 6) (g : Synth → Synth) : (s.modSynth k g).sup = s.sup := rfl
@[simp] theorem State.modSynth_ktl (s : State) (k : Fin 6) (g : Synth → Synth) : (s.modSynth k g).ktl = s.ktl := rfl
@[simp] theorem State.modSynth_led (s : State) (k : Fin 6) (g : Synth → Synth) : (s.modSynth k g).led = s.led := rfl
@[simp] theorem State.modSynth_cad (s : State) (k : Fin 6) (g : Synth → Synth) : (s.modSynth k g).cad = s.cad := rfl
@[simp] theorem State.modSynth_cdc (s : State) (k : Fin 6) (g : Synth → Synth) : (s.modSynth k g).cdc = s.cdc := rfl
@[simp] theorem State.modSynth_stp (s : State) (k : Fin 6) (g : Synth → Synth) : (s.modSynth k g).stp = s.stp := rfl
@[simp] theorem State.modSynth_btu (s : State) (k : Fin 6) (g : Synth → Synth) : (s.modSynth k g).btu = s.btu := rfl
@[simp] theorem State.modSynth_hdp (s : State) (k : Fin 6) (g : Synth → Synth) : (s.modSynth k g).hdp = s.hdp := rfl
@[simp] theorem State.modSynth_jnl (s : State) (k : Fin 6) (g : Synth → Synth) : (s.modSynth k g).jnl = s.jnl := rfl
@[simp] theorem State.modSynth_seq (s : State) (k : Fin 6) (g : Synth → Synth) : (s.modSynth k g).seq = s.seq := rfl
@[simp] theorem State.modSynth_axs (s : State) (k : Fin 6) (g : Synth → Synth) : (s.modSynth k g).axs = s.axs := rfl
@[simp] theorem State.modSynth_mot (s : State) (k : Fin 6) (g : Synth → Synth) : (s.modSynth k g).mot = s.mot := rfl
@[simp] theorem State.modSynth_ctl (s : State) (k : Fin 6) (g : Synth → Synth) : (s.modSynth k g).ctl = s.ctl := rfl
@[simp] theorem State.modSynth_drc (s : State) (k : Fin 6) (g : Synth → Synth) : (s.modSynth k g).drc = s.drc := rfl
@[simp] theorem State.modSynth_flt (s : State) (k : Fin 6) (g : Synth → Synth) : (s.modSynth k g).flt = s.flt := rfl
@[simp] theorem State.modSynth_fus (s : State) (k : Fin 6) (g : Synth → Synth) : (s.modSynth k g).fus = s.fus := rfl
@[simp] theorem State.modSynth_tmp (s : State) (k : Fin 6) (g : Synth → Synth) : (s.modSynth k g).tmp = s.tmp := rfl
@[simp] theorem State.modSteep_pending (s : State) (k : Fin 6) (g : SteepStation → SteepStation) : (s.modSteep k g).pending = s.pending := rfl
@[simp] theorem State.modSteep_now (s : State) (k : Fin 6) (g : SteepStation → SteepStation) : (s.modSteep k g).now = s.now := rfl
@[simp] theorem State.modSteep_free (s : State) (k : Fin 6) (g : SteepStation → SteepStation) : (s.modSteep k g).free = s.free := rfl
@[simp] theorem State.modSteep_out (s : State) (k : Fin 6) (g : SteepStation → SteepStation) : (s.modSteep k g).out = s.out := rfl
@[simp] theorem State.modSteep_sys (s : State) (k : Fin 6) (g : SteepStation → SteepStation) : (s.modSteep k g).sys = s.sys := rfl
@[simp] theorem State.modSteep_pins (s : State) (k : Fin 6) (g : SteepStation → SteepStation) : (s.modSteep k g).pins = s.pins := rfl
@[simp] theorem State.modSteep_clk (s : State) (k : Fin 6) (g : SteepStation → SteepStation) : (s.modSteep k g).clk = s.clk := rfl
@[simp] theorem State.modSteep_hif (s : State) (k : Fin 6) (g : SteepStation → SteepStation) : (s.modSteep k g).hif = s.hif := rfl
@[simp] theorem State.modSteep_mgt (s : State) (k : Fin 6) (g : SteepStation → SteepStation) : (s.modSteep k g).mgt = s.mgt := rfl
@[simp] theorem State.modSteep_sup (s : State) (k : Fin 6) (g : SteepStation → SteepStation) : (s.modSteep k g).sup = s.sup := rfl
@[simp] theorem State.modSteep_ktl (s : State) (k : Fin 6) (g : SteepStation → SteepStation) : (s.modSteep k g).ktl = s.ktl := rfl
@[simp] theorem State.modSteep_led (s : State) (k : Fin 6) (g : SteepStation → SteepStation) : (s.modSteep k g).led = s.led := rfl
@[simp] theorem State.modSteep_cad (s : State) (k : Fin 6) (g : SteepStation → SteepStation) : (s.modSteep k g).cad = s.cad := rfl
@[simp] theorem State.modSteep_cdc (s : State) (k : Fin 6) (g : SteepStation → SteepStation) : (s.modSteep k g).cdc = s.cdc := rfl
@[simp] theorem State.modSteep_stp (s : State) (k : Fin 6) (g : SteepStation → SteepStation) : (s.modSteep k g).stp = { s.stp with st := updF s.stp.st k g } := rfl
@[simp] theorem State.modSteep_btu (s : State) (k : Fin 6) (g : SteepStation → SteepStation) : (s.modSteep k g).btu = s.btu := rfl
@[simp] theorem State.modSteep_hdp (s : State) (k : Fin 6) (g : SteepStation → SteepStation) : (s.modSteep k g).hdp = s.hdp := rfl
@[simp] theorem State.modSteep_jnl (s : State) (k : Fin 6) (g : SteepStation → SteepStation) : (s.modSteep k g).jnl = s.jnl := rfl
@[simp] theorem State.modSteep_seq (s : State) (k : Fin 6) (g : SteepStation → SteepStation) : (s.modSteep k g).seq = s.seq := rfl
@[simp] theorem State.modSteep_axs (s : State) (k : Fin 6) (g : SteepStation → SteepStation) : (s.modSteep k g).axs = s.axs := rfl
@[simp] theorem State.modSteep_mot (s : State) (k : Fin 6) (g : SteepStation → SteepStation) : (s.modSteep k g).mot = s.mot := rfl
@[simp] theorem State.modSteep_ctl (s : State) (k : Fin 6) (g : SteepStation → SteepStation) : (s.modSteep k g).ctl = s.ctl := rfl
@[simp] theorem State.modSteep_drc (s : State) (k : Fin 6) (g : SteepStation → SteepStation) : (s.modSteep k g).drc = s.drc := rfl
@[simp] theorem State.modSteep_flt (s : State) (k : Fin 6) (g : SteepStation → SteepStation) : (s.modSteep k g).flt = s.flt := rfl
@[simp] theorem State.modSteep_fus (s : State) (k : Fin 6) (g : SteepStation → SteepStation) : (s.modSteep k g).fus = s.fus := rfl
@[simp] theorem State.modSteep_tmp (s : State) (k : Fin 6) (g : SteepStation → SteepStation) : (s.modSteep k g).tmp = s.tmp := rfl
@[simp] theorem State.modDec_pending (s : State) (k : Fin 16) (g : Lane → Lane) : (s.modDec k g).pending = s.pending := rfl
@[simp] theorem State.modDec_now (s : State) (k : Fin 16) (g : Lane → Lane) : (s.modDec k g).now = s.now := rfl
@[simp] theorem State.modDec_free (s : State) (k : Fin 16) (g : Lane → Lane) : (s.modDec k g).free = s.free := rfl
@[simp] theorem State.modDec_out (s : State) (k : Fin 16) (g : Lane → Lane) : (s.modDec k g).out = s.out := rfl
@[simp] theorem State.modDec_sys (s : State) (k : Fin 16) (g : Lane → Lane) : (s.modDec k g).sys = s.sys := rfl
@[simp] theorem State.modDec_pins (s : State) (k : Fin 16) (g : Lane → Lane) : (s.modDec k g).pins = s.pins := rfl
@[simp] theorem State.modDec_clk (s : State) (k : Fin 16) (g : Lane → Lane) : (s.modDec k g).clk = s.clk := rfl
@[simp] theorem State.modDec_hif (s : State) (k : Fin 16) (g : Lane → Lane) : (s.modDec k g).hif = s.hif := rfl
@[simp] theorem State.modDec_mgt (s : State) (k : Fin 16) (g : Lane → Lane) : (s.modDec k g).mgt = s.mgt := rfl
@[simp] theorem State.modDec_sup (s : State) (k : Fin 16) (g : Lane → Lane) : (s.modDec k g).sup = s.sup := rfl
@[simp] theorem State.modDec_ktl (s : State) (k : Fin 16) (g : Lane → Lane) : (s.modDec k g).ktl = s.ktl := rfl
@[simp] theorem State.modDec_led (s : State) (k : Fin 16) (g : Lane → Lane) : (s.modDec k g).led = s.led := rfl
@[simp] theorem State.modDec_cad (s : State) (k : Fin 16) (g : Lane → Lane) : (s.modDec k g).cad = s.cad := rfl
@[simp] theorem State.modDec_cdc (s : State) (k : Fin 16) (g : Lane → Lane) : (s.modDec k g).cdc = { s.cdc with dec := updF s.cdc.dec k g } := rfl
@[simp] theorem State.modDec_stp (s : State) (k : Fin 16) (g : Lane → Lane) : (s.modDec k g).stp = s.stp := rfl
@[simp] theorem State.modDec_btu (s : State) (k : Fin 16) (g : Lane → Lane) : (s.modDec k g).btu = s.btu := rfl
@[simp] theorem State.modDec_hdp (s : State) (k : Fin 16) (g : Lane → Lane) : (s.modDec k g).hdp = s.hdp := rfl
@[simp] theorem State.modDec_jnl (s : State) (k : Fin 16) (g : Lane → Lane) : (s.modDec k g).jnl = s.jnl := rfl
@[simp] theorem State.modDec_seq (s : State) (k : Fin 16) (g : Lane → Lane) : (s.modDec k g).seq = s.seq := rfl
@[simp] theorem State.modDec_axs (s : State) (k : Fin 16) (g : Lane → Lane) : (s.modDec k g).axs = s.axs := rfl
@[simp] theorem State.modDec_mot (s : State) (k : Fin 16) (g : Lane → Lane) : (s.modDec k g).mot = s.mot := rfl
@[simp] theorem State.modDec_ctl (s : State) (k : Fin 16) (g : Lane → Lane) : (s.modDec k g).ctl = s.ctl := rfl
@[simp] theorem State.modDec_drc (s : State) (k : Fin 16) (g : Lane → Lane) : (s.modDec k g).drc = s.drc := rfl
@[simp] theorem State.modDec_flt (s : State) (k : Fin 16) (g : Lane → Lane) : (s.modDec k g).flt = s.flt := rfl
@[simp] theorem State.modDec_fus (s : State) (k : Fin 16) (g : Lane → Lane) : (s.modDec k g).fus = s.fus := rfl
@[simp] theorem State.modDec_tmp (s : State) (k : Fin 16) (g : Lane → Lane) : (s.modDec k g).tmp = s.tmp := rfl
@[simp] theorem State.modEnc_pending (s : State) (k : Fin 12) (g : Lane → Lane) : (s.modEnc k g).pending = s.pending := rfl
@[simp] theorem State.modEnc_now (s : State) (k : Fin 12) (g : Lane → Lane) : (s.modEnc k g).now = s.now := rfl
@[simp] theorem State.modEnc_free (s : State) (k : Fin 12) (g : Lane → Lane) : (s.modEnc k g).free = s.free := rfl
@[simp] theorem State.modEnc_out (s : State) (k : Fin 12) (g : Lane → Lane) : (s.modEnc k g).out = s.out := rfl
@[simp] theorem State.modEnc_sys (s : State) (k : Fin 12) (g : Lane → Lane) : (s.modEnc k g).sys = s.sys := rfl
@[simp] theorem State.modEnc_pins (s : State) (k : Fin 12) (g : Lane → Lane) : (s.modEnc k g).pins = s.pins := rfl
@[simp] theorem State.modEnc_clk (s : State) (k : Fin 12) (g : Lane → Lane) : (s.modEnc k g).clk = s.clk := rfl
@[simp] theorem State.modEnc_hif (s : State) (k : Fin 12) (g : Lane → Lane) : (s.modEnc k g).hif = s.hif := rfl
@[simp] theorem State.modEnc_mgt (s : State) (k : Fin 12) (g : Lane → Lane) : (s.modEnc k g).mgt = s.mgt := rfl
@[simp] theorem State.modEnc_sup (s : State) (k : Fin 12) (g : Lane → Lane) : (s.modEnc k g).sup = s.sup := rfl
@[simp] theorem State.modEnc_ktl (s : State) (k : Fin 12) (g : Lane → Lane) : (s.modEnc k g).ktl = s.ktl := rfl
@[simp] theorem State.modEnc_led (s : State) (k : Fin 12) (g : Lane → Lane) : (s.modEnc k g).led = s.led := rfl
@[simp] theorem State.modEnc_cad (s : State) (k : Fin 12) (g : Lane → Lane) : (s.modEnc k g).cad = s.cad := rfl
@[simp] theorem State.modEnc_cdc (s : State) (k : Fin 12) (g : Lane → Lane) : (s.modEnc k g).cdc = { s.cdc with enc := updF s.cdc.enc k g } := rfl
@[simp] theorem State.modEnc_stp (s : State) (k : Fin 12) (g : Lane → Lane) : (s.modEnc k g).stp = s.stp := rfl
@[simp] theorem State.modEnc_btu (s : State) (k : Fin 12) (g : Lane → Lane) : (s.modEnc k g).btu = s.btu := rfl
@[simp] theorem State.modEnc_hdp (s : State) (k : Fin 12) (g : Lane → Lane) : (s.modEnc k g).hdp = s.hdp := rfl
@[simp] theorem State.modEnc_jnl (s : State) (k : Fin 12) (g : Lane → Lane) : (s.modEnc k g).jnl = s.jnl := rfl
@[simp] theorem State.modEnc_seq (s : State) (k : Fin 12) (g : Lane → Lane) : (s.modEnc k g).seq = s.seq := rfl
@[simp] theorem State.modEnc_axs (s : State) (k : Fin 12) (g : Lane → Lane) : (s.modEnc k g).axs = s.axs := rfl
@[simp] theorem State.modEnc_mot (s : State) (k : Fin 12) (g : Lane → Lane) : (s.modEnc k g).mot = s.mot := rfl
@[simp] theorem State.modEnc_ctl (s : State) (k : Fin 12) (g : Lane → Lane) : (s.modEnc k g).ctl = s.ctl := rfl
@[simp] theorem State.modEnc_drc (s : State) (k : Fin 12) (g : Lane → Lane) : (s.modEnc k g).drc = s.drc := rfl
@[simp] theorem State.modEnc_flt (s : State) (k : Fin 12) (g : Lane → Lane) : (s.modEnc k g).flt = s.flt := rfl
@[simp] theorem State.modEnc_fus (s : State) (k : Fin 12) (g : Lane → Lane) : (s.modEnc k g).fus = s.fus := rfl
@[simp] theorem State.modEnc_tmp (s : State) (k : Fin 12) (g : Lane → Lane) : (s.modEnc k g).tmp = s.tmp := rfl
@[simp] theorem State.modCr_pending (s : State) (k : Fin 4) (g : Ring → Ring) : (s.modCr k g).pending = s.pending := rfl
@[simp] theorem State.modCr_now (s : State) (k : Fin 4) (g : Ring → Ring) : (s.modCr k g).now = s.now := rfl
@[simp] theorem State.modCr_free (s : State) (k : Fin 4) (g : Ring → Ring) : (s.modCr k g).free = s.free := rfl
@[simp] theorem State.modCr_out (s : State) (k : Fin 4) (g : Ring → Ring) : (s.modCr k g).out = s.out := rfl
@[simp] theorem State.modCr_sys (s : State) (k : Fin 4) (g : Ring → Ring) : (s.modCr k g).sys = s.sys := rfl
@[simp] theorem State.modCr_pins (s : State) (k : Fin 4) (g : Ring → Ring) : (s.modCr k g).pins = s.pins := rfl
@[simp] theorem State.modCr_clk (s : State) (k : Fin 4) (g : Ring → Ring) : (s.modCr k g).clk = s.clk := rfl
@[simp] theorem State.modCr_hif (s : State) (k : Fin 4) (g : Ring → Ring) : (s.modCr k g).hif = { s.hif with cr := updF s.hif.cr k g } := rfl
@[simp] theorem State.modCr_mgt (s : State) (k : Fin 4) (g : Ring → Ring) : (s.modCr k g).mgt = s.mgt := rfl
@[simp] theorem State.modCr_sup (s : State) (k : Fin 4) (g : Ring → Ring) : (s.modCr k g).sup = s.sup := rfl
@[simp] theorem State.modCr_ktl (s : State) (k : Fin 4) (g : Ring → Ring) : (s.modCr k g).ktl = s.ktl := rfl
@[simp] theorem State.modCr_led (s : State) (k : Fin 4) (g : Ring → Ring) : (s.modCr k g).led = s.led := rfl
@[simp] theorem State.modCr_cad (s : State) (k : Fin 4) (g : Ring → Ring) : (s.modCr k g).cad = s.cad := rfl
@[simp] theorem State.modCr_cdc (s : State) (k : Fin 4) (g : Ring → Ring) : (s.modCr k g).cdc = s.cdc := rfl
@[simp] theorem State.modCr_stp (s : State) (k : Fin 4) (g : Ring → Ring) : (s.modCr k g).stp = s.stp := rfl
@[simp] theorem State.modCr_btu (s : State) (k : Fin 4) (g : Ring → Ring) : (s.modCr k g).btu = s.btu := rfl
@[simp] theorem State.modCr_hdp (s : State) (k : Fin 4) (g : Ring → Ring) : (s.modCr k g).hdp = s.hdp := rfl
@[simp] theorem State.modCr_jnl (s : State) (k : Fin 4) (g : Ring → Ring) : (s.modCr k g).jnl = s.jnl := rfl
@[simp] theorem State.modCr_seq (s : State) (k : Fin 4) (g : Ring → Ring) : (s.modCr k g).seq = s.seq := rfl
@[simp] theorem State.modCr_axs (s : State) (k : Fin 4) (g : Ring → Ring) : (s.modCr k g).axs = s.axs := rfl
@[simp] theorem State.modCr_mot (s : State) (k : Fin 4) (g : Ring → Ring) : (s.modCr k g).mot = s.mot := rfl
@[simp] theorem State.modCr_ctl (s : State) (k : Fin 4) (g : Ring → Ring) : (s.modCr k g).ctl = s.ctl := rfl
@[simp] theorem State.modCr_drc (s : State) (k : Fin 4) (g : Ring → Ring) : (s.modCr k g).drc = s.drc := rfl
@[simp] theorem State.modCr_flt (s : State) (k : Fin 4) (g : Ring → Ring) : (s.modCr k g).flt = s.flt := rfl
@[simp] theorem State.modCr_fus (s : State) (k : Fin 4) (g : Ring → Ring) : (s.modCr k g).fus = s.fus := rfl
@[simp] theorem State.modCr_tmp (s : State) (k : Fin 4) (g : Ring → Ring) : (s.modCr k g).tmp = s.tmp := rfl
@[simp] theorem State.modIg_pending (s : State) (k : Fin 8) (g : Ring → Ring) : (s.modIg k g).pending = s.pending := rfl
@[simp] theorem State.modIg_now (s : State) (k : Fin 8) (g : Ring → Ring) : (s.modIg k g).now = s.now := rfl
@[simp] theorem State.modIg_free (s : State) (k : Fin 8) (g : Ring → Ring) : (s.modIg k g).free = s.free := rfl
@[simp] theorem State.modIg_out (s : State) (k : Fin 8) (g : Ring → Ring) : (s.modIg k g).out = s.out := rfl
@[simp] theorem State.modIg_sys (s : State) (k : Fin 8) (g : Ring → Ring) : (s.modIg k g).sys = s.sys := rfl
@[simp] theorem State.modIg_pins (s : State) (k : Fin 8) (g : Ring → Ring) : (s.modIg k g).pins = s.pins := rfl
@[simp] theorem State.modIg_clk (s : State) (k : Fin 8) (g : Ring → Ring) : (s.modIg k g).clk = s.clk := rfl
@[simp] theorem State.modIg_hif (s : State) (k : Fin 8) (g : Ring → Ring) : (s.modIg k g).hif = { s.hif with ig := updF s.hif.ig k g } := rfl
@[simp] theorem State.modIg_mgt (s : State) (k : Fin 8) (g : Ring → Ring) : (s.modIg k g).mgt = s.mgt := rfl
@[simp] theorem State.modIg_sup (s : State) (k : Fin 8) (g : Ring → Ring) : (s.modIg k g).sup = s.sup := rfl
@[simp] theorem State.modIg_ktl (s : State) (k : Fin 8) (g : Ring → Ring) : (s.modIg k g).ktl = s.ktl := rfl
@[simp] theorem State.modIg_led (s : State) (k : Fin 8) (g : Ring → Ring) : (s.modIg k g).led = s.led := rfl
@[simp] theorem State.modIg_cad (s : State) (k : Fin 8) (g : Ring → Ring) : (s.modIg k g).cad = s.cad := rfl
@[simp] theorem State.modIg_cdc (s : State) (k : Fin 8) (g : Ring → Ring) : (s.modIg k g).cdc = s.cdc := rfl
@[simp] theorem State.modIg_stp (s : State) (k : Fin 8) (g : Ring → Ring) : (s.modIg k g).stp = s.stp := rfl
@[simp] theorem State.modIg_btu (s : State) (k : Fin 8) (g : Ring → Ring) : (s.modIg k g).btu = s.btu := rfl
@[simp] theorem State.modIg_hdp (s : State) (k : Fin 8) (g : Ring → Ring) : (s.modIg k g).hdp = s.hdp := rfl
@[simp] theorem State.modIg_jnl (s : State) (k : Fin 8) (g : Ring → Ring) : (s.modIg k g).jnl = s.jnl := rfl
@[simp] theorem State.modIg_seq (s : State) (k : Fin 8) (g : Ring → Ring) : (s.modIg k g).seq = s.seq := rfl
@[simp] theorem State.modIg_axs (s : State) (k : Fin 8) (g : Ring → Ring) : (s.modIg k g).axs = s.axs := rfl
@[simp] theorem State.modIg_mot (s : State) (k : Fin 8) (g : Ring → Ring) : (s.modIg k g).mot = s.mot := rfl
@[simp] theorem State.modIg_ctl (s : State) (k : Fin 8) (g : Ring → Ring) : (s.modIg k g).ctl = s.ctl := rfl
@[simp] theorem State.modIg_drc (s : State) (k : Fin 8) (g : Ring → Ring) : (s.modIg k g).drc = s.drc := rfl
@[simp] theorem State.modIg_flt (s : State) (k : Fin 8) (g : Ring → Ring) : (s.modIg k g).flt = s.flt := rfl
@[simp] theorem State.modIg_fus (s : State) (k : Fin 8) (g : Ring → Ring) : (s.modIg k g).fus = s.fus := rfl
@[simp] theorem State.modIg_tmp (s : State) (k : Fin 8) (g : Ring → Ring) : (s.modIg k g).tmp = s.tmp := rfl
@[simp] theorem State.modSheet_pending (s : State) (k : Fin 512) (g : Sheet → Sheet) : (s.modSheet k g).pending = s.pending := rfl
@[simp] theorem State.modSheet_now (s : State) (k : Fin 512) (g : Sheet → Sheet) : (s.modSheet k g).now = s.now := rfl
@[simp] theorem State.modSheet_free (s : State) (k : Fin 512) (g : Sheet → Sheet) : (s.modSheet k g).free = s.free := rfl
@[simp] theorem State.modSheet_out (s : State) (k : Fin 512) (g : Sheet → Sheet) : (s.modSheet k g).out = s.out := rfl
@[simp] theorem State.modSheet_sys (s : State) (k : Fin 512) (g : Sheet → Sheet) : (s.modSheet k g).sys = s.sys := rfl
@[simp] theorem State.modSheet_pins (s : State) (k : Fin 512) (g : Sheet → Sheet) : (s.modSheet k g).pins = s.pins := rfl
@[simp] theorem State.modSheet_clk (s : State) (k : Fin 512) (g : Sheet → Sheet) : (s.modSheet k g).clk = s.clk := rfl
@[simp] theorem State.modSheet_hif (s : State) (k : Fin 512) (g : Sheet → Sheet) : (s.modSheet k g).hif = s.hif := rfl
@[simp] theorem State.modSheet_mgt (s : State) (k : Fin 512) (g : Sheet → Sheet) : (s.modSheet k g).mgt = s.mgt := rfl
@[simp] theorem State.modSheet_sup (s : State) (k : Fin 512) (g : Sheet → Sheet) : (s.modSheet k g).sup = s.sup := rfl
@[simp] theorem State.modSheet_ktl (s : State) (k : Fin 512) (g : Sheet → Sheet) : (s.modSheet k g).ktl = s.ktl := rfl
@[simp] theorem State.modSheet_led (s : State) (k : Fin 512) (g : Sheet → Sheet) : (s.modSheet k g).led = { s.led with entries := updF s.led.entries k (Option.map g) } := rfl
@[simp] theorem State.modSheet_cad (s : State) (k : Fin 512) (g : Sheet → Sheet) : (s.modSheet k g).cad = s.cad := rfl
@[simp] theorem State.modSheet_cdc (s : State) (k : Fin 512) (g : Sheet → Sheet) : (s.modSheet k g).cdc = s.cdc := rfl
@[simp] theorem State.modSheet_stp (s : State) (k : Fin 512) (g : Sheet → Sheet) : (s.modSheet k g).stp = s.stp := rfl
@[simp] theorem State.modSheet_btu (s : State) (k : Fin 512) (g : Sheet → Sheet) : (s.modSheet k g).btu = s.btu := rfl
@[simp] theorem State.modSheet_hdp (s : State) (k : Fin 512) (g : Sheet → Sheet) : (s.modSheet k g).hdp = s.hdp := rfl
@[simp] theorem State.modSheet_jnl (s : State) (k : Fin 512) (g : Sheet → Sheet) : (s.modSheet k g).jnl = s.jnl := rfl
@[simp] theorem State.modSheet_seq (s : State) (k : Fin 512) (g : Sheet → Sheet) : (s.modSheet k g).seq = s.seq := rfl
@[simp] theorem State.modSheet_axs (s : State) (k : Fin 512) (g : Sheet → Sheet) : (s.modSheet k g).axs = s.axs := rfl
@[simp] theorem State.modSheet_mot (s : State) (k : Fin 512) (g : Sheet → Sheet) : (s.modSheet k g).mot = s.mot := rfl
@[simp] theorem State.modSheet_ctl (s : State) (k : Fin 512) (g : Sheet → Sheet) : (s.modSheet k g).ctl = s.ctl := rfl
@[simp] theorem State.modSheet_drc (s : State) (k : Fin 512) (g : Sheet → Sheet) : (s.modSheet k g).drc = s.drc := rfl
@[simp] theorem State.modSheet_flt (s : State) (k : Fin 512) (g : Sheet → Sheet) : (s.modSheet k g).flt = s.flt := rfl
@[simp] theorem State.modSheet_fus (s : State) (k : Fin 512) (g : Sheet → Sheet) : (s.modSheet k g).fus = s.fus := rfl
@[simp] theorem State.modSheet_tmp (s : State) (k : Fin 512) (g : Sheet → Sheet) : (s.modSheet k g).tmp = s.tmp := rfl
@[simp] theorem State.drawn_pending (s : State) : (s.drawn).pending = s.pending := rfl
@[simp] theorem State.drawn_now (s : State) : (s.drawn).now = s.now := rfl
@[simp] theorem State.drawn_free (s : State) : (s.drawn).free = s.free + 1 := rfl
@[simp] theorem State.drawn_out (s : State) : (s.drawn).out = s.out := rfl
@[simp] theorem State.drawn_sys (s : State) : (s.drawn).sys = s.sys := rfl
@[simp] theorem State.drawn_pins (s : State) : (s.drawn).pins = s.pins := rfl
@[simp] theorem State.drawn_clk (s : State) : (s.drawn).clk = s.clk := rfl
@[simp] theorem State.drawn_hif (s : State) : (s.drawn).hif = s.hif := rfl
@[simp] theorem State.drawn_mgt (s : State) : (s.drawn).mgt = s.mgt := rfl
@[simp] theorem State.drawn_sup (s : State) : (s.drawn).sup = s.sup := rfl
@[simp] theorem State.drawn_ktl (s : State) : (s.drawn).ktl = s.ktl := rfl
@[simp] theorem State.drawn_led (s : State) : (s.drawn).led = s.led := rfl
@[simp] theorem State.drawn_cad (s : State) : (s.drawn).cad = s.cad := rfl
@[simp] theorem State.drawn_cdc (s : State) : (s.drawn).cdc = s.cdc := rfl
@[simp] theorem State.drawn_stp (s : State) : (s.drawn).stp = s.stp := rfl
@[simp] theorem State.drawn_btu (s : State) : (s.drawn).btu = s.btu := rfl
@[simp] theorem State.drawn_hdp (s : State) : (s.drawn).hdp = s.hdp := rfl
@[simp] theorem State.drawn_jnl (s : State) : (s.drawn).jnl = s.jnl := rfl
@[simp] theorem State.drawn_seq (s : State) : (s.drawn).seq = s.seq := rfl
@[simp] theorem State.drawn_axs (s : State) : (s.drawn).axs = s.axs := rfl
@[simp] theorem State.drawn_mot (s : State) : (s.drawn).mot = s.mot := rfl
@[simp] theorem State.drawn_ctl (s : State) : (s.drawn).ctl = s.ctl := rfl
@[simp] theorem State.drawn_drc (s : State) : (s.drawn).drc = s.drc := rfl
@[simp] theorem State.drawn_flt (s : State) : (s.drawn).flt = s.flt := rfl
@[simp] theorem State.drawn_fus (s : State) : (s.drawn).fus = s.fus := rfl
@[simp] theorem State.drawn_tmp (s : State) : (s.drawn).tmp = s.tmp := rfl

end Sys2Proof.Machine
end

