-- ==== Sys2Proof/Laws/Commands.lean ====
section
/-!
SUPPORT. What happens to a packet that is accepted: an opcode whose packet passes its checks runs at once, and answers or
parks.
-/

namespace Sys2Proof.Machine

-- one proof after the other: the whole package is one text, and proofs in parallel ask for a thread each
set_option Elab.async false

open Sys2Proof.Safety

/-- A packet that passes checks 1 to 5 goes on, with its sequence stored. -/
theorem accept_pass {s : State} {sp : OpSpec} {raw : List Byte} {c : Cmd}
    (h4 : entryFault (some sp) raw c.src c.signed = none) (h5 : duplicate s c = none) :
    accept s (some sp) raw c = (true, remember s c) := by
  simp only [accept, checked, h4, h5]

/-- A packet that passes checks 1 to 5 starts at once when nothing stands before it. -/
theorem direct_starts {sp : OpSpec} {c : Cmd} {s : State} (h1 : kettleUp s = true) (h2 : s.ktl.intake = [])
    (h3 : mayStart s c = true) (h4 : entryFault (some sp) (Cmd.packet c sp.op) c.src c.signed = none)
    (h5 : duplicate (arrive s c) c = none) : direct sp c s = startCommand sp c (begun s c) := by
  unfold direct
  rw [accept_pass h4 h5]
  simp [h1, h2, h3, begun]

/-- An accepted packet that answers at once. -/
theorem direct_reply {sp : OpSpec} {c : Cmd} {s t : State} {r : Res} (h : Accepted sp c s)
    (hr : sp.run c (begun s c) = .reply t r) : direct sp c s = answered t c r := by
  obtain ⟨h1, h2, h3, h4, h5, h6, h7⟩ := h
  rw [direct_starts h1 h2 h3 h4 h5]
  simp [startCommand, runCommand, answered, deliverLate, h6, h7, hr]

/-- An accepted packet whose command parks. -/
theorem direct_park {sp : OpSpec} {c : Cmd} {s t : State} {w : Wait} {r : Option Res} (h : Accepted sp c s)
    (hr : sp.run c (begun s c) = .park t w r) : direct sp c s = parked t sp.op c w r := by
  obtain ⟨h1, h2, h3, h4, h5, h6, h7⟩ := h
  rw [direct_starts h1 h2 h3 h4 h5]
  simp [startCommand, runCommand, parked, h6, h7, hr]

/-- What an accepted packet leaves is what its opcode decides. -/
theorem direct_finished {sp : OpSpec} {c : Cmd} {s : State} (h : Accepted sp c s) :
    direct sp c s = finished sp c (sp.run c (begun s c)) := by
  cases hv : sp.run c (begun s c) with
  | reply t r => exact direct_reply h hv
  | park t w r => exact direct_park h hv

/-- A packet that fails check 6, or that comes while 8 long commands are parked, has no effect beyond its reply. -/
theorem direct_startFault {sp : OpSpec} {c : Cmd} {s : State} {r : Res} (h1 : kettleUp s = true)
    (h2 : s.ktl.intake = []) (h3 : mayStart s c = true)
    (h4 : entryFault (some sp) (Cmd.packet c sp.op) c.src c.signed = none) (h5 : duplicate (arrive s c) c = none)
    (h6 : startFault sp (begun s c) = some r) : direct sp c s = answered (begun s c) c r := by
  rw [direct_starts h1 h2 h3 h4 h5]
  simp [startCommand, h6, answered]

/-- A packet is put in the intake while another stands before it and a place is free. -/
theorem direct_waits {sp : OpSpec} {c : Cmd} {s : State} (h1 : kettleUp s = true) (h2 : s.ktl.intake ≠ [])
    (h3 : intakeRoom s = true) (h4 : entryFault (some sp) (Cmd.packet c sp.op) c.src c.signed = none)
    (h5 : duplicate (arrive s c) c = none) :
    direct sp c s = (begun s c).modKtl fun k => { k with intake := k.intake ++ [Cmd.asPacket c sp.op .held] } := by
  unfold direct
  rw [accept_pass h4 h5]
  simp [h1, h2, h3, begun]

/-! ## What has begun -/

theorem begun_parts (s : State) (c : Cmd) : ∃ hif mgt sup ktl,
    begun s c = { s with hif := hif, mgt := mgt, sup := sup, ktl := ktl } := by
  cases c with | mk src flags tag deadline seq params indirect block signed reads =>
  unfold begun remember
  cases src <;> dsimp only [arrive] <;> split <;> exact ⟨_, _, _, _, rfl⟩

@[simp] theorem begun_pending (s : State) (c : Cmd) : (begun s c).pending = s.pending := by
  obtain ⟨_, _, _, _, h⟩ := begun_parts s c; rw [h]
@[simp] theorem begun_now (s : State) (c : Cmd) : (begun s c).now = s.now := by
  obtain ⟨_, _, _, _, h⟩ := begun_parts s c; rw [h]
@[simp] theorem begun_free (s : State) (c : Cmd) : (begun s c).free = s.free := by
  obtain ⟨_, _, _, _, h⟩ := begun_parts s c; rw [h]
@[simp] theorem begun_out (s : State) (c : Cmd) : (begun s c).out = s.out := by
  obtain ⟨_, _, _, _, h⟩ := begun_parts s c; rw [h]
@[simp] theorem begun_sys (s : State) (c : Cmd) : (begun s c).sys = s.sys := by
  obtain ⟨_, _, _, _, h⟩ := begun_parts s c; rw [h]
@[simp] theorem begun_pins (s : State) (c : Cmd) : (begun s c).pins = s.pins := by
  obtain ⟨_, _, _, _, h⟩ := begun_parts s c; rw [h]
@[simp] theorem begun_clk (s : State) (c : Cmd) : (begun s c).clk = s.clk := by
  obtain ⟨_, _, _, _, h⟩ := begun_parts s c; rw [h]
@[simp] theorem begun_led (s : State) (c : Cmd) : (begun s c).led = s.led := by
  obtain ⟨_, _, _, _, h⟩ := begun_parts s c; rw [h]
@[simp] theorem begun_cad (s : State) (c : Cmd) : (begun s c).cad = s.cad := by
  obtain ⟨_, _, _, _, h⟩ := begun_parts s c; rw [h]
@[simp] theorem begun_cdc (s : State) (c : Cmd) : (begun s c).cdc = s.cdc := by
  obtain ⟨_, _, _, _, h⟩ := begun_parts s c; rw [h]
@[simp] theorem begun_stp (s : State) (c : Cmd) : (begun s c).stp = s.stp := by
  obtain ⟨_, _, _, _, h⟩ := begun_parts s c; rw [h]
@[simp] theorem begun_btu (s : State) (c : Cmd) : (begun s c).btu = s.btu := by
  obtain ⟨_, _, _, _, h⟩ := begun_parts s c; rw [h]
@[simp] theorem begun_hdp (s : State) (c : Cmd) : (begun s c).hdp = s.hdp := by
  obtain ⟨_, _, _, _, h⟩ := begun_parts s c; rw [h]
@[simp] theorem begun_jnl (s : State) (c : Cmd) : (begun s c).jnl = s.jnl := by
  obtain ⟨_, _, _, _, h⟩ := begun_parts s c; rw [h]
@[simp] theorem begun_seq (s : State) (c : Cmd) : (begun s c).seq = s.seq := by
  obtain ⟨_, _, _, _, h⟩ := begun_parts s c; rw [h]
@[simp] theorem begun_axs (s : State) (c : Cmd) : (begun s c).axs = s.axs := by
  obtain ⟨_, _, _, _, h⟩ := begun_parts s c; rw [h]
@[simp] theorem begun_mot (s : State) (c : Cmd) : (begun s c).mot = s.mot := by
  obtain ⟨_, _, _, _, h⟩ := begun_parts s c; rw [h]
@[simp] theorem begun_ctl (s : State) (c : Cmd) : (begun s c).ctl = s.ctl := by
  obtain ⟨_, _, _, _, h⟩ := begun_parts s c; rw [h]
@[simp] theorem begun_drc (s : State) (c : Cmd) : (begun s c).drc = s.drc := by
  obtain ⟨_, _, _, _, h⟩ := begun_parts s c; rw [h]
@[simp] theorem begun_flt (s : State) (c : Cmd) : (begun s c).flt = s.flt := by
  obtain ⟨_, _, _, _, h⟩ := begun_parts s c; rw [h]
@[simp] theorem begun_fus (s : State) (c : Cmd) : (begun s c).fus = s.fus := by
  obtain ⟨_, _, _, _, h⟩ := begun_parts s c; rw [h]
@[simp] theorem begun_tmp (s : State) (c : Cmd) : (begun s c).tmp = s.tmp := by
  obtain ⟨_, _, _, _, h⟩ := begun_parts s c; rw [h]

/-! ## What has finished: the reply touches the ports, the duplicate stores and the outputs -/

@[simp] theorem answered_view {vp : Part} (t : State) (c : Cmd) (r : Res) (h_out : vp ≠ .out) (h_hif : vp ≠ .hif)
    (h_mgt : vp ≠ .mgt) (h_sup : vp ≠ .sup) (h_ktl : vp ≠ .ktl) : view vp (answered t c r) = view vp t := by
  simp [answered, h_out, h_hif, h_mgt, h_sup, h_ktl]

@[simp] theorem parked_view {vp : Part} (t : State) (op : Nat) (c : Cmd) (w : Wait) (r : Option Res)
    (h_ktl : vp ≠ .ktl) : view vp (parked t op c w r) = view vp t := by
  simp [parked, h_ktl]

@[simp] theorem finished_view {vp : Part} (sp : OpSpec) (c : Cmd) (v : Verdict) (h_out : vp ≠ .out) (h_hif : vp ≠ .hif)
    (h_mgt : vp ≠ .mgt) (h_sup : vp ≠ .sup) (h_ktl : vp ≠ .ktl) : view vp (finished sp c v) = view vp v.state := by
  cases v <;> simp [finished, h_out, h_hif, h_mgt, h_sup, h_ktl]

/-! ## Parts and views: the same view is the same field -/

theorem same_pending {s t : State} (h : view .pending t = view .pending s) : t.pending = s.pending := by have := congrArg State.pending h; exact this
theorem same_now {s t : State} (h : view .now t = view .now s) : t.now = s.now := by have := congrArg State.now h; exact this
theorem same_free {s t : State} (h : view .free t = view .free s) : t.free = s.free := by have := congrArg State.free h; exact this
theorem same_out {s t : State} (h : view .out t = view .out s) : t.out = s.out := by have := congrArg State.out h; exact this
theorem same_sys {s t : State} (h : view .sys t = view .sys s) : t.sys = s.sys := by have := congrArg State.sys h; exact this
theorem same_pins {s t : State} (h : view .pins t = view .pins s) : t.pins = s.pins := by have := congrArg State.pins h; exact this
theorem same_clk {s t : State} (h : view .clk t = view .clk s) : t.clk = s.clk := by have := congrArg State.clk h; exact this
theorem same_hif {s t : State} (h : view .hif t = view .hif s) : t.hif = s.hif := by have := congrArg State.hif h; exact this
theorem same_mgt {s t : State} (h : view .mgt t = view .mgt s) : t.mgt = s.mgt := by have := congrArg State.mgt h; exact this
theorem same_sup {s t : State} (h : view .sup t = view .sup s) : t.sup = s.sup := by have := congrArg State.sup h; exact this
theorem same_ktl {s t : State} (h : view .ktl t = view .ktl s) : t.ktl = s.ktl := by have := congrArg State.ktl h; exact this
theorem same_led {s t : State} (h : view .led t = view .led s) : t.led = s.led := by have := congrArg State.led h; exact this
theorem same_cad {s t : State} (h : view .cad t = view .cad s) : t.cad = s.cad := by have := congrArg State.cad h; exact this
theorem same_cdc {s t : State} (h : view .cdc t = view .cdc s) : t.cdc = s.cdc := by have := congrArg State.cdc h; exact this
theorem same_stp {s t : State} (h : view .stp t = view .stp s) : t.stp = s.stp := by have := congrArg State.stp h; exact this
theorem same_btu {s t : State} (h : view .btu t = view .btu s) : t.btu = s.btu := by have := congrArg State.btu h; exact this
theorem same_hdp {s t : State} (h : view .hdp t = view .hdp s) : t.hdp = s.hdp := by have := congrArg State.hdp h; exact this
theorem same_jnl {s t : State} (h : view .jnl t = view .jnl s) : t.jnl = s.jnl := by have := congrArg State.jnl h; exact this
theorem same_seq {s t : State} (h : view .seq t = view .seq s) : t.seq = s.seq := by have := congrArg State.seq h; exact this
theorem same_axs {s t : State} (h : view .axs t = view .axs s) : t.axs = s.axs := by have := congrArg State.axs h; exact this
theorem same_mot {s t : State} (h : view .mot t = view .mot s) : t.mot = s.mot := by have := congrArg State.mot h; exact this
theorem same_ctl {s t : State} (h : view .ctl t = view .ctl s) : t.ctl = s.ctl := by have := congrArg State.ctl h; exact this
theorem same_drc {s t : State} (h : view .drc t = view .drc s) : t.drc = s.drc := by have := congrArg State.drc h; exact this
theorem same_flt {s t : State} (h : view .flt t = view .flt s) : t.flt = s.flt := by have := congrArg State.flt h; exact this
theorem same_fus {s t : State} (h : view .fus t = view .fus s) : t.fus = s.fus := by have := congrArg State.fus h; exact this
theorem same_tmp {s t : State} (h : view .tmp t = view .tmp s) : t.tmp = s.tmp := by have := congrArg State.tmp h; exact this

@[simp] theorem answered_pending (t : State) (c : Cmd) (r : Res) : (answered t c r).pending = t.pending :=
  same_pending (answered_view t c r (by decide) (by decide) (by decide) (by decide) (by decide))
@[simp] theorem answered_now (t : State) (c : Cmd) (r : Res) : (answered t c r).now = t.now :=
  same_now (answered_view t c r (by decide) (by decide) (by decide) (by decide) (by decide))
@[simp] theorem answered_free (t : State) (c : Cmd) (r : Res) : (answered t c r).free = t.free :=
  same_free (answered_view t c r (by decide) (by decide) (by decide) (by decide) (by decide))
@[simp] theorem answered_sys (t : State) (c : Cmd) (r : Res) : (answered t c r).sys = t.sys :=
  same_sys (answered_view t c r (by decide) (by decide) (by decide) (by decide) (by decide))
@[simp] theorem answered_pins (t : State) (c : Cmd) (r : Res) : (answered t c r).pins = t.pins :=
  same_pins (answered_view t c r (by decide) (by decide) (by decide) (by decide) (by decide))
@[simp] theorem answered_clk (t : State) (c : Cmd) (r : Res) : (answered t c r).clk = t.clk :=
  same_clk (answered_view t c r (by decide) (by decide) (by decide) (by decide) (by decide))
@[simp] theorem answered_led (t : State) (c : Cmd) (r : Res) : (answered t c r).led = t.led :=
  same_led (answered_view t c r (by decide) (by decide) (by decide) (by decide) (by decide))
@[simp] theorem answered_cad (t : State) (c : Cmd) (r : Res) : (answered t c r).cad = t.cad :=
  same_cad (answered_view t c r (by decide) (by decide) (by decide) (by decide) (by decide))
@[simp] theorem answered_cdc (t : State) (c : Cmd) (r : Res) : (answered t c r).cdc = t.cdc :=
  same_cdc (answered_view t c r (by decide) (by decide) (by decide) (by decide) (by decide))
@[simp] theorem answered_stp (t : State) (c : Cmd) (r : Res) : (answered t c r).stp = t.stp :=
  same_stp (answered_view t c r (by decide) (by decide) (by decide) (by decide) (by decide))
@[simp] theorem answered_btu (t : State) (c : Cmd) (r : Res) : (answered t c r).btu = t.btu :=
  same_btu (answered_view t c r (by decide) (by decide) (by decide) (by decide) (by decide))
@[simp] theorem answered_hdp (t : State) (c : Cmd) (r : Res) : (answered t c r).hdp = t.hdp :=
  same_hdp (answered_view t c r (by decide) (by decide) (by decide) (by decide) (by decide))
@[simp] theorem answered_jnl (t : State) (c : Cmd) (r : Res) : (answered t c r).jnl = t.jnl :=
  same_jnl (answered_view t c r (by decide) (by decide) (by decide) (by decide) (by decide))
@[simp] theorem answered_seq (t : State) (c : Cmd) (r : Res) : (answered t c r).seq = t.seq :=
  same_seq (answered_view t c r (by decide) (by decide) (by decide) (by decide) (by decide))
@[simp] theorem answered_axs (t : State) (c : Cmd) (r : Res) : (answered t c r).axs = t.axs :=
  same_axs (answered_view t c r (by decide) (by decide) (by decide) (by decide) (by decide))
@[simp] theorem answered_mot (t : State) (c : Cmd) (r : Res) : (answered t c r).mot = t.mot :=
  same_mot (answered_view t c r (by decide) (by decide) (by decide) (by decide) (by decide))
@[simp] theorem answered_ctl (t : State) (c : Cmd) (r : Res) : (answered t c r).ctl = t.ctl :=
  same_ctl (answered_view t c r (by decide) (by decide) (by decide) (by decide) (by decide))
@[simp] theorem answered_drc (t : State) (c : Cmd) (r : Res) : (answered t c r).drc = t.drc :=
  same_drc (answered_view t c r (by decide) (by decide) (by decide) (by decide) (by decide))
@[simp] theorem answered_flt (t : State) (c : Cmd) (r : Res) : (answered t c r).flt = t.flt :=
  same_flt (answered_view t c r (by decide) (by decide) (by decide) (by decide) (by decide))
@[simp] theorem answered_fus (t : State) (c : Cmd) (r : Res) : (answered t c r).fus = t.fus :=
  same_fus (answered_view t c r (by decide) (by decide) (by decide) (by decide) (by decide))
@[simp] theorem answered_tmp (t : State) (c : Cmd) (r : Res) : (answered t c r).tmp = t.tmp :=
  same_tmp (answered_view t c r (by decide) (by decide) (by decide) (by decide) (by decide))
@[simp] theorem finished_pending (sp : OpSpec) (c : Cmd) (v : Verdict) : (finished sp c v).pending = v.state.pending :=
  same_pending (finished_view sp c v (by decide) (by decide) (by decide) (by decide) (by decide))
@[simp] theorem finished_now (sp : OpSpec) (c : Cmd) (v : Verdict) : (finished sp c v).now = v.state.now :=
  same_now (finished_view sp c v (by decide) (by decide) (by decide) (by decide) (by decide))
@[simp] theorem finished_free (sp : OpSpec) (c : Cmd) (v : Verdict) : (finished sp c v).free = v.state.free :=
  same_free (finished_view sp c v (by decide) (by decide) (by decide) (by decide) (by decide))
@[simp] theorem finished_sys (sp : OpSpec) (c : Cmd) (v : Verdict) : (finished sp c v).sys = v.state.sys :=
  same_sys (finished_view sp c v (by decide) (by decide) (by decide) (by decide) (by decide))
@[simp] theorem finished_pins (sp : OpSpec) (c : Cmd) (v : Verdict) : (finished sp c v).pins = v.state.pins :=
  same_pins (finished_view sp c v (by decide) (by decide) (by decide) (by decide) (by decide))
@[simp] theorem finished_clk (sp : OpSpec) (c : Cmd) (v : Verdict) : (finished sp c v).clk = v.state.clk :=
  same_clk (finished_view sp c v (by decide) (by decide) (by decide) (by decide) (by decide))
@[simp] theorem finished_led (sp : OpSpec) (c : Cmd) (v : Verdict) : (finished sp c v).led = v.state.led :=
  same_led (finished_view sp c v (by decide) (by decide) (by decide) (by decide) (by decide))
@[simp] theorem finished_cad (sp : OpSpec) (c : Cmd) (v : Verdict) : (finished sp c v).cad = v.state.cad :=
  same_cad (finished_view sp c v (by decide) (by decide) (by decide) (by decide) (by decide))
@[simp] theorem finished_cdc (sp : OpSpec) (c : Cmd) (v : Verdict) : (finished sp c v).cdc = v.state.cdc :=
  same_cdc (finished_view sp c v (by decide) (by decide) (by decide) (by decide) (by decide))
@[simp] theorem finished_stp (sp : OpSpec) (c : Cmd) (v : Verdict) : (finished sp c v).stp = v.state.stp :=
  same_stp (finished_view sp c v (by decide) (by decide) (by decide) (by decide) (by decide))
@[simp] theorem finished_btu (sp : OpSpec) (c : Cmd) (v : Verdict) : (finished sp c v).btu = v.state.btu :=
  same_btu (finished_view sp c v (by decide) (by decide) (by decide) (by decide) (by decide))
@[simp] theorem finished_hdp (sp : OpSpec) (c : Cmd) (v : Verdict) : (finished sp c v).hdp = v.state.hdp :=
  same_hdp (finished_view sp c v (by decide) (by decide) (by decide) (by decide) (by decide))
@[simp] theorem finished_jnl (sp : OpSpec) (c : Cmd) (v : Verdict) : (finished sp c v).jnl = v.state.jnl :=
  same_jnl (finished_view sp c v (by decide) (by decide) (by decide) (by decide) (by decide))
@[simp] theorem finished_seq (sp : OpSpec) (c : Cmd) (v : Verdict) : (finished sp c v).seq = v.state.seq :=
  same_seq (finished_view sp c v (by decide) (by decide) (by decide) (by decide) (by decide))
@[simp] theorem finished_axs (sp : OpSpec) (c : Cmd) (v : Verdict) : (finished sp c v).axs = v.state.axs :=
  same_axs (finished_view sp c v (by decide) (by decide) (by decide) (by decide) (by decide))
@[simp] theorem finished_mot (sp : OpSpec) (c : Cmd) (v : Verdict) : (finished sp c v).mot = v.state.mot :=
  same_mot (finished_view sp c v (by decide) (by decide) (by decide) (by decide) (by decide))
@[simp] theorem finished_ctl (sp : OpSpec) (c : Cmd) (v : Verdict) : (finished sp c v).ctl = v.state.ctl :=
  same_ctl (finished_view sp c v (by decide) (by decide) (by decide) (by decide) (by decide))
@[simp] theorem finished_drc (sp : OpSpec) (c : Cmd) (v : Verdict) : (finished sp c v).drc = v.state.drc :=
  same_drc (finished_view sp c v (by decide) (by decide) (by decide) (by decide) (by decide))
@[simp] theorem finished_flt (sp : OpSpec) (c : Cmd) (v : Verdict) : (finished sp c v).flt = v.state.flt :=
  same_flt (finished_view sp c v (by decide) (by decide) (by decide) (by decide) (by decide))
@[simp] theorem finished_fus (sp : OpSpec) (c : Cmd) (v : Verdict) : (finished sp c v).fus = v.state.fus :=
  same_fus (finished_view sp c v (by decide) (by decide) (by decide) (by decide) (by decide))
@[simp] theorem finished_tmp (sp : OpSpec) (c : Cmd) (v : Verdict) : (finished sp c v).tmp = v.state.tmp :=
  same_tmp (finished_view sp c v (by decide) (by decide) (by decide) (by decide) (by decide))

end Sys2Proof.Machine
end

