-- ==== Sys2Proof/Laws/Flash.lean ====
section
/-!
SUPPORT. The journal flash: every operation keeps the canonical form, a byte set reads as set, and programming only clears
bits.
-/

namespace Sys2Proof.Machine

-- one proof after the other: the whole package is one text, and proofs in parallel ask for a thread each
set_option Elab.async false

/-- Every address that `flashSet` lists is the one set or one listed before. -/
theorem flashSet_mem {l : List (Nat × Byte)} {a : Nat} {v : Byte} {x : Nat × Byte} (h : x ∈ flashSet l a v) :
    x = (a, v) ∧ v ≠ 0xFF ∨ x ∈ l := by
  induction l with
  | nil =>
    unfold flashSet at h
    split at h
    · simp at h
    · rename_i hv; simp at h; exact .inl ⟨h, hv⟩
  | cons y t ih =>
    unfold flashSet at h
    split at h
    · split at h
      · exact .inr h
      · rename_i hv
        rcases List.mem_cons.mp h with h | h
        · exact .inl ⟨h, hv⟩
        · exact .inr h
    · split at h
      · split at h
        · exact .inr (List.mem_cons_of_mem _ h)
        · rename_i hv
          rcases List.mem_cons.mp h with h | h
          · exact .inl ⟨h, hv⟩
          · exact .inr (List.mem_cons_of_mem _ h)
      · rcases List.mem_cons.mp h with h | h
        · exact .inr (h ▸ List.mem_cons_self)
        · rcases ih h with h | h
          · exact .inl h
          · exact .inr (List.mem_cons_of_mem _ h)

theorem flashSet_sorted {l : List (Nat × Byte)} (a : Nat) (v : Byte) (h : l.Pairwise fun x y => x.1 < y.1) :
    (flashSet l a v).Pairwise fun x y => x.1 < y.1 := by
  induction l with
  | nil => unfold flashSet; split <;> simp
  | cons y t ih =>
    obtain ⟨hy, ht⟩ := List.pairwise_cons.mp h
    unfold flashSet
    split
    · rename_i hlt
      split
      · exact h
      · refine List.pairwise_cons.mpr ⟨fun z hz => ?_, h⟩
        rcases List.mem_cons.mp hz with rfl | hz
        · exact hlt
        · exact Nat.lt_trans hlt (hy z hz)
    · split
      · rename_i he
        split
        · exact ht
        · exact List.pairwise_cons.mpr ⟨fun z hz => by simpa [he] using hy z hz, ht⟩
      · refine List.pairwise_cons.mpr ⟨fun z hz => ?_, ih ht⟩
        rcases flashSet_mem hz with ⟨rfl, _⟩ | hz
        · simp only; omega
        · exact hy z hz

/-- Setting a byte keeps the canonical form. -/
theorem flashSet_wf {l : List (Nat × Byte)} (a : Nat) (v : Byte) (h : flashWf l) : flashWf (flashSet l a v) := by
  refine ⟨flashSet_sorted a v h.1, fun x hx => ?_⟩
  rcases flashSet_mem hx with ⟨rfl, hv⟩ | hx
  · exact hv
  · exact h.2 x hx

/-- Programming keeps the canonical form. -/
theorem flashProgram_wf {l : List (Nat × Byte)} (a : Nat) (bs : List Byte) (h : flashWf l) :
    flashWf (flashProgram l a bs) := by
  induction bs generalizing l a with
  | nil => exact h
  | cons b bs ih => exact ih (a + 1) (flashSet_wf _ _ h)

/-- Erasing keeps the canonical form. -/
theorem flashErase_wf {l : List (Nat × Byte)} (sector : Nat) (h : flashWf l) : flashWf (flashErase l sector) :=
  ⟨h.1.filter _, fun x hx => h.2 x (List.mem_filter.mp hx).1⟩

/-- An address below every listed one reads erased. -/
theorem flashGet_below {l : List (Nat × Byte)} {a : Nat} (h : ∀ x ∈ l, a < x.1) : flashGet l a = 0xFF := by
  induction l with
  | nil => rfl
  | cons y t ih =>
    have hy := h y List.mem_cons_self
    unfold flashGet
    rw [if_neg (by omega)]
    exact ih fun x hx => h x (List.mem_cons_of_mem _ hx)

/-- The byte set reads as set, and every other address reads as before. -/
theorem flashGet_set {l : List (Nat × Byte)} (a b : Nat) (v : Byte) (h : l.Pairwise fun x y => x.1 < y.1) :
    flashGet (flashSet l a v) b = if b = a then v else flashGet l b := by
  induction l with
  | nil => unfold flashSet; split <;> by_cases hb : b = a <;> simp_all [flashGet]
  | cons y t ih =>
    obtain ⟨hy, ht⟩ := List.pairwise_cons.mp h
    unfold flashSet
    split
    · rename_i hlt
      split
      · rename_i hv
        by_cases hb : b = a
        · subst hb
          rw [if_pos rfl, hv]
          refine flashGet_below fun x hx => ?_
          rcases List.mem_cons.mp hx with rfl | hx
          · exact hlt
          · exact Nat.lt_trans hlt (hy x hx)
        · rw [if_neg hb]
      · by_cases hb : b = a <;> simp [flashGet, hb]
    · split
      · rename_i he
        split
        · rename_i hv
          by_cases hb : b = a
          · subst hb
            rw [if_pos rfl, hv]
            exact flashGet_below fun x hx => he ▸ hy x hx
          · rw [if_neg hb, flashGet, if_neg (by omega)]
        · by_cases hb : b = a
          · simp [flashGet, hb]
          · rw [if_neg hb, flashGet, flashGet, if_neg hb, if_neg (by omega)]
      · rename_i hne
        rw [flashGet, flashGet, ih ht]
        by_cases hb : b = y.1
        · rw [if_pos hb, if_pos hb, if_neg (by omega)]
        · rw [if_neg hb, if_neg hb]

/-- Erasing a sector makes its addresses read erased. -/
theorem flashGet_erase {l : List (Nat × Byte)} (sector a : Nat) (h : a / 4096 = sector) :
    flashGet (flashErase l sector) a = 0xFF := by
  induction l with
  | nil => rfl
  | cons y t ih =>
    unfold flashErase at *
    rw [List.filter_cons]
    split
    · rename_i hk
      have hne : a ≠ y.1 := by rintro rfl; simp [h] at hk
      rw [flashGet, if_neg hne, ih]
    · exact ih

/-- Erasing a sector leaves every address of another as it was. -/
theorem flashGet_erase_other {l : List (Nat × Byte)} (sector a : Nat) (h : a / 4096 ≠ sector) :
    flashGet (flashErase l sector) a = flashGet l a := by
  induction l with
  | nil => rfl
  | cons y t ih =>
    unfold flashErase at *
    rw [List.filter_cons]
    split
    · rw [flashGet, flashGet, ih]
    · rename_i hk
      have hne : a ≠ y.1 := by rintro rfl; simp [h] at hk
      rw [flashGet, if_neg hne, ih]

end Sys2Proof.Machine
end

