-- ==== Sys2Proof/Laws/Vectors.lean ====
section
/-! SUPPORT. Reading an entry of a vector after an update of one. -/

namespace Sys2Proof.Machine

@[simp] theorem updF_get_same {α : Type} {n : Nat} (v : Vector α n) (i : Fin n) (f : α → α) : (updF v i f)[i] = f v[i] := by
  simp [updF]

@[simp] theorem updF_get_val {α : Type} {n : Nat} (v : Vector α n) (i : Fin n) (f : α → α) :
    (updF v i f)[i.1] = f v[i.1] := by
  simp [updF]

theorem updF_get_other {α : Type} {n : Nat} (v : Vector α n) (i j : Fin n) (f : α → α) (h : j ≠ i) :
    (updF v i f)[j] = v[j] := by
  have : i.1 ≠ j.1 := fun e => h (Fin.ext e.symm)
  simp [updF, Vector.getElem_set_ne _ _ this]

theorem updF_get {α : Type} {n : Nat} (v : Vector α n) (i j : Fin n) (f : α → α) :
    (updF v i f)[j] = if j = i then f v[i] else v[j] := by
  split
  · rename_i h; rw [h, updF_get_same]
  · exact updF_get_other v i j f ‹_›

theorem getN_lt {α : Type} {n : Nat} (v : Vector α n) (i : Nat) (d : α) (h : i < n) : getN v i d = v[i] := by
  simp [getN, h]

@[simp] theorem getN_fin {α : Type} {n : Nat} (v : Vector α n) (i : Fin n) (d : α) : getN v i.1 d = v[i] := by
  simp [getN]

theorem updN_get {α : Type} {n : Nat} (v : Vector α n) (i : Nat) (j : Fin n) (f : α → α) :
    (updN v i f)[j] = if j.1 = i then f v[j] else v[j] := by
  unfold updN
  split
  · by_cases h : j.1 = i
    · simp [h]
    · simp [h, Vector.getElem_set_ne _ _ (fun e => h e.symm)]
  · rw [if_neg]; omega

end Sys2Proof.Machine
end

