-- ==== Sys2Proof/WellFormed.lean ====
section
/-!
DEFINITION. The commands that can occur: the lengths and ranges that the spec gives the things an operand stands for.
A meaning is total and answers for every term; a term that fails here stands for nothing that reaches the device.
-/

namespace Sys2Proof

/-- The block length of a pointer block (R142): the little-endian word at its bytes 8..11. -/
def pointerLength (block : List Byte) : Nat :=
  (block.getD 8 0).toNat + 256 * (block.getD 9 0).toNat + 65536 * (block.getD 10 0).toNat + 16777216 * (block.getD 11 0).toNat

/-- A packet (R140..R145): flag bit 0 says whether it is indirect; inline it has at most 48 parameter bytes, and
otherwise 48 packet bytes around the pointer block and the bytes read through it; no block longer than 1 MiB is ever
read (R143). -/
def Cmd.wf (c : Cmd) : Bool :=
  c.flags.getLsbD 0 == c.indirect &&
  if c.indirect then
    c.block.length == 48 && decide (c.params.length ≤ 1048576) &&
    (pointerLength c.block == c.params.length || decide (1048576 < pointerLength c.block))
  else decide (c.params.length ≤ 48)

/-- A completed read of host memory that brings exactly n bytes (R145, R156, R218). -/
def Fetch.size (n : Nat) : Fetch → Bool
  | .ok l => l.length == n
  | .unsupported => true
  | .abort => true
  | .poison => true

/-- The completions of PARKED_COMMAND_RESUME: eight heads (R323), and at most the row, and the sixteen spare rows with
their REDIRECT entries, read back (R534). -/
def Resume.wf : Resume → Bool
  | .headMemories l => l.length == 8
  | .burned l => decide (1 ≤ l.length) && decide (l.length ≤ 33)
  | _ => true

/-- The frames that a target knows (R120). -/
def knownFrames : SpiPort → List Nat
  | .mgmt => [0x02, 0x0B, 0x05, 0x20, 0x21]
  | .sup => [0x0B, 0x05, 0x20, 0x21, 0x30, 0x31]

/-- A frame of a row has at least its instruction byte, and that is the row's own or one that the target does not know
(R121). -/
def frameOf (port : SpiPort) (instr : Nat) (frame : List Byte) : Bool :=
  match frame with
  | [] => false
  | b :: _ => b.toNat == instr || !(knownFrames port).contains b.toNat

/-- The check of a command. -/
def Instr.wf : Instr → Bool
  | .nop c | .echo c | .getInfo c | .getStatus c | .setMode c | .setWakeBudget c | .setEventRoute c | .loadRecipe c
  | .queryRecipe c | .activateRecipes c | .openJob c | .admitSheet c | .commitSheet c | .cancelSheet c | .closeJob c
  | .querySheet c | .evictLeaves c | .axisHome c | .axisMove c | .axisGroupMove c | .axisStop c | .axisQuery c
  | .motorStart c | .motorStop c | .motorSetSpeed c | .motorQuery c | .loopSet c | .loopSetpoint c | .loopMode c
  | .loopQuery c | .headScan c | .headMaintain c | .headMarkDead c | .stationCalibrate c | .stationLock c
  | .stationQuery c | .dramTrain c | .dramSetRate c | .dramQuery c | .faultRead c | .faultClear c
  | .faultSetSeverity c | .faultInject c | .fuseRead c | .fuseShadow c | .fuseBurn c | .fuseLockRegion c
  | .journalRead c | .journalSeal c | .journalCollected c | .serialQuery c | .serialAnchor c | .codecRun c
  | .provision c => c.wf
  | .writeReg f => frameOf .mgmt 0x02 f
  | .readReg p f => frameOf p 0x0B f
  | .readStatus p f => frameOf p 0x05 f
  | .submit p f => frameOf p 0x20 f
  | .fetchReply p f => frameOf p 0x21 f
  | .readJbuf f => frameOf .sup 0x30 f
  | .submitSigned f => frameOf .sup 0x31 f
  -- a ring entry and an ingest descriptor are 64 bytes (R106, R217)
  | .ringEntryFetched _ r => r.size 64
  | .ingestDescriptorFetched _ r => r.size 64
  | .parkedCommandResume k d => decide (k < 8) && d.wf
  -- RING_DRAINED, RING_DOORBELL and the coalescing timer belong to a ring with a tail (R106, R113)
  | .ringDrained r | .ringDoorbell r _ | .replyRingConsume r _ | .replyCoalesceExpiry r => r != .event
  -- an access to BAR2 moves at least a byte (R115)
  | .bar2Read _ n _ => decide (0 < n)
  | .bar2Write _ d => !d.isEmpty
  -- 272 rows (R526)
  | .fuseSense l => l.all fun x => decide (x.1 < 272)
  -- 32 delay lines (R303)
  | .delayLineCalComplete _ l => l.length == 32
  -- 64 analog inputs (R453)
  | .loopFrame l _ => l.length == 64
  -- times and fractions
  | .bdsEdge _ p => decide (0 < p)
  | .bdeEdge _ p _ => decide (0 < p)
  -- a burst is 64 bytes (R477)
  | .guardFailure _ _ d _ _ => d.length == 64
  | .motorZeroCrossing _ _ _ a b _ => decide (a ≤ b) && decide (0 < b)
  | .spdcmdUpdate _ f => decide (f ≤ 65536)
  | .signatureVerified | .spiReplyTimeout .. | .ringEnable .. | .ringDisable .. | .eventRingConsume _
  | .bar2WindowSelect _ | .msixUnmask _ | .registerWrite .. | .lowWordRead .. | .motBusPeakRead _ | .tmpPeakRead _
  | .packetStart _ | .indirectBlockFetched .. | .packetDeadlineExpiry .. | .kettleLockstepMismatch _
  | .kettleWatchdogExpiry _ | .perstNAssert | .hotReset | .functionLevelReset | .d3hotToD0 | .linkUp
  | .powerOnReset _ | .rstNAssert | .resetRelease .. | .rootPllLock | .rootPllLockTimeout _ | .romSelfCheck _
  | .dramBootTraining .. | .journalScan .. | .pwrfailNAssert | .readyIdleTimeout | .standbyDepthEntry
  | .wakeComplete _ | .clkRefLoss | .clkRootUnlock | .pxsLock _ | .pxsUnlock _ | .vcoBandChange _ | .encoderEdge ..
  | .encoderTimeout | .ingestStart | .ingestDeadlineExpiry .. | .ingestSourceReadDone .. | .leafEntry ..
  | .encodeBandEnd .. | .caddyRepairComplete .. | .laneKatEnd .. | .lanePeriodicTestDue _
  | .laneLockup _ | .laneParityError _ | .decodeAssign | .decodeAttemptReport .. | .verifyDeadline _
  | .bandFirstLine _ | .bandDone _ | .slotReadError .. | .bdsWindowExpiry _ | .bdeWindowExpiry _
  | .delayLineCalDue _ | .apcSample .. | .spinTimeout _ | .searchTimeout _ | .laserInterlock _ | .fireInstant _
  | .strobeCut .. | .markLineFetch .. | .headTempSample .. | .dutyWindowTick | .headCapMoveDone _ | .markRender _
  | .recordProgramComplete _ | .sealAgeExpiry | .sealSigned | .sectorEraseComplete _ | .sheetPick
  | .pickWaitExpiry | .pickPauseExpiry | .headWaitExpiry | .paperSensorEdge .. | .deskewDeadline
  | .sensorWindowExpiry _ | .routeDecision | .mainDriveToleranceExpiry | .axisPwmPeriod .. | .axisTargetReached _
  | .axisAtRest _ | .axisIdleDelayExpiry _ | .homeSensorEdge .. | .gearLock _ | .motorCommutation _
  | .motorPwmPeriod .. | .catchWindowExpiry _ | .alignTimeExpiry _ | .rampTimeout _ | .atSpeedDwell _
  | .lossOfSynchronism _ | .losRestartDelay _ | .coastStopTimeout _ | .busSample .. | .busUndervoltageExpiry
  | .chopperFeedbackTimeout _ | .spdcmdDropout _ | .mainsZcEdge _ | .mainsLossTimeout | .hvOkTimeout
  | .refreshDue .. | .dramTempSample .. | .dramAlert .. | .selfRefreshIdle _ | .zqCalDue _
  | .dramTrainStepEnd _ | .dramFillBlock | .healthScanPassEnd | .faultRaise _ | .eventCoalesceExpiry _
  | .interruptionExpiry | .injectRaiseTick | .fltInject | .aliveTick | .dieTempSample _ | .fuseResense _
  | .vddioBankLoss _ | .vddioBankReturn _ | .perstNDeassert | .d0ToD3hot | .aspmL1Entry
  | .testAccessPortTckEdge .. => true

end Sys2Proof
end

