-- ==== Sys2Proof/Tests/Slice0.lean ====
section
/-!
SUPPORT. Tests: ill-formed commands are refused by the check; for every statement with hypotheses, states and operands that meet
them; and small checks of single commands.
-/

namespace Sys2Proof.Tests

-- one proof after the other: the whole package is one text, and proofs in parallel ask for a thread each
set_option Elab.async false

open Sys2Proof Sys2Proof.Machine Sys2Proof.Safety

/-! ## Small states -/

def up : State :=
  { sys := { mode := .ready, bootStage := 7, up := true, hiZ := false }
    clk := { rootLock := true, everLocked := true, refOk := true, sclkRoot := true }
    hif := { link := .up, perstLow := false }, fus := { part := 0x8640, sensed := true, wires := 0x3FFFF } }
def inMode (m : Mode) (s : State := up) : State := { s with sys := { s.sys with mode := m } }
def cmd (l : List Byte) : Cmd := ⟨.mgmt, 0x02, 1, 0, 0, l, false, [], false, []⟩
def big (l : List Byte) : Cmd := ⟨.ring 0, 0x03, 1, 0, 0, l, true, leBytes 8 0x1000 ++ leBytes 4 l.length, false, []⟩
def body (l : List (Nat × List Byte)) : List Byte := l.foldl (fun b x => b ++ List.replicate (x.1 - b.length) 0 ++ x.2) []
def withRecipes (l : List (Nat × Nat × List Byte)) (s : State := up) : State :=
  l.zipIdx.foldl (fun s x => s.modLed fun d => { d with store := updN d.store x.2 fun _ => some ⟨x.1.1, x.1.2.1, 1, 0, x.1.2.2, true⟩ }) s
def sheetRec : List Byte := body [(0x000, leBytes 4 1000), (0x008, leBytes 4 100), (0x00C, leBytes 4 100000), (0x016, [2, 0]), (0x01C, leBytes 2 100), (0x020, leBytes 4 500),
  (0x040, leBytes 4 100), (0x044, leBytes 4 65536), (0x048, [0x03, 1]), (0x04A, leBytes 2 50), (0x150, [5, 3]), (0x170, [5, 3]),
  (0x260, leBytes 4 0), (0x264, leBytes 4 1000), (0x268, [0xFF, 1]), (0x290, leBytes 4 2000), (0x294, leBytes 4 3000), (0x298, [0xFF, 1])]
def sheet0 : Sheet :=
  { job := 7, handle := 3, media := 0, mask := 1, length := 100, duplex := 0, dest := 0, spoilDest := 0, lead := 0, partner := 0
    widths := Vector.replicate 6 0, marks := [], state := .admitted, cancel := false, order := 0, since := none, ordinal := 0, serial := 0, t := none
    spoil := none, spoilCycle := 0, spoilMore := 0, outcomes := [], route := none, windows := [], recorded := none, recipeIdx := 0, digest := 0
    overHead := none, formed := false, hold := false, gated := false }
def withSheet (e : Sheet) (s : State := up) : State := s.modLed fun d => { d with entries := d.entries.set 0 (some e) }
def job7 (audit : Bool := false) : Job := ⟨7, audit, 0, 0, 0, 0, false⟩
def withJob (s : State := up) : State := s.modLed fun d => { d with jobs := [job7] }
def leaf7 : Leaf := { job := 7, key := leafKey 3 0 0, form := 2, flags := 0, width := 0, rawLen := 0, bodyLen := 0, rawCrc := 0, bodyCrc := 0, body := [], primary := .good, mirror := .good, doomed := false }
def withLeaves (s : State := up) : State := s.modCad fun d => { d with leaves := (List.range 4).map fun k => { leaf7 with key := leafKey 3 0 k } }
def dramUp (s : State := up) : State := { s with drc := { s.drc with ch := s.drc.ch.map fun c => { c with up := true, gib := 4, stored := 0x7F } } }
def descriptor : List Byte := leBytes 4 7 ++ leBytes 2 9 ++ [0, 1] ++ leBytes 4 100 ++ leBytes 2 1000 ++ [0, 0, 0, 0] ++ leBytes 2 0 ++ leBytes 2 1000 ++ List.replicate (256 - 0x16) 0
def image : List Byte := leBytes 4 0x5EC10001 ++ leBytes 2 1 ++ leBytes 2 0xFFFF ++ leBytes 4 1 ++ leBytes 4 4 ++ sha256 [0,0,0,0] ++ List.replicate 16 0 ++ [0,0,0,0] ++ List.replicate 128 0
def deviceRec : List Byte := [60, 60, 2, 60, 0, 0, 0, 0] ++ leBytes 4 1000 ++ List.replicate 52 0
def axisEnt (f : Nat) : List Byte := body [(0, leBytes 1 f), (4, leBytes 2 20), (0x0E, leBytes 2 1000), (0x16, leBytes 2 10), (0x24, leBytes 4 (2 ^ 32 - 100000)), (0x28, leBytes 4 100000),
  (0x2C, leBytes 4 1000), (0x30, leBytes 4 5000), (0x34, leBytes 4 1000), (0x38, leBytes 4 5000), (0x3C, leBytes 4 2000), (0x40, leBytes 4 100),
  (0x60, [1, 0, 4, 0] ++ leBytes 2 100 ++ leBytes 2 10 ++ leBytes 4 1000 ++ leBytes 4 77), (0x70, [3, 0, 4, 0] ++ leBytes 2 100 ++ leBytes 2 10 ++ leBytes 4 1000 ++ leBytes 4 55)]
def motionRec (f : Nat := 1) : List Byte := body [(0x00, [0, 1, 10, 11]), (0x08, leBytes 4 500), (0x040, axisEnt f), (0x040 + 160, axisEnt f), (0x040 + 320, axisEnt f)]
def motorEnt (f : Nat) : List Byte := body [(0, leBytes 1 f), (1, [4]), (2, leBytes 2 20), (0x08, leBytes 4 600000), (0x0C, leBytes 4 100), (0x10, leBytes 4 500), (0x14, leBytes 4 1000), (0x18, leBytes 4 900),
  (0x20, leBytes 4 100), (0x28, leBytes 2 300), (0x32, leBytes 2 1000), (0x38, leBytes 2 200), (0x41, [2])]
def motorRec (f : Nat := 5) : List Byte := body [(0x00, leBytes 4 20000), (0x04, leBytes 4 40000), (0x08, leBytes 4 45000), (0x0C, leBytes 4 50000), (0x10, leBytes 4 55000), (0x14, leBytes 2 25600),
  (0x20, [1, 0] ++ leBytes 2 10 ++ leBytes 4 500000), (0x30, [1, 0] ++ leBytes 2 10 ++ leBytes 4 500000), (0x40, [])] ++ (List.range 10).flatMap fun _ => body [(0, motorEnt f), (96, [])]
def loopEnt (k : Nat) : List Byte := body [(0, leBytes 1 k), (0x02, [0]), (0x18, leBytes 4 0), (0x1C, leBytes 4 100000), (0x24, leBytes 4 65536)]
def loopsRec : List Byte := body [(0, leBytes 2 2 ++ leBytes 2 1), (0x740, loopEnt 1), (0x780, loopEnt 0)]
def driven (s : State := up) : State := withRecipes [(0x30, 0xFFFF, motionRec), (0x31, 0xFFFF, motorRec), (0x32, 0xFFFF, loopsRec), (0x40, 0xFFFF, sheetRec)] s
def axis0 (g : Axis → Axis) (s : State := driven) : State := s.modAxis 0 g
def motor0 (g : Motor → Motor) (s : State := driven) : State := s.modMotor 0 g
def loop5 (g : Loop → Loop) (s : State := driven) : State := s.modLoop 120 fun l => g { l with en := true, k := 50 }
def headMem : HeadMem := { nozzles := 2048, rank := 0, rowGap := 0, stbMax := 5000, limit := 300, hyst := 20, duty := 1000, table := (List.range 16).map fun k => 200 + 200 * k, serial := List.replicate 16 0x41 }
def headRec : List Byte := body [(0x000, [0, 0, 0]), (0x004, leBytes 4 1000), (0x008, leBytes 2 2000), (0x012, [4]), (0x018, leBytes 4 300), (0x01C, leBytes 4 0), (0x020, [])]
def heads (s : State := driven) : State :=
  (List.finRange 8).foldl (fun s h => s.modHead h fun x => { x with state := .idle, mem := some headMem })
    (s.modLed fun d => { d with store := updN d.store 10 fun _ => some ⟨0x20, 0, 1, 0, headRec, true⟩ })
def head0 (g : Head → Head) : State := (heads).modHead 0 g
def stationRec : List Byte := body [(0, [8, 0, 0, 0]), (4, leBytes 4 10000), (0x08, leBytes 2 100), (0x14, leBytes 4 777), (0x18, leBytes 4 0), (0x1C, leBytes 2 160), (0x1E, [16]), (0x130, leBytes 2 100 ++ leBytes 2 3000 ++ leBytes 2 100), (320, [])]
def clockRec : List Byte := body [(0, leBytes 4 100000), (0x10, leBytes 2 256), (0x040, leBytes 2 3000 ++ leBytes 2 5000), (0x200, [])]
def stations (s : State := driven) : State :=
  s.modLed fun d => { d with store := updN (updN d.store 11 fun _ => some ⟨0x10, 0, 1, 0, stationRec, true⟩) 12 fun _ => some ⟨0x02, 0xFFFF, 1, 0, clockRec, true⟩ }
def station0 (g : Station → Station) (s : State := stations) : State := s.modBtu 0 g
def train0 : Training := ⟨1, 0, 0, 3, 0, false, 0⟩
def training : State := (dramUp (inMode .service)).modDrc fun d => { d with training := some train0 }
def chan1 (g : Channel → Channel) : State := (dramUp up).modChan 1 g
def dramRec : List Byte := body [(0x16, [0, 0]), (0x20, (List.range 16).flatMap fun k => leBytes 2 (500 * k) ++ leBytes 2 (100 * k))]
def withFuses (l : List (Nat × Nat)) (s : State := up) : State :=
  { s with fus := { s.fus with latched := l.foldl (fun v x => updN v x.1 fun _ => BitVec.ofNat 64 x.2) s.fus.latched } }
def testKey : List Byte := beBytes 64 4260531635778674157409802389126950721792302607421963258133790195781380542157252582796187571278362840504817945779420214340704715161695001515022223193238948
def testHash : List Byte := beBytes 32 20682476273918821570137648800401387849159939844571103046022889677905586614748
def signers (s : State := up) : State := withFuses ((96, 2 ^ 63) :: (List.range 4).flatMap fun j => [(132 + j, u64 testHash (8 * j)), (136 + j, u64 testHash (8 * j))]) s
def signedImage : List Byte := (image.take (0x40 + 4)) ++ testKey ++ beBytes 64 4839767402494424403163439566021576528610454956787291690332651563489777715286337234549768559945238177115081324940032358442250911109386728233894916382428245
def parkedAt (op : Nat) (c : Cmd) (s : State := up) : State := s.modKtl fun k => { k with parked := k.parked ++ [⟨BitVec.ofNat 8 op, c, .hardware, none, false, .live⟩] }
def journalUp (s : State := up) : State := s.modJnl fun j => { j with provisioned := true, flashOk := true, capacity := 8192 + 128 * 1024, anchored := true, next := 64, high := 127, newest := some 9, nextIdx := 10, sealed := true, sealIdx := 9 }
def run78 (lane op : Nat) : Cmd := cmd ([BitVec.ofNat 8 lane, BitVec.ofNat 8 op, 0, 0] ++ (if op = 0 then leBytes 8 0x1000 ++ leBytes 4 100 else List.replicate 12 0) ++ leBytes 8 0x2000 ++ leBytes 4 1000 ++ leBytes 4 0 ++ (if op = 0 then leBytes 4 100 else leBytes 4 0))
def provParams : List Byte := leBytes 8 0x1000 ++ leBytes 8 0 ++ List.replicate 160 1
def pendingFault (k : Fin 256) (l : Level) (s : State := up) : State := s.modSrc k fun x => { x with pend := some l, raises := 3, first := 1, latest := 2 }
def headMemBytes : List Byte :=
  let m := body [(0, leBytes 4 0x4D0D0001), (4, leBytes 2 1), (6, leBytes 2 2048 ++ [0, 0] ++ leBytes 2 5000 ++ leBytes 2 300 ++ leBytes 2 20 ++ leBytes 4 1000), (0x14, (List.range 16).flatMap fun k => leBytes 2 (200 + 200 * k)), (0xFC, [])]
  m ++ leBytes 4 (crc32c m).toNat
def frame (l : List Byte) : List Byte := l ++ [crc8 l]
/-- A frame closes with the CRC of its bytes. -/
theorem crcOk_frame (l : List Byte) : crcOk (frame l) = true := by simp [crcOk, frame]
def packet (op : Nat) (tag : Nat) : List Byte := [BitVec.ofNat 8 op, 0x02] ++ leBytes 2 tag ++ List.replicate 60 0
def reply7 : Reply := { tag := 7, status := .ok }
def signedFrame7 : SignedFrame :=
  let pk := [0x61, 0x02, 7, 0, 4, 0] ++ List.replicate 10 0 ++ [0xE2] ++ List.replicate 47 0
  ⟨pk, testKey, beBytes 64 9449140901035617838737172920195087642047451487217969764769832087667188260863545525130318686046896987058556847591010455616385464460937319809620905803016238, 0⟩
def forged7 : SignedFrame := { signedFrame7 with sig := List.replicate 64 0 }
def verifying7 (f : SignedFrame) : State :=
  ((signers).modSup fun x => { x with signed := [f] }).modKtl fun k => { k with intake := [packetOf .sup f.packet true .verifying] }
def pk3 : List Byte := packet 3 7
def frame3 : List Byte := frame (0x20 :: pk3)
def pk61 : List Byte := packet 0x61 7
def frame61 : List Byte := frame ([0x31] ++ pk61 ++ List.replicate 128 0)
def full7 : State := up.modKtl fun k => { k with intake := List.replicate 16 (packetOf .mgmt (packet 3 9) false .held) }
def ring0 : Ring := { en := true, drained := false, tail := 3, vector := 5 }
def ringUp (s : State := up) : State := s.modHif fun h => { h with cr := h.cr.set 0 ring0, ig := h.ig.set 0 ring0 }
def unmasked (s : State := up) : State := s.modHif fun h => { h with msix := h.msix.map fun m => { m with masked := false } }
def boot (n : Nat) (s : State := up) : State := { s with sys := { s.sys with mode := .boot, bootStage := n, up := decide (3 ≤ n) } }
def bigPacket : Packet := { packetOf (.ring 0) ([0x21, 0x03, 7, 0, 12, 0] ++ List.replicate 10 0 ++ leBytes 8 0x1000 ++ leBytes 4 256 ++ List.replicate 36 0) false .held with blockLen := 256 }
def deadCmd : Cmd := { cmd [1,0,0,0] with deadline := 100, tag := 7 }
def deadPacket : Packet := { packetOf .mgmt (packet 3 7) false .held with cmd := { cmd [] with deadline := 100, tag := 7 } }
def burnCmd : Cmd := cmd ([170,0,0,0] ++ leBytes 8 5)
def sheetW : Sheet := { sheet0 with widths := Vector.replicate 6 1000 }
def desc7 (kind : Nat := 0) (len : Nat := 64) (crc : Nat := 0) : List Byte :=
  [BitVec.ofNat 8 kind, 0] ++ leBytes 2 5 ++ leBytes 4 7 ++ leBytes 8 0x1000 ++ leBytes 4 len ++ leBytes 4 100 ++ leBytes 4 (leafKey 3 0 0).toNat ++ (if kind = 0 then [0, 0, 0, 0] else leBytes 2 1000 ++ [1, 0]) ++ leBytes 4 crc ++ List.replicate 28 0
def ing7 (ph : IngestPhase) (kind : Nat := 0) (len : Nat := 64) (crc : Nat := 0) : Ingest := ⟨0, desc7 kind len crc, ph, none, []⟩
def withIngest (d : Ingest) (s : State := withSheet sheetW (dramUp (withJob))) : State := s.modCad fun c => { c with ingest := [d] }
def header7 : List Byte :=
  let h := leBytes 4 0x1EAF0001 ++ leBytes 4 (leafKey 3 0 0).toNat ++ [2, 0] ++ leBytes 2 1000 ++ leBytes 4 (sheetRaw sheetW (leafKey 3 0 0)) ++ leBytes 4 0 ++ leBytes 4 0x1234 ++ leBytes 4 0 ++ List.replicate 32 0
  h ++ leBytes 4 (crc32c h).toNat
def raw7 : List Byte := (List.replicate 8 [(1 : Byte), 2, 3, 4, 5, 6, 7, 8]).flatten
def zeros7 : List Byte := List.replicate 64 0
def body7 : List Byte := [99, 100, 98, 102, 97, 101, 99, 231, 96, 36, 147, 6, 0]
def band7 (st : BandState) : Band := ⟨0, 7, leafKey 3 0 0, 0, 0, st, none, none, [], false, none, false, false, none⟩
def withBand (b : Band) (s : State := withSheet { sheet0 with state := .committed } (dramUp (withLeaves))) : State := s.modStp fun x => { x with st := x.st.set 0 { x.st[0] with bands := [b] } }
def lanesIdle (s : State) : State := s.modCdc fun c => { c with dec := c.dec.map fun l => { l with state := .idle }, enc := c.enc.map fun l => { l with state := .idle } }
def assign7 (second : Bool := false) : Assign := ⟨0, 0, 5, 7, leafKey 3 0 0, false, second⟩
def decoding (b : Band) (a : Assign := assign7) : State :=
  let s := lanesIdle (withBand b)
  let s := s.modCdc fun c => { c with dec := c.dec.set 3 { c.dec[3] with state := .steep, assign := some a } }
  s.modStp fun x => { x with st := x.st.set 0 { x.st[0] with slots := x.st[0].slots.set 0 { x.st[0].slots[0] with epoch := 5, owner := some 3, busy := true } } }
def upset7 : State :=
  (decoding { band7 .exposing with slot := some 0, outcome := some .first }).modStp fun x => { x with st := x.st.set 0 { x.st[0] with
    slots := x.st[0].slots.set 0 { x.st[0].slots[0] with data := List.replicate 8 0, checks := [0] } } }
def mark7 : Mark := { kind := 2, head := 0, by_ := 0, format := 0, wave := 0, pos := 0, lines := 4, image := some [[], [1], [2], [3]], run := .waiting, fired := 0, missed := false, dropped := false }
def marked (m : Mark) : Sheet := { sheet0 with state := .committed, t := some 0, marks := [m] }
def fireable (m : Mark) (g : Head → Head) : State :=
  (withSheet (marked m) (head0 g)).modClk fun c => { c with acc := 3000 * 2 ^ 32 }
def marksRec : List Byte := List.replicate 64 0
def rec7 : Rec := ⟨10, List.replicate 128 1, 0, none, 1⟩
def rec8 : Rec := ⟨10, 4 :: List.replicate 127 0, 0, none, 1⟩
def sealing : State := (journalUp).modJnl fun j => { j with staged := [rec8], sealing := true }
def committed7 : Sheet := { sheet0 with state := .committed, order := 1 }
def pickable : State :=
  (((withSheet committed7 (station0 fun x => { x with lock := .locked })).modSeq fun q => { q with fuserReady := true }).modMotor 6 fun m => { m with state := .running, speed := 1000, setpoint := 1000 })
def pickedSheet : Sheet := { committed7 with t := some 100, windows := [⟨2, 100, 1100, none, false⟩, ⟨5, 2100, 3100, none, false⟩] }
def picked : State := (inMode .print (withSheet pickedSheet pickable)).modClk fun c => { c with acc := 500 * 2 ^ 32 }
def leaving : Sheet := { pickedSheet with state := .pastGate, gated := true, route := some 0, windows := [⟨2, 100, 1100, some 150, true⟩, ⟨5, 2100, 3100, some 1000, false⟩] }
def leavingState : State := ((withSheet leaving picked).modClk fun c => { c with acc := 2600 * 2 ^ 32 }).modSeq fun q => { q with psn := 0x20 }
def emptyPath : State := inMode .ready driven
def ended : State := picked.modClk fun c => { c with acc := 2000 * 2 ^ 32 }
def skewSheet7 : Sheet := { pickedSheet with windows := [⟨10, 100, 1100, none, false⟩, ⟨11, 100, 1100, none, false⟩] }
def skewState7 : State := withSheet skewSheet7 picked
def move7 : Move := ⟨0, 100, 1000, 1000, false⟩
def homing7 (p : Nat) : Homing := ⟨0, p, 0⟩
def wave7 : List Bool := [true, false, true, false, true, false, true, false]
def run7 (x : Motor) : Motor := { x with state := .running, step := 2, speed := 5000, setpoint := 5000 }
def capping7 : State := parkedAt 0x49 (cmd [0,0,0,0]) (head0 fun x => { x with capMove := some true })
def measured7 : State := up.modBtu 1 fun x => { x with calScans := List.replicate (64 * calFacetsOf up 1) 5, calFacets := 256 }
def trimmed : State := withFuses [(32, 65536 * 16384)]
def hotMotorRec : List Byte := motorRec.take 0x10 ++ leBytes 4 100 ++ motorRec.drop 0x14
/-- What the burner's end makes of a FUSE_BURN that waits. -/
theorem resumed_burn (s : State) (c : Cmd) (l : List (BitVec 72)) :
    resumed s (0x6A#8).toNat c (.burned l) = some ((fuseBurnDone s c l).1, (fuseBurnDone s c l).2) := rfl
/-- What a head's end makes of a HEAD_MAINTAIN that waits. -/
theorem resumed_head (s : State) (c : Cmd) :
    resumed s (0x49#8).toNat c .headDone = some ((headMaintainDone s c).1, (headMaintainDone s c).2) := rfl

/-! ## The check of a command: an ill-formed term for each of its checks -/

/-- Flag bit 0 says indirect, the packet is inline. -/
theorem test_wf_flag_refused : (Instr.nop { cmd [] with flags := 0x03 }).wf = false := by decide
/-- 49 inline parameter bytes. -/
theorem test_wf_long_inline_refused : (Instr.echo (cmd (List.replicate 49 0))).wf = false := by decide +kernel
/-- A pointer block that is not 48 bytes around. -/
theorem test_wf_short_block_refused : (Instr.admitSheet (big [1, 2])).wf = false := by decide
/-- A pointer block that names another length than the bytes read. -/
theorem test_wf_other_length_refused :
    (Instr.admitSheet { big [1, 2] with block := leBytes 8 0x1000 ++ leBytes 4 3 ++ List.replicate 36 0 }).wf = false := by decide +kernel
/-- The same packet with its own length passes. -/
theorem test_wf_indirect_passes :
    (Instr.admitSheet { big [1, 2] with block := leBytes 8 0x1000 ++ leBytes 4 2 ++ List.replicate 36 0 }).wf = true := by decide +kernel
/-- A frame with no byte, one that is another row's, and a supervisor frame on the row of another instruction. -/
theorem test_wf_frames_refused :
    (Instr.writeReg []).wf = false ∧ (Instr.writeReg [0x0B]).wf = false ∧ (Instr.readReg .sup [0x31]).wf = false ∧
    (Instr.readStatus .mgmt [0x20]).wf = false ∧ (Instr.submit .sup [0x21]).wf = false ∧ (Instr.fetchReply .mgmt [0x05]).wf = false ∧
    (Instr.readJbuf [0x31]).wf = false ∧ (Instr.submitSigned [0x30]).wf = false := by decide
/-- The supervisor port has no WRITE_REG, so that byte there is an unknown instruction and may come on any row. -/
theorem test_wf_unknown_frame_passes : (Instr.readReg .sup [0x02]).wf = true := by decide
/-- A ring entry of 63 bytes, a descriptor of 65. -/
theorem test_wf_fetch_sizes_refused :
    (Instr.ringEntryFetched 0 (.ok (List.replicate 63 0))).wf = false ∧
    (Instr.ingestDescriptorFetched 0 (.ok (List.replicate 65 0))).wf = false := by decide +kernel
/-- A ninth parked command, seven head memories, a burn with nothing read back. -/
theorem test_wf_resume_refused :
    (Instr.parkedCommandResume 8 .verified).wf = false ∧ (Instr.parkedCommandResume 0 (.headMemories (List.replicate 7 none))).wf = false ∧
    (Instr.parkedCommandResume 0 (.burned [])).wf = false := by decide
/-- The event ring has no tail of its own, no replies and no coalescing timer. -/
theorem test_wf_event_ring_refused :
    (Instr.ringDrained .event).wf = false ∧ (Instr.ringDoorbell .event 0).wf = false ∧ (Instr.replyRingConsume .event 0).wf = false ∧
    (Instr.replyCoalesceExpiry .event).wf = false := by decide
/-- An access to BAR2 that moves nothing. -/
theorem test_wf_bar2_refused : (Instr.bar2Read 0 0 false).wf = false ∧ (Instr.bar2Write 0 []).wf = false := by decide
/-- Row 272, 31 delay lines, 63 analog inputs. -/
theorem test_wf_lengths_refused :
    (Instr.fuseSense [(272, 0)]).wf = false ∧ (Instr.delayLineCalComplete 0 (List.replicate 31 0)).wf = false ∧
    (Instr.loopFrame (List.replicate 63 0) []).wf = false := by decide
/-- Times of 0 and a fraction above full scale. -/
theorem test_wf_ranges_refused :
    (Instr.bdsEdge 0 0).wf = false ∧ (Instr.bdeEdge 0 0 .intact).wf = false ∧ (Instr.motorZeroCrossing 0 0 true 5 4 0).wf = false ∧
    (Instr.spdcmdUpdate 0 65537).wf = false := by decide

/-! ## The manual's worked examples -/

/-- The packet of the example under R166's chapter: an indirect LOAD_RECIPE. -/
def loadPacket : List Byte :=
  [0x10, 0x07, 0xA4, 0x01, 0x0C, 0x00, 0x00, 0x00, 0x88, 0x13, 0x00, 0x00, 0x02, 0x01, 0x00, 0x00,
   0x00, 0x10, 0x20, 0x8F, 0x04, 0x00, 0x00, 0x00, 0x00, 0x50, 0x00, 0x00] ++ List.replicate 36 0
theorem test_packet_fields :
    (packetOf (.ring 1) loadPacket false .held).op = 0x10 ∧ (packetOf (.ring 1) loadPacket false .held).cmd.tag = 0x01A4 ∧
    (packetOf (.ring 1) loadPacket false .held).cmd.deadline = 5000 ∧ (packetOf (.ring 1) loadPacket false .held).cmd.seq = 0x102 ∧
    (packetOf (.ring 1) loadPacket false .held).cmd.indirect = true ∧ (packetOf (.ring 1) loadPacket false .held).addr = 0x48F201000 ∧
    (packetOf (.ring 1) loadPacket false .held).blockLen = 20480 := by decide +kernel

/-- SET_MODE STANDBY in RUNOUT answers STATE (the example after R45). -/
theorem test_set_mode_in_runout :
    (match exec (.setMode (cmd [2, 0, 0, 0])) (inMode .runout) with
     | .next t => t.sys.mode == .runout && t.mgt.replies.map (fun r => r.status) == [.state]
     | _ => false) = true := by decide +kernel

/-- COMMIT_SHEET's detail for a mirror missing at station S2, band 37 (the example after R191): 0x1025 in the upper half. -/
theorem test_leaf_key : leafKey 0x0153 4 310 = 0x0054E136 ∧ 2 * 2048 + 37 = 0x1025 := by decide

/-- The body limits of the examples of the chapter on the codec (R257, R263). -/
theorem test_body_limit : bodyLimit 28064 60 = 26310 ∧ bodyLimit 449024 60 = 420960 := by decide

/-- Nozzle 731 is dead and carries drop size 2; neighbours 730 and 732 carry 1 and 0 (the example after R333). -/
def deadLine : List Byte := List.replicate 182 0 ++ [0x90, 0x00] ++ List.replicate 328 0
theorem test_dead_nozzle :
    ((takenOver [731] 2048 40 deadLine).drop 730).take 3 = [2, 0, 0] ∧ ((takenOver [731] 2048 41 deadLine).drop 730).take 3 = [1, 0, 2] := by
  decide +kernel

/-- The format of the example after R377, and its MARKS body's glyph cell of 16 by 24. -/
def format7 : List Byte := [0, 3, 10, 1, 1, 1, 0, 3] ++ leBytes 2 40 ++ leBytes 2 8 ++ leBytes 2 0 ++ [2, 0] ++ List.replicate 16 0
theorem test_mark_text : fmText format7 1234567 = [0, 0, 0, 1, 2, 3, 4, 5, 6, 7, 4] := by decide +kernel
theorem test_mark_symbol :
    symbolCheck [0, 0, 12, 34, 56, 74] = 74 ∧ fmModules format7 = 121 ∧ (symbol (fmText format7 1234567)).length = 121 ∧
    fmLines [1, 16, 24] format7 = 72 ∧ fmReach [1, 16, 24] format7 = 363 := by decide +kernel

/-- The trim of the example after R310: facet 7 scans in 110.1494 µs where 110.1164 µs is nominal. -/
def trimBody : List Byte := body [(4, leBytes 4 49200), (0x18, leBytes 4 16374563), (0x1C, leBytes 2 142), (0x1E, [8]), (320, [])]
theorem test_facet_trim : scanTrim trimBody 110149400 = -599 := by decide +kernel

/-- Data bit 37 of a word with check bits lies at position 44, and a row with that bit flipped decodes to the word
(the example after R539). -/
theorem test_secded_position : secdedPos[37]? = some 44 := by decide +kernel
theorem test_secded_corrects :
    (secdedDecode (fuseRow 0x2000000001 (secdedChecks 0x2000000001) ^^^ (1 <<< 37))).map rowData = some 0x2000000001 := by decide +kernel

/-- The handover of the example after R464: law B of a fuser zone, at its five evaluations. -/
def lawB7 : List Byte :=
  body [(0, (List.range 8).flatMap fun k => leBytes 4 (100 * k)), (0x20, (List.range 8).flatMap fun _ => leBytes 2 1000),
    (0x30, (List.range 8).flatMap fun _ => leBytes 2 150), (0x40, (List.range 8).flatMap fun _ => leBytes 2 2000),
    (0x54, leBytes 4 0 ++ leBytes 4 24000 ++ leBytes 4 0), (96, [])]
def entry7 : List Byte := body [(0, [0]), (6, [0, 1]), (0x08, [1, 0, 0]), (0x18, leBytes 4 0 ++ leBytes 4 10000 ++ leBytes 4 0 ++ leBytes 4 65536), (0x2C, leBytes 4 5000 ++ leBytes 4 2000 ++ leBytes 4 10000), (64, [])]
theorem test_handover_terms :
    lawU0 entry7 lawB7 4 715 716 720 = 2000 * 65536 ∧ lawU0 entry7 lawB7 3 716 717 720 = 1000 * 65536 ∧
    lawStep lawB7 (lawU0 entry7 lawB7 2 717 718 720) (lawKi lawB7 2) (24000 * 65536) 0 65536 false = (24000 * 65536, 24000) ∧
    lawStep lawB7 (lawU0 entry7 lawB7 1 718 719 720) (lawKi lawB7 1) (24000 * 65536) 0 65536 false = (24000 * 65536, 23000) ∧
    lawStep lawB7 (lawU0 entry7 lawB7 1 719 719 720) (lawKi lawB7 1) (24000 * 65536) 0 65536 false = (24000 * 65536, 25000) := by
  decide +kernel

/-- The burst of the worked example after R476. -/
theorem test_burst_coord : burstCoord false 17 0x1071 = ⟨0, 2, 2, 0, 0x1C8⟩ := by decide +kernel

/-! ## Published vectors of the algorithms the manual names (R211, R131) -/

/-- The check value of CRC-8 with polynomial 0x07. -/
theorem test_crc8 : crc8 [0x31, 0x32, 0x33, 0x34, 0x35, 0x36, 0x37, 0x38, 0x39] = 0xF4 := by decide +kernel
/-- SHA-256 of "abc" (FIPS 180-4). -/
theorem test_sha256 : (sha256 [0x61, 0x62, 0x63]).take 8 = [0xBA, 0x78, 0x16, 0xBF, 0x8F, 0x01, 0xCF, 0xEA] := by decide +kernel
/-- A fixed Huffman block of RFC 1951. -/
theorem test_inflate : (inflate body7 64 64).err = 0 ∧ (inflate body7 64 64).out.toList = raw7 := by decide +kernel
/-- A run of 64 zeros is one literal and one match of 63 at distance 1 in a fixed block, written out by hand from R249..R251
and RFC 1951. -/
theorem test_encode : encodeBand zeros7 1 false = ⟨[99, 160, 16, 0, 0], false⟩ := by decide +kernel
/-- The worked example of R308: beam B4, pixel 24,700, code 9. -/
theorem test_pulse :
    pixelPulse (body [(0x08, leBytes 2 24), (0x39, [0x2A]), (0x98, leBytes 2 (65536 - 37)), (0xB0, [18]), (0xC8, [12]), (320, [])])
      5 4 24700 9 = some (395574, 395584) := by decide +kernel
def pourRec : List Byte :=
  body [(0, [8, 0, 0, 0]), (4, leBytes 4 10000), (0x08, leBytes 2 100), (0x14, leBytes 4 777), (0x39, [0x2A]), (0x3F, [0x10]), (320, [])]
def pourState : State :=
  let e : Sheet := { sheet0 with state := .committed, mask := 1, length := 4, t := some 1024, widths := Vector.replicate 6 2 }
  let s := withBand { band7 .exposing with slot := some 0, outcome := some .first } (withSheet e (dramUp (withLeaves)))
  let s := s.modStp fun x => { x with st := x.st.set 0 { x.st[0] with slots := x.st[0].slots.set 0 { x.st[0].slots[0] with busy := true, data := [0x9F, 0xFF, 0, 0] } } }
  let s := s.modLed fun d => { d with store := updN d.store 11 fun _ => some ⟨0x10, 0, 1, 0, pourRec, true⟩ }
  (s.modClk fun c => { c with acc := 1802 * 2 ^ 32 }).modBtu 0 fun x => { x with lock := .locked, lden := true, facets := 8, gridRef := 777, regOffset := 777 }
/-- The first facet of a sheet, with the counter one count late (R292, R297 to R299, R314): line 0 has two separate pulses, in line 1
two that touch are one, and the blank lines have none. -/
theorem test_facet : (match exec (.bdsEdge 0 1000) pourState with
    | .next t => t.out
    | _ => []) = [.facet 0 0 0 ([[(1600, 1616), (1619, 1629)], [(1600, 1632)]] ++ List.replicate 14 [])] := by decide +kernel

/-! ## States and operands that meet the hypotheses of the statements -/

/-- Each clause of StepRunsFrontCommand has a state and operands that meet what it asks for. -/
theorem witness_StepRunsFrontCommand :
    (∃ (c : Instr), ∃ (rest : List Instr), ∃ (s : State), s.pending = c :: rest) :=
  ⟨.aliveTick, ([.dutyWindowTick]), ({ up with pending := [.aliveTick, .dutyWindowTick] }), by decide +kernel⟩

/-- Each clause of FltSelPerPath has a state and operands that meet what it asks for. -/
theorem witness_FltSelPerPath :
    (∃ (s : State), s.sys.up = true) ∧
    (∃ (s : State), s.sys.up = true) ∧
    (∃ (s : State), s.sys.up = true) ∧
    (∃ (s : State), s.sys.up = true) :=
  ⟨⟨up, by decide +kernel⟩,
   ⟨up, by decide +kernel⟩,
   ⟨up, by decide +kernel⟩,
   ⟨up, by decide +kernel⟩⟩

/-- Each clause of RepeatedTags has a state and operands that meet what it asks for. -/
theorem witness_RepeatedTags :
    (∃ (s : State), ∃ (p : SpiPort), ∃ (frame : List Byte), portAnswers s p = true ∧ s.sys.up = true ∧ frameIs frame 0x20 66 = true ∧ crcOk frame = true ∧ (queued (s.spi p)).length < 4 ∧ (((queued (s.spi p)).any fun q => q.tag == (cmdOf (match p with | .mgmt => .mgmt | .sup => .sup) (bytesAt frame 1 64) false).tag) = true)) ∧
    (∃ (s : State), ∃ (n : Fin 4), ∃ (l : List Byte), intakeRoom s = true ∧ s.hif.turn = n.1 ∧ waitsAt s .sup = false ∧ waitsAt s .mgmt = false ∧ ringFetches s.hif.cr[n] = true ∧ entryFault (opSpecOf (u8 (padTo 64 l) 0)) (padTo 64 l) (.ring n) false = none ∧ duplicate s (cmdOf (.ring n) (padTo 64 l) false) = none) :=
  ⟨⟨(up.modMgt (fun x => { x with queue := [⟨7, 0, true, false⟩] })), .mgmt, (frame (0x20 :: packet 3 7)), by decide +kernel⟩,
   ⟨ringUp, 0, (packet 0 7), by refine ⟨?_, ?_, ?_, ?_, ?_, (rfl), ?_⟩ <;> decide +kernel⟩⟩

/-- Each clause of DeviceOpcodesComplete has a state and operands that meet what it asks for. -/
theorem witness_DeviceOpcodesComplete :
    (∃ (c : Cmd), ∃ (s : State), Accepted nopSpec c s) ∧
    (∃ (c : Cmd), ∃ (s : State), Accepted echoSpec c s) ∧
    (∃ (c : Cmd), ∃ (s : State), Accepted getInfoSpec c s ∧ Cmd.p8 c 16 ≤ 4) ∧
    (∃ (c : Cmd), ∃ (s : State), Accepted getStatusSpec c s) ∧
    (∃ (c : Cmd), ∃ (s : State), Accepted setEventRouteSpec c s ∧ Cmd.p8 c 17 < 8 ∧ Cmd.p8 c 18 < 64) ∧
    (∃ (c : Cmd), ∃ (s : State), Accepted setWakeBudgetSpec c s) ∧
    (∃ (c : Cmd), ∃ (s : State), Accepted setModeSpec c s ∧ s.flt.inbox = [] ∧ coming s (· == .pwrfailNAssert) = false ∧ Cmd.p8 c 16 = 0x3 ∧ s.sys.mode = .standby ∧ pendingAtLeast s .runout = false) ∧
    (∃ (c : Cmd), ∃ (s : State), Accepted setModeSpec c s ∧ s.flt.inbox = [] ∧ coming s (· == .pwrfailNAssert) = false ∧ Cmd.p8 c 16 = 0x2 ∧ s.sys.mode = .ready ∧ ledgerEmpty s = true) ∧
    (∃ (c : Cmd), ∃ (s : State), Accepted setModeSpec c s ∧ s.flt.inbox = [] ∧ coming s (· == .pwrfailNAssert) = false ∧ Cmd.p8 c 16 = 0x5 ∧ ((s.sys.mode = .ready ∨ s.sys.mode = .print))) ∧
    (∃ (c : Cmd), ∃ (s : State), Accepted setModeSpec c s ∧ s.flt.inbox = [] ∧ coming s (· == .pwrfailNAssert) = false ∧ Cmd.p8 c 16 = 0x7 ∧ servicePermitted s = true ∧ ((s.sys.mode = .standby ∨ s.sys.mode = .ready)) ∧ ledgerEmpty s = true ∧ journalRefusal (begun s c) false = none ∧ RecordRoom 1 s) :=
  ⟨⟨(cmd []), up, by decide +kernel⟩,
   ⟨(cmd [1,2,3,4,5,6]), up, by decide +kernel⟩,
   ⟨(cmd [2,0,0,0]), up, by decide +kernel⟩,
   ⟨(cmd []), up, by decide +kernel⟩,
   ⟨(cmd [0x45,5,9,0]), up, by decide +kernel⟩,
   ⟨(cmd [0x10,0x27,0,0,60,0,0,0]), up, by decide +kernel⟩,
   ⟨(cmd [3,0,0,0]), (inMode .standby), by decide +kernel⟩,
   ⟨(cmd [2,0,0,0]), up, by decide +kernel⟩,
   ⟨(cmd [5,0,0,0]), up, by decide +kernel⟩,
   ⟨(cmd [7,0,0,0]), ({ up with fus := { up.fus with wires := 0xFFFFFFFF } }), by decide +kernel⟩⟩

/-- Each clause of RecipeOpcodesComplete has a state and operands that meet what it asks for. -/
theorem witness_RecipeOpcodesComplete :
    (∃ (c : Cmd), ∃ (s : State), Accepted loadRecipeSpec c s ∧ imageCheck (begun s c) c.params = none) ∧
    (∃ (c : Cmd), ∃ (s : State), ∃ k, ∃ r, Accepted queryRecipeSpec c s ∧ Cmd.p8 c 20 ≤ 1 ∧ storeSlot s k = some r ∧ r.kind = Cmd.p16 c 16 ∧ r.inst = Cmd.p16 c 18 ∧ r.active = (Cmd.p8 c 20 == 0) ∧ ((∀ j q, j < k → storeSlot s j = some q → ¬(q.kind = Cmd.p16 c 16 ∧ q.inst = Cmd.p16 c 18 ∧ q.active = (Cmd.p8 c 20 == 0))))) ∧
    (∃ (c : Cmd), ∃ (s : State), Accepted queryRecipeSpec c s ∧ Cmd.p8 c 20 ≤ 1 ∧ ((∀ j q, storeSlot s j = some q → ¬(q.kind = Cmd.p16 c 16 ∧ q.inst = Cmd.p16 c 18 ∧ q.active = (Cmd.p8 c 20 == 0))))) ∧
    (∃ (c : Cmd), ∃ (s : State), Accepted activateSpec c s ∧ 1 ≤ Cmd.p8 c 16 ∧ Cmd.p8 c 16 ≤ 16 ∧ ((∀ k, k < 16 → Cmd.p8 c 16 ≤ k → Cmd.p8 c (17 + k) = 0xFF)) ∧ badSlot (begun s c) (activateSlots c) = none ∧ failedRecipe (begun s c) ((activateSlots c).filterMap (storeSlot (begun s c))) = none ∧ ((((activateSlots c).filterMap (storeSlot (begun s c))).any (fun r => r.kind != 0x0060) && !idleOk (begun s c)) = false) ∧ journalRefusal (begun s c) false = none ∧ RecordRoom (Cmd.p8 c 16) s) :=
  ⟨⟨(big image), up, by decide +kernel⟩,
   ⟨(cmd (leBytes 2 0x40 ++ leBytes 2 0xFFFF ++ [0,0,0,0])), (withRecipes [(0x50, 0xFFFF, []), (0x40, 0xFFFF, sheetRec)]), 1, (⟨0x40, 0xFFFF, 1, 0, sheetRec, true⟩), by refine ⟨?_, ?_, ?_, ?_, ?_, ?_, (by intro j q hj hq; obtain rfl : j = 0 := (by omega); have h0 : storeSlot (withRecipes [(0x50, 0xFFFF, []), (0x40, 0xFFFF, sheetRec)]) 0 = some ⟨0x50, 0xFFFF, 1, 0, [], true⟩ := (by decide +kernel); rw [h0] at hq; cases hq; rw [not_and]; intro h; exact absurd h (by decide +kernel))⟩ <;> decide +kernel⟩,
   ⟨(cmd (leBytes 2 0x40 ++ leBytes 2 0xFFFF ++ [0,0,0,0])), up, by refine ⟨?_, ?_, (by intro j q h; simp [storeSlot, up, getN] at h; try grind)⟩ <;> decide +kernel⟩,
   ⟨(cmd ([1, 0] ++ List.replicate 15 0xFF)), ((withRecipes [] (inMode .standby)).modLed (fun d => { d with store := updN d.store 0 fun _ => some ⟨0x01, 0xFFFF, 1, 0, deviceRec, false⟩ })), by decide +kernel⟩⟩

/-- Each clause of JobOpcodesComplete has a state and operands that meet what it asks for. -/
theorem witness_JobOpcodesComplete :
    (∃ (c : Cmd), ∃ (s : State), Accepted openJobSpec c s ∧ Cmd.p32 c 16 ≠ 0 ∧ jobOf s (BitVec.ofNat 32 (Cmd.p32 c 16)) = none ∧ Cmd.p8 c 20 ≤ 1 ∧ ((Cmd.p8 c 20 = 0 → journalMandatory s = false)) ∧ ((Cmd.p8 c 20 = 1 → keyComplete s = true)) ∧ ((∀ j ∈ s.led.jobs, j.audit = (Cmd.p8 c 20 == 1))) ∧ s.led.jobs.length < 4 ∧ journalRefusal (begun s c) false = none ∧ RecordRoom 1 s) ∧
    (∃ (c : Cmd), ∃ (s : State), Accepted closeJobSpec c s ∧ (jobOf s (BitVec.ofNat 32 (Cmd.p32 c 16))).isSome = true ∧ ((sheets s).any (fun x => x.2.job == BitVec.ofNat 32 (Cmd.p32 c 16)) = false) ∧ journalRefusal (begun s c) true = none ∧ RecordRoom 1 s) ∧
    (∃ (c : Cmd), ∃ (s : State), ∃ i, ∃ e, Accepted evictLeavesSpec c s ∧ findSheet s (BitVec.ofNat 32 (Cmd.p32 c 16)) (BitVec.ofNat 16 (Cmd.p16 c 20)) = some (i, e) ∧ e.open = false ∧ Cmd.p16 c 24 ≤ 2047 ∧ Cmd.p16 c 24 + Cmd.p16 c 26 ≤ 2048) ∧
    (∃ (c : Cmd), ∃ (s : State), ∃ i, ∃ e, Accepted querySheetSpec c s ∧ findSheet s (BitVec.ofNat 32 (Cmd.p32 c 16)) (BitVec.ofNat 16 (Cmd.p16 c 20)) = some (i, e)) ∧
    (∃ (c : Cmd), ∃ (s : State), Accepted querySheetSpec c s ∧ findSheet s (BitVec.ofNat 32 (Cmd.p32 c 16)) (BitVec.ofNat 16 (Cmd.p16 c 20)) = none ∧ ((∀ p ∈ s.led.history, ¬(p.job = BitVec.ofNat 32 (Cmd.p32 c 16) ∧ p.handle = BitVec.ofNat 16 (Cmd.p16 c 20))))) :=
  ⟨⟨(cmd (leBytes 4 7 ++ [0,0,0,0])), up, by decide +kernel⟩,
   ⟨(cmd (leBytes 4 7)), withJob, by decide +kernel⟩,
   ⟨(cmd (leBytes 4 7 ++ leBytes 2 3 ++ [1,0] ++ leBytes 2 0 ++ leBytes 2 1)), (withSheet sheet0 (withLeaves)), 0, sheet0, by decide +kernel⟩,
   ⟨(cmd (leBytes 4 7 ++ leBytes 2 3 ++ [0,0])), (withSheet sheet0), 0, sheet0, by decide +kernel⟩,
   ⟨(cmd (leBytes 4 7 ++ leBytes 2 3 ++ [0,0])), up, by decide +kernel⟩⟩

/-- Each clause of SheetOpcodesComplete has a state and operands that meet what it asks for. -/
theorem witness_SheetOpcodesComplete :
    (∃ (c : Cmd), ∃ (s : State), ∃ j, ∃ i, Accepted admitSheetSpec c s ∧ jobOf s (BitVec.ofNat 32 (u32 c.params 0)) = some j ∧ findSheet s (BitVec.ofNat 32 (u32 c.params 0)) (BitVec.ofNat 16 (u16 c.params 4)) = none ∧ ((descriptorFaults (begun s c) c j.audit (BitVec.ofNat 32 (u32 c.params 0)) c.params).all (fun x => !x.2) = true) ∧ admitTooFast (begun s c) c.params = false ∧ admitFenced (begun s c) c.params = false ∧ s.led.entries[i] = none ∧ ((∀ k : Fin 512, k < i → s.led.entries[k] ≠ none)) ∧ (jnlOn s && ringFull s) = false) ∧
    (∃ (c : Cmd), ∃ (s : State), ∃ i, ∃ e, ∃ j, Accepted commitSheetSpec c s ∧ findSheet s (BitVec.ofNat 32 (Cmd.p32 c 16)) (BitVec.ofNat 16 (Cmd.p16 c 20)) = some (i, e) ∧ jobOf s (BitVec.ofNat 32 (Cmd.p32 c 16)) = some j ∧ e.state = .admitted ∧ mirrorOn s = true ∧ missingLeaf (begun s c) e = none ∧ ((j.audit = true → s.jnl.anchored = true ∧ s.jnl.next ≤ highNow s))) ∧
    (∃ (c : Cmd), ∃ (s : State), ∃ i, ∃ e, ∃ j, Accepted commitSheetSpec c s ∧ findSheet s (BitVec.ofNat 32 (Cmd.p32 c 16)) (BitVec.ofNat 16 (Cmd.p16 c 20)) = some (i, e) ∧ jobOf s (BitVec.ofNat 32 (Cmd.p32 c 16)) = some j ∧ e.state = .admitted ∧ mirrorOn s = true ∧ missingLeaf (begun s c) e = none ∧ ((j.audit = true → s.jnl.anchored = true ∧ s.jnl.next ≤ highNow s))) ∧
    (∃ (c : Cmd), ∃ (s : State), ∃ i, ∃ e, Accepted cancelSheetSpec c s ∧ findSheet s (BitVec.ofNat 32 (Cmd.p32 c 16)) (BitVec.ofNat 16 (Cmd.p16 c 20)) = some (i, e) ∧ gateComes s i = false ∧ e.state = .admitted ∧ e.cancel = false) ∧
    (∃ (c : Cmd), ∃ (s : State), ∃ i, ∃ e, Accepted cancelSheetSpec c s ∧ findSheet s (BitVec.ofNat 32 (Cmd.p32 c 16)) (BitVec.ofNat 16 (Cmd.p16 c 20)) = some (i, e) ∧ gateComes s i = false ∧ e.state = .committed ∧ e.cancel = false ∧ journalRefusal (begun s c) true = none ∧ (RecordRoom (1 + (sheets s).countP fun x => x.2.duplex == 2 && x.2.job == e.job && x.2.partner == e.handle) s)) :=
  ⟨⟨(big descriptor), (withRecipes [(0x40, 0xFFFF, sheetRec)] (withJob)), job7, 0, by decide +kernel⟩,
   ⟨(cmd (leBytes 4 7 ++ leBytes 2 3 ++ [0,0])), (withSheet sheet0 (withJob (dramUp (withLeaves)))), 0, sheet0, job7, by decide +kernel⟩,
   ⟨(cmd (leBytes 4 7 ++ leBytes 2 3 ++ [0,0])), ((withSheet sheet0 (dramUp (withLeaves))).modLed (fun d => { d with jobs := [job7 true] }) |>.modJnl fun j => { j with anchored := true, next := 64, high := 127 }), 0, sheet0, (job7 true), by decide +kernel⟩,
   ⟨(cmd (leBytes 4 7 ++ leBytes 2 3 ++ [0,0])), (withSheet sheet0 (withJob)), 0, sheet0, by decide +kernel⟩,
   ⟨(cmd (leBytes 4 7 ++ leBytes 2 3 ++ [0,0])), (withSheet { sheet0 with state := .committed } (withJob)), 0, ({ sheet0 with state := .committed }), by decide +kernel⟩⟩

/-- Each clause of AxisOpcodesComplete has a state and operands that meet what it asks for. -/
theorem witness_AxisOpcodesComplete :
    (∃ (c : Cmd), ∃ (s : State), ∃ (a : Fin 16), a = axisNumber c ∧ Accepted axisHomeSpec c s ∧ axEnabled (axisOf s a) = true ∧ Cmd.p8 c 17 ≤ 3 ∧ homeMethod (axHomeSeq (axisOf s a) (Cmd.p8 c 17)) ≠ 0 ∧ s.axs[a].owned = false ∧ s.axs[a].state = .idle) ∧
    (∃ (c : Cmd), ∃ (s : State), ∃ (a : Fin 16), a = axisNumber c ∧ Accepted axisHomeSpec c s ∧ axEnabled (axisOf s a) = true ∧ Cmd.p8 c 17 ≤ 3 ∧ homeMethod (axHomeSeq (axisOf s a) (Cmd.p8 c 17)) ≠ 0 ∧ s.axs[a].owned = false ∧ s.axs[a].state = .idle) ∧
    (∃ (c : Cmd), ∃ (s : State), ∃ (a : Fin 16), a = axisNumber c ∧ Accepted axisMoveSpec c s ∧ axEnabled (axisOf s a) = true ∧ Cmd.p8 c 17 ≤ 2 ∧ ((Cmd.p8 c 17 ≤ 1 → isI32 (moveTarget (axisOf s a) s.axs[a] (Cmd.p8 c 17) (Cmd.i32 c 20)) = true ∧ inSoft (axisOf s a) s.axs[a] (moveTarget (axisOf s a) s.axs[a] (Cmd.p8 c 17) (Cmd.i32 c 20)) = true)) ∧ s.axs[a].owned = false ∧ ((Cmd.p8 c 17 = 0 → s.axs[a].homed = true)) ∧ stallComes s a = false ∧ ((s.axs[a].state = .idle ∨ s.axs[a].state = .moving))) ∧
    (∃ (c : Cmd), ∃ (s : State), ∃ (a : Fin 16), a = axisNumber c ∧ Accepted axisMoveSpec c s ∧ axEnabled (axisOf s a) = true ∧ Cmd.p8 c 17 ≤ 2 ∧ ((Cmd.p8 c 17 ≤ 1 → isI32 (moveTarget (axisOf s a) s.axs[a] (Cmd.p8 c 17) (Cmd.i32 c 20)) = true ∧ inSoft (axisOf s a) s.axs[a] (moveTarget (axisOf s a) s.axs[a] (Cmd.p8 c 17) (Cmd.i32 c 20)) = true)) ∧ s.axs[a].owned = false ∧ ((Cmd.p8 c 17 = 0 → s.axs[a].homed = true)) ∧ stallComes s a = false ∧ ((s.axs[a].state = .idle ∨ s.axs[a].state = .moving))) ∧
    (∃ (c : Cmd), ∃ (s : State), ∃ (a : Fin 16), a = axisNumber c ∧ Accepted axisStopSpec c s ∧ axEnabled (axisOf s a) = true ∧ Cmd.p8 c 17 = 2 ∧ s.axs[a].state = .idle) ∧
    (∃ (c : Cmd), ∃ (s : State), ∃ (a : Fin 16), a = axisNumber c ∧ Accepted axisStopSpec c s ∧ axEnabled (axisOf s a) = true ∧ Cmd.p8 c 17 = 0 ∧ s.axs[a].state = .moving ∧ coming s (· == .axisTargetReached a) = false) ∧
    (∃ (c : Cmd), ∃ (s : State), ∃ (a : Fin 16), a = axisNumber c ∧ Accepted axisStopSpec c s ∧ axEnabled (axisOf s a) = true ∧ Cmd.p8 c 17 = 1 ∧ s.axs[a].state = .moving ∧ s.axs[a].owned = false) ∧
    (∃ (c : Cmd), ∃ (s : State), ∃ (a : Fin 16), a = axisNumber c ∧ Accepted axisQuerySpec c s ∧ axEnabled (axisOf s a) = true) ∧
    (∃ (c : Cmd), ∃ (s : State), ∃ (a : Fin 16), a = axisNumber c ∧ Accepted groupMoveSpec c s ∧ Cmd.p8 c 16 ≤ 3 ∧ 2 ≤ Cmd.p8 c 17 ∧ Cmd.p8 c 17 ≤ 4 ∧ ((∀ k, k < 4 → Cmd.p8 c 17 ≤ k → Cmd.p8 c (18 + k) = 0xFF)) ∧ (groupAxes c).Nodup ∧ ((∀ k, k < Cmd.p8 c 17 → ∃ a : Fin 16, a.1 = Cmd.p8 c (18 + k) ∧ axEnabled (axisOf s a) = true ∧ inSoft (axisOf s a) s.axs[a] (groupTarget c k) = true ∧ s.axs[a].owned = false ∧ s.axs[a].homed = true ∧ s.axs[a].state = .idle)) ∧ ((s.axs.any fun x => (x.state == .group || (x.state == .stopping && x.line.isSome)) && x.group == Cmd.p8 c 16) = false)) :=
  ⟨⟨(cmd [0,0,0,0]), (axis0 (fun x => { x with state := .idle })), 0, by decide +kernel⟩,
   ⟨(cmd [0,1,0,0]), (axis0 (fun x => { x with state := .idle })), 0, by decide +kernel⟩,
   ⟨(cmd ([0,1,0,0] ++ leBytes 4 500 ++ List.replicate 8 0)), (axis0 (fun x => { x with state := .idle })), 0, by decide +kernel⟩,
   ⟨(cmd ([0,0,0,0] ++ leBytes 4 100000 ++ List.replicate 8 0)), (axis0 (fun x => { x with state := .moving, homed := true })), 0, by decide +kernel⟩,
   ⟨(cmd [0,2,0,0]), (axis0 (fun x => { x with state := .idle })), 0, by decide +kernel⟩,
   ⟨(cmd [0,0,0,0]), (axis0 (fun x => { x with state := .moving, vel := 400 })), 0, by decide +kernel⟩,
   ⟨(cmd [0,1,0,0]), (axis0 (fun x => { x with state := .moving, vel := 400 })), 0, by decide +kernel⟩,
   ⟨(cmd [0,0,0,0]), (axis0 (fun x => { x with state := .moving, vel := 400, homed := true })), 0, by decide +kernel⟩,
   ⟨(cmd ([1,2,0,1,0xFF,0xFF,0,0] ++ leBytes 4 100 ++ leBytes 4 200 ++ List.replicate 16 0)), ((axis0 (fun x => { x with state := .idle, homed := true })).modAxis 1 (fun x => { x with state := .idle, homed := true })), 1, by decide +kernel⟩⟩

/-- Each clause of MotorOpcodesComplete has a state and operands that meet what it asks for. -/
theorem witness_MotorOpcodesComplete :
    (∃ (c : Cmd), ∃ (s : State), ∃ (m : Fin 10), m = motorNumber c ∧ Accepted motorStartSpec c s ∧ moEnabled (motorOf s m) = true ∧ Cmd.p32 c 20 ≤ moMaxSpeed (motorOf s m) ∧ s.mot.ch[m].state = .stopped ∧ s.mot.ch[m].owned = false ∧ underSpdcmd s m = false) ∧
    (∃ (c : Cmd), ∃ (s : State), ∃ (m : Fin 10), m = motorNumber c ∧ Accepted motorStopSpec c s ∧ moEnabled (motorOf s m) = true ∧ s.mot.ch[m].owned = false ∧ Cmd.p8 c 17 = 1 ∧ s.mot.ch[m].state ≠ .stopped ∧ s.mot.ch[m].state ≠ .fenced) ∧
    (∃ (c : Cmd), ∃ (s : State), ∃ (m : Fin 10), m = motorNumber c ∧ Accepted motorStopSpec c s ∧ moEnabled (motorOf s m) = true ∧ s.mot.ch[m].owned = false ∧ Cmd.p8 c 17 = 0 ∧ s.mot.ch[m].state = .running) ∧
    (∃ (c : Cmd), ∃ (s : State), ∃ (m : Fin 10), m = motorNumber c ∧ Accepted motorSetSpeedSpec c s ∧ moEnabled (motorOf s m) = true ∧ Cmd.p32 c 20 ≤ moMaxSpeed (motorOf s m) ∧ s.mot.ch[m].state = .running ∧ s.mot.ch[m].owned = false ∧ underSpdcmd s m = false) ∧
    (∃ (c : Cmd), ∃ (s : State), ∃ (m : Fin 10), m = motorNumber c ∧ Accepted motorSetSpeedSpec c s ∧ moEnabled (motorOf s m) = true ∧ Cmd.p32 c 20 ≤ moMaxSpeed (motorOf s m) ∧ s.mot.ch[m].state = .running ∧ s.mot.ch[m].owned = false ∧ underSpdcmd s m = false) ∧
    (∃ (c : Cmd), ∃ (s : State), ∃ (m : Fin 10), m = motorNumber c ∧ Accepted motorQuerySpec c s ∧ moEnabled (motorOf s m) = true) :=
  ⟨⟨(cmd ([0,0,0,0] ++ leBytes 4 600000)), driven, 0, by decide +kernel⟩,
   ⟨(cmd [0,1,0,0]), (motor0 (fun x => { x with state := .running })), 0, by decide +kernel⟩,
   ⟨(cmd [0,0,0,0]), (motor0 (fun x => { x with state := .running })), 0, by decide +kernel⟩,
   ⟨(cmd ([0,0,0,0] ++ leBytes 4 5000)), (motor0 (fun x => { x with state := .running, speed := 5000 })), 0, by decide +kernel⟩,
   ⟨(cmd ([0,0,0,0] ++ leBytes 4 6000)), (motor0 (fun x => { x with state := .running, speed := 5000 })), 0, by decide +kernel⟩,
   ⟨(cmd [0,0,0,0]), driven, 0, by decide +kernel⟩⟩

/-- Each clause of LoopOpcodesComplete has a state and operands that meet what it asks for. -/
theorem witness_LoopOpcodesComplete :
    (∃ (c : Cmd), ∃ (s : State), ∃ (n : Fin 160), n = slotNumber c ∧ Accepted loopSetSpec c s ∧ laserSlot s n.1 = false ∧ Cmd.p8 c 17 = 0) ∧
    (∃ (c : Cmd), ∃ (s : State), ∃ (n : Fin 160), n = slotNumber c ∧ Accepted loopSetSpec c s ∧ laserSlot s n.1 = false ∧ Cmd.p8 c 17 = 1 ∧ (loopsBody s).isEmpty = false ∧ Cmd.p16 c 18 < loopEntries (loopsBody s) ∧ entKind (loopEntry (loopsBody s) (Cmd.p16 c 18)) ≠ 3 ∧ Cmd.p32 c 20 % 20 = 0 ∧ 20 ≤ Cmd.p32 c 20 ∧ Cmd.p32 c 20 ≤ 1000000 ∧ outerOk s (loopEntry (loopsBody s) (Cmd.p16 c 18)) (Cmd.p32 c 20 / 20) = true ∧ (rateExceeds (evalRate (eventReserve s) ((n.1, entryCost (loopsBody s) (loopEntry (loopsBody s) (Cmd.p16 c 18)), Cmd.p32 c 20 / 20, 0) :: (timerSlots s).filter fun x => x.1 != n.1)) = false) ∧ ((bestPhase ((timerSlots s).filter fun x => x.1 != n.1) n.1 (entryCost (loopsBody s) (loopEntry (loopsBody s) (Cmd.p16 c 18))) (Cmd.p32 c 20 / 20) (phaseAllowed s (loopEntry (loopsBody s) (Cmd.p16 c 18)))).2 + eventReserve s ≤ 160)) ∧
    (∃ (c : Cmd), ∃ (s : State), ∃ (n : Fin 160), n = slotNumber c ∧ Accepted loopSetpointSpec c s ∧ s.ctl.loops[n].en = true ∧ entSpMin (slotEntry s s.ctl.loops[n]) ≤ Cmd.i32 c 20 ∧ Cmd.i32 c 20 ≤ entSpMax (slotEntry s s.ctl.loops[n])) ∧
    (∃ (c : Cmd), ∃ (s : State), ∃ (n : Fin 160), n = slotNumber c ∧ Accepted loopSetpointSpec c s ∧ s.ctl.loops[n].en = true ∧ entSpMin (slotEntry s s.ctl.loops[n]) ≤ Cmd.i32 c 20 ∧ Cmd.i32 c 20 ≤ entSpMax (slotEntry s s.ctl.loops[n])) ∧
    (∃ (c : Cmd), ∃ (s : State), ∃ (n : Fin 160), n = slotNumber c ∧ Accepted loopModeSpec c s ∧ s.ctl.loops[n].en = true ∧ s.ctl.loops[n].fence = 0 ∧ Cmd.p8 c 17 = 0) ∧
    (∃ (c : Cmd), ∃ (s : State), ∃ (n : Fin 160), n = slotNumber c ∧ Accepted loopModeSpec c s ∧ s.ctl.loops[n].en = true ∧ s.ctl.loops[n].fence = 0 ∧ Cmd.p8 c 17 = 1) ∧
    (∃ (c : Cmd), ∃ (s : State), ∃ (n : Fin 160), n = slotNumber c ∧ Accepted loopModeSpec c s ∧ s.ctl.loops[n].en = true ∧ s.ctl.loops[n].fence = 0 ∧ Cmd.p8 c 17 = 2 ∧ s.ctl.loops[n].mode ≠ .lawA) ∧
    (∃ (c : Cmd), ∃ (s : State), ∃ (n : Fin 160), n = slotNumber c ∧ Accepted loopQuerySpec c s) :=
  ⟨⟨(cmd [120,0,0,0,0,0,0,0]), (loop5 (fun l => l)), 120, by decide +kernel⟩,
   ⟨(cmd ([120,1,0,0] ++ leBytes 4 1000)), driven, 120, by decide +kernel⟩,
   ⟨(cmd ([120,0,0,0] ++ leBytes 4 100000 ++ leBytes 4 5)), (loop5 (fun l => l)), 120, by decide +kernel⟩,
   ⟨(cmd ([120,0,0,0] ++ leBytes 4 100000 ++ leBytes 4 5)), (loop5 (fun l => { l with cascade := true })), 120, by decide +kernel⟩,
   ⟨(cmd ([120,0,0,0] ++ leBytes 4 0)), (loop5 (fun l => { l with mode := .lawA })), 120, by decide +kernel⟩,
   ⟨(cmd ([120,1,0,0] ++ leBytes 4 77)), (loop5 (fun l => { l with mode := .lawA })), 120, by decide +kernel⟩,
   ⟨(cmd ([120,2,0,0] ++ leBytes 4 0)), (loop5 (fun l => l)), 120, by decide +kernel⟩,
   ⟨(cmd [120,0,0,0]), (loop5 (fun l => { l with mode := .lawA, sat := true })), 120, by decide +kernel⟩⟩

/-- Each clause of HeadOpcodesComplete has a state and operands that meet what it asks for. -/
theorem witness_HeadOpcodesComplete :
    (∃ (c : Cmd), ∃ (s : State), ∃ (h : Fin 8), h = headNumber c ∧ Accepted headScanSpec c s ∧ ((∀ k : Fin 8, bitOf (Cmd.p8 c 16) k.1 = true → headInUse s k.1 = false ∧ headServed s k.1 = false ∧ s.hdp[k].state ≠ .fenced))) ∧
    (∃ (c : Cmd), ∃ (s : State), ∃ (h : Fin 8), h = headNumber c ∧ Accepted headMaintainSpec c s ∧ headInUse s h.1 = false ∧ headServed s h.1 = false ∧ s.hdp[h].capMove = none ∧ Cmd.p8 c 17 = 2 ∧ Cmd.p16 c 18 ≠ 0 ∧ s.hdp[h].state = .idle) ∧
    (∃ (c : Cmd), ∃ (s : State), ∃ (h : Fin 8), h = headNumber c ∧ Accepted headMaintainSpec c s ∧ headInUse s h.1 = false ∧ headServed s h.1 = false ∧ s.hdp[h].capMove = none ∧ Cmd.p8 c 17 = 0 ∧ Cmd.p16 c 18 = 0 ∧ s.hdp[h].state = .capped) ∧
    (∃ (c : Cmd), ∃ (s : State), ∃ (h : Fin 8), h = headNumber c ∧ Accepted headMaintainSpec c s ∧ headInUse s h.1 = false ∧ headServed s h.1 = false ∧ s.hdp[h].capMove = none ∧ Cmd.p8 c 17 = 1 ∧ Cmd.p16 c 18 = 0 ∧ s.hdp[h].state = .capped ∧ ((headBody s h.1).isEmpty = true ∨ hdCapAxis (headBody s h.1) = 0xFF)) ∧
    (∃ (c : Cmd), ∃ (s : State), ∃ (h : Fin 8), h = headNumber c ∧ Accepted headMaintainSpec c s ∧ headInUse s h.1 = false ∧ headServed s h.1 = false ∧ s.hdp[h].capMove = none ∧ Cmd.p8 c 17 = 0 ∧ Cmd.p16 c 18 = 0 ∧ s.hdp[h].state = .idle ∧ (headBody s h.1).isEmpty = false ∧ hdCapAxis (headBody s h.1) ≠ 0xFF) ∧
    (∃ (c : Cmd), ∃ (s : State), ∃ (h : Fin 8), h = headNumber c ∧ Accepted headMarkDeadSpec c s ∧ Cmd.p8 c 17 ≤ 1 ∧ Cmd.p16 c 18 < nozzleCount s.hdp[h] ∧ headServed s h.1 = false ∧ journalRefusal (begun s c) false = none ∧ RecordRoom 1 s ∧ insideSheetAt s h.1 = false ∧ s.hdp[h].deadNext = []) ∧
    (∃ (c : Cmd), ∃ (s : State), ∃ (h : Fin 8), h = headNumber c ∧ Accepted headMarkDeadSpec c s ∧ Cmd.p8 c 17 ≤ 1 ∧ Cmd.p16 c 18 < nozzleCount s.hdp[h] ∧ headServed s h.1 = false ∧ journalRefusal (begun s c) false = none ∧ RecordRoom 1 s ∧ insideSheetAt s h.1 = false ∧ s.hdp[h].deadNext = []) :=
  ⟨⟨(cmd [3,0,0,0]), heads, 3, by decide +kernel⟩,
   ⟨(cmd [0,2,5,0]), heads, 0, by decide +kernel⟩,
   ⟨(cmd [0,0,0,0]), (head0 (fun x => { x with state := .capped })), 0, by decide +kernel⟩,
   ⟨(cmd [1,1,0,0]), ((heads).modHead 1 (fun x => { x with state := .capped })), 1, by decide +kernel⟩,
   ⟨(cmd [0,0,0,0]), heads, 0, by decide +kernel⟩,
   ⟨(cmd [0,0,9,0]), heads, 0, by decide +kernel⟩,
   ⟨(cmd [0,1,9,0]), heads, 0, by decide +kernel⟩⟩

/-- Each clause of StationOpcodesComplete has a state and operands that meet what it asks for. -/
theorem witness_StationOpcodesComplete :
    (∃ (c : Cmd), ∃ (s : State), ∃ (k : Fin 6), k = stationNumber c ∧ Accepted stationCalibrateSpec c s ∧ Cmd.p8 c 17 ≤ 3 ∧ ((Cmd.p8 c 17 ≠ 0 → polygonAtSpeed s k = true)) ∧ stationInUse s k.1 = false ∧ calibrating s k.1 = false ∧ stationFenced s k.1 = false) ∧
    (∃ (c : Cmd), ∃ (s : State), ∃ (k : Fin 6), k = stationNumber c ∧ Accepted stationLockSpec c s ∧ Cmd.p8 c 17 = 0 ∧ (stationBody s k.1).isEmpty = false ∧ pendLevel s (0x64 + 8 * k.1) = none ∧ s.btu[k].lock = .off ∧ lockLimits s k (stationBody s k.1) = true ∧ (((sheetBody s).isEmpty = true ∨ intervalOk (stationBody s k.1) (sheetBody s) = true)) ∧ (bandFor (clockBody s) (stationBody s k.1)).isSome = true ∧ calibrating s k.1 = false ∧ stationFenced s k.1 = false) ∧
    (∃ (c : Cmd), ∃ (s : State), ∃ (k : Fin 6), k = stationNumber c ∧ Accepted stationLockSpec c s ∧ Cmd.p8 c 17 = 1 ∧ stationInUse s k.1 = false ∧ calibrating s k.1 = false) ∧
    (∃ (c : Cmd), ∃ (s : State), ∃ (k : Fin 6), k = stationNumber c ∧ Accepted stationQuerySpec c s) :=
  ⟨⟨(cmd [0,0,0,0]), stations, 0, by decide +kernel⟩,
   ⟨(cmd [0,0,0,0]), stations, 0, by decide +kernel⟩,
   ⟨(cmd [0,1,0,0]), (station0 (fun x => { x with lock := .locked })), 0, by decide +kernel⟩,
   ⟨(cmd [0,0,0,0]), stations, 0, by decide +kernel⟩⟩

/-- Each clause of DramOpcodesComplete has a state and operands that meet what it asks for. -/
theorem witness_DramOpcodesComplete :
    (∃ (c : Cmd), ∃ (s : State), Accepted dramTrainSpec c s ∧ Cmd.p8 c 16 ≠ 0 ∧ Cmd.p8 c 16 ≤ 3 ∧ Cmd.p8 c 17 ≤ 1 ∧ s.drc.training = none) ∧
    (∃ (c : Cmd), ∃ (s : State), Accepted dramTrainSpec c s ∧ Cmd.p8 c 16 ≠ 0 ∧ Cmd.p8 c 16 ≤ 3 ∧ Cmd.p8 c 17 ≤ 1 ∧ s.drc.training = none) ∧
    (∃ (c : Cmd), ∃ (s : State), ∃ k, Accepted dramSetRateSpec c s ∧ k < 7 ∧ rateOf k = Cmd.p16 c 16 ∧ ((recipeOn s 0x0003 = true → k ≤ drBin (dramBody s))) ∧ s.drc.training = none ∧ rateStored s k = true) ∧
    (∃ (c : Cmd), ∃ (s : State), ∃ k, Accepted dramSetRateSpec c s ∧ k < 7 ∧ rateOf k = Cmd.p16 c 16 ∧ ((recipeOn s 0x0003 = true → k ≤ drBin (dramBody s))) ∧ s.drc.training.isSome = true ∧ s.drc.stepAt ≠ some s.now) ∧
    (∃ (c : Cmd), ∃ (s : State), ∃ (n : Fin 2), Accepted dramQuerySpec c s ∧ Cmd.p8 c 16 = n.1 ∧ Cmd.p8 c 17 = 0) ∧
    (∃ (c : Cmd), ∃ (s : State), ∃ (n : Fin 2), Accepted dramQuerySpec c s ∧ Cmd.p8 c 16 = n.1 ∧ Cmd.p8 c 17 = 1) :=
  ⟨⟨(cmd [3,0,0,0]), (dramUp (inMode .service)), by decide +kernel⟩,
   ⟨(cmd [2,1,0,0]), (inMode .standby), by decide +kernel⟩,
   ⟨(cmd (leBytes 2 (rateOf 3) ++ [0,0])), (dramUp (inMode .service)), 3, by decide +kernel⟩,
   ⟨(cmd (leBytes 2 (rateOf 3) ++ [0,0])), training, 3, by decide +kernel⟩,
   ⟨(cmd [1,0,0,0]), (dramUp (inMode .service)), 1, by decide +kernel⟩,
   ⟨(cmd [1,1,0,0]), (dramUp (inMode .service)), 1, by decide +kernel⟩⟩

/-- Each clause of DramRowsComplete has a state and operands that meet what it asks for. -/
theorem witness_DramRowsComplete :
    (∃ (s : State), ∃ (n : Fin 2), s.sys.mode ≠ .reset ∧ s.drc.ch[n].up = true ∧ s.drc.ch[n].sr = false ∧ s.drc.ch[n].joined ≠ some s.now) ∧
    (∃ (s : State), ∃ (n : Fin 2), s.sys.mode ≠ .reset ∧ s.drc.ch[n].up = true ∧ s.drc.ch[n].sr = false ∧ s.drc.ch[n].joined ≠ some s.now ∧ owedCap s.drc.ch[n] ≤ s.drc.ch[n].owed) ∧
    (∃ (s : State), ∃ (n : Fin 2), s.sys.mode ≠ .reset ∧ s.drc.ch[n].up = true ∧ s.drc.ch[n].sr = false ∧ s.drc.ch[n].joined ≠ some s.now ∧ s.drc.ch[n].owed < owedCap s.drc.ch[n]) ∧
    (∃ (s : State), ∃ (n : Fin 2), s.sys.mode ≠ .reset ∧ s.drc.ch[n].up = true ∧ s.drc.ch[n].sr = false) ∧
    (∃ (s : State), ∃ (n : Fin 2), s.sys.mode ≠ .reset ∧ s.drc.ch[n].up = true ∧ s.drc.ch[n].sr = false ∧ claimed s = false ∧ (s.hdp.any (·.state == .marking)) = false ∧ requestComes s = false) ∧
    (∃ (s : State), ∃ (n : Fin 2), ∃ (code : BitVec 12), ∃ v, s.sys.mode ≠ .reset ∧ (dramBody s).isEmpty = false ∧ u8 (dramBody s) (0x16 + n.1) ≠ 0xFF ∧ code ≠ 0 ∧ code ≠ 4095 ∧ between (dramTable (dramBody s)) code.toNat = some v) :=
  ⟨⟨(dramUp up), 1, by decide +kernel⟩,
   ⟨(chan1 (fun x => { x with owed := 7 })), 1, by decide +kernel⟩,
   ⟨(dramUp up), 1, by decide +kernel⟩,
   ⟨(dramUp up), 1, by decide +kernel⟩,
   ⟨(dramUp up), 1, by decide +kernel⟩,
   ⟨(withRecipes [(3, 0xFFFF, dramRec)]), 1, 1000, 200, by decide +kernel⟩⟩

/-- Each clause of DramEventsComplete has a state and operands that meet what it asks for. -/
theorem witness_DramEventsComplete :
    (∃ (s : State), ∃ (n : Fin 2), ∃ (a : Alert), s.sys.mode ≠ .reset ∧ s.drc.ch[n].up = true ∧ a.third = false) ∧
    (∃ (s : State), ∃ (n : Fin 2), ∃ (a : Alert), s.sys.mode ≠ .reset ∧ s.drc.ch[n].up = true ∧ a.third = false) ∧
    (∃ (s : State), ∃ (n : Fin 2), ∃ (a : Alert), s.sys.mode ≠ .reset ∧ s.drc.ch[n].up = true ∧ a.third = true) ∧
    (∃ (s : State), ∃ (n : Fin 2), ∃ (a : Alert), s.sys.mode ≠ .reset ∧ s.drc.ch[n].up = true ∧ a.third = true) ∧
    (∃ (s : State), ∃ x, s.sys.mode ≠ .reset ∧ s.drc.training = some x ∧ s.drc.ratePend = none ∧ x.retried = false) ∧
    (∃ (s : State), ∃ x, s.sys.mode ≠ .reset ∧ s.drc.training = some x ∧ s.drc.ratePend = none ∧ x.step + 1 < stepCount s.drc.ch[x.channel] x.kind) ∧
    (∃ (s : State), s.sys.mode ≠ .reset ∧ s.drc.fillDone = false ∧ s.cad.capPages ≠ 0 ∧ s.sys.depth < 2) ∧
    (∃ (s : State), s.sys.mode ≠ .reset ∧ s.drc.fillDone = true ∧ (s.drc.ch.any (·.sr)) = false) :=
  ⟨⟨(dramUp up), 1, (⟨true, false, true⟩), by decide +kernel⟩,
   ⟨(dramUp up), 1, (⟨false, false, true⟩), by decide +kernel⟩,
   ⟨(dramUp up), 1, (⟨false, true, true⟩), by decide +kernel⟩,
   ⟨(dramUp up), 1, (⟨false, true, false⟩), by decide +kernel⟩,
   ⟨training, train0, by decide +kernel⟩,
   ⟨training, train0, by decide +kernel⟩,
   ⟨((dramUp up).modCad (fun x => { x with capPages := 1000 })), by decide +kernel⟩,
   ⟨((dramUp up).modDrc (fun x => { x with fillDone := true })), by decide +kernel⟩⟩

/-- Each clause of FaultOpcodesComplete has a state and operands that meet what it asks for. -/
theorem witness_FaultOpcodesComplete :
    (∃ (c : Cmd), ∃ (s : State), ∃ (k : Fin 256), Accepted faultReadSpec c s ∧ Cmd.p16 c 16 = k.1) ∧
    (∃ (c : Cmd), ∃ (s : State), ∃ (k : Fin 256), Accepted faultReadSpec c s ∧ Cmd.p16 c 16 = 256 ∧ oldestPending (beforeRaises s) = some k) ∧
    (∃ (c : Cmd), ∃ (s : State), Accepted faultReadSpec c s ∧ Cmd.p16 c 16 = 256 ∧ oldestPending (beforeRaises s) = none) ∧
    (∃ (c : Cmd), ∃ (s : State), ∃ (k : Fin 256), Accepted faultClearSpec c s ∧ Cmd.p8 c 16 = k.1 ∧ causePresent (begun s c) k.1 = false ∧ raisedNow s k = false ∧ ((k.1 = 0x53 → retiredSlots s = [])) ∧ ((k.1 = 0xF0 → s.sys.svcLock = true → c.src = .sup))) ∧
    (∃ (c : Cmd), ∃ (s : State), ∃ (k : Fin 256), Accepted faultClearSpec c s ∧ Cmd.p8 c 16 = k.1 ∧ causePresent (begun s c) k.1 = false ∧ raisedNow s k = false ∧ ((k.1 = 0x53 → retiredSlots s = [])) ∧ ((k.1 = 0xF0 → s.sys.svcLock = true → c.src = .sup))) ∧
    (∃ (c : Cmd), ∃ (s : State), ∃ (k : Fin 256), Accepted faultSetSeveritySpec c s ∧ Cmd.p8 c 18 ≤ 4 ∧ journalRefusal (begun s c) false = none ∧ RecordRoom 1 s ∧ Cmd.p16 c 16 = k.1 ∧ (sourceFloor k.1).toNat ≤ Cmd.p8 c 18) ∧
    (∃ (c : Cmd), ∃ (s : State), Accepted faultSetSeveritySpec c s ∧ Cmd.p8 c 18 ≤ 4 ∧ journalRefusal (begun s c) false = none ∧ RecordRoom 1 s ∧ Cmd.p16 c 16 = 256) ∧
    (∃ (c : Cmd), ∃ (s : State), Accepted faultInjectSpec c s ∧ ((Cmd.p8 c 17 = 1 ∨ Cmd.p8 c 17 = 0 ∧ injectionPoint (Cmd.p8 c 16) = true)) ∧ Cmd.p16 c 18 ≠ 0 ∧ s.flt.inject = none ∧ journalRefusal (begun s c) false = none ∧ RecordRoom 1 s) ∧
    (∃ (c : Cmd), ∃ (s : State), Accepted faultInjectSpec c s ∧ ((Cmd.p8 c 17 = 1 ∨ Cmd.p8 c 17 = 0 ∧ injectionPoint (Cmd.p8 c 16) = true)) ∧ Cmd.p16 c 18 ≠ 0 ∧ s.flt.inject = none ∧ journalRefusal (begun s c) false = none ∧ RecordRoom 1 s) :=
  ⟨⟨(cmd (leBytes 2 0xE2 ++ [0,0])), up, 0xE2, by decide +kernel⟩,
   ⟨(cmd (leBytes 2 256 ++ [0,0])), (pendingFault 0xE2 .note), 0xE2, by decide +kernel⟩,
   ⟨(cmd (leBytes 2 256 ++ [0,0])), up, by decide +kernel⟩,
   ⟨(cmd [0xE2,0,0,0]), (pendingFault 0xE2 .note), 0xE2, by decide +kernel⟩,
   ⟨({ cmd [0xF0,0,0,0] with src := .sup, signed := true }), (pendingFault 0xF0 .halt { up with sys := { up.sys with mode := .service, svcLock := true } }), 0xF0, by decide +kernel⟩,
   ⟨(cmd (leBytes 2 0xDA ++ [4,0])), up, 0xDA, by decide +kernel⟩,
   ⟨(cmd (leBytes 2 256 ++ [2,0])), up, by decide +kernel⟩,
   ⟨(cmd [0xE2,1,2,0]), (inMode .service), by decide +kernel⟩,
   ⟨(cmd [0x10,0,2,0]), (inMode .service), by decide +kernel⟩⟩

/-- Each clause of FuseOpcodesComplete has a state and operands that meet what it asks for. -/
theorem witness_FuseOpcodesComplete :
    (∃ (c : Cmd), ∃ (s : State), Accepted fuseReadSpec c s ∧ ((Cmd.p8 c 16 < 128 ∨ 132 ≤ Cmd.p8 c 16))) ∧
    (∃ (c : Cmd), ∃ (s : State), Accepted fuseReadSpec c s ∧ ((Cmd.p8 c 16 < 128 ∨ 132 ≤ Cmd.p8 c 16))) ∧
    (∃ (c : Cmd), ∃ (s : State), Accepted fuseShadowSpec c s ∧ journalRefusal (begun s c) false = none ∧ RecordRoom 1 s ∧ Cmd.p8 c 16 = 0 ∧ Cmd.p8 c 17 ≠ 16 ∧ fuseRegion (Cmd.p8 c 17) ≠ some 4 ∧ regionLocked s (Cmd.p8 c 17) = false) ∧
    (∃ (c : Cmd), ∃ (s : State), Accepted fuseShadowSpec c s ∧ journalRefusal (begun s c) false = none ∧ RecordRoom 1 s ∧ Cmd.p8 c 16 = 1) ∧
    (∃ (c : Cmd), ∃ (s : State), Accepted fuseBurnSpec c s ∧ Cmd.p64 c 20 ≠ 0 ∧ Cmd.p8 c 16 < 239 ∧ fuseRegion (Cmd.p8 c 16) ≠ some 4 ∧ regionLocked s (Cmd.p8 c 16) = false ∧ wordFrozen s (Cmd.p8 c 16) = false ∧ fuseBusy s = false ∧ journalRefusal (begun s c) false = none) ∧
    (∃ (c : Cmd), ∃ (s : State), Accepted fuseLockSpec c s ∧ Cmd.p8 c 16 ≤ 7 ∧ Cmd.p8 c 16 ≠ 6 ∧ bitOf (lockInForce s) (Cmd.p8 c 16) = false ∧ fuseBusy s = false ∧ journalRefusal (begun s c) false = none) ∧
    (∃ (c : Cmd), ∃ (s : State), Accepted provisionSpec c s ∧ bitOf (lockInForce s) 4 = false ∧ ((∀ k, k < 32 → getN s.fus.latched (128 + k) 0 = 0)) ∧ zeroAt c.params 0x10 32 = false ∧ zeroAt c.params 0x30 32 = false ∧ Cmd.p64 c 16 ≠ 0 ∧ Cmd.p64 c 16 % 64 = 0 ∧ fuseBusy s = false ∧ s.jnl.flashOk = true) :=
  ⟨⟨(cmd [127,0,0,0]), (inMode .service), by decide +kernel⟩,
   ⟨(cmd [132,0,0,0]), (inMode .service), by decide +kernel⟩,
   ⟨(cmd ([0,17,0,0] ++ leBytes 8 5)), (inMode .service), by decide +kernel⟩,
   ⟨(cmd ([1,0,0,0] ++ leBytes 8 0)), (inMode .service), by decide +kernel⟩,
   ⟨(cmd ([170,0,0,0] ++ leBytes 8 5)), (inMode .service), by decide +kernel⟩,
   ⟨(cmd [7,0,0,0]), (inMode .service), by decide +kernel⟩,
   ⟨(big provParams), ((inMode .service).modJnl (fun j => { j with flashOk := true })), by decide +kernel⟩⟩

/-- Each clause of JournalOpcodesComplete has a state and operands that meet what it asks for. -/
theorem witness_JournalOpcodesComplete :
    (∃ (c : Cmd), ∃ (s : State), ∃ newest, ∃ n, Accepted journalReadSpec c s ∧ s.jnl.newest = some newest ∧ s.jnl.oldest ≤ Cmd.p64 c 16 ∧ Cmd.p64 c 16 ≤ newest ∧ Cmd.p16 c 24 ≠ 0 ∧ n = min (Cmd.p16 c 24) (newest + 1 - Cmd.p64 c 16) ∧ ((c.src = .sup ∧ Cmd.p16 c 24 ≤ 32 ∧ Cmd.p64 c 28 = 0 ∨ c.src ≠ .sup ∧ Cmd.p16 c 24 ≤ 8192 ∧ Cmd.p64 c 28 ≠ 0 ∧ Cmd.p64 c 28 + 128 * n ≤ 2 ^ 64)) ∧ ((s.jnl.staged = [] ∨ s.jnl.readServed = false ∧ n ≤ 32))) ∧
    (∃ (c : Cmd), ∃ (s : State), ∃ newest, ∃ n, Accepted journalReadSpec c s ∧ s.jnl.newest = some newest ∧ s.jnl.oldest ≤ Cmd.p64 c 16 ∧ Cmd.p64 c 16 ≤ newest ∧ Cmd.p16 c 24 ≠ 0 ∧ n = min (Cmd.p16 c 24) (newest + 1 - Cmd.p64 c 16) ∧ ((c.src = .sup ∧ Cmd.p16 c 24 ≤ 32 ∧ Cmd.p64 c 28 = 0 ∨ c.src ≠ .sup ∧ Cmd.p16 c 24 ≤ 8192 ∧ Cmd.p64 c 28 ≠ 0 ∧ Cmd.p64 c 28 + 128 * n ≤ 2 ^ 64)) ∧ ((s.jnl.staged = [] ∨ s.jnl.readServed = false ∧ n ≤ 32))) ∧
    (∃ (c : Cmd), ∃ (s : State), ∃ newest, ∃ n, Accepted journalReadSpec c s ∧ s.jnl.newest = some newest ∧ s.jnl.oldest ≤ Cmd.p64 c 16 ∧ Cmd.p64 c 16 ≤ newest ∧ Cmd.p16 c 24 ≠ 0 ∧ n = min (Cmd.p16 c 24) (newest + 1 - Cmd.p64 c 16) ∧ ((c.src = .sup ∧ Cmd.p16 c 24 ≤ 32 ∧ Cmd.p64 c 28 = 0 ∨ c.src ≠ .sup ∧ Cmd.p16 c 24 ≤ 8192 ∧ Cmd.p64 c 28 ≠ 0 ∧ Cmd.p64 c 28 + 128 * n ≤ 2 ^ 64)) ∧ s.jnl.staged ≠ [] ∧ s.jnl.readServed = true) ∧
    (∃ (c : Cmd), ∃ (s : State), Accepted journalSealSpec c s ∧ ((s.jnl.waiting.find? fun u => u.type == 0x04) = none) ∧ s.jnl.provisioned = true ∧ s.jnl.flashOk = true ∧ s.sys.pwrFail = false ∧ ((s.jnl.unsealed ≠ 0 ∨ s.jnl.waiting ≠ []))) ∧
    (∃ (c : Cmd), ∃ (s : State), Accepted journalSealSpec c s ∧ ((s.jnl.waiting.find? fun u => u.type == 0x04) = none) ∧ s.jnl.provisioned = false) ∧
    (∃ (c : Cmd), ∃ (s : State), Accepted journalCollectedSpec c s ∧ s.jnl.sealed = true ∧ Cmd.p64 c 16 ≤ s.jnl.sealIdx ∧ ((∀ k, s.jnl.coll = some k → k ≤ Cmd.p64 c 16))) ∧
    (∃ (c : Cmd), ∃ (s : State), Accepted serialQuerySpec c s) ∧
    (∃ (c : Cmd), ∃ (s : State), Accepted serialAnchorSpec c s ∧ Cmd.p64 c 16 % 64 = 0 ∧ anchorFloor s ≤ Cmd.p64 c 16 ∧ s.led.jobs = [] ∧ journalRefusal (begun s c) false = none ∧ RecordRoom 2 s) :=
  ⟨⟨({ cmd (leBytes 8 5 ++ leBytes 2 32 ++ [0,0] ++ leBytes 8 0) with src := .sup }), journalUp, 9, 5, by decide +kernel⟩,
   ⟨({ cmd (leBytes 8 5 ++ leBytes 2 3 ++ [0,0] ++ leBytes 8 0x100) with src := .ring 0 }), journalUp, 9, 3, by decide +kernel⟩,
   ⟨({ cmd (leBytes 8 5 ++ leBytes 2 3 ++ [0,0] ++ leBytes 8 0x100) with src := .ring 0 }), ((journalUp).modJnl (fun j => { j with staged := [rec7], readServed := true })), 9, 3, by decide +kernel⟩,
   ⟨(cmd []), ((journalUp).modJnl (fun j => { j with unsealed := 4 })), by decide +kernel⟩,
   ⟨(cmd []), up, by decide +kernel⟩,
   ⟨({ cmd (leBytes 8 9) with src := .sup, signed := true }), journalUp, by decide +kernel⟩,
   ⟨(cmd []), journalUp, by decide +kernel⟩,
   ⟨({ cmd (leBytes 8 640) with src := .sup, signed := true }), (journalUp (inMode .service)), by decide +kernel⟩⟩

/-- Each clause of HardwareResults has a state and operands that meet what it asks for. -/
theorem witness_HardwareResults :
    (∃ (s : State), ∃ (c : Cmd), ∃ k, signatureCheck s c.params = none ∧ slotFor s (u16 c.params 4) (u16 c.params 6) = some k) ∧
    (∃ (s : State), ∃ (c : Cmd), Cmd.p8 c 17 = 0 ∧ s.hdp[headNumber c].capMove = some true ∧ s.hdp[headNumber c].state = .idle) ∧
    (∃ (s : State), ∃ (c : Cmd), ∃ k, k = stationNumber c ∧ calMeasured s k (calKinds c) = true) ∧
    (∃ (s : State), ∃ (c : Cmd), ∃ k, k = stationNumber c ∧ calMeasured s k (calKinds c) = true) ∧
    (∃ (s : State), ∃ (c : Cmd), ∃ k, k = stationNumber c ∧ calMeasured s k (calKinds c) = false) ∧
    (∃ (c : Cmd), ∃ (w : Fin 256), w.1 = Cmd.p8 c 16) :=
  ⟨⟨signers, (big signedImage), 0, by decide +kernel⟩,
   ⟨(head0 (fun x => { x with capMove := some true })), (cmd [0,0,0,0]), by decide +kernel⟩,
   ⟨measured7, (cmd [1,3,0,0]), 1, by decide +kernel⟩,
   ⟨up, (cmd [1,0,0,0]), 1, by decide +kernel⟩,
   ⟨up, (cmd [1,1,0,0]), 1, by decide +kernel⟩,
   ⟨(cmd ([170,0,0,0] ++ leBytes 8 5)), 170, by decide +kernel⟩⟩

/-- Each clause of SpiReadsComplete has a state and operands that meet what it asks for. -/
theorem witness_SpiReadsComplete :
    (∃ (s : State), ∃ (p : SpiPort), ∃ (frame : List Byte), s.pins.bankLost[0] = false ∧ portAnswers s p = true ∧ frameIs frame 0x05 4 = true) ∧
    (∃ (s : State), ∃ (p : SpiPort), ∃ (frame : List Byte), s.pins.bankLost[0] = false ∧ portAnswers s p = true ∧ frameIs frame 0x05 4 = true) ∧
    (∃ (s : State), ∃ (p : SpiPort), ∃ (frame : List Byte), s.pins.bankLost[0] = false ∧ portAnswers s p = true ∧ frameIs frame 0x0B (10 + 4 * u8 frame 3) = true ∧ registerHead frame 4 = true) ∧
    (∃ (s : State), ∃ (p : SpiPort), ∃ (frame : List Byte), s.pins.bankLost[0] = false ∧ portAnswers s p = true ∧ frameIs frame 0x0B (10 + 4 * u8 frame 3) = true ∧ registerHead frame 4 = true) ∧
    (∃ (s : State), ∃ (p : SpiPort), ∃ (frame : List Byte), ∃ r, ∃ rest, s.pins.bankLost[0] = false ∧ portAnswers s p = true ∧ frameIs frame 0x21 (3 + replyLength s p) = true ∧ (s.spi p).replies = r :: rest) ∧
    (∃ (s : State), ∃ (p : SpiPort), ∃ (frame : List Byte), s.pins.bankLost[0] = false ∧ portAnswers s p = true ∧ frameIs frame 0x21 (3 + replyLength s p) = true ∧ (s.spi p).replies = []) ∧
    (∃ (s : State), ∃ (frame : List Byte), s.pins.bankLost[0] = false ∧ portAnswers s .sup = true ∧ frameIs frame 0x30 (10 + 4 * u8 frame 3) = true ∧ registerHead frame 16 = true) ∧
    (∃ (s : State), ∃ (p : SpiPort), ∃ tag, ∃ q, s.pins.bankLost[0] = false ∧ s.sys.mode ≠ .reset ∧ (s.spi p).queue = [q] ∧ q.tag = tag ∧ q.reply = true ∧ q.timed = false ∧ coming s (completes s (SpiPort.source p) tag) = false) :=
  ⟨⟨up, .mgmt, ([5,0,0,0]), by decide +kernel⟩,
   ⟨(up.modSup (fun x => { x with frameErr := true })), .sup, ([5,0,0,0]), by decide +kernel⟩,
   ⟨up, .mgmt, ([0x0B,0,8,1] ++ List.replicate 10 0), by decide +kernel⟩,
   ⟨up, .sup, ([0x0B,0x40,0,0] ++ List.replicate 6 0), by decide +kernel⟩,
   ⟨(up.modMgt (fun x => { x with replies := [reply7] })), .mgmt, (0x21 :: List.replicate 34 0), reply7, ([]), by decide +kernel⟩,
   ⟨up, .mgmt, (0x21 :: List.replicate 34 0), by decide +kernel⟩,
   ⟨(up.modSup (fun x => { x with jbuf := List.replicate 128 3, jbufCount := 1 })), ([0x30,16,0,1] ++ List.replicate 10 0), by decide +kernel⟩,
   ⟨(up.modMgt (fun x => { x with queue := [⟨7, 0, true, false⟩] })), .mgmt, 7, (⟨7, 0, true, false⟩), by decide +kernel⟩⟩

/-- Each clause of SpiWritesComplete has a state and operands that meet what it asks for. -/
theorem witness_SpiWritesComplete :
    (∃ (s : State), ∃ (frame : List Byte), s.sys.up = true ∧ frameIs frame 0x02 (9 + 4 * u8 frame 3) = true ∧ registerHead frame 4 = true ∧ crcOk frame = true) ∧
    (∃ (s : State), ∃ (frame : List Byte), s.sys.up = true ∧ frameIs frame 0x02 (9 + 4 * u8 frame 3) = true ∧ registerHead frame 4 = true ∧ crcOk frame = true ∧ u16 frame 1 = 0x08 ∧ u8 frame 3 = 0 ∧ 1 ≤ u32 frame 4 % 16384 ∧ u32 frame 4 % 16384 ≤ 10000) ∧
    (∃ (s : State), ∃ (frame : List Byte), ∃ (p : SpiPort), ∃ packet, ∃ c, packet = bytesAt frame 1 64 ∧ c = cmdOf (SpiPort.source p) packet false ∧ kettleUp s = true ∧ frameIs frame 0x20 66 = true ∧ crcOk frame = true ∧ (queued (s.spi p)).length < 4 ∧ (((queued (s.spi p)).any fun q => q.tag == c.tag) = false) ∧ waitsAt s .sup = false ∧ waitsAt s .mgmt = false ∧ entryFault (opSpecOf (u8 packet 0)) packet (SpiPort.source p) false = none ∧ duplicate s c = none ∧ placesTaken s < 15) ∧
    (∃ (s : State), ∃ (frame : List Byte), ∃ (p : SpiPort), ∃ packet, ∃ c, packet = bytesAt frame 1 64 ∧ c = cmdOf (SpiPort.source p) packet false ∧ kettleUp s = true ∧ frameIs frame 0x20 66 = true ∧ crcOk frame = true ∧ (queued (s.spi p)).length < 4 ∧ (((queued (s.spi p)).any fun q => q.tag == c.tag) = false) ∧ waitsAt s .sup = false ∧ waitsAt s .mgmt = false ∧ entryFault (opSpecOf (u8 packet 0)) packet (SpiPort.source p) false = none ∧ duplicate s c = none ∧ 16 ≤ placesTaken s) ∧
    (∃ (s : State), ∃ (frame : List Byte), ∃ packet, ∃ c, s.sys.mode ≠ .reset ∧ packet = bytesAt frame 1 64 ∧ c = cmdOf .sup packet false ∧ s.sys.up = true ∧ frameIs frame 0x31 194 = true ∧ crcOk frame = true ∧ (queued s.sup).length < 4 ∧ (((queued s.sup).any fun q => q.tag == c.tag) = false)) ∧
    (∃ (s : State), ∃ f, ∃ c, ∃ before, ∃ (q : Packet), s.sys.mode ≠ .reset ∧ c = cmdOf .sup f.packet true ∧ s.sup.signed = [f] ∧ s.ktl.intake = before ++ [q] ∧ q.place = .verifying ∧ ((before.all fun x => x.place == .held) = true) ∧ frameVerified s f = true ∧ kettleUp s = true ∧ before.length < 15 ∧ entryFault (opSpecOf (u8 f.packet 0)) f.packet .sup true = none ∧ duplicate s c = none) ∧
    (∃ (s : State), ∃ f, ∃ c, ∃ before, ∃ (q : Packet), s.sys.mode ≠ .reset ∧ c = cmdOf .sup f.packet true ∧ s.sup.signed = [f] ∧ s.ktl.intake = before ++ [q] ∧ q.place = .verifying ∧ ((before.all fun x => x.place == .held) = true) ∧ frameVerified s f = false ∧ s.sup.queue.find? (·.tag == c.tag) = some ⟨c.tag, c.seq, true, false⟩) :=
  ⟨⟨up, (frame ([2,8,0,0,77,0,0,0])), by decide +kernel⟩,
   ⟨up, (frame ([2,8,0,0,77,0,0,0])), by decide +kernel⟩,
   ⟨up, frame3, .mgmt, pk3, (cmdOf .mgmt pk3 false), by refine ⟨?_, ?_, ?_, ?_, ?_, ?_, ?_, ?_, ?_, (rfl), ?_, ?_⟩ <;> decide +kernel⟩,
   ⟨full7, frame3, .mgmt, pk3, (cmdOf .mgmt pk3 false), by refine ⟨?_, ?_, ?_, ?_, ?_, ?_, ?_, ?_, ?_, (rfl), ?_, ?_⟩ <;> decide +kernel⟩,
   ⟨up, frame61, pk61, (cmdOf .sup pk61 false), by refine ⟨?_, ?_, ?_, ?_, ?_, (crcOk_frame _), ?_, ?_⟩ <;> decide +kernel⟩,
   ⟨(verifying7 signedFrame7), signedFrame7, (cmdOf .sup signedFrame7.packet true), ([]), (packetOf .sup signedFrame7.packet true .verifying), by refine ⟨?_, ?_, ?_, ?_, ?_, ?_, ?_, ?_, ?_, (rfl), ?_⟩ <;> decide +kernel⟩,
   ⟨((verifying7 forged7).modSup (fun x => { x with queue := [queuedOf (cmdOf .sup forged7.packet true)] })), forged7, (cmdOf .sup forged7.packet true), ([]), (packetOf .sup forged7.packet true .verifying), by decide +kernel⟩⟩

/-- Each clause of RingCommandsComplete has a state and operands that meet what it asks for. -/
theorem witness_RingCommandsComplete :
    (∃ (s : State), ∃ r, ∃ x, s.sys.up = true ∧ ringOf s r = some x ∧ x.en = false ∧ x.drained = true) ∧
    (∃ (s : State), ∃ r, ∃ x, s.sys.up = true ∧ ringOf s r = some x ∧ x.en = false ∧ x.drained = true) ∧
    (∃ (s : State), s.sys.up = true ∧ s.hif.ev.en = false) ∧
    (∃ (s : State), ∃ r, ∃ x, s.sys.up = true ∧ ringOf s r = some x) ∧
    (∃ (s : State), ∃ r, ∃ x, s.sys.up = true ∧ ringOf s r = some x ∧ x.en = true ∧ x.err = 0) ∧
    (∃ (s : State), ∃ r, ∃ x, s.sys.up = true ∧ ringOf s r = some x ∧ x.en = true ∧ x.err = 0) ∧
    (∃ (s : State), ∃ r, ∃ x, s.sys.up = true ∧ ringOf s r = some x ∧ x.en = true ∧ x.err = 0) ∧
    (∃ (s : State), ∃ r, ∃ x, s.sys.up = true ∧ ringOf s r = some x ∧ x.en = true ∧ x.err = 0) ∧
    (∃ (s : State), s.sys.up = true) ∧
    (∃ (s : State), ∃ r, ∃ x, s.sys.up = true ∧ s.sys.mode ≠ .reset ∧ ringOf s r = some x ∧ x.en = false ∧ x.awaiting = 0) :=
  ⟨⟨up, (.cmd 0), ({}), by decide +kernel⟩,
   ⟨up, (.ingest 2), ({}), by decide +kernel⟩,
   ⟨up, by decide +kernel⟩,
   ⟨ringUp, (.cmd 0), ring0, by decide +kernel⟩,
   ⟨ringUp, (.cmd 0), ring0, by decide +kernel⟩,
   ⟨ringUp, (.cmd 0), ring0, by decide +kernel⟩,
   ⟨ringUp, (.cmd 0), ring0, by decide +kernel⟩,
   ⟨ringUp, (.cmd 0), ring0, by decide +kernel⟩,
   ⟨ringUp, by decide +kernel⟩,
   ⟨up, (.cmd 0), ({}), by decide +kernel⟩⟩

/-- Each clause of RingEventsComplete has a state and operands that meet what it asks for. -/
theorem witness_RingEventsComplete :
    (∃ (s : State), ∃ (n : Fin 4), ∃ l, ∃ c, c = cmdOf (.ring n) (padTo 64 l) false ∧ intakeRoom s = true ∧ s.hif.turn = n.1 ∧ ringFetches s.hif.cr[n] = true ∧ entryFault (opSpecOf (u8 (padTo 64 l) 0)) (padTo 64 l) (.ring n) false = none ∧ duplicate s c = none ∧ waitsAt s .sup = false ∧ waitsAt s .mgmt = false) ∧
    (∃ (s : State), ∃ (n : Fin 4), ∃ (r : Fetch), intakeRoom s = true ∧ s.hif.turn = n.1 ∧ ringFetches s.hif.cr[n] = true ∧ ((∀ l, r ≠ .ok l))) ∧
    (∃ (s : State), ∃ r, ∃ x, s.sys.mode ≠ .reset ∧ ringOf s r = some x ∧ x.unsignalled = true ∧ s.hif.msix[x.vector].masked = false ∧ (s.hif.funcMask = false)) ∧
    (∃ (s : State), ∃ (v : Fin 64), s.sys.up = true ∧ (s.hif.funcMask = false) ∧ s.hif.pba.getLsbD v.1 = true) ∧
    (∃ (s : State), ∃ (v : Fin 64), s.sys.up = true ∧ s.hif.pba = 1#64 <<< v.1 ∧ s.hif.msix[v].masked = false) :=
  ⟨⟨ringUp, 0, (packet 0 7), (cmdOf (.ring 0) (packet 0 7) false), by refine ⟨?_, ?_, ?_, ?_, (rfl), ?_, ?_, ?_⟩ <;> decide +kernel⟩,
   ⟨ringUp, 0, Fetch.unsupported, by refine ⟨?_, ?_, ?_, (by intro l h; cases h)⟩ <;> decide +kernel⟩,
   ⟨((unmasked).modHif (fun h => { h with cr := h.cr.set 0 { ring0 with unsignalled := true } })), (.cmd 0), ({ ring0 with unsignalled := true }), by decide +kernel⟩,
   ⟨(up.modHif (fun h => { h with pba := 1#64 <<< 9 })), 9, by decide +kernel⟩,
   ⟨((unmasked).modHif (fun h => { h with pba := 1#64 <<< 9, funcMask := true })), 9, by decide +kernel⟩⟩

/-- Each clause of RegisterCommandsComplete has a state and operands that meet what it asks for. -/
theorem witness_RegisterCommandsComplete :
    (∃ (s : State), s.sys.up = true) ∧
    (∃ (s : State), s.sys.up = true ∧ bar2Open s = false) ∧
    (∃ (s : State), s.sys.up = true ∧ bar2Open s = true) ∧
    (∃ (s : State), s.sys.up = true) ∧
    (∃ (s : State), s.sys.up = true) ∧
    (∃ (s : State), s.sys.up = true) ∧
    (∃ (s : State), s.sys.up = true) ∧
    (∃ (s : State), s.sys.up = true) ∧
    (∃ (s : State), s.sys.up = true ∧ s.sys.mode ≠ .reset) ∧
    (∃ (s : State), s.sys.up = true) ∧
    (∃ (s : State), s.sys.up = true) ∧
    (∃ (s : State), s.sys.up = true) :=
  ⟨⟨up, by decide +kernel⟩,
   ⟨up, by decide +kernel⟩,
   ⟨((dramUp up).modHif (fun h => { h with bar2En := true }) |>.modDrc (fun d => { d with mapped := 4096 }) |>.modFus (fun f => { f with wires := 0x3FFFFFF })), by decide +kernel⟩,
   ⟨up, by decide +kernel⟩,
   ⟨up, by decide +kernel⟩,
   ⟨(up.modTmp (fun t => { t with flags := 3 })), by decide +kernel⟩,
   ⟨up, by decide +kernel⟩,
   ⟨up, by decide +kernel⟩,
   ⟨up, by decide +kernel⟩,
   ⟨up, by decide +kernel⟩,
   ⟨up, by decide +kernel⟩,
   ⟨up, by decide +kernel⟩⟩

/-- Each clause of LinkCommandsComplete has a state and operands that meet what it asks for. -/
theorem witness_LinkCommandsComplete :
    (∃ (s : State), ∃ (i : Instr), ∃ (l : Link), s.sys.mode ≠ .reset ∧ ((i = .perstNAssert ∧ l = .held ∨ i = .hotReset ∧ linked s = true ∧ l = .training ∨ i = .functionLevelReset ∧ linked s = true ∧ l = .up))) ∧
    (∃ (s : State), ∃ (i : Instr), ∃ (l : Link), s.sys.mode ≠ .reset ∧ ((i = .perstNAssert ∧ l = .held ∨ i = .hotReset ∧ linked s = true ∧ l = .training ∨ i = .functionLevelReset ∧ linked s = true ∧ l = .up))) ∧
    (∃ (s : State), ∃ (i : Instr), ∃ (l : Link), s.sys.mode ≠ .reset ∧ ((i = .perstNAssert ∧ l = .held ∨ i = .hotReset ∧ linked s = true ∧ l = .training ∨ i = .functionLevelReset ∧ linked s = true ∧ l = .up))) ∧
    (∃ (s : State), s.sys.mode ≠ .reset ∧ s.hif.perstLow = true) ∧
    (∃ (s : State), s.sys.mode ≠ .reset ∧ s.hif.link ≠ .held) ∧
    (∃ (s : State), s.sys.mode ≠ .reset ∧ linked s = true) ∧
    (∃ (s : State), s.sys.mode ≠ .reset) ∧
    (∃ (s : State), s.sys.mode ≠ .reset ∧ s.sys.mode = .standby ∧ s.hif.link = .up) :=
  ⟨⟨(parkedAt 0x78 (run78 0 0) (ringUp)), .perstNAssert, .held, by decide +kernel⟩,
   ⟨ringUp, .hotReset, .training, by decide +kernel⟩,
   ⟨ringUp, .functionLevelReset, .up, by decide +kernel⟩,
   ⟨(up.modHif (fun h => { h with perstLow := true })), by decide +kernel⟩,
   ⟨(up.modHif (fun h => { h with link := .training })), by decide +kernel⟩,
   ⟨up, by decide +kernel⟩,
   ⟨up, by decide +kernel⟩,
   ⟨(inMode .standby), by decide +kernel⟩⟩

/-- Each clause of ResetCompletes has a state and operands that meet what it asks for. -/
theorem witness_ResetCompletes :
    (∃ (s : State), ∃ (i : Instr), ((i = .rstNAssert ∨ ∃ xo, i = .powerOnReset xo)) ∧ s.sys.mode ≠ .reset) ∧
    (∃ (s : State), ∃ (i : Instr), ((i = .rstNAssert ∨ ∃ xo, i = .powerOnReset xo)) ∧ s.sys.mode ≠ .reset) ∧
    (∃ (s : State), ∃ (a : StrapLevel), ∃ (b : StrapLevel), s.sys.mode = .reset ∧ a ≠ .changing ∧ b ≠ .changing) :=
  ⟨⟨ringUp, .rstNAssert, by decide +kernel⟩,
   ⟨(parkedAt 0x48 (cmd [1,0,0,0])), (.powerOnReset true), by decide +kernel⟩,
   ⟨State.reset, .high, .low, by decide +kernel⟩⟩

/-- Each clause of BootCompletes has a state and operands that meet what it asks for. -/
theorem witness_BootCompletes :
    (∃ (s : State), s.sys.mode = .boot ∧ s.sys.bootStage = 0 ∧ s.sys.lcSrc = false) ∧
    (∃ (s : State), s.sys.mode = .boot ∧ s.sys.bootStage = 0 ∧ coming s (· == .rootPllLock) = false) ∧
    (∃ (s : State), s.sys.mode = .boot ∧ s.sys.bootStage = 1) ∧
    (∃ (s : State), s.sys.mode = .boot ∧ s.sys.bootStage = 2) ∧
    (∃ (s : State), s.sys.mode = .boot ∧ s.sys.bootStage = 2) ∧
    (∃ (s : State), s.sys.mode = .boot ∧ s.sys.bootStage = 3) ∧
    (∃ (s : State), s.sys.mode = .boot ∧ s.sys.bootStage = 3) ∧
    (∃ (s : State), s.sys.mode = .boot ∧ s.sys.bootStage = 3) ∧
    (∃ (s : State), s.sys.mode = .boot ∧ s.sys.bootStage = 4 ∧ keyComplete s = false ∧ keyMismatch s = false ∧ s.fus.integrity = false) :=
  ⟨⟨(boot 0), by decide +kernel⟩,
   ⟨(boot 0), by decide +kernel⟩,
   ⟨(boot 1), by decide +kernel⟩,
   ⟨(boot 2), by decide +kernel⟩,
   ⟨(boot 2), by decide +kernel⟩,
   ⟨(boot 3), by decide +kernel⟩,
   ⟨(boot 3), by decide +kernel⟩,
   ⟨(boot 3), by decide +kernel⟩,
   ⟨((boot 4).modJnl (fun j => { j with erasing := [3], flash := [(12288, 5), (16384, 7)] })), by decide +kernel⟩⟩

/-- Each clause of StandbyCompletes has a state and operands that meet what it asks for. -/
theorem witness_StandbyCompletes :
    (∃ (s : State), ∃ w, s.sys.mode = .standby ∧ s.sys.wake = some w ∧ pendingAtLeast s .runout = false) ∧
    (∃ (s : State), s.sys.mode = .ready ∧ ledgerEmpty s = true ∧ s.sys.idleTimeout ≠ 0) ∧
    (∃ (s : State), s.sys.mode = .standby ∧ s.sys.wake = none ∧ s.drc.training = none ∧ s.sys.depth < s.sys.depthTarget ∧ s.sys.depthTarget ≤ 4) :=
  ⟨⟨((inMode .standby).modSys (fun x => { x with wake := some ⟨2, 3⟩, depth := 2 })), (⟨2, 3⟩), by decide +kernel⟩,
   ⟨(up.modSys (fun x => { x with idleTimeout := 5 })), by decide +kernel⟩,
   ⟨((dramUp (inMode .standby)).modSys (fun x => { x with depth := 1, depthTarget := 3 })), by decide +kernel⟩⟩

/-- Each clause of LossCompletes has a state and operands that meet what it asks for. -/
theorem witness_LossCompletes :
    (∃ (s : State), s.sys.mode ≠ .reset ∧ s.sys.pwrFail = false) ∧
    (∃ (s : State), s.sys.mode ≠ .reset ∧ s.sys.pwrFail = false) ∧
    (∃ (s : State), s.sys.mode ≠ .reset ∧ s.sys.pwrFail = true) ∧
    (∃ (s : State), s.sys.mode ≠ .reset ∧ s.clk.everLocked = true ∧ s.clk.refOk = true) ∧
    (∃ (s : State), s.sys.mode ≠ .reset ∧ s.clk.rootLock = true) :=
  ⟨⟨(withSheet { sheet0 with state := .committed } (journalUp)), by decide +kernel⟩,
   ⟨(boot 1), by decide +kernel⟩,
   ⟨(up.modSys (fun x => { x with pwrFail := true })), by decide +kernel⟩,
   ⟨up, by decide +kernel⟩,
   ⟨up, by decide +kernel⟩⟩

/-- Each clause of ClockRowsComplete has a state and operands that meet what it asks for. -/
theorem witness_ClockRowsComplete :
    (∃ (s : State), ∃ (k : Fin 6), s.sys.mode ≠ .reset ∧ s.clk.px[k].en = true ∧ s.clk.px[k].locked = false ∧ s.btu[k].lock ≠ .synth) ∧
    (∃ (s : State), ∃ (k : Fin 6), s.sys.mode ≠ .reset ∧ s.clk.px[k].en = true ∧ s.clk.px[k].locked = false ∧ s.btu[k].lock = .synth ∧ s.mot.ch[Fin.ofNat 10 k.1].state ≠ .running) ∧
    (∃ (s : State), ∃ (k : Fin 6), s.sys.mode ≠ .reset ∧ s.clk.px[k].en = true ∧ s.clk.px[k].locked = true) ∧
    (∃ (s : State), ∃ (k : Fin 6), s.sys.mode ≠ .reset ∧ s.clk.px[k].en = true ∧ s.clk.px[k].changeDue = true ∧ insideSheet s k = false) ∧
    (∃ (s : State), ∃ (n : Fin 4), ∃ a, ∃ b, s.sys.mode ≠ .reset ∧ sourceEncoder s = some n.1 ∧ (grayIndex (a, b) + 4 - grayIndex s.clk.encLevels[n]) % 4 = 1 ∧ s.clk.backlash = 0) ∧
    (∃ (s : State), ∃ (n : Fin 4), ∃ a, ∃ b, s.sys.mode ≠ .reset ∧ sourceEncoder s = some n.1 ∧ (grayIndex (a, b) + 4 - grayIndex s.clk.encLevels[n]) % 4 = 3) ∧
    (∃ (s : State), s.sys.mode ≠ .reset ∧ s.clk.ppcSrc = .enc0 ∧ s.clk.intervals ≠ [] ∧ s.mot.ch[(6 : Fin 10)].setpoint < 20 * s.mot.ch[(6 : Fin 10)].speed ∧ ((s.clk.fallback = 0 ∨ s.clk.fbDisqualified = true)) ∧ (coming s (fun i => match i with | .encoderEdge n _ _ => n == 0 | _ => false) = false)) ∧
    (∃ (s : State), s.pins.tapDead = false) ∧
    (∃ (s : State), s.pins.tapDead = false) ∧
    (∃ (s : State), s.pins.tapDead = true) ∧
    (∃ (s : State), s.sys.mode = .reset) :=
  ⟨⟨((station0 (fun x => { x with lock := .locked, blanked := true })).modSynth 0 (fun x => { x with en := true })), 0, by decide +kernel⟩,
   ⟨((station0 (fun x => { x with lock := .synth })).modSynth 0 (fun x => { x with en := true })), 0, by decide +kernel⟩,
   ⟨((station0 (fun x => { x with lock := .locked })).modSynth 0 (fun x => { x with en := true, locked := true })), 0, by decide +kernel⟩,
   ⟨((station0 (fun x => x)).modSynth 0 (fun x => { x with en := true, locked := true, changeDue := true })), 0, by decide +kernel⟩,
   ⟨stations, 0, true, false, by decide +kernel⟩,
   ⟨stations, 0, false, true, by decide +kernel⟩,
   ⟨((stations).modClk (fun c => { c with intervals := [100] }) |>.modMotor 6 (fun m => { m with setpoint := 1000, speed := 1000, state := .running })), by decide +kernel⟩,
   ⟨stations, by decide +kernel⟩,
   ⟨stations, by decide +kernel⟩,
   ⟨(up.modPins (fun p => { p with tapDead := true })), by decide +kernel⟩,
   ⟨State.reset, by decide +kernel⟩⟩

/-- Each clause of PacketEventsComplete has a state and operands that meet what it asks for. -/
theorem witness_PacketEventsComplete :
    (∃ (s : State), ∃ (p : Packet), ∃ (sp : OpSpec), kettleUp s = true ∧ opSpecOf p.op.toNat = some sp ∧ s.ktl.intake = [p] ∧ p.place = .held ∧ mayStart s p.cmd = true ∧ startFault sp s = none ∧ p.cmd.indirect = false) ∧
    (∃ (s : State), ∃ (p : Packet), ∃ (sp : OpSpec), ∃ (reads : List Fetch), ∃ t, ∃ (r : Res), kettleUp s = true ∧ opSpecOf p.op.toNat = some sp ∧ s.ktl.intake = [p] ∧ p.place = .held ∧ mayStart s p.cmd = true ∧ startFault sp s = none ∧ p.cmd.indirect = false ∧ (sp.run { p.cmd with reads := reads } (s.modKtl fun k => { k with intake := [] }) = .reply t r) ∧ fieldFault sp { p.cmd with reads := reads } s = none) ∧
    (∃ (s : State), ∃ (p : Packet), ∃ (sp : OpSpec), kettleUp s = true ∧ opSpecOf p.op.toNat = some sp ∧ s.ktl.intake = [p] ∧ p.place = .held ∧ mayStart s p.cmd = true ∧ startFault sp s = none ∧ p.cmd.indirect = true) ∧
    (∃ (s : State), ∃ (p : Packet), ∃ (sp : OpSpec), kettleUp s = true ∧ opSpecOf p.op.toNat = some sp ∧ s.ktl.fetching = [p]) ∧
    (∃ (s : State), ∃ (p : Packet), ∃ (sp : OpSpec), ∃ (r : Fetch), kettleUp s = true ∧ opSpecOf p.op.toNat = some sp ∧ s.ktl.fetching = [p] ∧ ((∀ l, r ≠ .ok l))) ∧
    (∃ (s : State), ∃ (p : Packet), ∃ (sp : OpSpec), ∃ tag, kettleUp s = true ∧ opSpecOf p.op.toNat = some sp ∧ s.ktl.intake = [p] ∧ p.place = .held ∧ p.cmd.src = .mgmt ∧ p.cmd.tag = tag ∧ p.cmd.deadline ≠ 0 ∧ p.fate ≠ .void ∧ coming s (completes s .mgmt tag) = false ∧ ((∀ q, s.mgt.queue.find? (·.tag == tag) = some q → q.timed = false))) ∧
    (∃ (s : State), ∃ (p : Packet), ∃ (sp : OpSpec), ∃ (q : Parked), kettleUp s = true ∧ opSpecOf p.op.toNat = some sp ∧ s.ktl.intake = [] ∧ s.ktl.fetching = [] ∧ s.ktl.parked = [q] ∧ q.cmd.deadline ≠ 0 ∧ coming s (completes s q.cmd.src q.cmd.tag) = false ∧ runToEnd q.op.toNat = true) ∧
    (∃ (s : State), ∃ (p : Packet), ∃ (sp : OpSpec), ∃ (q : Parked), kettleUp s = true ∧ opSpecOf p.op.toNat = some sp ∧ s.ktl.intake = [] ∧ s.ktl.fetching = [] ∧ s.ktl.parked = [q] ∧ q.cmd.deadline ≠ 0 ∧ coming s (completes s q.cmd.src q.cmd.tag) = false ∧ runToEnd q.op.toNat = false ∧ q.wait = .hardware) ∧
    (∃ (s : State), ∃ (k : Nat), ∃ (d : Resume), ∃ (p : Parked), ∃ (t : State), ∃ (r : Res), kettleUp s = true ∧ s.ktl.parked[k]? = some p ∧ p.wait = .hardware ∧ resumed s p.op.toNat p.cmd d = some (t, r) ∧ t.ktl.parked = s.ktl.parked ∧ (recordsAtEnd p.op.toNat = false ∨ jnlOn t = false)) ∧
    (∃ (s : State), ∃ (k : Nat), ∃ (d : Resume), ∃ (p : Parked), ∃ (t : State), ∃ (r : Res), kettleUp s = true ∧ s.ktl.parked[k]? = some p ∧ p.wait = .hardware ∧ resumed s p.op.toNat p.cmd d = some (t, r) ∧ t.ktl.parked = s.ktl.parked ∧ recordsAtEnd p.op.toNat = false) :=
  ⟨⟨(up.modKtl (fun k => { k with intake := [packetOf .mgmt (packet 3 7) false .held] })), (packetOf .mgmt (packet 3 7) false .held), getStatusSpec, by refine ⟨?_, (rfl), ?_, ?_, ?_, ?_, ?_⟩ <;> decide +kernel⟩,
   ⟨(up.modKtl (fun k => { k with intake := [packetOf .mgmt (packet 0 7) false .held] })), (packetOf .mgmt (packet 0 7) false .held), nopSpec, ([]), up, okRes, by refine ⟨?_, (rfl), ?_, ?_, ?_, ?_, ?_, (rfl), ?_⟩ <;> decide +kernel⟩,
   ⟨(up.modKtl (fun k => { k with intake := [bigPacket] })), bigPacket, admitSheetSpec, by refine ⟨?_, (rfl), ?_, ?_, ?_, ?_, ?_⟩ <;> decide +kernel⟩,
   ⟨(withRecipes [(0x40, 0xFFFF, sheetRec)] (withJob) |>.modKtl (fun k => { k with fetching := [bigPacket] })), bigPacket, admitSheetSpec, by refine ⟨?_, (rfl), ?_⟩ <;> decide +kernel⟩,
   ⟨(up.modKtl (fun k => { k with fetching := [bigPacket] })), bigPacket, admitSheetSpec, .abort, by refine ⟨?_, (rfl), ?_, (by intro l h; cases h)⟩ <;> decide +kernel⟩,
   ⟨(up.modKtl (fun k => { k with intake := [deadPacket] })), deadPacket, getStatusSpec, 7, by refine ⟨?_, (rfl), ?_, ?_, ?_, ?_, ?_, ?_, ?_, (by intro q h; cases h)⟩ <;> decide +kernel⟩,
   ⟨(up.modKtl (fun k => { k with parked := [⟨0x58, deadCmd, .hardware, none, false, .live⟩] })), (packetOf .mgmt (packet 3 7) false .held), getStatusSpec, (⟨0x58, deadCmd, .hardware, none, false, .live⟩), by refine ⟨?_, (rfl), ?_, ?_, ?_, ?_, ?_, ?_⟩ <;> decide +kernel⟩,
   ⟨(up.modKtl (fun k => { k with parked := [⟨0x48, deadCmd, .hardware, none, false, .live⟩] })), (packetOf .mgmt (packet 3 7) false .held), getStatusSpec, (⟨0x48, deadCmd, .hardware, none, false, .live⟩), by refine ⟨?_, (rfl), ?_, ?_, ?_, ?_, ?_, ?_, ?_⟩ <;> decide +kernel⟩,
   ⟨(parkedAt 0x6A burnCmd), 0, (.burned []), (⟨0x6A, burnCmd, .hardware, none, false, .live⟩), ((fuseBurnDone (parkedAt 0x6A burnCmd) burnCmd []).1), ((fuseBurnDone (parkedAt 0x6A burnCmd) burnCmd []).2), by refine ⟨?_, ?_, ?_, (resumed_burn _ _ _), ?_, ?_⟩ <;> decide +kernel⟩,
   ⟨capping7, 0, .headDone, (⟨0x49, cmd [0,0,0,0], .hardware, none, false, .live⟩), ((headMaintainDone capping7 (cmd [0,0,0,0])).1), ((headMaintainDone capping7 (cmd [0,0,0,0])).2), by refine ⟨?_, ?_, ?_, (resumed_head _ _), ?_, ?_⟩ <;> decide +kernel⟩⟩

/-- Each clause of IngestRowsComplete has a state and operands that meet what it asks for. -/
theorem witness_IngestRowsComplete :
    (∃ (s : State), ∃ (ring : Fin 8), s.sys.up = true ∧ ringFetches s.hif.ig[ring] = true ∧ ingestServed s.sys.mode = true) ∧
    (∃ (s : State), ∃ d, s.sys.mode ≠ .reset ∧ nextIngest s = some d ∧ igStartFault s d = none ∧ igKind d.bytes = 0) ∧
    (∃ (s : State), ∃ d, ∃ l, ∃ (i : Fin 512), ∃ e, s.sys.up = true ∧ s.cad.ingest = [d] ∧ d.phase = .reading none ∧ igKind d.bytes = 0 ∧ findSheet s (igJob d.bytes) (keyHandle (igKey d.bytes)) = some (i, e) ∧ headerFault s e d.bytes l = none) ∧
    (∃ (s : State), ∃ d, ∃ (r : Fetch), s.sys.up = true ∧ s.cad.ingest = [d] ∧ readable d = true ∧ ((∀ l, r ≠ .ok l))) ∧
    (∃ (s : State), ∃ d, s.sys.mode ≠ .reset ∧ s.cad.ingest = [d] ∧ igDeadline d.bytes ≠ 0 ∧ coming s (ingestEnds s d) = false) :=
  ⟨⟨ringUp, 0, by decide +kernel⟩,
   ⟨(withIngest (ing7 .queued)), (ing7 .queued), by decide +kernel⟩,
   ⟨(withIngest (ing7 (.reading none))), (ing7 (.reading none)), header7, 0, sheetW, by decide +kernel⟩,
   ⟨(withIngest (ing7 (.reading none))), (ing7 (.reading none)), .abort, by refine ⟨?_, ?_, ?_, (by intro l h; cases h)⟩ <;> decide +kernel⟩,
   ⟨(withIngest (ing7 (.reading none))), (ing7 (.reading none)), by decide +kernel⟩⟩

/-- Each clause of CaddyRowsComplete has a state and operands that meet what it asks for. -/
theorem witness_CaddyRowsComplete :
    (∃ (s : State), ∃ d, ∃ (n : Fin 12), ∃ raw, ∃ zero, s.sys.mode ≠ .reset ∧ s.cad.ingest = [d] ∧ d.phase = .read n raw ∧ (igEncoded d.bytes n raw).body.length ≤ igLimit s d.bytes ∧ selfVerified (igEncoded d.bytes n raw).body (igLen d.bytes) (igCrc d.bytes) = true ∧ s.cdc.enc[n].state = .ingest ∧ igZero d.bytes raw = zero) ∧
    (∃ (s : State), ∃ d, ∃ l, ∃ zero, s.sys.mode ≠ .reset ∧ s.cad.ingest = [d] ∧ d.phase = .writing l zero ∧ entryRefusal s d l = none ∧ evictComes s d = false ∧ commitComes s d = false) ∧
    (∃ (s : State), ∃ job, ∃ key, ∃ (c : Fin 2), ∃ l, s.sys.mode ≠ .reset ∧ s.cad.repairs = [(job, key, c)] ∧ s.cad.leaves = [l] ∧ l.job = job ∧ l.key = key) ∧
    (∃ (s : State), ∃ (addr : DWord), ∃ (data : List Byte), ∃ (check : DWord), s.sys.mode ≠ .reset ∧ guardPasses data addr.toNat check = true) ∧
    (∃ (s : State), ∃ (addr : DWord), ∃ (data : List Byte), ∃ (check : DWord), s.sys.mode ≠ .reset ∧ guardPasses data addr.toNat check = false) :=
  ⟨⟨((withIngest (ing7 (.read 2 zeros7) 1 64 (crc32c zeros7).toNat)).modEnc 2 (fun l => { l with state := .ingest })), (ing7 (.read 2 zeros7) 1 64 (crc32c zeros7).toNat), 2, zeros7, false, by decide +kernel⟩,
   ⟨((withIngest (ing7 (.writing leaf7 false))).modCad (fun c => { c with capPages := 1000, filledPages := 1000, leaves := [{ leaf7 with flags := 3 }] })), (ing7 (.writing leaf7 false)), leaf7, false, by decide +kernel⟩,
   ⟨((dramUp up).modCad (fun c => { c with repairs := [(7, leafKey 3 0 0, 1)], leaves := [{ leaf7 with mirror := .bad }] })), 7, (leafKey 3 0 0), 1, ({ leaf7 with mirror := .bad }), by decide +kernel⟩,
   ⟨(dramUp up), 0x100, zeros7, (guardWord zeros7 0x100), by decide +kernel⟩,
   ⟨(dramUp up), 0x100, zeros7, 0, by decide +kernel⟩⟩

/-- Each clause of LaneRowsComplete has a state and operands that meet what it asks for. -/
theorem witness_LaneRowsComplete :
    (∃ (s : State), ∃ (id : LaneId), s.sys.mode ≠ .reset ∧ (laneAt s id).state = .test ∧ (laneAt s id).testDue = false ∧ s.cad.ingest = []) ∧
    (∃ (s : State), ∃ (id : LaneId), s.sys.mode ≠ .reset ∧ s.cdc.katPeriod ≠ 0 ∧ (laneAt s id).state = .idle ∧ (laneAt s id).fence = false) ∧
    (∃ (s : State), ∃ (id : LaneId), s.sys.mode ≠ .reset ∧ s.cdc.katPeriod ≠ 0 ∧ (laneAt s id).state.working = true) ∧
    (∃ (s : State), ∃ (id : LaneId), ∃ (n : Fin 16), ∃ (i : Instr), s.sys.mode ≠ .reset ∧ id = .dec n ∧ ((i = .laneLockup id ∨ i = .laneParityError id)) ∧ s.cdc.dec[n].state = .steep ∧ (coming s (fun c => match c with | .decodeAttemptReport k _ => k == n | _ => false) = false)) ∧
    (∃ (s : State), ∃ (id : LaneId), ∃ (n : Fin 16), ∃ (i : Instr), s.sys.mode ≠ .reset ∧ id = .dec n ∧ ((i = .laneLockup id ∨ i = .laneParityError id)) ∧ s.cdc.dec[n].state = .steep ∧ (coming s (fun c => match c with | .decodeAttemptReport k _ => k == n | _ => false) = false)) ∧
    (∃ (s : State), ∃ (id : LaneId), ∃ (n : Fin 12), ∃ (i : Instr), s.sys.mode ≠ .reset ∧ id = .enc n ∧ ((i = .laneLockup id ∨ i = .laneParityError id)) ∧ s.cdc.enc[n].state = .run) ∧
    (∃ (s : State), ∃ (id : LaneId), s.sys.mode ≠ .reset ∧ (laneAt s id).state.working = false) ∧
    (∃ (s : State), ∃ (id : LaneId), s.sys.mode ≠ .reset ∧ (((laneAt s id).state = .gated ∨ (laneAt s id).state = .fenced))) ∧
    (∃ (s : State), ∃ (id : LaneId), s.sys.mode ≠ .reset ∧ (((laneAt s id).state = .gated ∨ (laneAt s id).state = .fenced))) ∧
    (∃ (c : Cmd), ∃ (s : State), Accepted codecRunSpec c s ∧ destParams c = none ∧ laneBusy s (runLaneId c) = none ∧ runOp c = 0 ∧ startParams c = none) ∧
    (∃ (c : Cmd), ∃ (s : State), Accepted codecRunSpec c s ∧ destParams c = none ∧ laneBusy s (runLaneId c) = none ∧ runOp c = 1 ∧ resumeReserved c = none ∧ (laneAt s (runLaneId c)).saved.isSome = true) :=
  ⟨⟨((lanesIdle up).modDec 3 (fun l => { l with state := .test, periodic := true })), (.dec 3), by decide +kernel⟩,
   ⟨(lanesIdle up), (.dec 3), by decide +kernel⟩,
   ⟨((lanesIdle up).modDec 3 (fun l => { l with state := .steep })), (.dec 3), by decide +kernel⟩,
   ⟨(decoding { band7 .decode1 with slot := some 0, lanes := [3] }), (.dec 3), 3, (.laneLockup (.dec 3)), by decide +kernel⟩,
   ⟨(decoding { band7 .decode1 with slot := some 0, lanes := [3] }), (.dec 3), 3, (.laneParityError (.dec 3)), by decide +kernel⟩,
   ⟨((lanesIdle up).modEnc 2 (fun l => { l with state := .run, saved := some ⟨(run78 18 0).params, [1, 2], [], 0, 0⟩ })), (.enc 2), 2, (.laneLockup (.enc 2)), by decide +kernel⟩,
   ⟨(lanesIdle up), (.dec 3), by decide +kernel⟩,
   ⟨((lanesIdle up).modDec 3 (fun l => { l with state := .gated })), (.dec 3), by decide +kernel⟩,
   ⟨((lanesIdle up).modDec 3 (fun l => { l with state := .fenced })), (.dec 3), by decide +kernel⟩,
   ⟨(run78 3 0), (lanesIdle up), by decide +kernel⟩,
   ⟨(run78 3 1), ((lanesIdle up).modDec 3 (fun l => { l with saved := some ⟨(run78 3 0).params, [1,2], [], 0, 0⟩ })), by decide +kernel⟩⟩

/-- Each clause of DecodeRowsComplete has a state and operands that meet what it asks for. -/
theorem witness_DecodeRowsComplete :
    (∃ (s : State), ∃ w, ∃ rest, ∃ b, ∃ lane, ∃ n, s.sys.mode ≠ .reset ∧ s.sys.mode ≠ .halt ∧ waitingWork s = w :: rest ∧ w.first = true ∧ s.stp.st[w.station].bands[w.band]? = some b ∧ b.state = .wait ∧ stationFenced s w.station.1 = false ∧ decodeLane s b = some lane ∧ (((List.finRange 6).find? fun n => !s.stp.st[w.station].slots[n].busy && !s.stp.st[w.station].slots[n].retired) = some n)) ∧
    (∃ (s : State), ∃ (lane : Fin 16), ∃ a, ∃ u, ∃ i, ∃ b, s.sys.mode ≠ .reset ∧ s.cdc.dec[lane].assign = some a ∧ s.cdc.dec[lane].state = .steep ∧ s.btu[a.station].firstDue = false ∧ s.btu[a.station].readDue = none ∧ currentBand s lane a = some i ∧ s.stp.st[a.station].bands[i]? = some b ∧ (attemptResult s a u).2.outcome = 0 ∧ b.failed = none) ∧
    (∃ (s : State), ∃ (lane : Fin 16), ∃ a, ∃ u, ∃ i, ∃ b, s.sys.mode ≠ .reset ∧ s.cdc.dec[lane].assign = some a ∧ s.cdc.dec[lane].state = .steep ∧ s.btu[a.station].firstDue = false ∧ s.btu[a.station].readDue = none ∧ currentBand s lane a = some i ∧ s.stp.st[a.station].bands[i]? = some b ∧ (attemptResult s a u).2.outcome ≠ 0 ∧ b.state = .decode1 ∧ ((∀ d, b.deadline = some d → ppc s < d))) ∧
    (∃ (s : State), ∃ (lane : Fin 16), ∃ a, s.sys.mode ≠ .reset ∧ s.cdc.dec[lane].assign = some a ∧ s.cdc.dec[lane].state = .steep ∧ s.btu[a.station].firstDue = false ∧ s.btu[a.station].readDue = none ∧ currentBand s lane a = none) :=
  ⟨⟨(lanesIdle (withBand (band7 .wait))), (⟨0, 0, true⟩ : Work), ([] : List Work), (band7 .wait), ((decodeLane (lanesIdle (withBand (band7 .wait))) (band7 .wait)).getD 0), 0, by decide +kernel⟩,
   ⟨(decoding { band7 .decode1 with slot := some 0, lanes := [3] }), 3, assign7, .none, 0, ({ band7 .decode1 with slot := some 0, lanes := [3] }), by decide +kernel⟩,
   ⟨(decoding { band7 .decode1 with slot := some 0, lanes := [3] }), 3, assign7, (.guardFail 0), 0, ({ band7 .decode1 with slot := some 0, lanes := [3] }), by decide +kernel⟩,
   ⟨(decoding { band7 .decode1 with slot := some 0, lanes := [3] } { assign7 with epoch := 4 }), 3, ({ assign7 with epoch := 4 }), by decide +kernel⟩⟩

/-- Each clause of ExposureRowsComplete has a state and operands that meet what it asks for. -/
theorem witness_ExposureRowsComplete :
    (∃ (s : State), ∃ (k : Fin 6), ∃ (b : Band), s.sys.mode ≠ .reset ∧ s.stp.st[k].bands = [b] ∧ overdue (ppc s) b = true ∧ reportComes s k 0 = false) ∧
    (∃ (s : State), ∃ (k : Fin 6), ∃ (b : Band), s.sys.mode ≠ .reset ∧ s.stp.st[k].bands = [b] ∧ overdue (ppc s) b = false) ∧
    (∃ (s : State), ∃ (k : Fin 6), ∃ (b : Band), ∃ d, s.sys.mode ≠ .reset ∧ s.stp.st[k].bands = [b] ∧ b.state = .verified ∧ b.deadline = some d ∧ d + 512 ≤ ppc s ∧ stationReport s k = false) ∧
    (∃ (s : State), ∃ (k : Fin 6), ∃ (b : Band), ∃ n, ∃ o, ∃ e, s.sys.mode ≠ .reset ∧ s.stp.st[k].bands = [b] ∧ b.state = .exposing ∧ b.slot = some n ∧ b.outcome = some o ∧ s.led.entries[b.sheet] = some e) ∧
    (∃ (s : State), ∃ (k : Fin 6), ∃ (b : Band), ∃ n, ∃ word, ∃ data, ∃ check, s.sys.mode ≠ .reset ∧ s.stp.st[k].bands = [b] ∧ b.state = .exposing ∧ b.slot = some n ∧ slotFails s.stp.st[k].slots[n] word data check = false) ∧
    (∃ (s : State), ∃ (k : Fin 6), ∃ (b : Band), ∃ n, ∃ word, ∃ data, ∃ check, s.sys.mode ≠ .reset ∧ s.stp.st[k].bands = [b] ∧ b.state = .exposing ∧ b.slot = some n ∧ b.outcome ≠ some .blank ∧ slotFails s.stp.st[k].slots[n] word data check = true) :=
  ⟨⟨(withBand { band7 .wait with deadline := some 0, waiting := true }), 0, ({ band7 .wait with deadline := some 0, waiting := true }), by decide +kernel⟩,
   ⟨(withBand { band7 .wait with deadline := some 1 }), 0, ({ band7 .wait with deadline := some 1 }), by decide +kernel⟩,
   ⟨((withBand { band7 .verified with deadline := some 1 }).modClk (fun c => { c with acc := 600 * 2 ^ 32 })), 0, ({ band7 .verified with deadline := some 1 }), 1, by decide +kernel⟩,
   ⟨(decoding { band7 .exposing with slot := some 0, outcome := some .first }), 0, ({ band7 .exposing with slot := some 0, outcome := some .first }), 0, .first, ({ sheet0 with state := .committed }), by decide +kernel⟩,
   ⟨(decoding { band7 .exposing with slot := some 0, outcome := some .first }), 0, ({ band7 .exposing with slot := some 0, outcome := some .first }), 0, 0, 0, 0, by decide +kernel⟩,
   ⟨upset7, 0, ({ band7 .exposing with slot := some 0, outcome := some .first }), 0, 0, 1, 0, by refine ⟨?_, ?_, ?_, ?_, ?_, (by unfold slotFails; rw [Bool.and_eq_true]; exact ⟨by decide +kernel, by rw [Bool.or_eq_true, Bool.or_eq_true]; exact .inl (.inr (by decide +kernel))⟩)⟩ <;> decide +kernel⟩⟩

/-- Each clause of BeamEdgesComplete has a state and operands that meet what it asks for. -/
theorem witness_BeamEdgesComplete :
    (∃ (s : State), ∃ (k : Fin 6), ∃ (n : Nat), s.sys.mode ≠ .reset ∧ coming s (· == .laserInterlock k) = false ∧ (s.btu[k].lock = .ident ∨ s.btu[k].lock = .search ∧ periodFits s k n = false)) ∧
    (∃ (s : State), ∃ (k : Fin 6), ∃ (n : Nat), s.sys.mode ≠ .reset ∧ coming s (· == .laserInterlock k) = false ∧ s.btu[k].lock = .search ∧ periodFits s k n = true) ∧
    (∃ (s : State), ∃ (k : Fin 6), s.sys.mode ≠ .reset ∧ coming s (· == .laserInterlock k) = false ∧ s.btu[k].lock = .pullIn ∧ 63 ≤ s.btu[k].goodRun ∧ (phaseError (ppc s) (slewGrid (stationBody s k.1) s.btu[k]).gridRef).natAbs ≤ 2) ∧
    (∃ (s : State), ∃ (k : Fin 6), s.sys.mode ≠ .reset ∧ coming s (· == .laserInterlock k) = false ∧ s.btu[k].lock = .search) ∧
    (∃ (s : State), ∃ (k : Fin 6), s.sys.mode ≠ .reset ∧ coming s (· == .laserInterlock k) = false ∧ ((s.btu[k].lock = .pullIn ∨ s.btu[k].lock = .locked ∨ s.btu[k].lock = .slew)) ∧ s.btu[k].facet + 1 < s.btu[k].facets) :=
  ⟨⟨(station0 (fun x => { x with lock := .ident, facets := 8 })), 0, 100, by decide +kernel⟩,
   ⟨(station0 (fun x => { x with lock := .search, facets := 8 }) |>.modMotor 0 (fun m => { m with speed := 600000, state := .running })), 0, (expectedPeriod (station0 (fun x => { x with lock := .search, facets := 8 }) |>.modMotor 0 (fun m => { m with speed := 600000, state := .running })) 0), by decide +kernel⟩,
   ⟨(station0 (fun x => { x with lock := .pullIn, facets := 8, goodRun := 63, gridRef := 0 })), 0, by decide +kernel⟩,
   ⟨(station0 (fun x => { x with lock := .search, facets := 8 })), 0, by decide +kernel⟩,
   ⟨(station0 (fun x => { x with lock := .pullIn, facets := 8 })), 0, by decide +kernel⟩⟩

/-- Each clause of BeamTimeoutsComplete has a state and operands that meet what it asks for. -/
theorem witness_BeamTimeoutsComplete :
    (∃ (s : State), ∃ (k : Fin 6), s.sys.mode ≠ .reset ∧ s.btu[k].lock.scanning = true ∧ s.btu[k].edgeAt ≠ some s.now ∧ (coming s (fun c => match c with | .bdsEdge j _ => j == k | _ => false) = false) ∧ coming s (· == .laserInterlock k) = false ∧ s.btu[k].missRun = 0) ∧
    (∃ (s : State), ∃ (k : Fin 6), s.sys.mode ≠ .reset ∧ s.btu[k].lock.scanning = true ∧ s.btu[k].edgeAt ≠ some s.now ∧ (coming s (fun c => match c with | .bdsEdge j _ => j == k | _ => false) = false) ∧ coming s (· == .laserInterlock k) = false ∧ s.btu[k].missRun = 1) ∧
    (∃ (s : State), ∃ (k : Fin 6), s.sys.mode ≠ .reset ∧ s.btu[k].lock.scanning = true ∧ s.btu[k].bdeAt ≠ some s.now ∧ (coming s (fun c => match c with | .bdeEdge j _ _ => j == k | _ => false) = false)) ∧
    (∃ (s : State), ∃ (k : Fin 6), s.sys.mode ≠ .reset ∧ s.btu[k].lock = .spin ∧ coming s (· == .atSpeedDwell (Fin.ofNat 10 k.1)) = false) ∧
    (∃ (s : State), ∃ (k : Fin 6), s.sys.mode ≠ .reset ∧ s.btu[k].lock = .search ∧ coming s (· == .laserInterlock k) = false ∧ (coming s (fun c => match c with | .bdsEdge j p => j == k && periodFits s k p | _ => false) = false)) ∧
    (∃ (s : State), ∃ (k : Fin 6), s.sys.mode ≠ .reset ∧ s.btu[k].lden = true ∧ (failedCondition s k).isSome = true) :=
  ⟨⟨(station0 (fun x => { x with lock := .locked, facets := 8 })), 0, by decide +kernel⟩,
   ⟨(station0 (fun x => { x with lock := .locked, facets := 8, missRun := 1 })), 0, by decide +kernel⟩,
   ⟨(station0 (fun x => { x with lock := .ident, facets := 8 })), 0, by decide +kernel⟩,
   ⟨(station0 (fun x => { x with lock := .spin })), 0, by decide +kernel⟩,
   ⟨(station0 (fun x => { x with lock := .search })), 0, by decide +kernel⟩,
   ⟨(station0 (fun x => { x with lock := .locked, lden := true })), 0, by decide +kernel⟩⟩

/-- Each clause of BeamServicesComplete has a state and operands that meet what it asks for. -/
theorem witness_BeamServicesComplete :
    (∃ (s : State), ∃ (k : Fin 6), s.sys.mode ≠ .reset ∧ insideSheet s k = false) ∧
    (∃ (s : State), ∃ (k : Fin 6), s.sys.mode ≠ .reset ∧ insideSheet s k = true ∧ 16000000 ≤ blankWindow s.btu[k]) ∧
    (∃ (s : State), ∃ (k : Fin 6), s.sys.mode ≠ .reset ∧ insideSheet s k = true ∧ blankWindow s.btu[k] < 16000000) ∧
    (∃ (s : State), ∃ (k : Fin 6), s.sys.mode ≠ .reset ∧ s.btu[k].calRunning = true ∧ s.btu[k].calRolling = false) ∧
    (∃ (s : State), ∃ (k : Fin 6), ∃ taps, s.sys.mode ≠ .reset ∧ s.btu[k].calRunning = true ∧ s.btu[k].calRolling = true ∧ (s.btu[k].calStep taps).calBeams ≠ 0xFFFF) ∧
    (∃ (s : State), ∃ (k : Fin 6), ∃ (beam : Fin 16), ∃ (n : Fin 160), s.sys.mode ≠ .reset ∧ beam = apcBeam s.btu[k] ∧ n.1 = 16 * k.1 + beam.1 ∧ s.btu[k].lden = true ∧ s.btu[k].lock.scanning = true ∧ s.ctl.loops[n].en = true ∧ (coming s (fun c => match c with | .apcSample j _ => j == k | _ => false) = false)) :=
  ⟨⟨stations, 0, by decide +kernel⟩,
   ⟨(withBand (band7 .exposing) (withSheet { sheet0 with state := .committed, t := some 0, length := 100 } (station0 (fun x => { x with periods := [200000000] })))), 0, by decide +kernel⟩,
   ⟨(withBand (band7 .exposing) (withSheet { sheet0 with state := .committed, t := some 0, length := 100 } (station0 (fun x => x)))), 0, by decide +kernel⟩,
   ⟨(station0 (fun x => { x with calRunning := true })), 0, by decide +kernel⟩,
   ⟨(station0 (fun x => { x with calRunning := true, calRolling := true, calBeams := 3 })), 0, (List.replicate 16 0), by decide +kernel⟩,
   ⟨((station0 (fun x => { x with lock := .locked, lden := true })).modLoop 0 (fun l => { l with en := true })), 0, 0, 0, by decide +kernel⟩⟩

/-- Each clause of FireRowsComplete has a state and operands that meet what it asks for. -/
theorem witness_FireRowsComplete :
    (∃ (s : State), ∃ (h : Fin 8), ∃ (i : Fin 512), ∃ (k : Nat), ∃ (e : Sheet), ∃ (m : Mark), ∃ mem, s.sys.mode ≠ .reset ∧ currentField s h = some (i, k) ∧ s.led.entries[i] = some e ∧ e.marks[k]? = some m ∧ m.run = .waiting ∧ strobesOff s = false ∧ trackReached s.clk (instantCount s h e m) = true ∧ s.hdp[h].state = .idle ∧ s.hdp[h].mem = some mem ∧ s.hdp[h].lastStrobe = none ∧ s.sys.compat = false ∧ 1 < m.lines + mem.rowGap) ∧
    (∃ (s : State), ∃ (h : Fin 8), ∃ (i : Fin 512), ∃ (k : Nat), ∃ (e : Sheet), ∃ (m : Mark), s.sys.mode ≠ .reset ∧ currentField s h = some (i, k) ∧ s.led.entries[i] = some e ∧ e.marks[k]? = some m ∧ trackReached s.clk (instantCount s h e m) = false) ∧
    (∃ (s : State), ∃ (h : Fin 8), ∃ (i : Fin 512), ∃ (k : Nat), ∃ (e : Sheet), ∃ (m : Mark), ∃ mem, ∃ n, ∃ u, s.sys.mode ≠ .reset ∧ currentField s h = some (i, k) ∧ s.led.entries[i] = some e ∧ e.marks[k]? = some m ∧ m.run = .running n ∧ strobesOff s = false ∧ trackReached s.clk (instantCount s h e m) = true ∧ 1 ≤ n ∧ s.hdp[h].state = .marking ∧ s.hdp[h].mem = some mem ∧ s.hdp[h].lastStrobe = some u ∧ shorterThan (headBody s h.1) mem 1 1 ((s.now - u) * 5) = true ∧ n + 1 < m.lines + mem.rowGap) ∧
    (∃ (s : State), ∃ (h : Fin 8), ∃ (i : Fin 512), ∃ (k : Nat), ∃ (e : Sheet), ∃ (m : Mark), s.sys.mode ≠ .reset ∧ currentField s h = some (i, k) ∧ s.led.entries[i] = some e ∧ e.marks[k]? = some m ∧ strobesOff s = false ∧ trackReached s.clk (instantCount s h e m) = true ∧ ((s.hdp[h].state = .held ∨ s.hdp[h].state = .fenced ∨ s.hdp[h].state = .capped ∨ s.hdp[h].state = .absent))) ∧
    (∃ (s : State), ∃ (h : Fin 8), ∃ (i : Fin 512), ∃ (k : Nat), ∃ (e : Sheet), ∃ (m : Mark), ∃ img, s.sys.mode ≠ .reset ∧ currentField s h = some (i, k) ∧ s.led.entries[i] = some e ∧ e.marks[k]? = some m ∧ m.image = some img ∧ s.hdp[h].fifoFor = some (i, k) ∧ nextLine s.hdp[h] m < m.lines ∧ s.hdp[h].fifo.length < 32) :=
  ⟨⟨(fireable mark7 (fun x => x)), 0, 0, 0, (marked mark7), mark7, headMem, by decide +kernel⟩,
   ⟨(fireable { mark7 with pos := 1000000 } (fun x => x)), 0, 0, 0, (marked { mark7 with pos := 1000000 }), ({ mark7 with pos := 1000000 }), by decide +kernel⟩,
   ⟨(fireable { mark7 with run := .running 2 } (fun x => { x with state := .marking, field := some (0, 0), lastStrobe := some 0 })), 0, 0, 0, (marked { mark7 with run := .running 2 }), ({ mark7 with run := .running 2 }), headMem, 2, 0, by decide +kernel⟩,
   ⟨(fireable mark7 (fun x => { x with state := .held })), 0, 0, 0, (marked mark7), mark7, by decide +kernel⟩,
   ⟨(fireable { mark7 with run := .running 2 } (fun x => { x with state := .marking, field := some (0, 0), fifoFor := some (0, 0) })), 0, 0, 0, (marked { mark7 with run := .running 2 }), ({ mark7 with run := .running 2 }), ([[], [1], [2], [3]]), by decide +kernel⟩⟩

/-- Each clause of HeadRowsComplete has a state and operands that meet what it asks for. -/
theorem witness_HeadRowsComplete :
    (∃ (s : State), ∃ (h : Fin 8), ∃ high, ∃ spacing, ∃ mem, s.sys.mode ≠ .reset ∧ s.hdp[h].mem = some mem ∧ strobeBad (headBody s h.1) mem high spacing = false) ∧
    (∃ (s : State), ∃ (h : Fin 8), ∃ high, ∃ spacing, ∃ mem, s.sys.mode ≠ .reset ∧ s.hdp[h].mem = some mem ∧ s.hdp[h].state ≠ .absent ∧ strobeBad (headBody s h.1) mem high spacing = true) ∧
    (∃ (s : State), ∃ (h : Fin 8), ∃ high, ∃ spacing, ∃ mem, s.sys.mode ≠ .reset ∧ s.hdp[h].mem = some mem ∧ s.hdp[h].state ≠ .absent ∧ strobeBad (headBody s h.1) mem high spacing = true) ∧
    (∃ (s : State), ∃ (h : Fin 8), ∃ (code : BitVec 12), ∃ mem, s.sys.mode ≠ .reset ∧ s.hdp[h].mem = some mem ∧ code ≠ 0 ∧ code ≠ 4095 ∧ cycleComes s h = false ∧ ((s.hdp[h].state = .idle ∨ s.hdp[h].state = .marking)) ∧ headTemp mem.table code.toNat < mem.limit) ∧
    (∃ (s : State), ∃ (h : Fin 8), ∃ (code : BitVec 12), ∃ mem, s.sys.mode ≠ .reset ∧ s.hdp[h].mem = some mem ∧ code ≠ 0 ∧ code ≠ 4095 ∧ cycleComes s h = false ∧ ((s.hdp[h].state = .idle ∨ s.hdp[h].state = .marking)) ∧ mem.limit ≤ headTemp mem.table code.toNat) ∧
    (∃ (s : State), ∃ (h : Fin 8), ∃ (code : BitVec 12), ∃ mem, s.sys.mode ≠ .reset ∧ s.hdp[h].mem = some mem ∧ code ≠ 0 ∧ code ≠ 4095 ∧ cycleComes s h = false ∧ s.hdp[h].state = .held ∧ headTemp mem.table code.toNat < mem.limit - mem.hyst) ∧
    (∃ (s : State), s.sys.mode ≠ .reset) ∧
    (∃ (s : State), ∃ (h : Fin 8), s.sys.mode ≠ .reset ∧ s.hdp[h].capMove = some true ∧ s.hdp[h].state = .idle) ∧
    (∃ (s : State), ∃ (i : Fin 512), ∃ (e : Sheet), s.sys.mode ≠ .reset ∧ s.led.entries[i] = some e ∧ e.open = true) :=
  ⟨⟨heads, 0, 100, 1000000, headMem, by decide +kernel⟩,
   ⟨heads, 0, 20000, 1000000, headMem, by decide +kernel⟩,
   ⟨heads, 0, 100, 5, headMem, by decide +kernel⟩,
   ⟨heads, 0, 300, headMem, by decide +kernel⟩,
   ⟨heads, 0, 2500, headMem, by decide +kernel⟩,
   ⟨(head0 (fun x => { x with state := .held })), 0, 210, headMem, by decide +kernel⟩,
   ⟨heads, by decide +kernel⟩,
   ⟨(head0 (fun x => { x with capMove := some true })), 0, by decide +kernel⟩,
   ⟨(withSheet { marked { mark7 with image := none, kind := 1 } with state := .committed } (withRecipes [(0x50, 0xFFFF, marksRec)])), 0, ({ marked { mark7 with image := none, kind := 1 } with state := .committed }), by decide +kernel⟩⟩

/-- Each clause of JournalRowsComplete has a state and operands that meet what it asks for. -/
theorem witness_JournalRowsComplete :
    (∃ (s : State), ∃ r, ∃ rest, s.sys.mode ≠ .reset ∧ s.jnl.staged = r :: rest ∧ programmable s r rest = true) ∧
    (∃ (s : State), ∃ r, ∃ rest, s.sys.mode ≠ .reset ∧ s.jnl.staged = r :: rest ∧ programmable s r rest = true) ∧
    (∃ (s : State), s.sys.mode ≠ .reset ∧ jnlOn s = true ∧ s.sys.pwrFail = false ∧ s.jnl.waiting = [] ∧ s.jnl.unsealed ≠ 0 ∧ s.jnl.sealing = false ∧ s.jnl.staged.length < 32) ∧
    (∃ (s : State), ∃ pre, ∃ r, s.sys.mode ≠ .reset ∧ s.jnl.sealing = true ∧ s.jnl.staged = pre ++ [r] ∧ s.jnl.waiting = []) ∧
    (∃ (s : State), ∃ k, s.sys.mode ≠ .reset ∧ s.jnl.erasing.head? = some k ∧ s.sys.pwrFail = false) :=
  ⟨⟨((journalUp).modJnl (fun j => { j with staged := [rec7] })), rec7, ([]), by decide +kernel⟩,
   ⟨((journalUp).modJnl (fun j => { j with staged := [rec7] })), rec7, ([]), by decide +kernel⟩,
   ⟨((journalUp).modJnl (fun j => { j with unsealed := 3 })), by decide +kernel⟩,
   ⟨sealing, ([]), rec8, by decide +kernel⟩,
   ⟨((journalUp).modJnl (fun j => { j with erasing := [3], flash := [(12288, 5), (16384, 7)] })), 3, by decide +kernel⟩⟩

/-- Each clause of PickRowsComplete has a state and operands that meet what it asks for. -/
theorem witness_PickRowsComplete :
    (∃ (s : State), ∃ i, ∃ e, s.sys.mode ≠ .reset ∧ nextPick s = some (i, e) ∧ waitCode s = 0 ∧ runoutStands s = false ∧ s.sys.mode = .ready) ∧
    (∃ (s : State), s.sys.mode ≠ .reset ∧ waitCode s ≠ 0 ∧ s.seq.waitRaised ≠ nextOrder s) ∧
    (∃ (s : State), s.sys.mode ≠ .reset ∧ 2 ≤ waitCode s ∧ waitCode s ≤ 5 ∧ s.seq.pauseRaised ≠ waitCode s) ∧
    (∃ (s : State), s.sys.mode ≠ .reset ∧ waitCode s = 5) :=
  ⟨⟨pickable, 0, committed7, by decide +kernel⟩,
   ⟨({ pickable with drc := {} }.modSys (fun x => { x with held := true })), by decide +kernel⟩,
   ⟨(pickable.modMotor 6 (fun m => { m with speed := 0 })), by decide +kernel⟩,
   ⟨((withSheet { committed7 with marks := [mark7] } pickable).modHead 0 (fun x => { x with state := .held })), by decide +kernel⟩⟩

/-- Each clause of PaperRowsComplete has a state and operands that meet what it asks for. -/
theorem witness_PaperRowsComplete :
    (∃ (s : State), ∃ (k : Fin 32), ∃ i, ∃ e, ∃ w, s.sys.mode ≠ .reset ∧ s.sys.mode ≠ .halt ∧ s.seq.pathStop = none ∧ (sheetBody s).isEmpty = false ∧ s.seq.psn.getLsbD k.1 = false ∧ k.1 = gateSensor s ∧ expectedAt s k.1 = some (i, e, w) ∧ w.start ≤ (ppc s : Int) ∧ (ppc s : Int) ≤ w.stop ∧ e.state = .committed ∧ e.route = none) ∧
    (∃ (s : State), ∃ (k : Fin 32), ∃ i, ∃ e, ∃ lead, ∃ d, s.sys.mode ≠ .reset ∧ s.sys.mode ≠ .halt ∧ s.seq.pathStop = none ∧ (sheetBody s).isEmpty = false ∧ s.seq.psn.getLsbD k.1 = true ∧ bitOf (sensorFlags s k.1) 0 = true ∧ passingAt s k.1 = some (i, e, lead) ∧ lead + 16 * e.length ≤ ppc s + tailTol s e.media ∧ ppc s ≤ lead + 16 * e.length + tailTol s e.media ∧ e.route = some d ∧ k.1 = destExit s d ∧ e.state = .pastGate ∧ e.serial = 0) ∧
    (∃ (s : State), ∃ (k : Fin 32), s.sys.mode ≠ .reset ∧ s.sys.mode ≠ .halt ∧ s.seq.pathStop = none ∧ (sheetBody s).isEmpty = false ∧ s.seq.psn.getLsbD k.1 = false ∧ bitOf (sensorFlags s k.1) 0 = true ∧ expectedAt s k.1 = none ∧ (passingAt s k.1) = none) :=
  ⟨⟨picked, 2, 0, pickedSheet, (⟨2, 100, 1100, none, false⟩), by decide +kernel⟩,
   ⟨leavingState, 5, 0, leaving, 1000, 0, by decide +kernel⟩,
   ⟨emptyPath, 5, by decide +kernel⟩⟩

/-- Each clause of PathRowsComplete has a state and operands that meet what it asks for. -/
theorem witness_PathRowsComplete :
    (∃ (s : State), ∃ (k : Fin 32), ∃ j, ∃ rest, s.sys.mode ≠ .reset ∧ s.sys.mode ≠ .halt ∧ s.seq.pathStop = none ∧ endedWindows s = j :: rest ∧ (((j :: rest).any fun x => x.1 == k.1) = true) ∧ (coming s (fun c => match c with | .paperSensorEdge _ _ => true | _ => false) = false)) ∧
    (∃ (s : State), s.sys.mode ≠ .reset ∧ s.sys.mode ≠ .halt ∧ s.seq.pathStop = none ∧ m6InTolerance s = false ∧ (((sheets s).any fun x => x.2.picked) = true)) ∧
    (∃ (s : State), ∃ i, ∃ e, ∃ n, s.sys.mode ≠ .reset ∧ s.sys.mode ≠ .halt ∧ s.seq.pathStop = none ∧ sheets s = [(i, e)] ∧ e.t = some n ∧ e.open = true ∧ e.route = none ∧ n + divDecide s ≤ ppc s) ∧
    (∃ (s : State), ∃ (a : Fin 16), ∃ i, ∃ e, ∃ n, s.sys.mode ≠ .reset ∧ s.sys.mode ≠ .halt ∧ s.seq.pathStop = none ∧ deskewComes s = false ∧ a.1 = deskewRight (motionBody s) ∧ (motionBody s).isEmpty = false ∧ sheets s = [(i, e)] ∧ e.state = .committed ∧ e.watched (deskewSensorL (motionBody s)) = true ∧ e.watched (deskewSensorR (motionBody s)) = true ∧ e.leadAt (deskewSensorL (motionBody s)) = none ∧ e.t = some n ∧ n ≤ ppc s + deskewEnd (motionBody s)) :=
  ⟨⟨ended, 2, ((endedWindows ended).head!), ((endedWindows ended).tail), by decide +kernel⟩,
   ⟨(picked.modMotor 6 (fun m => { m with speed := 0, state := .stopped })), by decide +kernel⟩,
   ⟨(picked.modClk (fun c => { c with acc := 200000 * 2 ^ 32 })), 0, pickedSheet, 100, by decide +kernel⟩,
   ⟨skewState7, 1, 0, skewSheet7, 100, by decide +kernel⟩⟩

/-- Each clause of AxisRowsComplete has a state and operands that meet what it asks for. -/
theorem witness_AxisRowsComplete :
    (∃ (s : State), ∃ (a : Fin 16), ∃ bitsA, ∃ bitsB, ∃ (m : CoilSample), s.sys.mode ≠ .reset ∧ m = axisSample s a bitsA bitsB ∧ s.axs[a].state = .idle ∧ axPwmFreq (axisOf s a) ≠ 0 ∧ axStallDetect (axisOf s a) = false ∧ s.axs[a].homing = none ∧ feedStuck m.bitsA s.axs[a].feed.1 = false ∧ feedStuck m.bitsB s.axs[a].feed.2 = false ∧ m.iA.natAbs ≤ axOverI (axisOf s a) ∧ m.iB.natAbs ≤ axOverI (axisOf s a) ∧ s.axs[a].duty.1.natAbs ≠ 65536 ∧ s.axs[a].duty.2.natAbs ≠ 65536) ∧
    (∃ (s : State), ∃ (a : Fin 16), ∃ bitsA, ∃ bitsB, ∃ (m : CoilSample), s.sys.mode ≠ .reset ∧ m = axisSample s a bitsA bitsB ∧ s.axs[a].driven = true ∧ axPwmFreq (axisOf s a) ≠ 0 ∧ ((feedStuck m.bitsA s.axs[a].feed.1 = true ∨ feedStuck m.bitsB s.axs[a].feed.2 = true))) ∧
    (∃ (s : State), ∃ (a : Fin 16), ∃ m, s.sys.mode ≠ .reset ∧ s.axs[a].state = .moving ∧ s.axs[a].move = some m ∧ m.kind ≠ 2) ∧
    (∃ (s : State), ∃ (a : Fin 16), s.sys.mode ≠ .reset ∧ s.axs[a].state = .stopping) ∧
    (∃ (s : State), ∃ (a : Fin 16), s.sys.mode ≠ .reset ∧ s.axs[a].state = .idle) ∧
    (∃ (s : State), ∃ (a : Fin 16), ∃ h, s.sys.mode ≠ .reset ∧ s.axs[a].state = .homing ∧ s.axs[a].homing = some h ∧ homeMethod (axHomeSeq (axisOf s a) h.seq) = 1 ∧ h.phase = 0) ∧
    (∃ (s : State), ∃ (a : Fin 16), ∃ h, s.sys.mode ≠ .reset ∧ s.axs[a].state = .homing ∧ s.axs[a].homing = some h ∧ homeMethod (axHomeSeq (axisOf s a) h.seq) = 1 ∧ h.phase = 1) ∧
    (∃ (s : State), ∃ (a : Fin 16), ∃ h, s.sys.mode ≠ .reset ∧ s.axs[a].state = .homing ∧ s.axs[a].homing = some h ∧ homeMethod (axHomeSeq (axisOf s a) h.seq) = 1 ∧ h.phase = 2) ∧
    (∃ (s : State), ∃ (a : Fin 16), s.sys.mode ≠ .reset ∧ s.axs[a].state = .geared ∧ s.axs[a].gearLock = none ∧ s.axs[a].phase = none) :=
  ⟨⟨(axis0 (fun x => { x with state := .idle })), 0, wave7, wave7, (axisSample (axis0 (fun x => { x with state := .idle })) 0 wave7 wave7), by decide +kernel⟩,
   ⟨(axis0 (fun x => { x with state := .idle })), 0, (List.replicate 64 true), wave7, (axisSample (axis0 (fun x => { x with state := .idle })) 0 (List.replicate 64 true) wave7), by decide +kernel⟩,
   ⟨(axis0 (fun x => { x with state := .moving, move := some move7, target := 50 })), 0, move7, by decide +kernel⟩,
   ⟨(axis0 (fun x => { x with state := .stopping, vel := 5 })), 0, by decide +kernel⟩,
   ⟨(axis0 (fun x => { x with state := .idle })), 0, by decide +kernel⟩,
   ⟨(axis0 (fun x => { x with state := .homing, homing := some (homing7 0), pos := 9 })), 0, (homing7 0), by decide +kernel⟩,
   ⟨(axis0 (fun x => { x with state := .homing, homing := some (homing7 1), pos := 9 })), 0, (homing7 1), by decide +kernel⟩,
   ⟨(axis0 (fun x => { x with state := .homing, homing := some (homing7 2), pos := 9 })), 0, (homing7 2), by decide +kernel⟩,
   ⟨(axis0 (fun x => { x with state := .geared })), 0, by decide +kernel⟩⟩

/-- Each clause of MotorRowsComplete has a state and operands that meet what it asks for. -/
theorem witness_MotorRowsComplete :
    (∃ (s : State), ∃ (m : Fin 10), s.sys.mode ≠ .reset ∧ s.mot.ch[m].state = .catching) ∧
    (∃ (s : State), ∃ (m : Fin 10), s.sys.mode ≠ .reset ∧ s.mot.ch[m].state = .coasting) ∧
    (∃ (s : State), ∃ (m : Fin 10), ∃ phase, ∃ rising, s.sys.mode ≠ .reset ∧ s.mot.ch[m].state.driving = true ∧ s.mot.ch[m].step ≠ 0 ∧ s.mot.ch[m].step ≠ crossingStep (motorOf s m) phase rising) ∧
    (∃ (s : State), ∃ (m : Fin 10), s.sys.mode ≠ .reset ∧ s.mot.ch[m].step ≠ 0 ∧ ((s.mot.ch[m].state = .ramping ∨ s.mot.ch[m].state = .running ∨ s.mot.ch[m].state = .braking))) ∧
    (∃ (s : State), ∃ (m : Fin 10), ∃ (bitsU : List Bool), ∃ (bitsV : List Bool), ∃ (bits : List (Bool × Bool)), s.sys.mode ≠ .reset ∧ bits = (bitsU.zip bitsV).take (motorPwmNs (motorOf s m) / (5 * mdclkCycles s (moClock (motorOf s m)))) ∧ s.mot.ch[m].state ≠ .stopped ∧ s.mot.ch[m].state ≠ .fenced ∧ feedStuck (bits.map (·.1)) s.mot.ch[m].feed.1 = false ∧ feedStuck (bits.map (·.2)) s.mot.ch[m].feed.2 = false ∧ (scanFeeds (motorOf s m) s.mot.ch[m] bits).trip = none) ∧
    (∃ (s : State), ∃ (m : Fin 10), ∃ (bitsU : List Bool), ∃ (bitsV : List Bool), ∃ (bits : List (Bool × Bool)), s.sys.mode ≠ .reset ∧ bits = (bitsU.zip bitsV).take (motorPwmNs (motorOf s m) / (5 * mdclkCycles s (moClock (motorOf s m)))) ∧ s.mot.ch[m].state ≠ .stopped ∧ s.mot.ch[m].state ≠ .fenced ∧ (feedStuck (bits.map (·.1)) s.mot.ch[m].feed.1 = true ∨ feedStuck (bits.map (·.2)) s.mot.ch[m].feed.2 = true ∨ (scanFeeds (motorOf s m) s.mot.ch[m] bits).trip.isSome = true)) :=
  ⟨⟨(motor0 (fun x => { x with state := .catching })), 0, by decide +kernel⟩,
   ⟨(motor0 (fun x => { x with state := .coasting })), 0, by decide +kernel⟩,
   ⟨(motor0 run7), 0, 2, false, by decide +kernel⟩,
   ⟨(motor0 run7), 0, by decide +kernel⟩,
   ⟨(motor0 run7), 0, wave7, wave7, ((wave7.zip wave7).take (motorPwmNs (motorOf (motor0 run7) 0) / (5 * mdclkCycles (motor0 run7) (moClock (motorOf (motor0 run7) 0))))), by decide +kernel⟩,
   ⟨(motor0 run7), 0, (List.replicate 64 true), (List.replicate 64 true), (((List.replicate 64 true).zip (List.replicate 64 true)).take (motorPwmNs (motorOf (motor0 run7) 0) / (5 * mdclkCycles (motor0 run7) (moClock (motorOf (motor0 run7) 0))))), by decide +kernel⟩⟩

/-- Each clause of MotorTimersComplete has a state and operands that meet what it asks for. -/
theorem witness_MotorTimersComplete :
    (∃ (s : State), ∃ (m : Fin 10), s.sys.mode ≠ .reset ∧ s.mot.ch[m].state = .catching ∧ stopComes s m = false ∧ s.mot.ch[m].crossings < 3 ∧ s.mot.ch[m].forward = true) ∧
    (∃ (s : State), ∃ (m : Fin 10), s.sys.mode ≠ .reset ∧ s.mot.ch[m].state = .catching ∧ stopComes s m = false ∧ 3 ≤ s.mot.ch[m].crossings ∧ s.mot.ch[m].forward = true ∧ moCatch (motorOf s m) ≤ speedOf (motorOf s m) (meanPeriod s.mot.ch[m]) ∧ speedOf (motorOf s m) (meanPeriod s.mot.ch[m]) ≠ 0) ∧
    (∃ (s : State), ∃ (m : Fin 10), s.sys.mode ≠ .reset ∧ s.mot.ch[m].state = .aligning) ∧
    (∃ (s : State), ∃ (m : Fin 10), s.sys.mode ≠ .reset ∧ s.mot.ch[m].state = .ramping ∧ s.mot.ch[m].openLoop = true ∧ (coming s (fun c => match c with | .motorZeroCrossing j p r a b u => j == m && !(zeroCrossing s m p r a b u).mot.ch[m].openLoop | _ => false) = false)) ∧
    (∃ (s : State), ∃ (m : Fin 10), s.sys.mode ≠ .reset ∧ s.mot.ch[m].state = .ramping ∧ s.mot.ch[m].openLoop = false ∧ inBand (motorOf s m) s.mot.ch[m].speed s.mot.ch[m].setpoint = true ∧ coming s (· == .lossOfSynchronism m) = false) ∧
    (∃ (s : State), ∃ (m : Fin 10), s.sys.mode ≠ .reset ∧ s.mot.ch[m].state = .running ∧ crossingComes s m = false) ∧
    (∃ (s : State), ∃ (m : Fin 10), s.sys.mode ≠ .reset ∧ s.mot.ch[m].state = .coasting ∧ s.mot.ch[m].lost = true ∧ moRestart (motorOf s m) = true ∧ s.mot.ch[m].restarts < moRestarts (motorOf s m)) ∧
    (∃ (s : State), ∃ (m : Fin 10), s.sys.mode ≠ .reset ∧ s.mot.ch[m].state = .coasting ∧ crossingComes s m = false) :=
  ⟨⟨(motor0 (fun x => { x with state := .catching, forward := true })), 0, by decide +kernel⟩,
   ⟨(motor0 (fun x => { x with state := .catching, forward := true, crossings := 6, periods := [1000000, 1000000, 1000000, 1000000, 1000000, 1000000] })), 0, by decide +kernel⟩,
   ⟨(motor0 (fun x => { x with state := .aligning })), 0, by decide +kernel⟩,
   ⟨(motor0 (fun x => { x with state := .ramping, openLoop := true })), 0, by decide +kernel⟩,
   ⟨(motor0 (fun x => { x with state := .ramping, openLoop := false, speed := 5000, setpoint := 5000 })), 0, by decide +kernel⟩,
   ⟨(motor0 (fun x => { x with state := .running })), 0, by decide +kernel⟩,
   ⟨(motor0 (fun x => { x with state := .coasting, lost := true })), 0, by decide +kernel⟩,
   ⟨(motor0 (fun x => { x with state := .coasting })), 0, by decide +kernel⟩⟩

/-- Each clause of BusRowsComplete has a state and operands that meet what it asks for. -/
theorem witness_BusRowsComplete :
    (∃ (s : State), s.sys.mode ≠ .reset) ∧
    (∃ (s : State), ∃ (code : BitVec 12), s.sys.mode ≠ .reset ∧ (motorBody s).isEmpty = false ∧ busHard (motorBody s) ≤ busMillivolts (motorBody s) code.toNat ∧ s.mot.hard = false) ∧
    (∃ (s : State), s.sys.mode ≠ .reset ∧ (motorBody s).isEmpty = false ∧ s.mot.busV < busUv (motorBody s) ∧ (coming s (fun c => match c with | .busSample code _ => decide (busUv (motorBody s) ≤ busMillivolts (motorBody s) code.toNat) | _ => false) = false)) ∧
    (∃ (s : State), s.sys.mode ≠ .reset ∧ s.mot.brk = true ∧ s.mot.brkFb = false ∧ (coming s (fun c => match c with | .busSample _ fb => fb | _ => false) = false)) ∧
    (∃ (s : State), ∃ (n : Fin 2), ∃ f, ∃ set, s.sys.mode ≠ .reset ∧ (motorBody s).isEmpty = false ∧ spdMode (motorBody s) n.1 ≠ 0 ∧ set = min (moMaxSpeed (motorOf s (spdChannel n))) (spdFull (motorBody s) n.1 * min 65536 f / 65536) ∧ s.mot.ch[spdChannel n].suspended = false ∧ moEnabled (motorOf s (spdChannel n)) = true ∧ s.mot.ch[spdChannel n].state = .running ∧ moSensorless (motorOf s (spdChannel n)) ≤ set) ∧
    (∃ (s : State), ∃ (n : Fin 2), s.sys.mode ≠ .reset ∧ (motorBody s).isEmpty = false ∧ spdMode (motorBody s) n.1 ≠ 0 ∧ s.mot.ch[spdChannel n].suspended = false ∧ s.mot.ch[spdChannel n].state = .running ∧ stopComes s (spdChannel n) = false ∧ (coming s (fun c => match c with | .spdcmdUpdate k _ => k == n | _ => false) = false)) :=
  ⟨⟨driven, by decide +kernel⟩,
   ⟨(driven.modLed (fun d => { d with store := updN d.store 1 fun _ => some ⟨0x31, 0xFFFF, 1, 0, hotMotorRec, true⟩ })), 4095, by decide +kernel⟩,
   ⟨(motor0 (fun x => { x with state := .running })), by decide +kernel⟩,
   ⟨((motor0 (fun x => { x with state := .braking })).modMot (fun m => { m with brk := true })), by decide +kernel⟩,
   ⟨(driven.modMotor 8 (fun x => { x with state := .running })), 0, 32768, 250000, by decide +kernel⟩,
   ⟨(driven.modMotor 8 (fun x => { x with state := .running })), 0, by decide +kernel⟩⟩

/-- Each clause of EngineRowsComplete has a state and operands that meet what it asks for. -/
theorem witness_EngineRowsComplete :
    (∃ (s : State), s.sys.mode ≠ .reset) ∧
    (∃ (s : State), ∃ (n : Fin 160), s.sys.mode ≠ .reset ∧ s.sys.mode ≠ .standby ∧ ((∀ k : Fin 160, s.ctl.loops[k].outNext = none ∧ s.ctl.loops[k].cascade = false ∧ s.ctl.loops[k].spNext = none)) ∧ dueSlots s = [n]) ∧
    (∃ (s : State), ∃ (n : Fin 160), s.sys.mode ≠ .reset ∧ s.sys.mode ≠ .standby ∧ ((∀ k : Fin 160, s.ctl.loops[k].outNext = none ∧ s.ctl.loops[k].cascade = false ∧ s.ctl.loops[k].spNext = none)) ∧ dueSlots s = [n]) ∧
    (∃ (s : State), ∃ half, s.sys.mode ≠ .reset ∧ 7500 ≤ half ∧ half ≤ 11100) ∧
    (∃ (s : State), ∃ half, s.sys.mode ≠ .reset ∧ 7500 ≤ half ∧ half ≤ 11100) ∧
    (∃ (s : State), ∃ half, s.sys.mode ≠ .reset ∧ 7500 ≤ half ∧ half ≤ 11100) ∧
    (∃ (s : State), s.sys.mode ≠ .reset ∧ (coming s (fun i => match i with | .mainsZcEdge half => within 7500 11100 half | _ => false) = false)) ∧
    (∃ (s : State), s.sys.mode ≠ .reset ∧ s.ctl.hven = true ∧ s.pins.hvOk = false) :=
  ⟨⟨driven, by decide +kernel⟩,
   ⟨(loop5 (fun l => l)), 120, by decide +kernel⟩,
   ⟨(loop5 (fun l => l)), 120, by decide +kernel⟩,
   ⟨driven, 10000, by decide +kernel⟩,
   ⟨driven, 7500, by decide +kernel⟩,
   ⟨driven, 11100, by decide +kernel⟩,
   ⟨driven, by decide +kernel⟩,
   ⟨(driven.modCtl (fun c => { c with hven := true })), by decide +kernel⟩⟩

/-- Each clause of TemperatureRowsComplete has a state and operands that meet what it asks for. -/
theorem witness_TemperatureRowsComplete :
    (∃ (s : State), ∃ code, ∃ v, s.sys.mode ≠ .reset ∧ s.fus.sensed = true ∧ dieSample s code = some v) ∧
    (∃ (s : State), ∃ code, s.sys.mode ≠ .reset ∧ s.fus.sensed = true ∧ dieSample s code = none) ∧
    (∃ (s : State), ∃ code, ∃ v, s.sys.mode ≠ .reset ∧ s.fus.sensed = true ∧ dieSample s code = some v ∧ 480 ≤ v ∧ v < 500 ∧ s.tmp.hot = false ∧ ((s.sys.mode = .ready ∨ s.sys.mode = .print))) ∧
    (∃ (s : State), s.sys.mode ≠ .reset ∧ s.fus.sensed = true ∧ s.fus.resensing = true ∧ fuseBusy s = false) :=
  ⟨⟨trimmed, (some 400), 400, by decide +kernel⟩,
   ⟨trimmed, none, by decide +kernel⟩,
   ⟨trimmed, (some 490), 490, by decide +kernel⟩,
   ⟨(up.modFus (fun f => { f with resensing := true })), by decide +kernel⟩⟩

/-- Each clause of FabricRowsComplete has a state and operands that meet what it asks for. -/
theorem witness_FabricRowsComplete :
    (∃ (s : State), ∃ r, ∃ rest, s.sys.mode ≠ .reset ∧ s.flt.inbox = r :: rest) ∧
    (∃ (s : State), ∃ r, ∃ rest, s.sys.mode ≠ .reset ∧ s.flt.inbox = r :: rest) ∧
    (∃ (s : State), ∃ (k : Fin 256), s.sys.mode ≠ .reset ∧ reservedSource k.1 = false ∧ sourceDisabled (stationOn s) (headOn s) k.1 = false) ∧
    (∃ (s : State), s.sys.mode ≠ .reset) ∧
    (∃ (s : State), s.sys.mode ≠ .reset) ∧
    (∃ (s : State), ∃ i, s.sys.mode ≠ .reset ∧ s.flt.inject = some i ∧ i.kind = 1 ∧ i.left ≠ 0) ∧
    (∃ (s : State), ∃ i, s.sys.mode ≠ .reset ∧ s.flt.inject = some i ∧ i.left = 0) ∧
    (∃ (s : State), s.sys.mode ≠ .reset) :=
  ⟨⟨(up.modFlt (fun f => { f with inbox := [⟨0xE2, 5, .log, false, 2⟩] })), (⟨0xE2, 5, .log, false, 2⟩), ([]), by decide +kernel⟩,
   ⟨((pendingFault 0xE2 .note).modFlt (fun f => { f with inbox := [⟨0xE2, 5, .halt, false, 1⟩] })), (⟨0xE2, 5, .halt, false, 1⟩), ([]), by decide +kernel⟩,
   ⟨up, 0xE2, by decide +kernel⟩,
   ⟨(up.modSrc 0xE2 (fun x => { x with coalesce := none })), by decide +kernel⟩,
   ⟨up, by decide +kernel⟩,
   ⟨(up.modFlt (fun f => { f with inject := some ⟨0xE2, 1, 4⟩ })), (⟨0xE2, 1, 4⟩), by decide +kernel⟩,
   ⟨(up.modFlt (fun f => { f with inject := some ⟨0xE2, 1, 0⟩ })), (⟨0xE2, 1, 0⟩), by decide +kernel⟩,
   ⟨up, by decide +kernel⟩⟩

/-- A reset of the Kettle by lockstep in a device with no restart behind it, and the two ways past the limit. -/
theorem witness_KettleRestartsComplete :
    (∃ (s : State), ∃ (i : Bool → Instr), (i = .kettleLockstepMismatch ∨ i = .kettleWatchdogExpiry) ∧ kettleUp s = true ∧
      (s.ktl.restarts.filter fun t => decide (s.now - t ≤ restartWindow)).length < 3) ∧
    (∃ (s : State), ∃ (i : Bool → Instr), ∃ ok, (i = .kettleLockstepMismatch ∨ i = .kettleWatchdogExpiry) ∧ kettleUp s = true ∧
      (3 ≤ (s.ktl.restarts.filter fun t => decide (s.now - t ≤ restartWindow)).length ∨ ok = false)) ∧
    (∃ (s : State), ∃ (i : Bool → Instr), ∃ ok, (i = .kettleLockstepMismatch ∨ i = .kettleWatchdogExpiry) ∧ kettleUp s = true ∧
      (3 ≤ (s.ktl.restarts.filter fun t => decide (s.now - t ≤ restartWindow)).length ∨ ok = false)) :=
  ⟨⟨parkedAt 0x48 (cmd [1, 0, 0, 0]), .kettleLockstepMismatch, .inl rfl, by decide +kernel⟩,
   ⟨parkedAt 0x48 (cmd [1, 0, 0, 0]), .kettleLockstepMismatch, false, .inl rfl, by decide +kernel⟩,
   ⟨up.modKtl fun k => { k with restarts := [0, 0, 0] }, .kettleWatchdogExpiry, true, .inr rfl, by decide +kernel⟩⟩

/-- A command that answers from a device with a canonical flash. -/
theorem witness_FlashBytesKept : ∃ (i : Instr), ∃ (s : State), ∃ (t : State), FlashCanonical s ∧ exec i s = .next t :=
  ⟨.sectorEraseComplete 3, journalUp, _, by unfold FlashCanonical; decide +kernel, rfl⟩

/-- A step from a device with a canonical flash, at a command that is waiting. -/
theorem witness_FlashStaysCanonical : ∃ (s : State), ∃ (t : State), FlashCanonical s ∧ step s = .next t :=
  ⟨{ journalUp with pending := [.sectorEraseComplete 3] }, _, by unfold FlashCanonical; decide +kernel, rfl⟩

/-- A halted device that a command acts on, and one that is halted for good. -/
theorem witness_HaltIsLeftOnlySafely :
    (∃ (i : Instr), ∃ (s : State), ∃ (t : State), s.sys.mode = .halt ∧ exec i s = .next t) ∧
    (∃ (i : Instr), ∃ (s : State), ∃ (t : State), s.sys.mode = .halt ∧ exec i s = .next t ∧ s.sys.haltUntilReset = true ∧ t.sys.mode = .halt) :=
  ⟨⟨.setMode (cmd [2, 0, 0, 0]), inMode .halt, _, rfl, rfl⟩,
   ⟨.aliveTick, (inMode .halt).modSys fun x => { x with haltUntilReset := true }, _, rfl, rfl, rfl, by decide +kernel⟩⟩

/-- A command that answers, at a blank fuse array. -/
theorem witness_FusesAreNeverCleared : ∃ (i : Instr), ∃ (s : State), ∃ (t : State), exec i s = .next t :=
  ⟨.fuseBurn burnCmd, up, _, rfl⟩

end Sys2Proof.Tests
end

section
/-!
Proofs of the statements about the ports: SPI frames that read (O27), registers and the BAR2 window (O31), packets (O38)
and missed beam edges (O46). The rules about shared operations come first.
-/

namespace Sys2Proof.Machine
open Sys2Proof Sys2Proof.Safety

/-! ## Conditions under which an event acts -/

theorem whenUp_eq {s : State} (f : State → State) (h : s.sys.mode ≠ .reset) : whenUp s f = f s := by
  simp [whenUp, h]

theorem giveWay_eq {s t : State} {p : Instr → Bool} (h : coming s p = false) : giveWay s p t = t := by
  simp [giveWay, h]

theorem overPcie_eq {s : State} (f : State → State) (h : s.sys.up = true) : overPcie s f = f (linkWake s) := by
  simp [overPcie, h]

theorem overPath_mgmt_eq {s : State} (f : State → State) (h : s.sys.up = true) : overPath s .mgmt f = f s := by
  simp [overPath, h]

/-- An access over PCIe touches nothing but the state of the link (R101). -/
theorem linkWake_eq (s : State) : ∃ l, linkWake s = s.modHif fun h => { h with link := l } := by
  unfold linkWake
  split
  · exact ⟨_, rfl⟩
  · exact ⟨s.hif.link, rfl⟩

/-! ## What leaves the device, and what a detection leaves -/

/-- What leaves through balls whose bank has its supply (R545, R554). -/
theorem emit_out_of_supplied {s : State} {o : Out} (h : (o.bank.any fun b => s.pins.bankLost[b]) = false) :
    (emit s o).out = s.out ++ [o] := by
  rw [emit, h]; rfl

/-- What leaves at a port of no bank leaves always. -/
theorem emit_out_of_unbanked (s : State) (o : Out) (h : o.bank = none) : (emit s o).out = s.out ++ [o] :=
  emit_out_of_supplied (by rw [h]; rfl)

@[simp] theorem emit_sup (s : State) (o : Out) : (emit s o).sup = s.sup := same_sup (emit_view s o (by decide))

@[simp] theorem emit_mgt (s : State) (o : Out) : (emit s o).mgt = s.mgt := same_mgt (emit_view s o (by decide))

@[simp] theorem emit_hif (s : State) (o : Out) : (emit s o).hif = s.hif := same_hif (emit_view s o (by decide))

@[simp] theorem emit_free (s : State) (o : Out) : (emit s o).free = s.free := same_free (emit_view s o (by decide))

@[simp] theorem emit_mot (s : State) (o : Out) : (emit s o).mot = s.mot := same_mot (emit_view s o (by decide))

@[simp] theorem emit_tmp (s : State) (o : Out) : (emit s o).tmp = s.tmp := same_tmp (emit_view s o (by decide))

@[simp] theorem emit_btu (s : State) (o : Out) : (emit s o).btu = s.btu := same_btu (emit_view s o (by decide))

@[simp] theorem raise_out (s : State) (src detail : Nat) : (raise s src detail).out = s.out :=
  same_out (raise_view s src detail (by decide))

@[simp] theorem raise_hif (s : State) (src detail : Nat) : (raise s src detail).hif = s.hif :=
  same_hif (raise_view s src detail (by decide))

@[simp] theorem raise_cad (s : State) (src detail : Nat) : (raise s src detail).cad = s.cad :=
  same_cad (raise_view s src detail (by decide))

@[simp] theorem raise_drc (s : State) (src detail : Nat) : (raise s src detail).drc = s.drc :=
  same_drc (raise_view s src detail (by decide))

@[simp] theorem raise_ktl (s : State) (src detail : Nat) : (raise s src detail).ktl = s.ktl :=
  same_ktl (raise_view s src detail (by decide))

@[simp] theorem raise_btu (s : State) (src detail : Nat) : (raise s src detail).btu = s.btu :=
  same_btu (raise_view s src detail (by decide))

@[simp] theorem raise_clk (s : State) (src detail : Nat) : (raise s src detail).clk = s.clk :=
  same_clk (raise_view s src detail (by decide))

@[simp] theorem stick_out (s : State) (offset mask : Nat) : (s.stick offset mask).out = s.out := rfl
@[simp] theorem stick_hif (s : State) (offset mask : Nat) : (s.stick offset mask).hif = s.hif := rfl
@[simp] theorem stick_cad (s : State) (offset mask : Nat) : (s.stick offset mask).cad = s.cad := rfl
@[simp] theorem stick_drc (s : State) (offset mask : Nat) : (s.stick offset mask).drc = s.drc := rfl

/-! ## SPI ports -/

@[simp] theorem State.modSpi_spi (s : State) (p : SpiPort) (g : Spi → Spi) : (s.modSpi p g).spi p = g (s.spi p) := by
  cases p <;> rfl

@[simp] theorem State.modSpi_out (s : State) (p : SpiPort) (g : Spi → Spi) : (s.modSpi p g).out = s.out := by
  cases p <;> rfl

@[simp] theorem State.modSpi_pins (s : State) (p : SpiPort) (g : Spi → Spi) : (s.modSpi p g).pins = s.pins := by
  cases p <;> rfl

theorem State.modSpi_congr {s : State} {p : SpiPort} {f g : Spi → Spi} (h : f (s.spi p) = g (s.spi p)) :
    s.modSpi p f = s.modSpi p g := by
  cases p with
  | mgmt => exact congrArg (fun x => { s with mgt := x }) h
  | sup => exact congrArg (fun x => { s with sup := x }) h

@[simp] theorem emit_spi (s : State) (o : Out) (p : SpiPort) : (emit s o).spi p = s.spi p := by
  cases p <;> simp [State.spi]

@[simp] theorem answer_spi (s : State) (p q : SpiPort) (head data : List Byte) :
    (answer s p head data).spi q = s.spi q := emit_spi ..

/-- With the supply of bank A the answer leaves: the turnaround, the data, and the CRC over the whole frame (R120). -/
theorem answer_out {s : State} (p : SpiPort) (head data : List Byte) (h : s.pins.bankLost[0] = false) :
    (answer s p head data).out = s.out ++ [.miso p (0xFF :: data ++ [crc8 (head ++ 0xFF :: data)])] :=
  emit_out_of_supplied (by simpa [Out.bank] using h)

/-- A well-formed frame at a target that answers. -/
theorem onFrame_good {s : State} {p : SpiPort} {good : Bool} (f : State → State) (h : portAnswers s p = true)
    (hg : good = true) : onFrame s p good f = f s := by
  simp [onFrame, h, hg]

/-! ## Frames -/

theorem statusFrame_eq {s : State} {p : SpiPort} {frame : List Byte} (h : portAnswers s p = true)
    (hf : frameIs frame 0x05 4 = true) :
    statusFrame s p frame = answer (s.modSpi p fun x => { x with frameErr := false, crcErr := false }) p
      (frame.take 1) (leBytes 1 (portStatus s p)) :=
  onFrame_good _ h hf

theorem readFrame_eq {s : State} {p : SpiPort} {frame : List Byte} (h : portAnswers s p = true)
    (hf : frameIs frame 0x0B (10 + 4 * u8 frame 3) = true) (hh : registerHead frame 4 = true) :
    readFrame s p frame = answer (readWords (SpiPort.path p) (u16 frame 1) (u8 frame 3 + 1) s).2 p
      (frame.take 4) (readWords (SpiPort.path p) (u16 frame 1) (u8 frame 3 + 1) s).1 := by
  have hgood : (frameIs frame 0x0B (6 + 4 * (u8 frame 3 + 1)) && registerHead frame 4) = true := by
    rw [show 6 + 4 * (u8 frame 3 + 1) = 10 + 4 * u8 frame 3 by omega, hf, hh]; rfl
  unfold readFrame
  rw [onFrame_good _ h hgood]

theorem jbufFrame_eq {s : State} {frame : List Byte} (h : portAnswers s .sup = true)
    (hf : frameIs frame 0x30 (10 + 4 * u8 frame 3) = true) (hh : registerHead frame 16 = true) :
    jbufFrame s frame = answer s .sup (frame.take 4) (bytesAt s.sup.jbuf (u16 frame 1) (4 * (u8 frame 3 + 1))) := by
  have hgood : (frameIs frame 0x30 (6 + 4 * (u8 frame 3 + 1)) && registerHead frame 16) = true := by
    rw [show 6 + 4 * (u8 frame 3 + 1) = 10 + 4 * u8 frame 3 by omega, hf, hh]; rfl
  unfold jbufFrame
  rw [onFrame_good _ h hgood]

theorem fetchFrame_nil {s : State} {p : SpiPort} {frame : List Byte} (h : portAnswers s p = true)
    (hf : frameIs frame 0x21 (3 + replyLength s p) = true) (hr : (s.spi p).replies = []) :
    fetchFrame s p frame = answer s p (frame.take 1) (List.replicate (replyLength s p) 0xFF) := by
  unfold fetchFrame
  rw [onFrame_good _ h hf]
  simp only [hr]

theorem fetchFrame_cons {s : State} {p : SpiPort} {frame : List Byte} {r : Reply} {rest : List Reply}
    (h : portAnswers s p = true) (hf : frameIs frame 0x21 (3 + replyLength s p) = true)
    (hr : (s.spi p).replies = r :: rest) :
    fetchFrame s p frame =
      answer (s.modSpi p fun x => { x with replies := rest }) p (frame.take 1) (portReply s p r) := by
  unfold fetchFrame
  rw [onFrame_good _ h hf]
  simp only [hr]

/-! ## The reply timeout -/

/-- The reply that a port queues for a packet whose timeout passes (R124). -/
def timeoutReply (q : Queued) : Reply :=
  { tag := q.tag, status := .timeout, detail := BitVec.ofNat 32 (fail .timeout 0x15).detail, seq := q.seq }

/-- The timeout of the one packet of a port marks it and queues its TIMEOUT reply (R124). -/
theorem portTimeout_single {s : State} {p : SpiPort} {q : Queued} (hq : (s.spi p).queue = [q]) (hr : q.reply = true)
    (ht : q.timed = false) :
    portTimeout s p q.tag = s.modSpi p fun x =>
      { x with queue := [{ q with timed := true }], replies := x.replies ++ [timeoutReply q] } := by
  have hdue : (q.tag == q.tag && q.reply && !q.timed) = true := by simp [hr, ht]
  unfold portTimeout
  simp only [hq, List.find?_cons, hdue]
  exact State.modSpi_congr (by simp [hq, updFirst, hr, ht, timeoutReply])

/-- Settles O27: each frame is answered by its own function, whose answer leaves at the port, and the timeout queues its
reply. -/
theorem spiReadsComplete : Obligations.SpiReadsComplete := by
  intro s p frame hbank
  refine ⟨fun hp hf => ?_, fun hp hf hh => ?_, fun hp hf => ⟨fun r rest hr => ?_, fun hr => ?_⟩, fun hp hf hh => ?_,
    fun tag q hm hq htag hreply htimed hc => ?_⟩
  · refine ⟨_, rfl, ?_⟩
    rw [statusFrame_eq hp hf]
    exact ⟨by simp, by simp, by rw [answer_out _ _ _ (by simpa using hbank)]; simp [leBytes]⟩
  · exact congrArg Host.Outcome.next (readFrame_eq hp hf hh)
  · refine ⟨_, rfl, ?_⟩
    rw [fetchFrame_cons hp hf hr]
    exact ⟨by simp, by rw [answer_out _ _ _ (by simpa using hbank)]; simp⟩
  · refine ⟨_, rfl, ?_⟩
    rw [fetchFrame_nil hp hf hr]
    exact ⟨by simp [hr], answer_out _ _ _ hbank⟩
  · refine ⟨_, rfl, ?_⟩
    rw [jbufFrame_eq hp hf hh]
    exact ⟨emit_sup .., answer_out _ _ _ hbank⟩
  · subst htag
    refine ⟨_, rfl, ?_⟩
    rw [whenUp_eq _ hm, giveWay_eq hc, portTimeout_single hq hreply htimed, State.modSpi_spi]
    exact ⟨rfl, timeoutReply q, rfl, rfl, rfl, rfl⟩

/-! ## The BAR2 window (R115..R118) -/

@[simp] theorem emit_bar2_out (s : State) (data : List Byte) (fails : Bool) :
    (emit s (.bar2 data fails)).out = s.out ++ [.bar2 data fails] := emit_out_of_unbanked _ _ rfl

@[simp] theorem dramRequest_free (s : State) : (dramRequest s).free = s.free :=
  same_free (dramRequest_view s (by decide))

@[simp] theorem dramRequest_out (s : State) : (dramRequest s).out = s.out :=
  same_out (dramRequest_view s (by decide))

/-- The state of the link has no part in the window (R115, R118). -/
theorem bar2Open_of_link (s : State) (l : Link) : bar2Open (s.modHif fun h => { h with link := l }) = bar2Open s := rfl

theorem bar2Bytes_of_link (s : State) (l : Link) (offset len : Nat) :
    bar2Bytes (s.modHif fun h => { h with link := l }) offset len = bar2Bytes s offset len := rfl

theorem bar2Read_closed {s : State} (h : bar2Open s = false) (offset len : Nat) (g : Bool) :
    (bar2Read s offset len g).hif.bar2Hit = true ∧
      (bar2Read s offset len g).out = s.out ++ [.bar2 (List.replicate len 0xFF) false] := by
  simp [bar2Read, h]

theorem bar2Read_open {s : State} (h : bar2Open s = true) (offset len : Nat) :
    (bar2Read s offset len false).free = s.free + 1 ∧
      (bar2Read s offset len false).out = s.out ++ [.bar2 (bar2Bytes s offset len) false] := by
  simp [bar2Read, h]

/-! ## Registers -/

theorem writeReg_bar2Sel (s : State) (v : Word) : writeReg s .bar0 0x10 v = writeBar2Sel s v.toNat := rfl

/-- Only the two supported power states take (R102). -/
theorem writeReg_d3hot (s : State) (v : Word) : writeReg s .config 0x44 v =
    s.modHif fun h =>
      { h with d3hot := if v.toNat % 4 = 3 then true else if v.toNat % 4 = 0 then false else h.d3hot } := rfl

/-- The flags of the die temperature are cleared by ones, but for those that hardware sets in the same cycle (R9). -/
theorem writeReg_tmpFlags (s : State) (v : Word) : (writeReg s .mgmt 0xB50 v).tmp.flags =
    s.tmp.flags &&& ~~~((BitVec.ofNat 32 (clearable s 0xB50 v.toNat)).setWidth 4) := rfl

theorem writeReg_lowWater (s : State) (v : Word) : (writeReg s .mgmt 0xC04 v).cad.lowWater = v.toNat % 65536 := rfl

theorem writeReg_sup (s : State) (o : Nat) (v : Word) : writeReg s .sup o v = s := by
  simp [writeReg]

/-- A state after the peak register that a read names has been restarted (R449, R544). -/
def restartPeak (s : State) (p : Path) (o : Nat) : State :=
  if o = 0x2308 && (p == .bar0 || p == .mgmt) then s.modMot fun m => { m with busPeak := 0 }
  else if o = 0xB48 && (p == .bar0 || p == .mgmt) then s.modTmp fun t => { t with peak := -32768 }
  else s

theorem setCapture_state (s : State) (p : Path) (v : Option (Nat × Word)) : 
    ∃ g, setCapture s p v = s.modHif g := ⟨_, rfl⟩

/-- Beside the peak registers a read touches only the capture latches (R12). -/
theorem readReg_state (s : State) (p : Path) (o : Nat) : ∃ g, (readReg s p o).2 = (restartPeak s p o).modHif g := by
  unfold readReg
  dsimp only
  split
  · exact setCapture_state ..
  · split
    · split
      · exact setCapture_state ..
      · exact ⟨id, rfl⟩
    · exact ⟨id, rfl⟩

theorem readReg_out (s : State) (p : Path) (o : Nat) : (readReg s p o).2.out = s.out :=
  same_out (readReg_view s p o (by decide) (by decide) (by decide))

theorem readOut_out (s : State) (p : Path) (o : Nat) :
    (readOut s p o).out = s.out ++ [.readWord p (readReg s p o).1] := by
  unfold readOut
  rw [emit_out_of_unbanked _ _ rfl, readReg_out]

/-- A read of the bus peak restarts it, whatever the capture latch holds (R449). -/
theorem readOut_busPeak (s : State) : (readOut s .mgmt 0x2308).mot.busPeak = 0 := by
  obtain ⟨g, hg⟩ := readReg_state s .mgmt 0x2308
  rw [readOut, emit_mot, hg]
  rfl

/-- A read of the peak temperature restarts it, whatever the capture latch holds (R544). -/
theorem readOut_tmpPeak (s : State) : (readOut s .mgmt 0xB48).tmp.peak = -32768 := by
  obtain ⟨g, hg⟩ := readReg_state s .mgmt 0xB48
  rw [readOut, emit_tmp, hg]
  rfl

/-- Settles O31: each access by what it leaves, with the link's own state, which PCIe wakes, set apart. -/
theorem registerCommandsComplete : Obligations.RegisterCommandsComplete := by
  intro s hup
  obtain ⟨l, hwake⟩ := linkWake_eq s
  have hpcie (f : State → State) : overPcie s f = f (s.modHif fun h => { h with link := l }) := by
    rw [overPcie_eq f hup, hwake]
  refine ⟨fun v => ?_, fun off len g hc => ?_, fun off len ho => ?_, fun off b => ?_, fun v => ?_, fun v => ?_,
    fun v => ?_, fun v => ?_, fun o v hm => ?_, fun o => ?_, ?_, ?_⟩
  · refine ⟨_, rfl, ?_⟩
    rw [hpcie]
    exact ⟨rfl, rfl, rfl, rfl⟩
  · refine ⟨_, rfl, ?_⟩
    rw [hpcie]
    exact bar2Read_closed (bar2Open_of_link s l ▸ hc) ..
  · refine ⟨_, rfl, ?_⟩
    rw [hpcie]
    exact bar2Bytes_of_link s l off.toNat len ▸ bar2Read_open (bar2Open_of_link s l ▸ ho) off.toNat len
  · refine ⟨_, rfl, ?_⟩
    rw [hpcie]
    simp
  · refine ⟨_, rfl, ?_⟩
    rw [overPath, hpcie, show ((0x10 : BitVec 16).toNat) = 0x10 from rfl, writeReg_bar2Sel]
    exact ⟨rfl, rfl⟩
  · refine ⟨_, rfl, ?_⟩
    rw [overPath_mgmt_eq _ hup]
    exact writeReg_tmpFlags s v
  · refine ⟨_, rfl, ?_⟩
    rw [overPath, hpcie, show ((0x44 : BitVec 16).toNat) = 0x44 from rfl, writeReg_d3hot]
    exact ⟨rfl, rfl⟩
  · refine ⟨_, rfl, ?_⟩
    rw [overPath_mgmt_eq _ hup]
    exact writeReg_lowWater s v
  · refine congrArg Host.Outcome.next ?_
    rw [overPath, whenUp_eq _ hm, writeReg_sup]
  · refine ⟨_, rfl, ?_⟩
    rw [overPath_mgmt_eq _ hup]
    exact readOut_out ..
  · refine ⟨_, rfl, ?_⟩
    rw [overPath_mgmt_eq _ hup]
    exact ⟨readOut_busPeak s, readOut_out ..⟩
  · refine ⟨_, rfl, ?_⟩
    rw [overPath_mgmt_eq _ hup]
    exact ⟨readOut_tmpPeak s, readOut_out ..⟩

/-! ## A reply touches no list of the Kettle -/

theorem setDup_ktl (s : State) (src : Source) (e : Option DupEntry) : ∃ a b c,
    (setDup s src e).ktl = { s.ktl with dupRing := a, dupMgmt := b, dupSup := c } := by
  cases src <;> exact ⟨_, _, _, rfl⟩

theorem storeReply_ktl (s : State) (c : Cmd) (r : Reply) : ∃ a b d,
    (storeReply s c r).ktl = { s.ktl with dupRing := a, dupMgmt := b, dupSup := d } := by
  unfold storeReply
  split
  · split
    · exact setDup_ktl ..
    · exact ⟨_, _, _, rfl⟩
  · exact ⟨_, _, _, rfl⟩

@[simp] theorem post_ktl (s : State) (c : Cmd) (r : Reply) : (post s c r).ktl = s.ktl :=
  same_ktl (post_view s c r (by decide) (by decide) (by decide) (by decide))

/-- Of the Kettle, a delivery writes the duplicate stores alone (R161). -/
theorem deliver_ktl (s : State) (c : Cmd) (f : Fate) (r : Reply) : ∃ a b d,
    (deliver s c f r).ktl = { s.ktl with dupRing := a, dupMgmt := b, dupSup := d } := by
  cases f with
  | live => simpa [deliver] using storeReply_ktl s c r
  | stale => exact ⟨_, _, _, post_ktl s c r⟩
  | void => exact ⟨_, _, _, rfl⟩

@[simp] theorem deliver_intake (s : State) (c : Cmd) (f : Fate) (r : Reply) :
    (deliver s c f r).ktl.intake = s.ktl.intake := by
  obtain ⟨_, _, _, h⟩ := deliver_ktl s c f r
  rw [h]

@[simp] theorem deliver_fetching (s : State) (c : Cmd) (f : Fate) (r : Reply) :
    (deliver s c f r).ktl.fetching = s.ktl.fetching := by
  obtain ⟨_, _, _, h⟩ := deliver_ktl s c f r
  rw [h]

@[simp] theorem deliver_parked (s : State) (c : Cmd) (f : Fate) (r : Reply) :
    (deliver s c f r).ktl.parked = s.ktl.parked := by
  obtain ⟨_, _, _, h⟩ := deliver_ktl s c f r
  rw [h]

@[simp] theorem deliverLate_fetching (s : State) (c : Cmd) (f : Fate) (late : Bool) (op : Nat) (r : Reply) :
    (deliverLate s c f late op r).ktl.fetching = s.ktl.fetching := by
  unfold deliverLate
  split <;> simp

@[simp] theorem deliverLate_parked (s : State) (c : Cmd) (f : Fate) (late : Bool) (op : Nat) (r : Reply) :
    (deliverLate s c f late op r).ktl.parked = s.ktl.parked := by
  unfold deliverLate
  split <;> simp

/-! ## A failure reply at the management port -/

@[simp] theorem storeReply_mgt (s : State) (c : Cmd) (r : Reply) : (storeReply s c r).mgt = s.mgt :=
  same_mgt (storeReply_view s c r (by decide))

/-- A failure leaves at the management port unless the packet's timeout has passed (R124, R150). -/
theorem post_mgmt_replies {s : State} {c : Cmd} {r : Reply} (hsrc : c.src = .mgmt) (hsoft : r.status.soft = false)
    (hq : ∀ q, s.mgt.queue.find? (·.tag == r.tag) = some q → q.timed = false) :
    (post s c r).mgt.replies = s.mgt.replies ++ [r] := by
  simp only [post, hsrc, hsoft, replySpi, State.modSpi, State.modMgt_mgt]
  split
  · simp [hq _ ‹_›]
  · simp

theorem deliver_mgmt_replies {s : State} {c : Cmd} {f : Fate} {r : Reply} (hf : f ≠ .void) (hsrc : c.src = .mgmt)
    (hsoft : r.status.soft = false) (hq : ∀ q, s.mgt.queue.find? (·.tag == r.tag) = some q → q.timed = false) :
    (deliver s c f r).mgt.replies = s.mgt.replies ++ [r] := by
  cases f with
  | live => rw [deliver, post_mgmt_replies hsrc hsoft (by simpa using hq), storeReply_mgt]
  | stale => exact post_mgmt_replies hsrc hsoft hq
  | void => exact absurd rfl hf

/-! ## The start of a packet -/

/-- An empty intake has nothing to place. -/
theorem fillIntake_of_empty {s : State} (h : s.ktl.intake = []) : fillIntake s = s := by
  simp [fillIntake, h, iter]

/-- What an opcode's check 8 looks at is no part of the Kettle (R147). -/
theorem names_modKtl {op : Nat} {sp : OpSpec} (h : opSpecOf op = some sp) (s : State) (g : Kettle → Kettle) (c : Cmd) :
    sp.names (s.modKtl g) c = sp.names s c := by
  suffices hall : ∀ o ∈ opcodes, o.names (s.modKtl g) c = o.names s c from hall sp (List.mem_of_find?_eq_some h)
  simp only [opcodes, sheetOpcodes, engineOpcodes, systemOpcodes, List.forall_mem_append, List.forall_mem_cons,
    List.not_mem_nil, false_implies, implies_true, and_true]
  repeat' apply And.intro
  all_goals rfl

theorem fieldFault_modKtl {op : Nat} {sp : OpSpec} (h : opSpecOf op = some sp) (s : State) (g : Kettle → Kettle)
    (c : Cmd) : fieldFault sp c (s.modKtl g) = fieldFault sp c s := by
  simp only [fieldFault, names_modKtl h]

/-- A command that passes its checks and answers at once delivers its reply. -/
theorem runCommand_reply {sp : OpSpec} {c : Cmd} {f : Fate} {s t : State} {r : Res} (hff : fieldFault sp c s = none)
    (hr : sp.run c s = .reply t r) : runCommand sp c f false s = deliver t c f (r.reply c) := by
  simp [runCommand, hff, hr, deliverLate]

/-- The intake after its head has started: the state in which the started packet goes on. -/
def withoutIntake (s : State) : State := s.modKtl fun k => { k with intake := [] }

theorem startNext_single {s : State} {p : Packet} {sp : OpSpec} (reads : List Fetch) (hup : kettleUp s = true)
    (hsp : opSpecOf p.op.toNat = some sp) (hi : s.ktl.intake = [p]) (hp : p.place = .held)
    (hm : mayStart s p.cmd = true) : startNext s reads = fillIntake (proceed sp p reads (withoutIntake s)) := by
  unfold startNext
  rw [hi]
  simp [hup, hp, hm, hsp, withoutIntake]

theorem proceed_direct {sp : OpSpec} {p : Packet} (reads : List Fetch) {s : State} (hf : startFault sp s = none)
    (hd : p.cmd.indirect = false) :
    proceed sp p reads s = runCommand sp { p.cmd with reads := reads } p.fate false s := by
  simp [proceed, hf, hd]

theorem proceed_indirect {sp : OpSpec} {p : Packet} (reads : List Fetch) {s : State} (hf : startFault sp s = none)
    (hd : p.cmd.indirect = true) :
    proceed sp p reads s = s.modKtl fun k => { k with fetching := k.fetching ++ [p] } := by
  simp [proceed, hf, hd]

/-! ## The indirect block -/

theorem blockFetched_ok {s : State} {p : Packet} {sp : OpSpec} (l : List Byte) (reads : List Fetch)
    (hsp : opSpecOf p.op.toNat = some sp) (hs : s.ktl.fetching = [p]) :
    blockFetched s (.ok l) reads = runCommand sp { p.cmd with params := padTo p.blockLen l, reads := reads }
      p.fate p.late (s.modKtl fun k => { k with fetching := [] }) := by
  simp [blockFetched, hs, hsp]

/-- A read that fails ends the packet with a reply alone (R145). -/
theorem blockFetched_failed {s : State} {p : Packet} {r : Fetch} (reads : List Fetch) (hs : s.ktl.fetching = [p])
    (hr : ∀ l, r ≠ .ok l) : (blockFetched s r reads).ktl.fetching = [] ∧
      (blockFetched s r reads).ktl.parked = s.ktl.parked := by
  cases r with
  | ok l => exact absurd rfl (hr l)
  | unsupported => simp [blockFetched, hs]
  | abort => simp [blockFetched, hs]
  | poison => simp [blockFetched, hs]

/-! ## Deadlines -/

theorem expires_self {c : Cmd} (h : c.deadline ≠ 0) : expires c.src c.tag c = true := by
  simpa [expires] using h

/-- The deadline of the only packet of the intake. -/
theorem deadline_intake {s : State} {p : Packet} (hi : s.ktl.intake = [p]) (hd : p.cmd.deadline ≠ 0) :
    deadline s p.cmd.src p.cmd.tag = waitExpired s 0 p := by
  simp [deadline, hi, List.findIdx?_cons, expires_self hd]

/-- The deadline of the only packet that has started. -/
theorem deadline_parked {s : State} {q : Parked} (hi : s.ktl.intake = []) (hf : s.ktl.fetching = [])
    (hp : s.ktl.parked = [q]) (hd : q.cmd.deadline ≠ 0) :
    deadline s q.cmd.src q.cmd.tag = parkedExpired s 0 q := by
  simp [deadline, hi, hf, hp, List.findIdx?_cons, expires_self hd]

/-- The deadline acts unless the command completes in the same cycle (R14). -/
theorem execDeadline_parked {s : State} {q : Parked} (hup : kettleUp s = true) (hi : s.ktl.intake = [])
    (hf : s.ktl.fetching = []) (hp : s.ktl.parked = [q]) (hd : q.cmd.deadline ≠ 0)
    (hc : coming s (completes s q.cmd.src q.cmd.tag) = false) :
    exec (.packetDeadlineExpiry q.cmd.src q.cmd.tag) s = .next (parkedExpired s 0 q) :=
  congrArg Host.Outcome.next ((if_pos hup).trans ((giveWay_eq hc).trans (deadline_parked hi hf hp hd)))

/-- The only packet of the intake is answered TIMEOUT and leaves it (R163). -/
theorem waitExpired_single {s : State} {p : Packet} (hi : s.ktl.intake = [p]) (hp : p.place = .held) :
    waitExpired s 0 p = deliver (withoutIntake s) p.cmd p.fate ((fail .timeout 0x0B).reply p.cmd) := by
  have hs : (s.modKtl fun x => { x with intake := x.intake.eraseIdx 0 }) = withoutIntake s := by
    simp [withoutIntake, State.modKtl, hi]
  have hheld : (p.place == Place.verifying) = false := by rw [hp]; rfl
  unfold waitExpired
  simp only [hs, hheld]
  exact fillIntake_of_empty (deliver_intake ..)

/-- A parked command that has ended leaves its place (R157). -/
@[simp] theorem finishParked_parked (s : State) (k : Nat) (r : Reply) :
    (finishParked s k r).ktl.parked = s.ktl.parked.eraseIdx k := by
  unfold finishParked
  split
  · rw [List.eraseIdx_of_length_le (List.getElem?_eq_none_iff.mp ‹_›)]
  · simp only [deliver_parked]
    split <;> simp

@[simp] theorem withdraw_ktl (s : State) (op : Nat) (c : Cmd) : (withdraw s op c).ktl = s.ktl :=
  same_ktl (withdraw_view s op c (by decide) (by decide) (by decide))

@[simp] theorem codecExpired_ktl (s : State) (c : Cmd) : (codecExpired s c).1.ktl = s.ktl :=
  same_ktl (codecExpired_view s c (by decide) (by decide) (by decide) (by decide) (by decide) (by decide) (by decide))

/-- A run-to-end command goes on past its deadline (R165). -/
theorem parkedExpired_late {s : State} {q : Parked} (hp : s.ktl.parked = [q]) (hr : runToEnd q.op.toNat = true) :
    (parkedExpired s 0 q).ktl.parked = [{ q with late := true }] := by
  simp [parkedExpired, hr, hp, updAt]

/-- Any other command that waits for its hardware ends at its deadline (R164). -/
theorem parkedExpired_ends {s : State} {q : Parked} (k : Nat) (hr : runToEnd q.op.toNat = false)
    (hw : q.wait = .hardware) : (parkedExpired s k q).ktl.parked = s.ktl.parked.eraseIdx k := by
  simp only [parkedExpired, hr, hw]
  split
  · contradiction
  · split <;> simp

/-! ## Completions -/

/-- A command whose record is not awaited at its end completes with what the hardware answered (R157, R176). -/
theorem resumeParked_finishes {s t : State} {k : Nat} {d : Resume} {p : Parked} {r : Res}
    (hp : s.ktl.parked[k]? = some p) (hw : p.wait = .hardware) (hr : resumed s p.op.toNat p.cmd d = some (t, r))
    (hrec : recordsAtEnd p.op.toNat = false ∨ jnlOn t = false) :
    resumeParked s k d = finishParked t k (r.reply p.cmd) := by
  simp only [resumeParked, hp, hw, hr]
  by_cases hend : recordsAtEnd p.op.toNat = true
  · have hjnl : jnlOn t = false := hrec.resolve_left (by simp [hend])
    simp [hend, journaledEnd, hjnl]
  · simp [hend]

/-- Settles O38: the start, the block's read and the deadlines by their equations for a single packet, and the
completion by `resumeParked_finishes`. -/
theorem packetEventsComplete : Obligations.PacketEventsComplete := by
  refine ⟨fun s p sp reads hup hsp => ⟨fun hi hp hm hf => ?_, fun l hs => ?_, fun r hs hr => ?_,
      fun tag hi hp hsrc htag hd hv hc hq => ?_, fun q hi hf hp hd hc => ⟨fun hr => ?_, fun hr hw => ?_⟩⟩,
    fun s k d p t r hup hp hw hr ht => ⟨fun hrec => ?_, fun hrec => ?_⟩⟩
  · have hstart := startNext_single reads hup hsp hi hp hm
    have hf' : startFault sp (withoutIntake s) = none := hf
    refine ⟨fun hd => ⟨_, rfl, ?_⟩, fun hd t r hrun hff => ?_, fun hd => ⟨_, rfl, ?_⟩⟩
    · rw [hstart, proceed_direct reads hf' hd, withoutIntake]
    · have hff' := (fieldFault_modKtl hsp s (fun k => { k with intake := [] }) { p.cmd with reads := reads }).trans hff
      refine congrArg Host.Outcome.next ?_
      rw [hstart, proceed_direct reads hf' hd, withoutIntake, runCommand_reply hff' hrun]
      rfl
    · rw [hstart, proceed_indirect reads hf' hd, fillIntake_of_empty rfl]
      exact ⟨rfl, rfl⟩
  · exact ⟨_, congrArg Host.Outcome.next ((if_pos hup).trans (blockFetched_ok l reads hsp hs)), rfl⟩
  · exact ⟨_, congrArg Host.Outcome.next (if_pos hup), blockFetched_failed reads hs hr⟩
  · subst htag
    have hexec : exec (.packetDeadlineExpiry .mgmt p.cmd.tag) s = .next (waitExpired s 0 p) :=
      congrArg Host.Outcome.next ((if_pos hup).trans ((giveWay_eq hc).trans (hsrc ▸ deadline_intake hi hd)))
    rw [waitExpired_single hi hp] at hexec
    exact ⟨_, _, hexec, deliver_intake .., deliver_mgmt_replies hv hsrc rfl hq, rfl, rfl⟩
  · exact ⟨_, execDeadline_parked hup hi hf hp hd hc, parkedExpired_late hp hr⟩
  · refine ⟨_, execDeadline_parked hup hi hf hp hd hc, ?_⟩
    rw [parkedExpired_ends 0 hr hw, hp]
    rfl
  · exact congrArg Host.Outcome.next ((if_pos hup).trans (resumeParked_finishes hp hw hr hrec))
  · refine ⟨_, congrArg Host.Outcome.next ((if_pos hup).trans (resumeParked_finishes hp hw hr (.inl hrec))), ?_⟩
    refine ⟨by rw [finishParked_parked, ht], same_hdp ?_, same_btu ?_, same_cdc ?_, same_led ?_⟩ <;>
      exact finishParked_view t k _ (by decide) (by decide) (by decide) (by decide) (by decide) (by decide)

/-! ## Steps that change one station -/

/-- As far as the stations go, t is s with g done to station k. -/
def StationMod (s t : State) (k : Fin 6) (g : Station → Station) : Prop := t.btu = updF s.btu k g

section
variable {s t u : State} {k : Fin 6} {f g : Station → Station}

theorem StationMod.get (h : StationMod s t k g) : t.btu[k] = g s.btu[k] := by
  rw [StationMod] at h
  rw [h, updF_get_same]

theorem StationMod.other (h : StationMod s t k g) {j : Fin 6} (hj : j ≠ k) : t.btu[j] = s.btu[j] := by
  rw [StationMod] at h
  rw [h, updF_get_other _ _ _ _ hj]

theorem StationMod.trans (h : StationMod s t k f) (h' : StationMod t u k g) : StationMod s u k (g ∘ f) := by
  rw [StationMod] at *
  simp [h', h, updF, Vector.set_set]

/-- What follows and leaves the stations alone changes nothing of it. -/
theorem StationMod.then_same (h : StationMod s t k g) (h' : u.btu = t.btu) : StationMod s u k g := h'.trans h

/-- Where the stations stay, so does one that g leaves as it is. -/
theorem stationMod_of_same (h : t.btu = s.btu) (hg : g s.btu[k] = s.btu[k]) : StationMod s t k g := by
  have hg' : g s.btu[k.1] = s.btu[k.1] := hg
  rw [StationMod, h, updF, hg', Vector.set_getElem_self]

theorem stationMod_modBtu (s : State) (k : Fin 6) (g : Station → Station) : StationMod s (s.modBtu k g) k g := rfl

end

@[simp] theorem spoilStation_btu (s : State) (k : Nat) (r : Spoil) : (spoilStation s k r).btu = s.btu :=
  same_btu (spoilStation_view s k r (by decide))

@[simp] theorem exposeFacet_btu (s : State) (k : Fin 6) (fresh : Bool) : (exposeFacet s k fresh).btu = s.btu :=
  same_btu (exposeFacet_view s k fresh (by decide))

/-! ## What the shared operations do to their station -/

/-- The forced-on beams of a station. -/
def Station.forcing (f : BitVec 16) (x : Station) : Station := { x with forced := f }

/-- The reading of a facet that a report delays. -/
def Station.reading (d : Option Bool) (x : Station) : Station := { x with readDue := d }

/-- The drive levels of a station's beams. -/
def Station.levels (a : Vector Nat 16) (x : Station) : Station := { x with apcLevel := a }

theorem lightBeams_station (s : State) (k : Fin 6) : ∃ f, StationMod s (lightBeams s k) k (Station.forcing f) := by
  refine ⟨forcedBeams s k, ?_⟩
  unfold lightBeams
  dsimp only
  split
  · rename_i h
    exact stationMod_of_same rfl (by rw [h]; rfl)
  · rfl

theorem readFacet_station (s : State) (k : Fin 6) (fresh : Bool) :
    ∃ d, StationMod s (readFacet s k fresh) k (Station.reading d) := by
  unfold readFacet
  split
  · exact ⟨_, rfl⟩
  · exact ⟨s.btu[k].readDue, stationMod_of_same (exposeFacet_btu ..) rfl⟩

theorem sendLevel_station (s : State) (k : Fin 6) (beam : Fin 16) (level : Nat) :
    ∃ a, StationMod s (sendLevel s k beam level) k (Station.levels a) := by
  exact ⟨s.btu[k].apcLevel.set beam.1 level beam.2, (stationMod_modBtu s k _).then_same (emit_btu ..)⟩

theorem sendLevels_station (l : List (Fin 16)) (s : State) (k : Fin 6) (level : State → Nat) :
    ∃ a, StationMod s (l.foldl (fun s b => sendLevel s k b (level s)) s) k (Station.levels a) := by
  induction l generalizing s with
  | nil => exact ⟨s.btu[k].apcLevel, stationMod_of_same rfl rfl⟩
  | cons b l ih =>
    obtain ⟨_, h⟩ := sendLevel_station s k b (level s)
    obtain ⟨a, h'⟩ := ih (sendLevel s k b (level s))
    exact ⟨a, h.trans h'⟩

/-- A station as it enters SEARCH (R312). -/
def Station.searching (x : Station) : Station :=
  { x with
    lock := .search, missRun := 0, goodRun := 0, badRun := 0, periods := [], identScans := [], identRounds := 0 }

theorem enterSearch_station (s : State) (k : Fin 6) :
    ∃ a, StationMod s (enterSearch s k) k (Station.levels a ∘ Station.searching) := by
  obtain ⟨a, h⟩ := sendLevels_station (List.finRange 16) ((noTrim s k).modBtu k Station.searching) k
    fun s => stLevelInit (stationBody s k.1)
  have hsearch : StationMod s ((noTrim s k).modBtu k Station.searching) k Station.searching := rfl
  exact ⟨a, hsearch.trans h⟩

/-- The lock is lost: the station blanks and searches (R295). -/
theorem bdLost_station (s : State) (k : Fin 6) :
    ∃ a, StationMod s (bdLost s k) k fun x => ({ x with blanked := true }.searching).levels a := by
  obtain ⟨a, h⟩ := enterSearch_station (s.modBtu k fun x => { x with blanked := true }) k
  exact ⟨a, ((stationMod_modBtu s k fun x => { x with blanked := true }).trans h).then_same (by simp [bdLost])⟩

/-- A station that is off (R312). -/
def Station.turnedOff (x : Station) : Station :=
  { x with
    lock := .off, lden := false, facets := 0, sigOk := false, goodRun := 0, badRun := 0
    periods := [], identScans := [], identRounds := 0, missRun := 0, forced := 0, bdsAt := none, bdeAt := none
    ldcLate := [] }

theorem stationOff_station (s : State) (k : Fin 6) (withSynth : Bool) :
    StationMod s (stationOff s k withSynth) k Station.turnedOff := by
  cases withSynth <;> rfl

/-- With its synthesizer left as it is, only the trim goes (R79). -/
theorem stationOff_px (s : State) (k : Fin 6) :
    (stationOff s k false).clk.px[k] = { s.clk.px[k] with trim := 0, trimFacet := 0 } :=
  updF_get_same s.clk.px k _

theorem interlock_station (s : State) (k : Fin 6) (cond : Nat) :
    StationMod s (interlock s k cond) k fun x => { x.turnedOff with flags := x.flags ||| 0x04 } :=
  ((stationOff_station s k true).trans (stationMod_modBtu _ k fun x => { x with flags := x.flags ||| 0x04 })).then_same
    (by simp [interlock, State.stick])

/-! ## Missed edges (R295) -/

theorem interlockFirst_eq {s : State} {k : Fin 6} (h : coming s (· == .laserInterlock k) = false) :
    interlockFirst s k = s := by
  simp [interlockFirst, h]

/-- A station with a miss noted. -/
def Station.missed (bde : Bool) (x : Station) : Station :=
  { x with flags := x.flags ||| (if bde then 0x02 else 0x01), bdMisses := inc32 x.bdMisses }

theorem bdMiss_station (s : State) (k : Fin 6) (bde : Bool) : StationMod s (bdMiss s k bde) k (Station.missed bde) :=
  (stationMod_modBtu s k (Station.missed bde)).then_same (raise_btu ..)

/-- Pending tap tables touch nothing but the taps (R304). -/
theorem newTaps_taps (x : Station) (now : Nat) : ∃ a b, x.newTaps now = { x with taps := a, tapsPending := b } := by
  unfold Station.newTaps
  split <;> exact ⟨_, _, rfl⟩

/-- A station after a synthetic BDS. -/
def Station.synthetic (now : Nat) (x : Station) : Station :=
  { (x.newTaps now).nextFacet with
    missRun := x.missRun + 1, bdsAt := x.bdsAt.map (· + meanFacet x / 5000), bdeAt := none }

/-- A synthetic edge counts the facet and the run of misses, and nothing else of what is reported. -/
theorem synthetic_counts (x : Station) (now : Nat) :
    (x.synthetic now).lock = x.lock ∧ (x.synthetic now).missRun = x.missRun + 1 ∧
    (x.synthetic now).bdMisses = x.bdMisses ∧ (x.synthetic now).facetCount = x.facetCount + 1 ∧
    (x.synthetic now).flags = x.flags := by
  obtain ⟨_, _, h⟩ := newTaps_taps x now
  simp only [Station.synthetic, h, Station.nextFacet, and_self]

/-- The state after a synthetic BDS of station k. -/
def afterMiss (s : State) (k : Fin 6) : State := (bdMiss s k false).modBtu k (Station.synthetic s.now)

theorem afterMiss_station (s : State) (k : Fin 6) :
    StationMod s (afterMiss s k) k (Station.synthetic s.now ∘ Station.missed false) :=
  (bdMiss_station s k false).trans (stationMod_modBtu ..)

theorem afterMiss_missRun (s : State) (k : Fin 6) : (afterMiss s k).btu[k].missRun = s.btu[k].missRun + 1 := by
  rw [(afterMiss_station s k).get]
  exact (synthetic_counts (s.btu[k].missed false) s.now).2.1

/-- A BDS edge of station k. -/
def isBdsEdge (k : Fin 6) (c : Instr) : Bool := match c with | .bdsEdge j _ => j == k | _ => false

/-- A BDE edge of station k. -/
def isBdeEdge (k : Fin 6) (c : Instr) : Bool := match c with | .bdeEdge j _ _ => j == k | _ => false

theorem bdsMissed_eq {s : State} {k : Fin 6} (hscan : s.btu[k].lock.scanning = true)
    (hedge : s.btu[k].edgeAt ≠ some s.now) (hc : coming s (isBdsEdge k) = false) :
    bdsMissed s k = if 2 ≤ (afterMiss s k).btu[k].missRun then bdLost (exposeFacet (afterMiss s k) k false) k
      else readFacet (afterMiss s k) k true := by
  unfold bdsMissed
  rw [if_neg (by rw [hscan]; simpa using hedge)]
  exact giveWay_eq hc

/-- The first miss in a row: the synthetic facet is read. -/
theorem bdsMissed_first {s : State} {k : Fin 6} (hscan : s.btu[k].lock.scanning = true)
    (hedge : s.btu[k].edgeAt ≠ some s.now) (hc : coming s (isBdsEdge k) = false) (hm : s.btu[k].missRun = 0) :
    bdsMissed s k = readFacet (afterMiss s k) k true := by
  rw [bdsMissed_eq hscan hedge hc, afterMiss_missRun, hm]
  rfl

/-- The second miss in a row ends the lock. -/
theorem bdsMissed_second {s : State} {k : Fin 6} (hscan : s.btu[k].lock.scanning = true)
    (hedge : s.btu[k].edgeAt ≠ some s.now) (hc : coming s (isBdsEdge k) = false) (hm : s.btu[k].missRun = 1) :
    bdsMissed s k = bdLost (exposeFacet (afterMiss s k) k false) k := by
  rw [bdsMissed_eq hscan hedge hc, afterMiss_missRun, hm]
  rfl

/-- A missed BDE counts, and the round of IDENT is measured again. -/
theorem bdeMissed_station {s : State} {k : Fin 6} (hscan : s.btu[k].lock.scanning = true)
    (hedge : s.btu[k].bdeAt ≠ some s.now) (hc : coming s (isBdeEdge k) = false) :
    StationMod s (bdeMissed s k) k fun x => { x.missed true with identScans := [], calScans := [] } := by
  have heq : bdeMissed s k = (bdMiss s k true).modBtu k fun x => { x with identScans := [], calScans := [] } := by
    unfold bdeMissed
    rw [if_neg (by rw [hscan]; simpa using hedge)]
    exact giveWay_eq hc
  rw [heq]
  exact (bdMiss_station s k true).trans (stationMod_modBtu ..)

/-! ## Time-outs and the interlock (R311, R312) -/

/-- A BDS edge of station k whose period fits the polygon's speed. -/
def isFittingEdge (s : State) (k : Fin 6) (c : Instr) : Bool :=
  match c with | .bdsEdge j p => j == k && periodFits s k p | _ => false

theorem spinExpires_eq {s : State} {k : Fin 6} (hl : s.btu[k].lock = .spin)
    (hc : coming s (· == .atSpeedDwell (Fin.ofNat 10 k.1)) = false) :
    spinExpires s k = raise (stationOff s k false) (0x63 + 8 * k.1) 0x01 := by
  unfold spinExpires
  rw [if_neg (by rw [hl]; decide)]
  exact giveWay_eq hc

theorem searchExpires_eq {s : State} {k : Fin 6} (hl : s.btu[k].lock = .search)
    (hc : coming s (isFittingEdge s k) = false) : searchExpires s k = beamRaise (stationOff s k false) k 2 := by
  unfold searchExpires
  rw [if_neg (by rw [hl]; decide)]
  exact giveWay_eq hc

/-- What a time-out leaves of its station and synthesizer, whatever it raises. -/
theorem stationOff_raise (s : State) (k : Fin 6) (src detail : Nat) :
    (raise (stationOff s k false) src detail).btu[k].lock = .off ∧
    (raise (stationOff s k false) src detail).btu[k].lden = false ∧
    (raise (stationOff s k false) src detail).clk.px[k] = { s.clk.px[k] with trim := 0, trimFacet := 0 } := by
  rw [raise_btu, raise_clk, (stationOff_station s k false).get]
  exact ⟨rfl, rfl, stationOff_px s k⟩

theorem laserInterlock_eq {s : State} {k : Fin 6} {cond : Nat} (hl : s.btu[k].lden = true)
    (hc : failedCondition s k = some cond) : laserInterlock s k = interlock s k cond := by
  rw [laserInterlock, if_neg (by rw [hl]; decide), hc]

/-- Settles O46: each event by its equation, and the station that it leaves by the `StationMod` of what it does. -/
theorem beamTimeoutsComplete : Obligations.BeamTimeoutsComplete := by
  intro s k hup
  refine ⟨fun hscan hedge hc hi hm => ?_, fun hscan hedge hc hi hm => ?_, fun hscan hedge hc => ?_, fun hl hc => ?_,
    fun hl hi hc => ?_, fun hl hf => ?_⟩
  · refine ⟨_, rfl, ?_⟩
    rw [whenUp_eq _ hup, interlockFirst_eq hi, bdsMissed_first hscan hedge hc hm]
    obtain ⟨_, hread⟩ := readFacet_station (afterMiss s k) k true
    obtain ⟨_, hlight⟩ := lightBeams_station (readFacet (afterMiss s k) k true) k
    obtain ⟨hlock, hrun, hmisses, hcount, hflags⟩ := synthetic_counts (s.btu[k].missed false) s.now
    rw [(((afterMiss_station s k).trans hread).trans hlight).get]
    exact ⟨hlock, hrun.trans (congrArg (· + 1) hm), hmisses, hcount, hflags⟩
  · refine ⟨_, rfl, ?_⟩
    rw [whenUp_eq _ hup, interlockFirst_eq hi, bdsMissed_second hscan hedge hc hm]
    have hmiss := (afterMiss_station s k).then_same (exposeFacet_btu (afterMiss s k) k false)
    obtain ⟨_, hlost⟩ := bdLost_station (exposeFacet (afterMiss s k) k false) k
    obtain ⟨_, hlight⟩ := lightBeams_station (bdLost (exposeFacet (afterMiss s k) k false) k) k
    have hall := (hmiss.trans hlost).trans hlight
    rw [hall.get]
    exact ⟨rfl, rfl, fun j hj => hall.other hj⟩
  · refine ⟨_, rfl, ?_⟩
    rw [whenUp_eq _ hup, (bdeMissed_station hscan hedge hc).get]
    exact ⟨rfl, rfl, rfl, rfl⟩
  · refine ⟨_, rfl, ?_⟩
    rw [whenUp_eq _ hup, spinExpires_eq hl hc]
    exact stationOff_raise ..
  · refine ⟨_, rfl, ?_⟩
    rw [whenUp_eq _ hup, interlockFirst_eq hi, searchExpires_eq hl hc]
    exact stationOff_raise ..
  · obtain ⟨cond, hcond⟩ := Option.isSome_iff_exists.mp hf
    refine ⟨_, rfl, ?_⟩
    rw [whenUp_eq _ hup, laserInterlock_eq hl hcond, (interlock_station s k cond).get]
    exact ⟨rfl, rfl, rfl, fun j hj => (interlock_station s k cond).other hj⟩

end Sys2Proof.Machine
end

section
/-!
Proof of the statement about resets and the release of reset (O33).
-/

namespace Sys2Proof.Machine
open Sys2Proof Sys2Proof.Safety

/-! ## Reset (R41, R66) -/

/-- A parked command that burns fuses: FUSE_BURN, FUSE_LOCK_REGION or PROVISION (R66). -/
def Parked.burns (p : Parked) : Bool := p.op == 0x6A || p.op == 0x6B || p.op == 0x7F

/-- The state after the burns under way have been cut off, each with the bits that it has burned (R66). -/
def cutBurns (s : State) : State :=
  s.ktl.parked.foldl (fun t p => if p.burns then interruptParked t p else t) s

/-- Parked commands of which none burns leave a state as it is. -/
theorem foldl_burns_of_none {ps : List Parked} (s : State) (h : ∀ p ∈ ps, p.burns = false) :
    ps.foldl (fun t p => if p.burns then interruptParked t p else t) s = s := by
  induction ps with
  | nil => rfl
  | cons p ps ih =>
    rw [List.foldl_cons, h p List.mem_cons_self, if_neg Bool.false_ne_true]
    exact ih fun q hq => h q (List.mem_cons_of_mem _ hq)

/-- With no burn under way a reset cuts nothing off. -/
theorem cutBurns_of_none {s : State} (h : ∀ p ∈ s.ktl.parked, p.burns = false) : cutBurns s = s :=
  foldl_burns_of_none s h

theorem Parked.burns_eq_false {p : Parked} (h : p.op ≠ 0x6A ∧ p.op ≠ 0x6B ∧ p.op ≠ 0x7F) : p.burns = false := by
  simpa [Parked.burns, and_assoc] using h

@[simp] theorem cutBurns_view {vp : Part} (s : State) (h_free : vp ≠ .free) (h_cdc : vp ≠ .cdc) (h_btu : vp ≠ .btu)
    (h_hdp : vp ≠ .hdp) (h_drc : vp ≠ .drc) (h_fus : vp ≠ .fus) : view vp (cutBurns s) = view vp s :=
  view_foldl _ _ s fun u p => by simp [h_free, h_cdc, h_btu, h_hdp, h_drc, h_fus]

@[simp] theorem cutBurns_sys (s : State) : (cutBurns s).sys = s.sys :=
  same_sys (cutBurns_view s (by decide) (by decide) (by decide) (by decide) (by decide) (by decide))

@[simp] theorem cutBurns_pins (s : State) : (cutBurns s).pins = s.pins :=
  same_pins (cutBurns_view s (by decide) (by decide) (by decide) (by decide) (by decide) (by decide))

@[simp] theorem cutBurns_clk (s : State) : (cutBurns s).clk = s.clk :=
  same_clk (cutBurns_view s (by decide) (by decide) (by decide) (by decide) (by decide) (by decide))

@[simp] theorem cutBurns_jnl (s : State) : (cutBurns s).jnl = s.jnl :=
  same_jnl (cutBurns_view s (by decide) (by decide) (by decide) (by decide) (by decide) (by decide))

/-- A reset of a device that is out of RESET cuts off the burns, then puts every register at its reset value. -/
theorem enterReset_eq {s : State} (h : s.sys.mode ≠ .reset) :
    enterReset s = (resetState (cutBurns s) (cutProgram (cutBurns s))).drawn := by
  unfold enterReset
  rw [if_neg (by simpa using h)]
  rfl

/-- Both resets end in the RESET state but for the reference mode and the test port, which power-on reset adds (R71). -/
theorem reset_outcome {i : Instr} {s : State} (hi : i = .rstNAssert ∨ ∃ xo, i = .powerOnReset xo) :
    ∃ cmos tap tdo dead, exec i s = .next (((enterReset s).modClk fun c => { c with cmos := cmos }).modPins fun p =>
      { p with tap := tap, tdo := tdo, tapDead := dead }) := by
  rcases hi with rfl | ⟨xo, rfl⟩
  · exact ⟨(enterReset s).clk.cmos, (enterReset s).pins.tap, (enterReset s).pins.tdo, (enterReset s).pins.tapDead, rfl⟩
  · exact ⟨_, _, _, _, rfl⟩

/-- A strap that is still reads as it stands (R548). -/
theorem strap_of_still {s : State} {x : StrapLevel} (h : x ≠ .changing) : strap s x = (x == .high, s) := by
  cases x with
  | low => rfl
  | high => rfl
  | changing => exact absurd rfl h

/-- Settles O33: a reset is the cut of the burns and then `resetState`, and its release samples straps that are still. -/
theorem resetCompletes : Obligations.ResetCompletes := by
  intro s
  refine ⟨fun i hi hm => ?_, fun xo => ⟨_, rfl, rfl, rfl, rfl⟩, fun a b hm ha hb => ?_⟩
  · obtain ⟨cmos, tap, tdo, dead, ht⟩ := reset_outcome (s := s) hi
    refine ⟨_, ht, ?_⟩
    rw [enterReset_eq hm]
    refine ⟨by simp [resetState], rfl, rfl, rfl, rfl, rfl, rfl, rfl, rfl, rfl, rfl, rfl, rfl, rfl, rfl,
      by simp [resetState], by simp [resetState], by simp [resetState], fun hp => ?_⟩
    rw [cutBurns_of_none fun p h => Parked.burns_eq_false (hp p h)]
    rfl
  · refine ⟨release s a b, congrArg Host.Outcome.next (by simp [hm]), ?_⟩
    simp only [release, strap_of_still ha, strap_of_still hb]
    exact ⟨rfl, rfl, trivial, rfl, rfl, rfl, rfl, rfl, rfl⟩

end Sys2Proof.Machine
end

section
/-!
Proof of the statement about the boot stages (O34): what an entry to HALT does to the mode registers, what boot training
leaves in the channels, and what the journal scan erases.
-/

namespace Sys2Proof.Machine
open Sys2Proof Sys2Proof.Safety

/-! ## Entry to HALT (R43, R47) -/

@[simp] theorem raise_sys (s : State) (src detail : Nat) : (raise s src detail).sys = s.sys :=
  same_sys (raise_view s src detail (by decide))

/-- Of the mode registers a mode change writes the mode and DEPTH, which is 0 outside STANDBY. -/
theorem setMode_sys (s : State) (m : Mode) :
    (setMode s m).sys = { s.sys with mode := m, depth := if m == .standby then s.sys.depth else 0 } := by
  unfold setMode
  dsimp only
  split <;> simp

theorem enterMode_sys (s : State) (m : Mode) :
    (enterMode s m).sys = { s.sys with mode := m, depth := if m == .standby then s.sys.depth else 0 } := by
  have hset : (hvUpdate (setMode s m)).sys = (setMode s m).sys := same_sys (hvUpdate_view _ (by decide))
  unfold enterMode
  dsimp only
  split
  · rw [same_sys (endInjection_view _ (by decide)), hset, setMode_sys]
  · rw [hset, setMode_sys]

/-- Of the mode registers an entry to HALT, outside STANDBY, writes the mode and ends what STANDBY has begun: outputs, sheets,
attempts and ingest are other parts. -/
theorem haltWith_sys {s : State} {r : Spoil} (hh : s.sys.mode ≠ .halt) (hs : s.sys.mode ≠ .standby) :
    (haltWith s r).sys = { s.sys with mode := .halt, depth := 0, wake := none, depthTarget := 0 } := by
  have hstandby : haltFromStandby s = s := by simp [haltFromStandby, hs]
  unfold haltWith
  rw [if_neg (by simpa using hh), hstandby,
    same_sys (stopIngest_view _ (by decide) (by decide) (by decide) (by decide) (by decide)),
    same_sys (abandonAll_view _ (by decide) (by decide) (by decide)),
    same_sys (spoilCommitted_view _ _ (by decide) (by decide) (by decide) (by decide) (by decide) (by decide) (by decide)
      (by decide) (by decide)), enterMode_sys, State.modSys_sys,
    same_sys (haltOutputs_view s (by decide) (by decide) (by decide) (by decide) (by decide) (by decide))]
  rfl

/-- A boot that fails ends in HALT until reset, with its source as the cause (R41, R43, R57, R58). -/
theorem haltForGood_boot {s : State} (h : s.sys.mode = .boot) (src : Nat) :
    (haltForGood s src).sys = { s.sys with
      mode := .halt, depth := 0, wake := none, depthTarget := 0, lastCause := BitVec.ofNat 8 src, lcSrc := true
      haltUntilReset := true } := by
  have hmode : (causeBy s src).sys.mode = .boot := h
  have hentry : haltEntry s src = haltWith (causeBy s src) .halt := by simp [haltEntry, h]
  rw [haltForGood, hentry, State.modSys_sys, haltWith_sys (by simp [hmode]) (by simp [hmode])]
  rfl

@[simp] theorem haltForGood_ktl (s : State) (src : Nat) : (haltForGood s src).ktl = s.ktl :=
  same_ktl (haltForGood_view s src (by decide) (by decide) (by decide) (by decide) (by decide) (by decide) (by decide)
    (by decide) (by decide) (by decide) (by decide) (by decide) (by decide) (by decide) (by decide) (by decide)
    (by decide) (by decide))

theorem kettleDead_boot {s : State} (h : s.sys.mode = .boot) (detail : Nat) :
    (kettleDead s detail).sys.mode = .halt ∧ (kettleDead s detail).sys.haltUntilReset = true ∧
      (kettleDead s detail).ktl.dead = true := by
  unfold kettleDead
  rw [haltForGood_boot (by simpa using h), haltForGood_ktl]
  exact ⟨rfl, rfl, rfl⟩

/-! ## The stages of a boot -/

theorem atStage_eq {s : State} {k : Nat} (hm : s.sys.mode = .boot) (hk : s.sys.bootStage = k) : atStage s k = true := by
  simp [atStage, hm, hk]

theorem toStage_sys (s : State) (k : Nat) : (toStage s k).sys = { s.sys with bootStage := k } := rfl
theorem toStage_jnl (s : State) (k : Nat) : (toStage s k).jnl = s.jnl := rfl

/-- The boot sense burns no fuse (R537). -/
theorem senseFuses_fus (s : State) (weak : List (Nat × BitVec 72)) :
    (senseFuses s weak).fus.sensed = true ∧ (senseFuses s weak).fus.rows = s.fus.rows := by
  unfold senseFuses
  dsimp only
  rw [same_fus (senseRaises_view _ _ (by decide))]
  exact ⟨rfl, rfl⟩

/-! ## Boot training (R58, R475, R481) -/

@[simp] theorem bootFailed_sys (s : State) (c : Nat) (l : Level) : (bootFailed s c l).sys = s.sys :=
  same_sys (bootFailed_view s c l (by decide) (by decide))

@[simp] theorem bootFailed_drc (s : State) (c : Nat) (l : Level) : (bootFailed s c l).drc = s.drc :=
  same_drc (bootFailed_view s c l (by decide) (by decide))

@[simp] theorem bootFailed_fus (s : State) (c : Nat) (l : Level) : (bootFailed s c l).fus = s.fus :=
  same_fus (bootFailed_view s c l (by decide) (by decide))

@[simp] theorem ungateLanes_drc (s : State) : (ungateLanes s).drc = s.drc := same_drc (ungateLanes_view s (by decide))

/-- Mc of two channels with the same memory, and below of one channel alone (R475). -/
theorem mappedMib_both (s : State) (g : Geometry) :
    mappedMib s [some g, some g] = min (1024 * g.gib) (512 * dramMax s) := by
  simp [mappedMib, Nat.min_comm]

theorem mappedMib_first (s : State) (g : Geometry) :
    mappedMib s [some g, none] = min (1024 * g.gib) (512 * dramMax s) := by
  simp [mappedMib, Nat.min_comm]

theorem dramMax_of_fus {s t : State} (h : t.fus = s.fus) : dramMax t = dramMax s := by simp [dramMax, h]

/-- A state with both channels as boot training leaves them (R481, R482). -/
def trainedBoth (s : State) (a b : Option Geometry) : State := (s.modChan 0 (trained a)).modChan 1 (trained b)

@[simp] theorem trainedBoth_ch0 (s : State) (a b : Option Geometry) :
    (trainedBoth s a b).drc.ch[(0 : Fin 2)] = trained a s.drc.ch[(0 : Fin 2)] := by
  rw [trainedBoth, State.modChan_drc, updF_get_other _ _ _ _ (by decide), State.modChan_drc, updF_get_same]

@[simp] theorem trainedBoth_ch1 (s : State) (a b : Option Geometry) :
    (trainedBoth s a b).drc.ch[(1 : Fin 2)] = trained b s.drc.ch[(1 : Fin 2)] := by
  rw [trainedBoth, State.modChan_drc, updF_get_same, State.modChan_drc, updF_get_other _ _ _ _ (by decide)]

@[simp] theorem mapDram_ch (s : State) (gs : List (Option Geometry)) : (mapDram s gs).drc.ch = s.drc.ch := rfl

@[simp] theorem mapDram_mapped (s : State) (gs : List (Option Geometry)) : (mapDram s gs).drc.mapped = mappedMib s gs :=
  rfl

/-- Stage 4 begins once the channels that answer serve (R58, R479). -/
def beginStage4 (s : State) (gs : List (Option Geometry)) : State := toStage (ungateLanes (mapDram s gs)) 4

@[simp] theorem beginStage4_stage (s : State) (gs : List (Option Geometry)) : (beginStage4 s gs).sys.bootStage = 4 := rfl

@[simp] theorem beginStage4_drc (s : State) (gs : List (Option Geometry)) :
    (beginStage4 s gs).drc = (mapDram s gs).drc := by
  simp [beginStage4, toStage]

theorem dramBootTraining_both {s : State} (h : atStage s 3 = true) (g0 g1 : Geometry) :
    exec (.dramBootTraining (some g0) (some g1)) s =
      .next (beginStage4 (trainedBoth s (some g0) (some g1)) [some g0, some g1]) :=
  congrArg Host.Outcome.next (by rw [h]; rfl)

theorem dramBootTraining_first {s : State} (h : atStage s 3 = true) (g : Geometry) :
    exec (.dramBootTraining (some g) none) s =
      .next (beginStage4 (bootFailed (trainedBoth s (some g) none) 1 .log) [some g, none]) :=
  congrArg Host.Outcome.next (by rw [h]; rfl)

theorem dramBootTraining_none {s : State} (h : atStage s 3 = true) :
    exec (.dramBootTraining none none) s = .next (haltForGood (bootFailed (trainedBoth s none none) 0 .halt) 0xE8) :=
  congrArg Host.Outcome.next (by rw [h]; rfl)

/-! ## The journal flash (R59, R138) -/

/-- Erasing sectors leaves erased what is. -/
theorem flashGet_erases_of_erased {l : List (Nat × Byte)} {a : Nat} (ks : List Nat) (h : flashGet l a = 0xFF) :
    flashGet (ks.foldl flashErase l) a = 0xFF := by
  induction ks generalizing l with
  | nil => exact h
  | cons k ks ih =>
    refine ih ?_
    by_cases hk : a / 4096 = k
    · exact flashGet_erase k a hk
    · rw [flashGet_erase_other k a hk, h]

/-- Every address of a sector that is erased reads erased. -/
theorem flashGet_erases {ks : List Nat} {k a : Nat} (l : List (Nat × Byte)) (hk : k ∈ ks) (ha : a / 4096 = k) :
    flashGet (ks.foldl flashErase l) a = 0xFF := by
  induction ks generalizing l with
  | nil => exact absurd hk List.not_mem_nil
  | cons j ks ih =>
    rcases List.mem_cons.mp hk with rfl | hk
    · exact flashGet_erases_of_erased ks (flashGet_erase k a ha)
    · exact ih _ hk

@[simp] theorem raiseJournal_sys (s : State) (cause : Nat) : (raiseJournal s cause).sys = s.sys := raise_sys ..
@[simp] theorem raiseJournal_jnl (s : State) (cause : Nat) : (raiseJournal s cause).jnl = s.jnl :=
  same_jnl (raiseJournal_view s cause (by decide))
@[simp] theorem raiseJournal_fus (s : State) (cause : Nat) : (raiseJournal s cause).fus = s.fus :=
  same_fus (raiseJournal_view s cause (by decide))

theorem endStage4_eq {s : State} (h : s.fus.integrity = false) : endStage4 s = toStage s 5 := by
  simp [endStage4, h]

theorem keyComplete_of_fus {s t : State} (h : t.fus = s.fus) : keyComplete t = keyComplete s := by
  simp [keyComplete, keyMatches, journalPrivate, fuseBytes, h]

theorem keyMismatch_of_fus {s t : State} (h : t.fus = s.fus) : keyMismatch t = keyMismatch s := by
  simp [keyMismatch, keyMatches, journalPrivate, fuseBytes, h]

@[simp] theorem flashOps_fus (s : State) (l : List (Nat × Nat × Nat)) : (flashOps s l).fus = s.fus :=
  same_fus (flashOps_view s l (by decide))

@[simp] theorem flashOps_sys (s : State) (l : List (Nat × Nat × Nat)) : (flashOps s l).sys = s.sys :=
  same_sys (flashOps_view s l (by decide))

@[simp] theorem flashOps_jnl (s : State) (l : List (Nat × Nat × Nat)) : (flashOps s l).jnl = s.jnl :=
  same_jnl (flashOps_view s l (by decide))

/-- What the scan of a device without a complete key instructs the flash to do: to reset, to answer SFDP, and to erase (R137,
R138). -/
def probeOps (s : State) (size : Nat) : List (Nat × Nat × Nat) :=
  [(0x66, 0, 0), (0x99, 0, 0), (0x5A, 0, 0)] ++
    (if capacityOk size then (s.jnl.erasing.map eraseOps).flatten else [])

/-- The flash as boot stage 4 finds it on a device that is not provisioned: the sectors left partly erased are erased anew
(R59, R138). -/
def unprovisionedFlash (s : State) (size : Nat) : State := (flashOps s (probeOps s size)).modJnl fun j => { j with
  flashOk := capacityOk size, capacity := if capacityOk size then size else 0, provisioned := false
  flash := j.erasing.foldl flashErase j.flash, erasing := [] }

@[simp] theorem unprovisionedFlash_sys (s : State) (size : Nat) : (unprovisionedFlash s size).sys = s.sys := by
  simp [unprovisionedFlash]

@[simp] theorem unprovisionedFlash_fus (s : State) (size : Nat) : (unprovisionedFlash s size).fus = s.fus := by
  simp [unprovisionedFlash]

theorem unprovisionedFlash_jnl (s : State) (size : Nat) : (unprovisionedFlash s size).jnl = { s.jnl with
    flashOk := capacityOk size, capacity := if capacityOk size then size else 0, provisioned := false
    flash := s.jnl.erasing.foldl flashErase s.jnl.flash, erasing := [] } := by
  simp [unprovisionedFlash]

/-- A flash whose capacity does not do raises JNL_EVENT (R135, R381). -/
def foundFlash (s : State) (size : Nat) : State :=
  if capacityOk size then unprovisionedFlash s size else raiseJournal (unprovisionedFlash s size) 0x01

theorem foundFlash_sys (s : State) (size : Nat) : (foundFlash s size).sys = s.sys := by
  unfold foundFlash
  split <;> simp

theorem foundFlash_jnl (s : State) (size : Nat) : (foundFlash s size).jnl = (unprovisionedFlash s size).jnl := by
  unfold foundFlash
  split <;> simp

/-- JOURNAL_SCAN of a device without a complete key reads no ring: it finds the flash, or raises JNL_EVENT (R59, R381). -/
theorem journalScan_of_no_key {s : State} (cap : Option Nat) (bad : List Nat) (h4 : atStage s 4 = true)
    (hk : keyComplete s = false) (hm : keyMismatch s = false) (hi : s.fus.integrity = false) :
    exec (.journalScan cap bad) s = .next (toStage (foundFlash s (cap.getD 0)) 5) := by
  refine congrArg Host.Outcome.next ?_
  have hkey : ∀ l, keyComplete (flashOps s l) = false := fun l => (keyComplete_of_fus (flashOps_fus s l)).trans hk
  have hmis : keyMismatch (unprovisionedFlash s (cap.getD 0)) = false :=
    (keyMismatch_of_fus (unprovisionedFlash_fus ..)).trans hm
  simp only [h4, hk, hkey, Bool.not_true, Bool.and_false, Bool.false_eq_true, if_false, List.append_nil]
  rw [← probeOps, ← unprovisionedFlash, hmis]
  cases hok : capacityOk (cap.getD 0) with
  | false => simp [endStage4_eq, hi, foundFlash, hok]
  | true => simp [endStage4_eq, hi, foundFlash, unprovisionedFlash, hok]

/-- Settles O34: each stage by its own row, the two failures by the entry to HALT, the scan by `journalScan_of_no_key`. -/
theorem bootCompletes : Obligations.BootCompletes := by
  intro s hm
  refine ⟨fun h0 hl => ?_, fun lost h0 hc => ?_, fun weak h1 => ?_, fun h2 => ?_, fun h2 => ?_,
    fun g h3 => ⟨?_, ?_⟩, fun h3 => ?_, fun cap bad h4 hk hmis hi => ?_⟩
  · refine ⟨_, rfl, ?_⟩
    rw [atStage_eq hm h0, hl]
    exact ⟨rfl, rfl, rfl⟩
  · refine ⟨_, rfl, ?_⟩
    rw [atStage_eq hm h0, giveWay_eq hc]
    exact ⟨h0, hm, by cases lost <;> cases s.clk.refOk <;> rfl, rfl⟩
  · refine ⟨_, rfl, ?_⟩
    rw [atStage_eq hm h1]
    exact ⟨rfl, rfl, senseFuses_fus s weak⟩
  · refine ⟨_, rfl, ?_⟩
    rw [atStage_eq hm h2]
    exact ⟨rfl, rfl, hm⟩
  · refine ⟨_, rfl, ?_⟩
    rw [atStage_eq hm h2]
    exact kettleDead_boot hm 3
  · refine ⟨_, dramBootTraining_both (atStage_eq hm h3) g g, beginStage4_stage .., ?_, ?_, ?_⟩
    · rw [beginStage4_drc, mapDram_ch, trainedBoth_ch0]
      rfl
    · rw [beginStage4_drc, mapDram_ch, trainedBoth_ch1]
      rfl
    · rw [beginStage4_drc, mapDram_mapped, mappedMib_both]
      rfl
  · refine ⟨_, dramBootTraining_first (atStage_eq hm h3) g, beginStage4_stage .., ?_, ?_, ?_⟩
    · rw [beginStage4_drc, mapDram_ch, bootFailed_drc, trainedBoth_ch0]
      rfl
    · rw [beginStage4_drc, mapDram_ch, bootFailed_drc, trainedBoth_ch1]
      rfl
    · rw [beginStage4_drc, mapDram_mapped, mappedMib_first, dramMax_of_fus (bootFailed_fus ..)]
      rfl
  · have hboot : (bootFailed (trainedBoth s none none) 0 .halt).sys.mode = .boot := by
      rw [bootFailed_sys]
      exact hm
    refine ⟨_, dramBootTraining_none (atStage_eq hm h3), ?_⟩
    rw [haltForGood_boot hboot]
    exact ⟨rfl, rfl, rfl, rfl⟩
  · refine ⟨_, journalScan_of_no_key cap bad (atStage_eq hm h4) hk hmis hi, rfl, ?_⟩
    rw [toStage_sys, toStage_jnl, foundFlash_sys, foundFlash_jnl, unprovisionedFlash_jnl]
    exact ⟨hm, rfl, rfl, rfl, fun k hk a ha => flashGet_erases s.jnl.flash hk ha⟩

end Sys2Proof.Machine
end

section
/-!
Refutation of the statement about the fault opcodes (O23): an acknowledgement can raise the source that it clears.
-/

namespace Sys2Proof.Machine
open Sys2Proof Sys2Proof.Safety

/-! ## FAULT_CLEAR of a source that its own acknowledgement raises (R24, R381, R518) -/

/-- A source that is raised in the same cycle is left as it is (R24). -/
theorem faultClear_of_raisedNow {s : State} {k : Fin 256} (h : raisedNow s k = true) : faultClear s k = s := by
  rw [faultClear, if_pos h]

/-- What an accepted FAULT_CLEAR of the supervisor leaves: the source is acknowledged first, then cleared (R511, R518). -/
theorem faultClear_of_sup {c : Cmd} {s : State} {k : Fin 256} (ha : Accepted faultClearSpec c s) (hsrc : c.src = .sup)
    (hk : Fin.ofNat 256 (Cmd.p8 c 16) = k) (hp : causePresent (begun s c) k.1 = false) (h53 : k.1 ≠ 0x53)
    (hn : raisedNow (begun s c) k = false) :
    exec (.faultClear c) s = .next (answered (faultClear (acknowledge (begun s c) k) k) c okWords) := by
  refine congrArg Host.Outcome.next (direct_reply ha ?_)
  change faultClearRun c (begun s c) = _
  unfold faultClearRun
  rw [hk]
  simp [hsrc, hp, h53, hn, okWords]

/-- A VOID record of five serials that has not been formed yet (R359). -/
def waitingVoid : Unformed := ⟨0x03, 1, pairPayload 5 9, none, 1, none, none, none⟩

/-- A device whose journal has a VOID record to form, and whose alarm queue holds SER_VOID (0xA4), pending since an earlier
raise. Of the model's own raises only 0xF0 to 0xF2 queue an alarm; the statement speaks of every state. -/
def voidAlarmed : State :=
  { sys := { mode := .ready, bootStage := 7, up := true }
    jnl := { provisioned := true, flashOk := true, waiting := [waitingVoid], tickets := 1 }
    flt := { src := updF resetSources 0xA4 fun x => { x with pend := some .note, raises := 1 }, alarms := [0xA4] } }

/-- A signed FAULT_CLEAR of SER_VOID from the supervisor. -/
def clearVoid : Cmd := ⟨.sup, 0, 1, 0, 0, [0xA4, 0, 0, 0], false, [], true, []⟩

theorem clearVoid_accepted : Accepted faultClearSpec clearVoid voidAlarmed := by decide +kernel

/-- The acknowledgement asks for its EVENT record; the VOID record is formed ahead of it, and raises the source again. -/
theorem acknowledge_raises_void :
    raisedNow (acknowledge (begun voidAlarmed clearVoid) 0xA4) 0xA4 = true := by decide +kernel

theorem acknowledge_void_pending :
    (acknowledge (begun voidAlarmed clearVoid) 0xA4).flt.src[(0xA4 : Fin 256)].pend = some .note := by decide +kernel

/-- Refutes O23: FAULT_CLEAR of a source that was not raised in this cycle does not make it clear where the record of its
acknowledgement forms a VOID record, whose raise of SER_VOID falls in the cycle of the clear. -/
theorem not_faultOpcodesComplete : ¬ Obligations.FaultOpcodesComplete := by
  intro h
  obtain ⟨-, -, hclear, -⟩ := h clearVoid voidAlarmed
  obtain ⟨t, ht, hpend, -⟩ := hclear clearVoid_accepted 0xA4 (by decide) (by decide +kernel) (by decide +kernel)
    (by decide) (by decide)
  have hrun := faultClear_of_sup clearVoid_accepted rfl (k := 0xA4) (by decide) (by decide +kernel) (by decide)
    (by decide +kernel)
  rw [faultClear_of_raisedNow acknowledge_raises_void, ht] at hrun
  have hflt : t.flt = (acknowledge (begun voidAlarmed clearVoid) 0xA4).flt := by
    simpa using congrArg State.flt (Host.Outcome.next.inj hrun)
  rw [hflt, acknowledge_void_pending] at hpend
  exact absurd hpend (by decide)

end Sys2Proof.Machine
end

section
/-!
Proofs of the statements about the station opcodes (O19) and about the clocks, the bank supplies and the test port (O37).
-/

namespace Sys2Proof.Machine
open Sys2Proof Sys2Proof.Safety

/-! ## What the arrival of a packet leaves as it is -/

section
variable (s : State) (c : Cmd) (k : Nat)

@[simp] theorem bodyOf_begun (kind inst : Nat) : bodyOf (begun s c) kind inst = bodyOf s kind inst := by
  obtain ⟨_, _, _, _, h⟩ := begun_parts s c
  rw [h]; rfl

@[simp] theorem stationBody_begun : stationBody (begun s c) k = stationBody s k := bodyOf_begun ..

@[simp] theorem sheetBody_begun : sheetBody (begun s c) = sheetBody s := by
  obtain ⟨_, _, _, _, h⟩ := begun_parts s c
  rw [h]; rfl

@[simp] theorem clockBody_begun : clockBody (begun s c) = clockBody s := by
  obtain ⟨_, _, _, _, h⟩ := begun_parts s c
  rw [h]; rfl

@[simp] theorem stationInUse_begun : stationInUse (begun s c) k = stationInUse s k := by
  simp [stationInUse, sheets]

@[simp] theorem stationFenced_begun : stationFenced (begun s c) k = stationFenced s k := by
  simp [stationFenced]

@[simp] theorem pendLevel_begun (src : Nat) : pendLevel (begun s c) src = pendLevel s src := by
  simp [pendLevel]

@[simp] theorem polygonAtSpeed_begun (k : Fin 6) : polygonAtSpeed (begun s c) k = polygonAtSpeed s k := by
  simp [polygonAtSpeed]

@[simp] theorem lockLimits_begun (k : Fin 6) (b : List Byte) : lockLimits (begun s c) k b = lockLimits s k b := by
  simp [lockLimits]

@[simp] theorem setDup_parked (src : Source) (e : Option DupEntry) : (setDup s src e).ktl.parked = s.ktl.parked := by
  obtain ⟨_, _, _, h⟩ := setDup_ktl s src e
  rw [h]

@[simp] theorem arrive_parked : (arrive s c).ktl.parked = s.ktl.parked :=
  congrArg Kettle.parked (same_ktl (arrive_view s c (by decide) (by decide) (by decide)))

/-- A packet that arrives may overtake a parked command (R161), and changes nothing else of it: the stations that are being
calibrated stay. -/
@[simp] theorem calibrating_begun : calibrating (begun s c) k = calibrating s k := by
  unfold calibrating begun remember
  split
  · rw [arrive_parked]
  · simp [List.any_map, Function.comp_def]

end

/-! ## STATION_CALIBRATE (R198, R305) -/

/-- Kind 0 is asked for by its own number and by 3. -/
theorem calKinds_zero {c : Cmd} (h : Cmd.p8 c 17 ≤ 3) :
    (calKinds c).getLsbD 0 = (Cmd.p8 c 17 == 0 || Cmd.p8 c 17 == 3) := by
  unfold calKinds
  generalize Cmd.p8 c 17 = n at h ⊢
  have hn : n = 0 ∨ n = 1 ∨ n = 2 ∨ n = 3 := by omega
  rcases hn with rfl | rfl | rfl | rfl <;> rfl

theorem stationCalibrateRun_parks {c : Cmd} {s : State} {k : Fin 6} (hk : k = stationNumber c) (hkind : Cmd.p8 c 17 ≤ 3)
    (hspeed : Cmd.p8 c 17 ≠ 0 → polygonAtSpeed s k = true) (huse : stationInUse s k.1 = false)
    (hcal : calibrating s k.1 = false) (hfence : stationFenced s k.1 = false) :
    stationCalibrateRun c s =
      .park (startMeasuring (if (calKinds c).getLsbD 0 then startCalibration s k else s) k) .hardware none := by
  have hspeed' : (Cmd.p8 c 17 != 0 && !polygonAtSpeed s k) = false := by
    by_cases h0 : Cmd.p8 c 17 = 0
    · simp [h0]
    · simp [hspeed h0]
  subst hk
  unfold stationCalibrateRun
  dsimp only
  rw [if_neg (Nat.not_lt.mpr hkind), if_neg (by rw [hspeed']; decide), if_neg (by rw [huse]; decide),
    if_neg (by rw [hcal]; decide), if_neg (by rw [hfence]; decide)]

/-- A station whose measurements begin: its delay lines run when kind 0 is among them, or as before. -/
theorem startMeasuring_station (s : State) (k : Fin 6) (lines : Bool) :
    ∃ g, StationMod s (startMeasuring (if lines then startCalibration s k else s) k) k g ∧
      ∀ x, (g x).calRunning = (x.calRunning || lines) := by
  cases lines with
  | false => exact ⟨_, stationMod_modBtu .., fun x => (Bool.or_false _).symm⟩
  | true =>
    exact ⟨_, (stationMod_modBtu s k _).trans (stationMod_modBtu ..), fun x => (Bool.or_true _).symm⟩

/-! ## STATION_LOCK (R79, R312, R317) -/

/-- A station that starts: SYNTH, with its recipe's registration offset as the first grid reference. -/
theorem lockStation_station (s : State) (k : Fin 6) (b : List Byte) :
    (lockStation s k b).btu[k].lock = .synth ∧ (lockStation s k b).btu[k].gridRef = stRegOffset b ∧
    ∀ j, j ≠ k → (lockStation s k b).btu[j] = s.btu[j] := by
  unfold lockStation
  rw [State.modBtu_btu, updF_get_same]
  exact ⟨rfl, rfl, fun j hj => updF_get_other s.btu k j _ hj⟩

/-- Its synthesizer starts with the recipe's setting. -/
theorem lockStation_synth (s : State) (k : Fin 6) (b : List Byte) :
    (lockStation s k b).clk.px[k].en = true ∧ (lockStation s k b).clk.px[k].locked = false ∧
    (lockStation s k b).clk.px[k].int = stInt b ∧ (lockStation s k b).clk.px[k].frac = stFrac b ∧
    ∀ j, j ≠ k → (lockStation s k b).clk.px[j] = s.clk.px[j] := by
  unfold lockStation startSynth
  rw [State.modBtu_clk, State.modSynth_clk, updF_get_same]
  exact ⟨rfl, rfl, rfl, rfl, fun j hj => updF_get_other s.clk.px k j _ hj⟩

theorem stationLockRun_locks {c : Cmd} {s : State} {k : Fin 6} (hk : k = stationNumber c) (hkind : Cmd.p8 c 17 = 0)
    (hbody : (stationBody s k.1).isEmpty = false) (hpend : pendLevel s (0x64 + 8 * k.1) = none)
    (hoff : s.btu[k].lock = .off) (hlim : lockLimits s k (stationBody s k.1) = true)
    (hint : (sheetBody s).isEmpty = true ∨ intervalOk (stationBody s k.1) (sheetBody s) = true)
    (hband : (bandFor (clockBody s) (stationBody s k.1)).isSome = true) (hcal : calibrating s k.1 = false)
    (hfence : stationFenced s k.1 = false) :
    stationLockRun c s = .reply (lockStation s k (stationBody s k.1)) { status := .accepted } := by
  have hint' : (!(sheetBody s).isEmpty && !intervalOk (stationBody s k.1) (sheetBody s)) = false := by
    rcases hint with h | h <;> simp [h]
  have hband' : (bandFor (clockBody s) (stationBody s k.1)).isNone = false := by
    rw [Option.isNone_eq_false_iff, hband]
  subst hk
  unfold stationLockRun
  dsimp only
  rw [if_neg (by simp [hkind]), if_neg (by simp [hkind]), if_neg (by simp [hbody]), if_neg (by simp [hpend]),
    if_neg (by rw [hoff]; decide), if_neg (by simp [hlim]), if_neg (by simp [hint']), if_neg (by simp [hband']),
    if_neg (by simp [hcal]), if_neg (by simp [hfence])]

theorem stationLockRun_releases {c : Cmd} {s : State} {k : Fin 6} (hk : k = stationNumber c) (hkind : Cmd.p8 c 17 = 1)
    (huse : stationInUse s k.1 = false) (hcal : calibrating s k.1 = false) :
    stationLockRun c s = .reply (if s.btu[k].lock == .off then s else releaseStation s k) okRes := by
  subst hk
  simp [stationLockRun, hkind, huse, hcal]

theorem releaseStation_station (s : State) (k : Fin 6) : StationMod s (releaseStation s k) k Station.turnedOff :=
  (stationOff_station s k true).then_same rfl

/-- A released station is off, whether it was so already or not, and the others stay. -/
theorem released_station (s : State) (k : Fin 6) :
    (if s.btu[k].lock == .off then s else releaseStation s k).btu[k].lock = .off ∧
    ∀ j, j ≠ k → (if s.btu[k].lock == .off then s else releaseStation s k).btu[j] = s.btu[j] := by
  split
  · rename_i h
    exact ⟨by simpa using h, fun _ _ => rfl⟩
  · rw [(releaseStation_station s k).get]
    exact ⟨rfl, fun _ hj => (releaseStation_station s k).other hj⟩

/-! ## STATION_QUERY (R198, R317) -/

theorem stationQueryRun_eq {c : Cmd} {s : State} {k : Fin 6} (hk : k = stationNumber c) :
    stationQueryRun c s = .reply s (okWords
      (bit s.clk.px[k].locked + 2 * bit (s.btu[k].lock == .locked) + 4 * bit (polygonAtSpeed s k) +
        8 * bit (s.btu[k].calPassed == 0x7) + 16 * bit (stationFenced s k.1))
      (facetPeriodNs s.btu[k]) (fieldInt 32 s.btu[k].phaseErr) s.btu[k].regOffset (fieldInt 32 s.btu[k].calTemp)) := by
  subst hk
  rfl

/-- Settles O19: the equation of each opcode's run, and what that leaves of the station and its synthesizer. -/
theorem stationOpcodesComplete : Obligations.StationOpcodesComplete := by
  intro c s k hk
  refine ⟨fun ha hkind hspeed huse hcal hfence => ?_,
    fun ha hkind hbody hpend hoff hlim hint hband hcal hfence => ?_, fun ha hkind huse hcal => ?_, fun ha => ?_⟩
  · have hrun := stationCalibrateRun_parks (s := begun s c) hk hkind (by simpa using hspeed) (by simpa using huse)
      (by simpa using hcal) (by simpa using hfence)
    obtain ⟨g, hg, hrunning⟩ := startMeasuring_station (begun s c) k ((calKinds c).getLsbD 0)
    refine ⟨_, congrArg Host.Outcome.next (direct_park ha hrun), ?_, fun j hj => ?_⟩
    · rw [hg.get, hrunning, begun_btu, calKinds_zero hkind, Bool.or_assoc]
    · rw [hg.other hj, begun_btu]
  · have hrun := stationLockRun_locks (s := begun s c) hk hkind (by simpa using hbody) (by simpa using hpend)
      (by simpa using hoff) (by simpa using hlim) (by simpa using hint) (by simpa using hband) (by simpa using hcal)
      (by simpa using hfence)
    rw [stationBody_begun] at hrun
    obtain ⟨hlock, hgrid, hstations⟩ := lockStation_station (begun s c) k (stationBody s k.1)
    obtain ⟨hen, hlocked, hsi, hfrac, hsynths⟩ := lockStation_synth (begun s c) k (stationBody s k.1)
    rw [begun_btu] at hstations
    rw [begun_clk] at hsynths
    exact ⟨_, congrArg Host.Outcome.next (direct_reply ha hrun), hlock, hgrid, hen, hlocked, hsi, hfrac,
      fun j hj => ⟨hstations j hj, hsynths j hj⟩⟩
  · have hrun := stationLockRun_releases (s := begun s c) hk hkind (by simpa using huse) (by simpa using hcal)
    obtain ⟨hoff, hothers⟩ := released_station (begun s c) k
    refine ⟨_, congrArg Host.Outcome.next (direct_reply ha hrun), hoff, fun j hj => ?_⟩
    rw [hothers j hj, begun_btu]
  · have hrun := stationQueryRun_eq (s := begun s c) hk
    rw [begun_clk, begun_btu, polygonAtSpeed_begun, stationFenced_begun] at hrun
    exact congrArg Host.Outcome.next (direct_reply ha hrun)

/-! ## Steps that change one synthesizer -/

/-- As far as the synthesizers go, t is s with g done to that of station k. -/
def SynthMod (s t : State) (k : Fin 6) (g : Synth → Synth) : Prop := t.clk.px = updF s.clk.px k g

section
variable {s t : State} {k : Fin 6} {g : Synth → Synth}

theorem SynthMod.get (h : SynthMod s t k g) : t.clk.px[k] = g s.clk.px[k] := by
  rw [SynthMod] at h
  rw [h, updF_get_same]

theorem SynthMod.other (h : SynthMod s t k g) {j : Fin 6} (hj : j ≠ k) : t.clk.px[j] = s.clk.px[j] := by
  rw [SynthMod] at h
  rw [h, updF_get_other _ _ _ _ hj]

end

/-! ## Lock of the synthesizers (R82, R83, R312) -/

/-- A synthesizer with its lock detector at a level. -/
def Synth.lockedAs (v : Bool) (x : Synth) : Synth := { x with locked := v }

/-- A station whose synthesizer has locked: in LOCKED and SLEW it is no longer blanked. -/
def Station.relit (x : Station) : Station :=
  { x with blanked := if x.lock == .locked || x.lock == .slew then false else x.blanked }

/-- The state after the lock itself, before SYNTH goes on to SPIN. -/
def afterLock (s : State) (k : Fin 6) : State := (s.modSynth k (Synth.lockedAs true)).modBtu k Station.relit

theorem afterLock_station (s : State) (k : Fin 6) : StationMod s (afterLock s k) k Station.relit := rfl

theorem afterLock_synth (s : State) (k : Fin 6) : SynthMod s (afterLock s k) k (Synth.lockedAs true) := rfl

theorem synthLocks_eq {s : State} {k : Fin 6} (hen : s.clk.px[k].en = true) (hl : s.clk.px[k].locked = false) :
    synthLocks s k = if s.btu[k].lock == .synth then enterSpin (afterLock s k) k else afterLock s k := by
  have hlock : (afterLock s k).btu[k].lock = s.btu[k].lock := by
    rw [(afterLock_station s k).get, Station.relit]
  rw [← hlock]
  unfold synthLocks
  rw [if_neg (by rw [hen, hl]; decide)]
  rfl

@[simp] theorem recipeSpeed_btu (s : State) (k : Fin 6) : (recipeSpeed s k).2.btu = s.btu := by
  unfold recipeSpeed
  split <;> rfl

@[simp] theorem recipeSpeed_clk (s : State) (k : Fin 6) : (recipeSpeed s k).2.clk = s.clk := by
  unfold recipeSpeed
  split <;> rfl

@[simp] theorem startMotor_btu (s : State) (m : Fin 10) (speed : Nat) : (startMotor s m speed).btu = s.btu :=
  same_btu (startMotor_view s m speed (by decide) (by decide))

@[simp] theorem startMotor_clk (s : State) (m : Fin 10) (speed : Nat) : (startMotor s m speed).clk = s.clk :=
  same_clk (startMotor_view s m speed (by decide) (by decide))

/-- A polygon that is not at speed is waited for in SPIN, whether it is started or not; the clocks stay. -/
theorem enterSpin_waits {s : State} {k : Fin 6} (h : s.mot.ch[Fin.ofNat 10 k.1].state ≠ .running) :
    StationMod s (enterSpin s k) k (fun x => { x with lock := .spin }) ∧ (enterSpin s k).clk = s.clk := by
  unfold enterSpin
  dsimp only
  rw [if_neg (by simpa using h)]
  split
  · exact ⟨(stationMod_modBtu s k _).then_same (by simp), by simp⟩
  · exact ⟨stationMod_modBtu .., rfl⟩

@[simp] theorem spoilStation_clk (s : State) (k : Nat) (r : Spoil) : (spoilStation s k r).clk = s.clk :=
  same_clk (spoilStation_view s k r (by decide))

theorem synthUnlocks_eq {s : State} {k : Fin 6} (hen : s.clk.px[k].en = true) (hl : s.clk.px[k].locked = true) :
    StationMod s (synthUnlocks s k) k (fun x => { x with blanked := true }) ∧
    SynthMod s (synthUnlocks s k) k (Synth.lockedAs false) := by
  unfold synthUnlocks
  rw [if_neg (by rw [hen, hl]; decide)]
  constructor
  · exact (stationMod_modBtu (s.modSynth k (Synth.lockedAs false)) k _).then_same (by simp)
  · rw [SynthMod, raise_clk, spoilStation_clk]
    rfl

/-- A due change relocks a running synthesizer in the column of the present temperature. -/
theorem changeSynth_get {s : State} {k : Fin 6} (hen : s.clk.px[k].en = true) (hdue : s.clk.px[k].changeDue = true) :
    (changeSynth s k).clk.px[k].locked = false ∧ (changeSynth s k).clk.px[k].changeDue = false ∧
    (changeSynth s k).clk.px[k].column = columnOf (compTemp s) := by
  unfold changeSynth
  dsimp only
  rw [State.modSynth_clk, updF_get_same, if_pos (by rw [hen, hdue]; rfl)]
  exact ⟨rfl, rfl, rfl⟩

theorem changeSynth_other (s : State) {k j : Fin 6} (hj : j ≠ k) : (changeSynth s k).clk.px[j] = s.clk.px[j] :=
  updF_get_other _ _ _ _ hj

/-! ## The source encoder (R89, R91, R92) -/

/-- An encoder's new levels, noted. -/
def withLevels (s : State) (n : Fin 4) (a b : Bool) : State :=
  s.modClk fun c => { c with encLevels := c.encLevels.set n.1 (a, b) n.2 }

theorem withLevels_get (s : State) (n : Fin 4) (a b : Bool) : (withLevels s n a b).clk.encLevels[n] = (a, b) := by
  simp [withLevels]

/-- The places that the Gray cycle of encoder n goes on by. -/
def grayStep (s : State) (n : Fin 4) (a b : Bool) : Nat := (grayIndex (a, b) + 4 - grayIndex s.clk.encLevels[n]) % 4

/-- What the source encoder does at each place that its Gray cycle goes on by (R89, R91, R93). -/
def sourceStep (s : State) : Nat → State
  | 0 => s
  | 1 => forwardEdge s
  | 2 => encoderLoss s
  | _ => backwardEdge s

/-- The source encoder's new levels are noted, and its step is taken. -/
theorem encoderLevels_of_source {s : State} {n : Fin 4} (hsrc : sourceEncoder s = some n.1) (a b : Bool) :
    encoderLevels s n a b = sourceStep (withLevels s n a b) (grayStep s n a b) := by
  have hsrc' : sourceEncoder (withLevels s n a b) = some n.1 := hsrc
  exact if_pos (by rw [← withLevels, hsrc', beq_self_eq_true])

/-- With no backlash owed a forward edge advances the accumulator, which never goes back. -/
theorem forwardEdge_clk {s : State} (h : s.clk.backlash = 0) :
    (forwardEdge s).clk.accEdge = s.clk.accEdge + edgeInc s ∧
    (forwardEdge s).clk.acc = Nat.max s.clk.acc (s.clk.accEdge + edgeInc s) ∧
    (forwardEdge s).clk.encLevels = s.clk.encLevels := by
  simp [forwardEdge, noteEdge, h]

theorem backwardEdge_clk (s : State) :
    (backwardEdge s).clk.acc = s.clk.acc ∧ (backwardEdge s).clk.backlash = inc32 s.clk.backlash := by
  unfold backwardEdge
  dsimp only
  split
  · rw [raise_clk]
    exact ⟨rfl, rfl⟩
  · exact ⟨rfl, rfl⟩

@[simp] theorem spoilAll_clk (s : State) (p : Sheet → Bool) (r : Spoil) : (spoilAll s p r).clk = s.clk :=
  same_clk (spoilAll_view s p r (by decide))

@[simp] theorem spoilAll_btu (s : State) (p : Sheet → Bool) (r : Spoil) : (spoilAll s p r).btu = s.btu :=
  same_btu (spoilAll_view s p r (by decide))

/-- Encoder loss with no fallback to go to freezes the counter and blanks every station. -/
theorem encoderLoss_freezes {s : State} (h : s.clk.fallback = 0 ∨ s.clk.fbDisqualified = true) :
    (encoderLoss s).clk.ppcSrc = .frozen ∧ ∀ k : Fin 6, (encoderLoss s).btu[k].blanked = true := by
  unfold encoderLoss
  rw [if_neg (by rcases h with h | h <;> simp [h])]
  simp

/-- An edge at an encoder whose number satisfies p. -/
def isEdgeAt (p : Fin 4 → Bool) (c : Instr) : Bool := match c with | .encoderEdge n _ _ => p n | _ => false

theorem exec_encoderTimeout (s : State) : exec .encoderTimeout s =
    .next (whenUp s fun s => giveWay s (isEdgeAt fun n => sourceEncoder s == some n.1) (encoderSilent s)) := rfl

/-- While M6 turns, the silence of encoder 0 as the source is its loss, unless its next edge comes in the same cycle (R92). -/
theorem encoderTimeout_eq {s : State} (hup : s.sys.mode ≠ .reset) (hsrc : s.clk.ppcSrc = .enc0)
    (hint : s.clk.intervals ≠ []) (hturn : s.mot.ch[(6 : Fin 10)].setpoint < 20 * s.mot.ch[(6 : Fin 10)].speed)
    (hc : coming s (isEdgeAt (· == 0)) = false) : exec .encoderTimeout s = .next (encoderLoss s) := by
  have hs : sourceEncoder s = some 0 := by rw [sourceEncoder, hsrc]
  have hp : (fun n : Fin 4 => sourceEncoder s == some n.1) = (· == 0) := by
    funext n
    rw [hs]
    revert n
    decide
  have hsome : (sourceEncoder s).isSome = true := by rw [hs]; rfl
  have hmeasured : s.clk.intervals.isEmpty = false := List.isEmpty_eq_false_iff.mpr hint
  have hm6 : decide (s.mot.ch[6].setpoint < 20 * s.mot.ch[6].speed) = true := decide_eq_true hturn
  rw [exec_encoderTimeout, whenUp_eq _ hup, hp, giveWay_eq hc, encoderSilent]
  exact congrArg Host.Outcome.next (if_pos (by rw [hsome, hmeasured, hm6]; rfl))

/-! ## Bank supplies and the test port (R545, R552, R554, R556) -/

theorem bankLoss_pins (s : State) (b : Fin 8) :
    (bankLoss s b).pins.bankLost = s.pins.bankLost.set b.1 true b.2 ∧
    (b ≠ 6 → (bankLoss s b).pins.hvOk = s.pins.hvOk) ∧ (b ≠ 4 → (bankLoss s b).mot = s.mot) := by
  unfold bankLoss
  dsimp only
  split
  · rename_i h
    exact ⟨rfl, fun hb => absurd h hb, fun _ => rfl⟩
  · split
    · rename_i h
      exact ⟨rfl, fun _ => rfl, fun hb => absurd h hb⟩
    · exact ⟨rfl, fun _ => rfl, fun _ => rfl⟩

theorem tapEdge_moves {s : State} (h : s.pins.tapDead = false) (tms : Bool) :
    (tapEdge s tms true).pins.tap = s.pins.tap.next tms := by
  rw [tapEdge, if_neg (by rw [h]; decide), if_neg (by decide)]
  split <;> rfl

theorem tapEdge_resets {s : State} (h : s.pins.tapDead = false) (tms : Bool) :
    (tapEdge s tms false).pins.tap = .testLogicReset := by
  rw [tapEdge, if_neg (by rw [h]; decide)]
  rfl

theorem tapEdge_dead {s : State} (h : s.pins.tapDead = true) (tms trst : Bool) : tapEdge s tms trst = s := by
  rw [tapEdge, if_pos h]

theorem ballDrive_of_bankLost {s : State} {o : OutBall} {b : Fin 8} (ho : o.bank = some b)
    (h : s.pins.bankLost[b] = true) : ballDrive s o = .highZ := by
  rw [ballDrive, ho]
  exact if_pos h

theorem ballDrive_of_reset {s : State} {o : OutBall} (h : s.sys.mode = .reset) (ho : o ≠ .tdo) :
    ballDrive s o = .highZ := by
  unfold ballDrive
  split
  · rfl
  · rw [if_neg (by simpa using ho), if_pos (by simp [h])]

/-- Settles O37: each event by its equation, and the ball levels by the branches of `ballDrive`. -/
theorem clockRowsComplete : Obligations.ClockRowsComplete := by
  refine ⟨fun s hup => ⟨fun k hen hl hns => ?_, fun k hen hl hsy hm => ?_, fun k hen hl => ?_,
    fun k hen hdue hin => ?_,
    fun n a b hsrc => ⟨fun (hstep : grayStep s n a b = 1) hback => ?_, fun (hstep : grayStep s n a b = 3) => ?_⟩,
    fun hsrc hint hturn hfall hc => ?_⟩, fun s b => ?_⟩
  · refine ⟨_, rfl, ?_⟩
    rw [whenUp_eq _ hup, synthLocks_eq hen hl, if_neg (by simpa using hns), (afterLock_synth s k).get,
      (afterLock_station s k).get]
    refine ⟨rfl, fun h => ?_, fun j hj => ⟨(afterLock_synth s k).other hj, (afterLock_station s k).other hj⟩⟩
    rw [Station.relit]
    exact if_pos (by rcases h with h | h <;> rw [h] <;> rfl)
  · refine ⟨_, rfl, ?_⟩
    obtain ⟨hstation, hclk⟩ := enterSpin_waits (s := afterLock s k) hm
    rw [whenUp_eq _ hup, synthLocks_eq hen hl, if_pos (by simpa using hsy), hclk, (afterLock_synth s k).get,
      hstation.get]
    exact ⟨rfl, rfl⟩
  · refine ⟨_, rfl, ?_⟩
    obtain ⟨hstation, hsynth⟩ := synthUnlocks_eq hen hl
    rw [whenUp_eq _ hup, hsynth.get, hstation.get]
    exact ⟨rfl, rfl, fun j hj => ⟨hsynth.other hj, hstation.other hj⟩⟩
  · refine ⟨_, rfl, ?_⟩
    obtain ⟨hl, hd, hcol⟩ := changeSynth_get hen hdue
    rw [whenUp_eq _ hup, if_neg (by simpa using hin)]
    exact ⟨hl, hd, hcol, fun j hj => changeSynth_other s hj⟩
  · refine ⟨_, rfl, ?_⟩
    obtain ⟨hedge, hacc, hlevels⟩ := forwardEdge_clk (s := withLevels s n a b) hback
    rw [whenUp_eq _ hup, encoderLevels_of_source hsrc, hstep, sourceStep, hlevels, withLevels_get]
    exact ⟨hedge, hacc, rfl⟩
  · refine ⟨_, rfl, ?_⟩
    rw [whenUp_eq _ hup, encoderLevels_of_source hsrc, hstep]
    exact backwardEdge_clk (withLevels s n a b)
  · exact ⟨_, encoderTimeout_eq hup hsrc hint hturn hc, encoderLoss_freezes hfall⟩
  · refine ⟨⟨_, rfl, bankLoss_pins s b⟩, ⟨_, rfl, rfl, rfl⟩, fun tms tdi h => ⟨_, rfl, tapEdge_moves h tms⟩,
      fun tms tdi h => ⟨_, rfl, tapEdge_resets h tms⟩,
      fun tms tdi trst h => congrArg Host.Outcome.next (tapEdge_dead h tms trst),
      fun h o ho => ballDrive_of_reset h ho, fun o ho h => ballDrive_of_bankLost ho h⟩

end Sys2Proof.Machine
end

section
/-!
Proof of the statement about repeated tags (O9): the refusal at an SPI port, and the entry of a ring with nothing waiting
at the SPI ports.
-/

namespace Sys2Proof.Machine
open Sys2Proof Sys2Proof.Safety

/-! ## A tag that is queued at an SPI port (R162) -/

@[simp] theorem State.modSpi_ktl (s : State) (p : SpiPort) (g : Spi → Spi) : (s.modSpi p g).ktl = s.ktl := by
  cases p <;> rfl

/-- A SUBMIT whose frame is good hands its packet to the port. -/
theorem submitFrame_good {s : State} {p : SpiPort} {frame : List Byte} (hp : portAnswers s p = true)
    (hf : frameIs frame 0x20 66 = true) (hcrc : crcOk frame = true) :
    submitFrame s p frame = takePacket s p (bytesAt frame 1 64) fun s =>
      if kettleUp s then fillIntake (enter s (SpiPort.source p) (bytesAt frame 1 64) .port) else s := by
  unfold submitFrame
  rw [onFrame_good _ hp hf, hcrc]
  rfl

theorem repeatedTag_subReason (c : Cmd) : ((fail .busy 0x14).reply c).detail.toNat % 256 = 0x14 := by
  simp [Res.reply, Res.detail, fail, Status.soft]

/-- The reply of a port that takes packets to a tag that is queued there; the packet goes no further (R162). -/
theorem takePacket_repeated {s : State} {p : SpiPort} {packet : List Byte} (go : State → State)
    (hup : s.sys.up = true) (hroom : (queued (s.spi p)).length < 4)
    (htag : ((queued (s.spi p)).any fun q => q.tag == (cmdOf (SpiPort.source p) packet false).tag) = true) :
    takePacket s p packet go = (s.modSpi p fun x => { x with queueFull := false }).modSpi p fun x =>
      { x with replies := x.replies ++ [(fail .busy 0x14).reply (cmdOf (SpiPort.source p) packet false)] } := by
  have htakes : (!s.sys.up || decide (4 ≤ (queued (s.spi p)).length)) = false := by simp [hup, hroom]
  unfold takePacket
  simp only [htakes, htag, Bool.false_eq_true, if_false, if_true]

/-! ## A sequence that is stored (R161) -/

/-- The packets of the intake that a new sequence of their source overtakes change their fate alone (R161). -/
theorem remember_intake (s : State) (c : Cmd) : (remember s c).ktl.intake =
    if c.seq == 0 then s.ktl.intake
    else s.ktl.intake.map fun p => { p with fate := overtaken c.src p.cmd p.fate } := by
  obtain ⟨_, _, _, hdup⟩ := setDup_ktl s c.src (some ⟨c.seq, none⟩)
  unfold remember
  split
  · rfl
  · rw [State.modKtl_ktl, hdup]

section
variable {s u : State} {turn : Nat} (hktl : u.ktl = { s.ktl with turn := turn })
include hktl

/-! The turn of the ports has no part in the duplicate stores, nor in what is stored there. -/

theorem dupEntry_of_turn (src : Source) : dupEntry u src = dupEntry s src := by
  cases src <;> simp only [dupEntry, hktl]

theorem duplicate_of_turn (c : Cmd) : duplicate u c = duplicate s c := by
  simp only [duplicate, dupEntry_of_turn hktl]

theorem remember_intake_of_turn (c : Cmd) : (remember u c).ktl.intake = (remember s c).ktl.intake := by
  rw [remember_intake, remember_intake, hktl]

end

@[simp] theorem waitsAt_remember (s : State) (c : Cmd) (src : Source) :
    waitsAt (remember s c) src = waitsAt s src := by
  unfold waitsAt
  rw [remember_intake]
  split
  · rfl
  · rw [List.any_map]
    rfl

/-! ## A packet that passes checks 1 to 5 -/

/-- `accept_pass` without the opcode at hand: a packet whose opcode is not known fails check 1 (R147). -/
theorem accept_passed {s : State} {sp : Option OpSpec} {raw : List Byte} {c : Cmd}
    (h4 : entryFault sp raw c.src c.signed = none) (h5 : duplicate s c = none) :
    accept s sp raw c = (true, remember s c) := by
  cases sp with
  | none => exact absurd h4 (by simp [entryFault])
  | some sp => exact accept_pass h4 h5

theorem enter_passed {s : State} {src : Source} {raw : List Byte} (place : Place)
    (h4 : entryFault (opSpecOf (u8 raw 0)) raw src false = none) (h5 : duplicate s (cmdOf src raw false) = none) :
    enter s src raw place = (remember s (cmdOf src raw false)).modKtl fun k =>
      { k with intake := k.intake ++ [packetOf src raw false place] } := by
  have hpass : accept s (opSpecOf (packetOf src raw false place).op.toNat) raw (packetOf src raw false place).cmd =
      (true, remember s (cmdOf src raw false)) := accept_passed h4 h5
  unfold enter
  simp only [hpass, if_true]

/-! ## An intake that takes nothing from the SPI ports (R155) -/

theorem placeOne_of_none_waiting {s : State} (hsup : waitsAt s .sup = false) (hmgmt : waitsAt s .mgmt = false) :
    placeOne s = s := by
  simp [placeOne, hsup, hmgmt]

theorem iter_fixed {α : Type} {f : α → α} {a : α} (h : f a = a) (n : Nat) : iter f n a = a := by
  induction n with
  | zero => rfl
  | succ n ih => rw [iter, h, ih]

theorem fillIntake_of_none_waiting {s : State} (hsup : waitsAt s .sup = false) (hmgmt : waitsAt s .mgmt = false) :
    fillIntake s = s :=
  iter_fixed (placeOne_of_none_waiting hsup hmgmt) _

/-- A packet that stands in the intake does not wait at a port. -/
theorem waitsAt_append_held (s : State) (src : Source) {p : Packet} (hp : p.place = .held) :
    waitsAt (s.modKtl fun k => { k with intake := k.intake ++ [p] }) src = waitsAt s src := by
  simp [waitsAt, atPort, hp]

/-! ## The entry of a ring (R109, R112, R156) -/

/-- Ring n has handed an entry over: it owes the reply, and the next ring has its turn. -/
def handedOver (s : State) (n : Fin 4) : State :=
  ((s.modCr n fun x => { x with head := x.head + 1, awaiting := x.awaiting + 1, drained := false }).modHif fun h =>
    { h with turn := (n.1 + 1) % 4 }).modKtl fun k => { k with turn := 0 }

theorem handedOver_ktl (s : State) (n : Fin 4) : (handedOver s n).ktl = { s.ktl with turn := 0 } := rfl

theorem entryFetched_ok {s : State} {n : Fin 4} (l : List Byte) (hring : ringFetches s.hif.cr[n] = true)
    (hroom : intakeRoom s = true) :
    entryFetched s n (.ok l) = fillIntake (enter (handedOver s n) (.ring n) (padTo 64 l) .held) := by
  unfold entryFetched
  rw [hring, hroom]
  rfl

/-- Of the rings in their order from the one whose turn it is, that one comes first (R112). -/
theorem ringOrder_find {n : Fin 4} {fetches : Fin 4 → Bool} (h : fetches n = true) :
    ((List.range 4).map fun k => Fin.ofNat 4 (n.1 + k)).find? fetches = some n := by
  have hfirst : Fin.ofNat 4 (n.1 + 0) = n := Fin.ofNat_val_eq_self n
  rw [show List.range 4 = [0, 1, 2, 3] from rfl, List.map_cons, hfirst, List.find?_cons_of_pos h]

theorem ringEntryFetched_turn {s : State} {n : Fin 4} (r : Fetch) (hup : s.sys.up = true) (hturn : s.hif.turn = n.1)
    (hring : ringFetches s.hif.cr[n] = true) :
    exec (.ringEntryFetched n r) s = .next (entryFetched (linkWake s) n r) := by
  obtain ⟨link, hwake⟩ := linkWake_eq s
  have hfind : ((List.range 4).map fun k => Fin.ofNat 4 ((linkWake s).hif.turn + k)).find?
      (fun m => ringFetches (linkWake s).hif.cr[m]) = some n := by
    rw [hwake, State.modHif_hif, hturn]
    exact ringOrder_find hring
  refine congrArg Host.Outcome.next ?_
  rw [overPcie_eq _ hup]
  simp only [hfind, if_true]

/-- A packet of a ring that passes checks 1 to 5 stands last in the intake, with nothing waiting at the SPI ports. -/
theorem entryFetched_intake {s : State} {n : Fin 4} {l : List Byte} (hroom : intakeRoom s = true)
    (hring : ringFetches s.hif.cr[n] = true) (hsup : waitsAt s .sup = false) (hmgmt : waitsAt s .mgmt = false)
    (h4 : entryFault (opSpecOf (u8 (padTo 64 l) 0)) (padTo 64 l) (.ring n) false = none)
    (h5 : duplicate s (cmdOf (.ring n) (padTo 64 l) false) = none) :
    (entryFetched s n (.ok l)).ktl.intake =
      (remember s (cmdOf (.ring n) (padTo 64 l) false)).ktl.intake ++ [packetOf (.ring n) (padTo 64 l) false .held] := by
  have h5' := (duplicate_of_turn (handedOver_ktl s n) _).trans h5
  rw [entryFetched_ok l hring hroom, enter_passed .held h4 h5', fillIntake_of_none_waiting, State.modKtl_ktl,
    remember_intake_of_turn (handedOver_ktl s n)]
  · rw [waitsAt_append_held _ _ rfl, waitsAt_remember]
    exact hsup
  · rw [waitsAt_append_held _ _ rfl, waitsAt_remember]
    exact hmgmt

/-- Settles O9: the port's refusal by `takePacket_repeated`, and the ring, which looks at no tag, by
`entryFetched_intake`. -/
theorem repeatedTags : Obligations.RepeatedTags := by
  intro s
  refine ⟨fun p frame hp hup hf hcrc hlen htag => ?_, fun n l hroom hturn hsup hmgmt hring h4 h5 => ?_⟩
  · have hqueued : ((queued (s.spi p)).any fun q =>
        q.tag == (cmdOf (SpiPort.source p) (bytesAt frame 1 64) false).tag) = true := by cases p <;> exact htag
    refine ⟨_, (fail .busy 0x14).reply (cmdOf (SpiPort.source p) (bytesAt frame 1 64) false), rfl, ?_⟩
    rw [submitFrame_good hp hf hcrc, takePacket_repeated _ hup hlen hqueued]
    exact ⟨by simp, by cases p <;> rfl, rfl, repeatedTag_subReason _, by simp, by simp⟩
  · have hup : s.sys.up = true := by
      simp only [intakeRoom, kettleUp, Bool.and_eq_true] at hroom
      exact hroom.1.1.1
    obtain ⟨link, hwake⟩ := linkWake_eq s
    have hktl : (linkWake s).ktl = { s.ktl with turn := s.ktl.turn } := by rw [hwake]; rfl
    refine ⟨_, ringEntryFetched_turn (.ok l) hup hturn hring, ?_⟩
    rw [← remember_intake_of_turn hktl]
    refine entryFetched_intake ?_ ?_ ?_ ?_ h4 ((duplicate_of_turn hktl _).trans h5) <;> rw [hwake]
    · exact hroom
    · exact hring
    · exact hsup
    · exact hmgmt

end Sys2Proof.Machine
end

section
/-!
Proof of the statement about restarts of the Kettle (O39): what a restart leaves in progress, and the HALT in which a Kettle
out of service leaves the device.
-/

namespace Sys2Proof.Machine
open Sys2Proof Sys2Proof.Safety

/-! ## What the Kettle has in progress -/

/-- The commands that are parked or await their block, the restarts noted, and whether the Kettle is out of service: all of the
Kettle but the intake and the duplicate stores. -/
def progress (s : State) : List Parked × List Packet × List Nat × Bool :=
  (s.ktl.parked, s.ktl.fetching, s.ktl.restarts, s.ktl.dead)

@[simp] theorem deliver_progress (s : State) (c : Cmd) (f : Fate) (r : Reply) :
    progress (deliver s c f r) = progress s := by
  obtain ⟨_, _, _, h⟩ := deliver_ktl s c f r
  simp only [progress, h]

@[simp] theorem raise_progress (s : State) (src detail : Nat) : progress (raise s src detail) = progress s := by
  simp only [progress, raise_ktl]

@[simp] theorem deliverLate_progress (s : State) (c : Cmd) (f : Fate) (late : Bool) (op : Nat) (r : Reply) :
    progress (deliverLate s c f late op r) = progress s := by
  unfold deliverLate
  split <;> simp

@[simp] theorem interruptParked_ktl (s : State) (p : Parked) : (interruptParked s p).ktl = s.ktl :=
  same_ktl (interruptParked_view s p (by decide) (by decide) (by decide) (by decide) (by decide) (by decide))

theorem replyParked_progress (s : State) (p : Parked) : progress (replyParked s p) = progress s := by
  rw [replyParked, deliverLate_progress, progress, interruptParked_ktl, progress]

theorem replyFetching_progress (s : State) (p : Packet) : progress (replyFetching s p) = progress s :=
  deliverLate_progress ..

theorem foldl_progress {α : Type} {f : State → α → State} (hf : ∀ s a, progress (f s a) = progress s) (l : List α)
    (s : State) : progress (l.foldl f s) = progress s :=
  List.foldlRecOn (motive := fun t => progress t = progress s) l f rfl fun t h a _ => (hf t a).trans h

/-! ## The intake takes packets from the ports (R155) -/

theorem placeOne_progress (s : State) : progress (placeOne s) = progress s := by
  unfold placeOne
  dsimp only
  (repeat' split) <;> rfl

theorem iter_progress {f : State → State} (hf : ∀ s, progress (f s) = progress s) (n : Nat) (s : State) :
    progress (iter f n s) = progress s := by
  induction n generalizing s with
  | zero => rfl
  | succ n ih => rw [iter, ih, hf]

@[simp] theorem fillIntake_progress (s : State) : progress (fillIntake s) = progress s :=
  iter_progress placeOne_progress ..

/-! ## A restart (R167..R169) -/

/-- Whatever the interrupted commands were, a restart leaves none in progress, and is noted. -/
theorem restart_progress (s : State) : progress (restart s) = ([], [], s.now :: s.ktl.restarts, s.ktl.dead) := by
  unfold restart
  dsimp only
  rw [fillIntake_progress, raise_progress, foldl_progress replyFetching_progress, foldl_progress replyParked_progress]
  rfl

theorem restart_sys (s : State) : (restart s).sys = s.sys :=
  same_sys (restart_view s (by decide) (by decide) (by decide) (by decide) (by decide) (by decide) (by decide)
    (by decide) (by decide) (by decide) (by decide) (by decide))

/-! ## HALT for good (R43, R170) -/

/-- An entry to HALT ends in HALT from every mode, STANDBY and HALT among them. -/
theorem haltWith_mode (s : State) (r : Spoil) : (haltWith s r).sys.mode = .halt := by
  unfold haltWith
  split
  · simpa using ‹(s.sys.mode == .halt) = true›
  · rw [same_sys (stopIngest_view _ (by decide) (by decide) (by decide) (by decide) (by decide)),
      same_sys (abandonAll_view _ (by decide) (by decide) (by decide)),
      same_sys (spoilCommitted_view _ _ (by decide) (by decide) (by decide) (by decide) (by decide) (by decide)
        (by decide) (by decide) (by decide)), enterMode_sys]

theorem haltForGood_sys {s : State} (h : s.sys.mode ≠ .reset) (src : Nat) :
    (haltForGood s src).sys.mode = .halt ∧ (haltForGood s src).sys.haltUntilReset = true := by
  refine ⟨?_, rfl⟩
  change (haltEntry s src).sys.mode = .halt
  unfold haltEntry
  split
  · rename_i hentry
    simpa [h] using hentry
  · exact haltWith_mode ..

/-- A Kettle out of service: the device is in HALT until reset (R170). -/
theorem kettleDead_halts {s : State} (h : s.sys.mode ≠ .reset) (detail : Nat) :
    (kettleDead s detail).ktl.dead = true ∧ (kettleDead s detail).sys.mode = .halt ∧
      (kettleDead s detail).sys.haltUntilReset = true := by
  unfold kettleDead
  rw [haltForGood_ktl]
  exact ⟨rfl, haltForGood_sys (by simpa using h) _⟩

/-! ## A trigger -/

/-- The restarts noted in the 10 s before now (R170). -/
def recentRestarts (s : State) : List Nat := s.ktl.restarts.filter fun t => decide (s.now - t ≤ restartWindow)

/-- A trigger forgets the restarts that lie further back than 10 s. -/
def forgetRestarts (s : State) : State := s.modKtl fun k => { k with restarts := recentRestarts s }

theorem kettleTrigger_restarts {s : State} (hup : kettleUp s = true) (hfew : (recentRestarts s).length < 3)
    (detail : Nat) : kettleTrigger s detail true = restart (raise (forgetRestarts s) 0x10 detail) := by
  unfold kettleTrigger
  rw [hup]
  exact if_neg (Nat.not_le.mpr hfew)

/-- Past the limit, and at a self-test that fails, the Kettle goes out of service (R170). -/
theorem kettleTrigger_dead {s : State} {ok : Bool} (hup : kettleUp s = true)
    (hlast : 3 ≤ (recentRestarts s).length ∨ ok = false) (detail : Nat) :
    ∃ u d, kettleTrigger s detail ok = kettleDead u d ∧ u.sys = s.sys := by
  by_cases hmany : 3 ≤ (recentRestarts s).length
  · refine ⟨forgetRestarts s, 5, ?_, rfl⟩
    unfold kettleTrigger
    rw [hup]
    exact if_pos hmany
  · refine ⟨raise (forgetRestarts s) 0x10 detail, 4, ?_, raise_sys ..⟩
    obtain rfl := hlast.resolve_left hmany
    unfold kettleTrigger
    rw [hup]
    exact if_neg hmany

/-- Either command is a trigger, but for the mark that an injection leaves on what is raised (R519). -/
theorem exec_kettleTrigger {i : Bool → Instr} (hi : i = .kettleLockstepMismatch ∨ i = .kettleWatchdogExpiry)
    (ok : Bool) (s : State) : ∃ t detail, exec (i ok) s = .next t ∧ t.ktl = (kettleTrigger s detail ok).ktl ∧
      t.sys = (kettleTrigger s detail ok).sys := by
  rcases hi with rfl | rfl
  · exact ⟨_, 1, rfl, same_ktl (injected_view _ _ _ (by decide)), same_sys (injected_view _ _ _ (by decide))⟩
  · exact ⟨_, 2, rfl, rfl, rfl⟩

/-- Settles O39: a trigger within the limit is a `restart`, and any other one ends in `kettleDead`. -/
theorem kettleRestartsComplete : Obligations.KettleRestartsComplete := by
  intro s i hi hup
  obtain ⟨⟨-, hserves⟩, hmode⟩ : (s.sys.up = true ∧ s.ktl.dead = false) ∧ s.sys.mode ≠ .reset := by
    simpa [kettleUp] using hup
  refine ⟨fun hfew => ?_, fun ok hlast => ?_⟩
  · obtain ⟨t, detail, hexec, hktl, hsys⟩ := exec_kettleTrigger hi true s
    rw [kettleTrigger_restarts hup hfew] at hktl hsys
    have hnow : (raise (forgetRestarts s) 0x10 detail).now = s.now := same_now (raise_view _ _ _ (by decide))
    have hprogress := restart_progress (raise (forgetRestarts s) 0x10 detail)
    rw [hnow, raise_ktl, progress, ← hktl] at hprogress
    injection hprogress with hparked hrest
    injection hrest with hfetching hrest
    injection hrest with hrestarts hdead
    exact ⟨t, hexec, hparked, hfetching, hdead.trans hserves, hrestarts,
      congrArg Sys.mode (hsys.trans ((restart_sys _).trans (raise_sys ..)))⟩
  · obtain ⟨t, detail, hexec, hktl, hsys⟩ := exec_kettleTrigger hi ok s
    obtain ⟨u, d, hdead, hu⟩ := kettleTrigger_dead hup hlast detail
    refine ⟨t, hexec, ?_⟩
    rw [hktl, hsys, hdead]
    exact kettleDead_halts (hu ▸ hmode) d

end Sys2Proof.Machine
end

section
/-!
Proofs of the statements about the Caddy: the CRC-32C (O10), and the rows that move a descriptor, repair a copy and note a
guard failure (O41).
-/

namespace Sys2Proof.Machine
open Sys2Proof Sys2Proof.Safety

/-! ## CRC-32C (R212) -/

theorem iter_length_eq_foldl {α β : Type} (f : α → α) (l : List β) (a : α) :
    iter f l.length a = l.foldl (fun a _ => f a) a := by
  induction l generalizing a with
  | nil => rfl
  | cons _ l ih => exact ih (f a)

/-- The division by one byte is eight divisions by a bit. -/
theorem crc32cByte_eq_foldl (c : Word) (b : Byte) :
    crc32cByte c b = (List.range 8).foldl (fun c _ => crc32cBit c) (c ^^^ b.setWidth 32) := by
  rw [← iter_length_eq_foldl, List.length_range, crc32cByte]

/-- The register after a list is its CRC with the inversion taken back, and the next byte goes on from there. -/
theorem crc32c_append_byte (l : List Byte) (b : Byte) :
    crc32c (l ++ [b]) = crc32cByte (crc32c l ^^^ 0xFFFFFFFF#32) b ^^^ 0xFFFFFFFF#32 := by
  rw [crc32c, crc32c, BitVec.xor_assoc, BitVec.xor_self, BitVec.xor_zero, List.foldl_append]
  rfl

/-- Settles O10: a byte more is a `crc32cByte` more; the two values are evaluated. -/
theorem crc32cOfTheManual : Obligations.Crc32cOfTheManual := by
  refine ⟨fun l b => ?_, by decide +kernel, rfl⟩
  rw [crc32c_append_byte, crc32cByte_eq_foldl]
  rfl

/-! ## Descriptors -/

theorem leAt_lt (l : List Byte) (k n : Nat) : leAt l k n < 256 ^ n := by
  induction n generalizing k with
  | zero => exact Nat.one_pos
  | succ n ih =>
    have hbyte : u8 l k < 256 := (l.getD k 0).isLt
    have hrest := ih (k + 1)
    rw [leAt, Nat.pow_succ]
    omega

theorem igTag_toNat (d : List Byte) : (BitVec.ofNat 16 (igTag d)).toNat = igTag d :=
  Nat.mod_eq_of_lt (leAt_lt d 2 2)

/-- The only descriptor is found by its ring and tag in the phase that is asked for. -/
theorem findIngest_only {s : State} {d : Ingest} {p : IngestPhase → Bool} (hs : s.cad.ingest = [d])
    (hp : p d.phase = true) : findIngest s d.ring (BitVec.ofNat 16 (igTag d.bytes)) p = some d := by
  unfold findIngest
  rw [hs, igTag_toNat]
  simp [hp]

theorem toPhase_only {s : State} {d : Ingest} (hs : s.cad.ingest = [d]) (p : IngestPhase) :
    (toPhase s d p).cad.ingest = [{ d with phase := p }] := by
  simp [toPhase, hs, updFirst]

@[simp] theorem toPhase_cdc (s : State) (d : Ingest) (p : IngestPhase) : (toPhase s d p).cdc = s.cdc := rfl

/-- No lane is taken where the only descriptor does not wait for one (R221). -/
theorem encodeWaiting_only {s : State} {d : Ingest} (hs : s.cad.ingest = [d]) (hd : d.phase ≠ .reading none) :
    encodeWaiting s = s := by
  unfold encodeWaiting
  rw [hs, List.foldl_cons, List.foldl_nil]
  split
  · exact absurd ‹_› hd
  · rfl

/-! ## Lanes and completions -/

@[simp] theorem laneDone_cad (s : State) (d : Ingest) (st : Status) : (laneDone s d st).cad = s.cad :=
  same_cad (laneDone_view s d st (by decide))

/-- A lane whose ingest has ended does not stay with it (R264). -/
theorem Lane.ended_leaves_ingest {l : Lane} (h : l.state = .ingest) : l.ended.state ≠ .ingest := by
  unfold Lane.ended
  rw [if_neg (by simp [h])]
  split
  · exact LaneState.noConfusion
  · split
    · exact LaneState.noConfusion
    · split <;> exact LaneState.noConfusion

theorem laneDone_frees_lane {s : State} {d : Ingest} {n : Fin 12} (hw : d.worker = some n)
    (hl : s.cdc.enc[n].state = .ingest) (st : Status) : (laneDone s d st).cdc.enc[n].state ≠ .ingest := by
  unfold laneDone
  rw [hw]
  simpa using Lane.ended_leaves_ingest hl

theorem completeIngest_cad (s : State) (d : Ingest) (r : IgRes) :
    (completeIngest s d r).cad = { s.cad with ingest := s.cad.ingest.erase d } := by
  unfold completeIngest
  dsimp only
  rw [same_cad (replyIg_view _ _ _ _ (by decide) (by decide))]
  split <;> simp

/-- The low-space condition has two marks of its own, and touches nothing else of the Caddy (R235). -/
theorem caddyLow_cad (s : State) : ∃ above raised,
    (caddyLow s).cad = { s.cad with lowAbove := above, lowRaised := raised } := by
  unfold caddyLow
  dsimp only
  split
  · split
    · split
      · exact ⟨_, _, rfl⟩
      · exact ⟨_, _, raise_cad ..⟩
    · exact ⟨_, _, rfl⟩
  · exact ⟨_, _, rfl⟩

@[simp] theorem dramRequest_cad (s : State) : (dramRequest s).cad = s.cad :=
  same_cad (dramRequest_view s (by decide))

/-! ## ENCODE_BAND_END -/

/-- The Leaf that a lane's body becomes: all of the body, or the form-2 Leaf of a band of zeros (R222). -/
def leafMade (d : List Byte) (zero : Bool) (e : Encoded) : Leaf :=
  if zero then zeroLeaf d else madeLeaf d e.body e.dynamic

theorem leafMade_fields (d : List Byte) (zero : Bool) (e : Encoded) :
    (leafMade d zero e).body = (if zero then [] else e.body) ∧ (leafMade d zero e).job = igJob d ∧
      (leafMade d zero e).key = igKey d ∧ (leafMade d zero e).form = (if zero then 2 else 1) := by
  cases zero <;> exact ⟨rfl, rfl, rfl, rfl⟩

/-- A body within the limit that the lane has verified becomes the Leaf to write, and its lane is free of the descriptor
(R256, R257). -/
theorem bodyMade_only {s : State} {d : Ingest} {n : Fin 12} (hs : s.cad.ingest = [d]) (hw : d.worker = some n)
    (hl : s.cdc.enc[n].state = .ingest) (zero : Bool) (e : Encoded) :
    (bodyMade s d n zero e).cad.ingest = [{ d with phase := .writing (leafMade d.bytes zero e) zero }] ∧
      (bodyMade s d n zero e).cdc.enc[n].state ≠ .ingest := by
  have hlane : ((laneDone s d .ok).modEnc n fun l => { l with outBytes := l.outBytes + e.body.length }).cad.ingest = [d] := by
    simp [hs]
  have hphase := toPhase_only hlane (.writing (leafMade d.bytes zero e) zero)
  unfold bodyMade
  dsimp only
  rw [← leafMade, encodeWaiting_only hphase nofun]
  exact ⟨hphase, by simpa using laneDone_frees_lane hw hl .ok⟩

theorem bandEncoded_good {s : State} {d : Ingest} {n : Fin 12} {raw : List Byte}
    (hlimit : (igEncoded d.bytes n raw).body.length ≤ igLimit s d.bytes)
    (hverified : selfVerified (igEncoded d.bytes n raw).body (igLen d.bytes) (igCrc d.bytes) = true) :
    bandEncoded s d n raw false = bodyMade s d n (igZero d.bytes raw) (igEncoded d.bytes n raw) := by
  simp [bandEncoded, Nat.not_lt.mpr hlimit, hverified]

theorem exec_encodeBandEnd_only {s : State} {d : Ingest} {n : Fin 12} {raw : List Byte} (hm : s.sys.mode ≠ .reset)
    (hs : s.cad.ingest = [d]) (hd : d.phase = .read n raw) (upset : Bool) :
    exec (.encodeBandEnd n (.whole upset)) s = .next (bandEncoded s d n raw upset) := by
  have hw : d.worker = some n := by rw [Ingest.worker, hd]
  refine congrArg Host.Outcome.next ?_
  rw [whenUp_eq _ hm, hs]
  simp [hw, encodeEnded, hd]

/-! ## LEAF_ENTRY -/

theorem placeLeaf_job (s : State) (l : Leaf) : (placeLeaf s l).job = l.job := by
  unfold placeLeaf
  split <;> rfl

theorem placeLeaf_key (s : State) (l : Leaf) : (placeLeaf s l).key = l.key := by
  unfold placeLeaf
  split <;> rfl

/-- The Leaf entered stands in place of the one of its key, and its descriptor is complete (R227). -/
theorem enterLeaf_cad (s : State) (d : Ingest) (l : Leaf) (zero : Bool) :
    (enterLeaf s d l zero).cad.ingest = s.cad.ingest.erase d ∧
      (enterLeaf s d l zero).cad.leaves =
        (s.cad.leaves.filter fun x => !(x.job == l.job && x.key == l.key)) ++ [placeLeaf s l] := by
  unfold enterLeaf
  dsimp only
  obtain ⟨_, _, hlow⟩ := caddyLow_cad (completeIngest _ d _)
  rw [hlow, completeIngest_cad]
  simp [placeLeaf_job, placeLeaf_key]

theorem exec_leafEntry_only {s : State} {d : Ingest} {l : Leaf} {zero : Bool} (hm : s.sys.mode ≠ .reset)
    (hs : s.cad.ingest = [d]) (hd : d.phase = .writing l zero) (hr : entryRefusal s d l = none)
    (hevict : evictComes s d = false) (hcommit : commitComes s d = false) :
    exec (.leafEntry d.ring (BitVec.ofNat 16 (igTag d.bytes))) s = .next (enterLeaf s d l zero) := by
  refine congrArg Host.Outcome.next ?_
  rw [whenUp_eq _ hm, findIngest_only hs (by rw [hd])]
  simp [hd, leafEntry, hevict, hcommit, hr]

/-! ## Repairs and guard failures -/

/-- The repair of a copy makes it good, counts, and takes the repair off the list (R233). -/
theorem exec_caddyRepairComplete_good {s : State} {job key : Word} {c : Fin 2} (hm : s.sys.mode ≠ .reset)
    (hs : s.cad.repairs = [(job, key, c)]) :
    exec (.caddyRepairComplete job key true) s = .next (raise ((modLeaf s job key fun l => l.setCopy c.1 .good).modCad
      fun x => { x with repaired := inc32 x.repaired, repairs := x.repairs.erase (job, key, c) }) 0x20 0) := by
  refine congrArg Host.Outcome.next ?_
  rw [whenUp_eq _ hm, hs]
  simp

theorem guardRaise_drc (s : State) (a : DWord) : (guardRaise s a).drc = { s.drc with
    ch := updF s.drc.ch (channelOf s a.toNat) fun x =>
      { x with guardFails := inc32 x.guardFails, lastFail := a, flags := x.flags ||| 0x01 } } := by
  simp [guardRaise]

/-- What a requester of no stored copy does leaves the counts of the channels (R478). -/
theorem guardRecovery_other_drc (s : State) (b : Bool) : (guardRecovery s (.other b)).drc = s.drc := by
  cases b <;> simp [guardRecovery]

theorem exec_guardFailure_passed {s : State} {addr check : DWord} {data : List Byte} (hm : s.sys.mode ≠ .reset)
    (h : guardPasses data addr.toNat check = true) (g : GuardTarget) (scan : Bool) :
    exec (.guardFailure g addr data check scan) s = .next s := by
  refine congrArg Host.Outcome.next ?_
  rw [whenUp_eq _ hm, if_pos h]

theorem exec_guardFailure_failed {s : State} {addr check : DWord} {data : List Byte} (hm : s.sys.mode ≠ .reset)
    (h : guardPasses data addr.toNat check = false) (g : GuardTarget) :
    exec (.guardFailure g addr data check false) s = .next (guardRecovery (guardRaise s addr) g) := by
  refine congrArg Host.Outcome.next ?_
  rw [whenUp_eq _ hm, h]
  simp

/-- Settles O41: each row by its equation for the only descriptor or repair, and by what that leaves of the Caddy, the lane
and the channel. -/
theorem caddyRowsComplete : Obligations.CaddyRowsComplete := by
  intro s hm
  refine ⟨fun d n raw zero hs hd hlimit hverified hl hzero => ?_, fun d l zero hs hd hr hevict hcommit => ?_,
    fun job key c l hr hs hjob hkey => ?_, fun g addr data check scan h => exec_guardFailure_passed hm h g scan,
    fun b addr data check h => ?_⟩
  · have hw : d.worker = some n := by rw [Ingest.worker, hd]
    obtain ⟨hingest, hlane⟩ := bodyMade_only hs hw hl zero (igEncoded d.bytes n raw)
    obtain ⟨hbody, hjob, hkey, hform⟩ := leafMade_fields d.bytes zero (igEncoded d.bytes n raw)
    refine ⟨_, leafMade d.bytes zero (igEncoded d.bytes n raw), exec_encodeBandEnd_only hm hs hd false, ?_⟩
    rw [bandEncoded_good hlimit hverified, hzero]
    exact ⟨hingest, hbody, hjob, hkey, hform, hlane⟩
  · obtain ⟨hingest, hleaves⟩ := enterLeaf_cad s d l zero
    exact ⟨_, exec_leafEntry_only hm hs hd hr hevict hcommit, by rw [hingest, hs, List.erase_cons_head], hleaves⟩
  · subst hjob hkey
    refine ⟨_, exec_caddyRepairComplete_good hm hr, ?_⟩
    simp [modLeaf, hs, hr, updFirst]
  · refine ⟨_, exec_guardFailure_failed hm h (.other b), ?_⟩
    rw [guardRecovery_other_drc, guardRaise_drc]
    exact ⟨by rw [updF_get_same], by rw [updF_get_same], fun n hn => updF_get_other _ _ _ _ hn⟩

end Sys2Proof.Machine
end

section
/-!
Proofs of the statements about the Steep: decode assignments and reports (O43), verify deadlines and the exposure of bands
(O44). What the shared operations leave of the sequences, slots, lanes and ledger comes first, then an equation per command.
-/

namespace Sys2Proof.Machine
open Sys2Proof Sys2Proof.Safety

/-! ## What the shared operations leave -/

@[simp] theorem raise_free (s : State) (src detail : Nat) : (raise s src detail).free = s.free :=
  same_free (raise_view s src detail (by decide))

@[simp] theorem raise_stp (s : State) (src detail : Nat) : (raise s src detail).stp = s.stp :=
  same_stp (raise_view s src detail (by decide))

/-- A detection under a condition of any kind leaves the Steep alone too. -/
theorem raise_if_stp (c : Prop) [Decidable c] (s : State) (src detail : Nat) :
    (if c then raise s src detail else s).stp = s.stp := by
  rw [apply_ite State.stp, raise_stp, ite_self]

@[simp] theorem raise_cdc (s : State) (src detail : Nat) : (raise s src detail).cdc = s.cdc :=
  same_cdc (raise_view s src detail (by decide))

@[simp] theorem spoil_stp (s : State) (i : Fin 512) (r : Spoil) : (spoil s i r).stp = s.stp :=
  same_stp (spoil_view s i r (by decide))

@[simp] theorem dramRequest_stp (s : State) : (dramRequest s).stp = s.stp :=
  same_stp (dramRequest_view s (by decide))

@[simp] theorem dramRequest_cdc (s : State) : (dramRequest s).cdc = s.cdc :=
  same_cdc (dramRequest_view s (by decide))

@[simp] theorem freeLeaves_stp (s : State) (p : Leaf → Bool) : (freeLeaves s p).stp = s.stp :=
  same_stp (freeLeaves_view s p (by decide))

@[simp] theorem freeLeaves_led (s : State) (p : Leaf → Bool) : (freeLeaves s p).led = s.led :=
  same_led (freeLeaves_view s p (by decide))

@[simp] theorem retireCheck_stp (before s : State) : (retireCheck before s).stp = s.stp :=
  same_stp (retireCheck_view before s (by decide))

@[simp] theorem retireCheck_led (before s : State) : (retireCheck before s).led = s.led :=
  same_led (retireCheck_view before s (by decide))

@[simp] theorem attemptOver_free (s : State) (job key : Word) : (attemptOver s job key).free = s.free :=
  same_free (attemptOver_view s job key (by decide))

@[simp] theorem attemptOver_stp (s : State) (job key : Word) : (attemptOver s job key).stp = s.stp :=
  same_stp (attemptOver_view s job key (by decide))

@[simp] theorem attemptOver_cdc (s : State) (job key : Word) : (attemptOver s job key).cdc = s.cdc :=
  same_cdc (attemptOver_view s job key (by decide))

@[simp] theorem panicUpdate_free (s : State) : (panicUpdate s).free = s.free :=
  same_free (panicUpdate_view s (by decide) (by decide))

@[simp] theorem panicUpdate_cdc (s : State) : (panicUpdate s).cdc = s.cdc :=
  same_cdc (panicUpdate_view s (by decide) (by decide))

@[simp] theorem panicUpdate_led (s : State) : (panicUpdate s).led = s.led :=
  same_led (panicUpdate_view s (by decide) (by decide))

/-- Panic is the schedulers' own: no sequence and no slot changes as it begins or ends (R287). -/
@[simp] theorem panicUpdate_st (s : State) : (panicUpdate s).stp.st = s.stp.st := by
  unfold panicUpdate
  dsimp only
  split
  · rw [raise_stp]; rfl
  · split <;> rfl

theorem updAt_getElem? {α : Type} {l : List α} {i : Nat} {b : α} (f : α → α) (h : l[i]? = some b) :
    (updAt f i l)[i]? = some (f b) := by
  induction l generalizing i with
  | nil => simp at h
  | cons x xs ih => cases i with
    | zero => simpa [updAt] using congrArg f (Option.some.inj h)
    | succ i => exact ih h

/-- The band updated, read at its place. -/
theorem modBand_band {s : State} {k : Fin 6} {i : Nat} {b : Band} (g : Band → Band)
    (hb : s.stp.st[k].bands[i]? = some b) : (modBand s k i g).stp.st[k].bands[i]? = some (g b) := by
  rw [modBand, State.modSteep_stp, updF_get_same]
  exact updAt_getElem? g hb

@[simp] theorem modBand_slots (s : State) (k : Fin 6) (i : Nat) (g : Band → Band) :
    (modBand s k i g).stp.st[k].slots = s.stp.st[k].slots := by
  rw [modBand, State.modSteep_stp, updF_get_same]

@[simp] theorem modBand_cdc (s : State) (k : Fin 6) (i : Nat) (g : Band → Band) : (modBand s k i g).cdc = s.cdc := rfl

/-! ## Assignment -/

/-- Work of a first attempt is assigned when its station is not fenced and a lane and a slot are free (R275, R276). -/
theorem tryAssign_first {s : State} {w : Work} {b : Band} {lane : Fin 16} {n : Fin 6} (hw : w.first = true)
    (hb : s.stp.st[w.station].bands[w.band]? = some b) (hf : stationFenced s w.station.1 = false)
    (hl : decodeLane s b = some lane)
    (hn : ((List.finRange 6).find? fun n =>
      !s.stp.st[w.station].slots[n].busy && !s.stp.st[w.station].slots[n].retired) = some n) :
    tryAssign s w = some (assignBand s w b lane n (firstCopy s b)) := by
  unfold tryAssign
  simp only [hb, hf, hl, hw, hn]
  rfl

theorem exec_decodeAssign_head {s t : State} {w : Work} {rest : List Work} (hm : s.sys.mode ≠ .reset)
    (hh : s.sys.mode ≠ .halt) (hw : waitingWork s = w :: rest) (ht : tryAssign s w = some t) :
    exec .decodeAssign s = .next t := by
  refine congrArg Host.Outcome.next ?_
  rw [whenUp_eq _ hm, hw]
  simp [hh, ht]

/-- What a band becomes as it takes a lane and a slot; a second attempt keeps the lanes that it avoids (R275). -/
def Band.assigned (second : Bool) (lane : Fin 16) (n : Fin 6) (mirror : Bool) (b : Band) : Band :=
  { b with
    state := if b.state == .wait then .decode1 else b.state, slot := some n, mirror := mirror, waiting := false
    migrating := false, lanes := if second then b.lanes else lane :: b.lanes }

theorem assignBand_st (s : State) (w : Work) (b : Band) (lane : Fin 16) (n : Fin 6) (mirror : Bool) :
    (assignBand s w b lane n mirror).stp.st = updF s.stp.st w.station fun x => { x with
      slots := updF x.slots n fun y =>
        { y with busy := true, epoch := s.stp.st[w.station].slots[n].epoch + 1, owner := some lane }
      bands := updAt (Band.assigned (b.state == .decode2) lane n mirror) w.band x.bands } := by
  rw [assignBand, State.modDec_stp, dramRequest_stp, State.modSteep_stp]
  rfl

theorem assignBand_band {s : State} {w : Work} {b : Band} (lane : Fin 16) (n : Fin 6) (mirror : Bool)
    (hb : s.stp.st[w.station].bands[w.band]? = some b) :
    (assignBand s w b lane n mirror).stp.st[w.station].bands[w.band]? =
      some (b.assigned (b.state == .decode2) lane n mirror) := by
  rw [assignBand_st, updF_get_same]
  exact updAt_getElem? _ hb

theorem assignBand_slot (s : State) (w : Work) (b : Band) (lane : Fin 16) (n : Fin 6) (mirror : Bool) :
    (assignBand s w b lane n mirror).stp.st[w.station].slots[n] = { s.stp.st[w.station].slots[n] with
      busy := true, epoch := s.stp.st[w.station].slots[n].epoch + 1, owner := some lane } := by
  rw [assignBand_st, updF_get_same, updF_get_same]

theorem assignBand_lane_state (s : State) (w : Work) (b : Band) (lane : Fin 16) (n : Fin 6) (mirror : Bool) :
    (assignBand s w b lane n mirror).cdc.dec[lane].state = .steep := by
  rw [assignBand, State.modDec_cdc, updF_get_same]
  rfl

/-! ## Reports -/

/-- A report carries the epoch of its assignment (R246). -/
@[simp] theorem attemptResult_epoch (s : State) (a : Assign) (u : AttemptUpset) :
    (attemptResult s a u).2.epoch = a.epoch := by
  unfold attemptResult
  cases findLeaf s a.job a.key with
  | none => rfl
  | some l => cases u <;> rfl

/-- What a lane keeps of an attempt that it has reported (R268). -/
def Lane.reported (r : AttemptReport) (l : Lane) : Lane :=
  { l.ended with
    lastOutcome := r.outcome, fails := if r.outcome = 0 then l.fails else inc32 l.fails
    outBytes := l.outBytes + r.rawBytes }

@[simp] theorem Lane.reported_assign (r : AttemptReport) (l : Lane) : (l.reported r).assign = none := by
  change l.ended.assign = none
  unfold Lane.ended
  (repeat' split) <;> rfl

/-- The state in which the report of a current assignment is judged: the lane has ended its attempt, and what it wrote stands
in the slot (R271, R278). -/
def attemptWritten (s : State) (lane : Fin 16) (a : Assign) (u : AttemptUpset) : State :=
  (s.modDec lane (Lane.reported (attemptResult s a u).2)).modSteep a.station fun y => { y with
    slots := updF y.slots a.slot fun z =>
      { z with data := (attemptResult s a u).1, checks := slotChecks (attemptResult s a u).1 } }

section
variable (s : State) (lane : Fin 16) (a : Assign) (u : AttemptUpset)

@[simp] theorem attemptWritten_slot : (attemptWritten s lane a u).stp.st[a.station].slots[a.slot] =
    { s.stp.st[a.station].slots[a.slot] with
      data := (attemptResult s a u).1, checks := slotChecks (attemptResult s a u).1 } := by
  rw [attemptWritten, State.modSteep_stp, updF_get_same, updF_get_same, State.modDec_stp]

@[simp] theorem attemptWritten_lane :
    (attemptWritten s lane a u).cdc.dec[lane] = s.cdc.dec[lane].reported (attemptResult s a u).2 := by
  rw [attemptWritten, State.modSteep_cdc, State.modDec_cdc, updF_get_same]

end

theorem attemptWritten_band {s : State} (lane : Fin 16) {a : Assign} (u : AttemptUpset) {i : Nat} {b : Band}
    (hb : s.stp.st[a.station].bands[i]? = some b) :
    (attemptWritten s lane a u).stp.st[a.station].bands[i]? = some b := by
  rwa [attemptWritten, State.modSteep_stp, updF_get_same, State.modDec_stp]

theorem reportAttempt_current {s : State} {lane : Fin 16} {a : Assign} {i : Nat} {b : Band} (u : AttemptUpset)
    (hc : currentBand s lane a = some i) (hb : s.stp.st[a.station].bands[i]? = some b) :
    reportAttempt s lane a u = panicUpdate (attemptOver
      (if (attemptResult s a u).2.outcome = 0 then bandPassed (attemptWritten s lane a u) a.station i b lane
        else bandFailed (attemptWritten s lane a u) a.station i b lane (attemptResult s a u).2.outcome) a.job a.key) := by
  unfold reportAttempt
  simp only [attemptResult_epoch, hc, State.modSteep_stp, State.modDec_stp, updF_get_same, hb]
  rfl

theorem reportAttempt_superseded {s : State} {lane : Fin 16} {a : Assign} (u : AttemptUpset)
    (hc : currentBand s lane a = none) :
    reportAttempt s lane a u = panicUpdate (attemptOver
      (staleReport (s.modDec lane (Lane.reported (attemptResult s a u).2)) (attemptResult s a u).2.rawBytes)
      a.job a.key) := by
  unfold reportAttempt
  simp only [attemptResult_epoch, hc]
  rfl

/-- A station at which no first line and no facet's read waits for a report. -/
theorem readsDue_of_none {s : State} {k : Fin 6} (hf : s.btu[k].firstDue = false) (hr : s.btu[k].readDue = none) :
    readsDue s k = s := by
  unfold readsDue
  simp only [hf, hr]
  split <;> rfl

theorem exec_decodeAttemptReport {s : State} {lane : Fin 16} {a : Assign} (u : AttemptUpset) (hm : s.sys.mode ≠ .reset)
    (ha : s.cdc.dec[lane].assign = some a) (hl : s.cdc.dec[lane].state = .steep) (hf : s.btu[a.station].firstDue = false)
    (hr : s.btu[a.station].readDue = none) :
    exec (.decodeAttemptReport lane u) s = .next (reportAttempt s lane a u) := by
  have hbtu : (reportAttempt s lane a u).btu = s.btu := same_btu (reportAttempt_view s lane a u (by decide) (by decide)
    (by decide) (by decide) (by decide) (by decide))
  refine congrArg Host.Outcome.next ?_
  rw [whenUp_eq _ hm, ha]
  simp only [hl, beq_self_eq_true, if_true]
  exact readsDue_of_none (by rw [hbtu, hf]) (by rw [hbtu, hr])

/-- A band that has passed: VERIFIED, with the attempt that did it as its outcome (R274, R288). -/
def Band.passed (out : Outcome) (b : Band) : Band :=
  { b with state := .verified, outcome := some out, waiting := false }

/-- A band whose first attempt has failed waits for its second (R274, R285). -/
def Band.failedFirst (outcome : Nat) (lane : Fin 16) (b : Band) : Band :=
  { b with state := .decode2, waiting := true, migrating := false, failed := some (outcome, lane) }

/-- A pass of a band with no failed attempt verifies it; no lane has a strike to answer for (R266, R274). -/
theorem bandPassed_unfailed {s : State} {k : Fin 6} {i : Nat} {b : Band} (lane : Fin 16) (hb : b.failed = none) :
    bandPassed s k i b lane = modBand s k i (Band.passed (if b.state = .decode1 then .first else .mirror)) := by
  simp only [bandPassed, hb, beq_iff_eq]
  rfl

/-- A failing first report before the deadline sends the band to a second attempt (R274, R285). -/
theorem bandFailed_first {s : State} {k : Fin 6} {i : Nat} {b : Band} (lane : Fin 16) (outcome : Nat)
    (hb : b.state = .decode1) (hd : ∀ d, b.deadline = some d → ppc s < d) :
    bandFailed s k i b lane outcome = raise (modBand s k i (Band.failedFirst outcome lane)) 0x50 b.key.toNat := by
  have hearly : ∀ d, b.deadline = some d → ¬d ≤ ppc s := fun d h => Nat.not_le.mpr (hd d h)
  unfold bandFailed
  cases hb' : b.deadline with
  | none => simp only [hb]; rfl
  | some d => simp only [hb, hearly d hb']; rfl

/-- Settles O43: each row by its equation, and by what that leaves of the band, its slot and the lane. -/
theorem decodeRowsComplete : Obligations.DecodeRowsComplete := by
  intro s hm
  refine ⟨fun w rest b lane n hh hw hfirst hb hwait hf hl hn => ?_, fun lane a u i b ha hl hf hr hc hb ho hfail => ?_,
    fun lane a u i b ha hl hf hr hc hb ho hfirst hd => ?_, fun lane a u ha hl hf hr hc => ?_⟩
  · refine ⟨_, _, exec_decodeAssign_head hm hh hw (tryAssign_first hfirst hb hf hl hn), assignBand_band lane n _ hb, ?_⟩
    rw [assignBand_slot]
    exact ⟨by simp [Band.assigned, hwait], rfl, rfl, assignBand_lane_state .., rfl, rfl, rfl⟩
  · have hexec := exec_decodeAttemptReport u hm ha hl hf hr
    rw [reportAttempt_current u hc hb, if_pos ho, bandPassed_unfailed lane hfail] at hexec
    have hband := modBand_band (Band.passed (if b.state = .decode1 then .first else .mirror))
      (attemptWritten_band lane u hb)
    refine ⟨_, _, hexec, by rw [panicUpdate_st, attemptOver_stp, hband], rfl, rfl, ?_⟩
    rw [panicUpdate_st, attemptOver_stp, modBand_slots, attemptWritten_slot, panicUpdate_cdc, attemptOver_cdc,
      modBand_cdc, attemptWritten_lane]
    exact ⟨rfl, rfl, Lane.reported_assign .., ho⟩
  · have hexec := exec_decodeAttemptReport u hm ha hl hf hr
    have hfailed := bandFailed_first (s := attemptWritten s lane a u) (k := a.station) (i := i) lane
      (attemptResult s a u).2.outcome hfirst hd
    rw [reportAttempt_current u hc hb, if_neg ho, hfailed] at hexec
    have hband := modBand_band (Band.failedFirst (attemptResult s a u).2.outcome lane) (attemptWritten_band lane u hb)
    refine ⟨_, _, hexec, by rw [panicUpdate_st, attemptOver_stp, raise_stp, hband], rfl, rfl, rfl, ?_⟩
    rw [panicUpdate_cdc, attemptOver_cdc, raise_cdc, modBand_cdc, attemptWritten_lane]
    exact if_neg ho
  · refine ⟨_, exec_decodeAttemptReport u hm ha hl hf hr, ?_⟩
    rw [reportAttempt_superseded u hc]
    simp [staleReport]

/-! ## Verify deadlines -/

/-- The station's only band is blanked at its deadline, unless a report on it is still to come in the cycle (R273, R285). -/
theorem exec_verifyDeadline_only {s : State} {k : Fin 6} {b : Band} (hm : s.sys.mode ≠ .reset)
    (hs : s.stp.st[k].bands = [b]) :
    exec (.verifyDeadline k) s =
      .next (if overdue (ppc s) b && !reportComes s k 0 then blankBand s k 0 .steepDeadline 0 else s) := by
  refine congrArg Host.Outcome.next ?_
  rw [whenUp_eq _ hm, hs, List.length_singleton, List.range_one, List.foldl_cons, List.foldl_nil, hs]
  rfl

/-- A band that is exposed as BLANK (R279). -/
def Band.blanked (b : Band) : Band := { b with state := .blank, waiting := false, outcome := some .blank }

theorem blankBand_only {s : State} {k : Fin 6} {b : Band} (hs : s.stp.st[k].bands = [b]) (r : Spoil) (outcome : Nat) :
    (blankBand s k 0 r outcome).stp.st[k].bands = [b.blanked] := by
  have hb : s.stp.st[k].bands[0]? = some b := by rw [hs]; rfl
  unfold blankBand
  rw [hb]
  dsimp only
  rw [panicUpdate_st, raise_stp, spoil_stp, State.modStp_stp, State.modSteep_stp, updF_get_same, hs]
  rfl

/-! ## Exposure -/

/-- The first line of the station's only band, once due, begins its exposure; panic and STP_LEAD_ZERO are no part of the
sequences (R274, R287, R291). -/
theorem firstLine_st {s : State} {k : Fin 6} {b : Band} {d : Nat} (hs : s.stp.st[k].bands = [b])
    (hb : b.state = .verified) (hd : b.deadline = some d) (hdue : d + 512 ≤ ppc s) :
    (firstLine s k).stp.st =
      updF s.stp.st k fun x => { x with bands := updAt (fun c => { c with state := .exposing }) 0 x.bands } := by
  have hlate : d + bandCounts ≤ ppc s + bowLead s k := Nat.le_add_right_of_le hdue
  have hfirst : s.stp.st[k].bands.findIdx? Band.before = some 0 := by
    rw [hs, List.findIdx?_cons, Band.before, hb]
    rfl
  have hbands : s.stp.st[k].bands[0]? = some b := by rw [hs]; rfl
  unfold firstLine
  simp only [hfirst, hbands, hd, hlate, hb]
  exact (panicUpdate_st _).trans (congrArg Steep.st (raise_if_stp ..))

theorem exec_bandFirstLine {s : State} {k : Fin 6} (hm : s.sys.mode ≠ .reset) (hr : stationReport s k = false) :
    exec (.bandFirstLine k) s = .next (firstLine s k) := by
  refine congrArg Host.Outcome.next ?_
  rw [whenUp_eq _ hm, bandFirstLine, hr]
  rfl

@[simp] theorem SteepStation.counted_slots (x : SteepStation) (o : Outcome) : (x.counted o).slots = x.slots := by
  cases o <;> rfl

@[simp] theorem SteepStation.counted_bands (x : SteepStation) (o : Outcome) : (x.counted o).bands = x.bands := by
  cases o <;> rfl

theorem exec_bandDone_only {s : State} {k : Fin 6} {b : Band} (hm : s.sys.mode ≠ .reset) (hs : s.stp.st[k].bands = [b])
    (hb : b.state = .exposing) : exec (.bandDone k) s = .next (finishBand s k 0 b) := by
  refine congrArg Host.Outcome.next ?_
  rw [whenUp_eq _ hm, hs]
  simp [hb, List.findIdx?_cons]

/-- The station's only band leaves the sequence as it is DONE, and its slot is freed (R274, R280). -/
theorem finishBand_only {s : State} {k : Fin 6} {b : Band} {n : Fin 6} (hs : s.stp.st[k].bands = [b])
    (hn : b.slot = some n) :
    (finishBand s k 0 b).stp.st[k].bands = [] ∧
      (finishBand s k 0 b).stp.st[k].slots[n] = s.stp.st[k].slots[n].freed := by
  unfold finishBand
  dsimp only
  rw [panicUpdate_st, freeLeaves_stp, State.modSheet_stp, retireCheck_stp, State.modSteep_stp, updF_get_same, hs, hn]
  simp [updAt]

/-- The outcome of a band that is DONE goes to its sheet's entry (R288). -/
theorem finishBand_entry {s : State} (k : Fin 6) (i : Nat) {b : Band} {o : Outcome} {e : Sheet} (ho : b.outcome = some o)
    (he : s.led.entries[b.sheet] = some e) :
    (finishBand s k i b).led.entries[b.sheet] = some { e with outcomes := e.outcomes ++ [(k.1, b.band, o)] } := by
  unfold finishBand
  dsimp only
  rw [panicUpdate_led, freeLeaves_led, State.modSheet_led, retireCheck_led, State.modSteep_led, updF_get_same, he, ho]
  rfl

/-- A word read from the slot of the station's only band, which is exposing (R271, R280). -/
theorem exec_slotReadError_only {s : State} {k : Fin 6} {b : Band} {n : Fin 6} (hm : s.sys.mode ≠ .reset)
    (hs : s.stp.st[k].bands = [b]) (hb : b.state = .exposing) (hn : b.slot = some n) (word : Nat) (data : BitVec 64)
    (check : Byte) :
    exec (.slotReadError k word data check) s =
      .next (if b.outcome == some .blank || !slotFails s.stp.st[k].slots[n] word data check then s
        else slotError s k 0 b n word data check) := by
  refine congrArg Host.Outcome.next ?_
  rw [whenUp_eq _ hm, hs]
  simp only [List.findIdx?_cons, hb, beq_self_eq_true, if_true, List.getElem?_cons_zero, hn]

theorem slotError_stp (s : State) (k : Fin 6) (i : Nat) (b : Band) (n : Fin 6) (word : Nat) (data : BitVec 64)
    (check : Byte) :
    (slotError s k i b n word data check).stp = { s.stp with
      st := updF s.stp.st k fun x => { x with
        slots := updF x.slots n fun y => y.readAs word data check
        bands := updAt (fun c => { c with outcome := some .slotRead }) i x.bands }
      lastKey := b.key } := by
  unfold slotError
  dsimp only
  rw [raise_stp]
  split
  · rw [spoil_stp]; rfl
  · rfl

/-- Settles O44: each row by its equation for the station's only band, and by what that leaves of the sequence, the slot and
the ledger. -/
theorem exposureRowsComplete : Obligations.ExposureRowsComplete := by
  intro s k b hm hs
  refine ⟨fun hover hreport => ?_, fun hearly => ?_, fun d hb hd hdue hr => ?_, fun n o e hb hn ho he => ?_,
    fun n word data check hb hn hpass => ?_, fun n word data check hb hn ho hfail => ?_⟩
  · have hexec := exec_verifyDeadline_only hm hs
    rw [hover, hreport, Bool.not_false, Bool.and_true, if_pos rfl] at hexec
    exact ⟨_, _, hexec, blankBand_only hs .steepDeadline 0, rfl, rfl, rfl⟩
  · rw [exec_verifyDeadline_only hm hs, hearly]
    rfl
  · refine ⟨_, exec_bandFirstLine hm hr, ?_⟩
    rw [firstLine_st hs hb hd hdue]
    exact ⟨by rw [updF_get_same, hs]; rfl, fun j hj => updF_get_other _ _ _ _ hj⟩
  · obtain ⟨hbands, hslot⟩ := finishBand_only hs hn
    refine ⟨_, _, exec_bandDone_only hm hs hb, hbands, ?_, ?_, finishBand_entry k 0 ho he, rfl⟩ <;> rw [hslot] <;> rfl
  · rw [exec_slotReadError_only hm hs hb hn, hpass, Bool.not_false, Bool.or_true]
    rfl
  · have hexec := exec_slotReadError_only hm hs hb hn word data check
    rw [hfail, Bool.not_true, Bool.or_false, if_neg (by simpa using ho)] at hexec
    refine ⟨_, hexec, ?_⟩
    rw [slotError_stp]
    refine ⟨?_, ?_, rfl, fun j hj => updF_get_other _ _ _ _ hj⟩
    · rw [updF_get_same, hs]
      rfl
    · rw [updF_get_same, updF_get_same]
      rfl

end Sys2Proof.Machine
end

section
/-!
Proof of the statement about the services of the stations (O47): delay-line calibration (R304, R305) and the samples of
the APC beam (R309, R467). What each operation does to its station comes first.
-/

namespace Sys2Proof.Machine
open Sys2Proof Sys2Proof.Safety

/-! ## Delay-line calibration (R304, R305) -/

/-- A station whose calibration starts, rolling or all lines at once. -/
def Station.calStarted (rolls : Bool) (x : Station) : Station :=
  { x with calRunning := true, calDue := true, calRolling := rolls, calBeams := 0, calLines := [] }

/-- A station whose calibration waits for the next interval outside a sheet. -/
def Station.calWaits (x : Station) : Station := { x with calDue := true }

/-- A station whose calibration has completed, with its pending tables. -/
def Station.calDone (temp : Int) (taps : List Nat) (now : Nat) (short : Bool) (x : Station) : Station :=
  { x with
    calRunning := false, calDue := false, calTemp := temp, cals := satAdd 16 x.cals 1, tapsPending := some taps
    pendingSince := now, calShort := short }

/-- Outside a sheet, and inside one with a window of 16 µs, a calibration that falls due starts; it rolls inside. -/
theorem calibrationDue_starts {s : State} {k : Fin 6} (h : insideSheet s k = true → 16000000 ≤ blankWindow s.btu[k]) :
    StationMod s (calibrationDue s k) k (Station.calStarted (insideSheet s k)) := by
  have hroom : ¬ ((insideSheet s k && decide (blankWindow s.btu[k] < 16000000)) = true) := by
    rw [Bool.and_eq_true, decide_eq_true_eq]
    exact fun ⟨hin, hshort⟩ => absurd (h hin) (Nat.not_le.mpr hshort)
  rw [calibrationDue, if_neg hroom]
  rfl

theorem calibrationDue_waits {s : State} {k : Fin 6} (hin : insideSheet s k = true)
    (hshort : blankWindow s.btu[k] < 16000000) : StationMod s (calibrationDue s k) k Station.calWaits := by
  rw [calibrationDue, if_pos (by rw [hin, decide_eq_true hshort]; rfl)]
  rfl

/-- A completed calibration writes the pending tables; a line that is too short is raised, which no station feels. -/
theorem calibrated_station (s : State) (k : Fin 6) (taps : List Nat) :
    StationMod s (calibrated s k taps) k
      (Station.calDone (compTemp s) taps s.now (shortLine (stationBody s k.1) taps).isSome) := by
  unfold calibrated
  dsimp only
  split
  · exact raise_btu ..
  · rfl

theorem calibrationDone_whole {s : State} {k : Fin 6} (taps : List Nat) (hrun : s.btu[k].calRunning = true)
    (hroll : s.btu[k].calRolling = false) : calibrationDone s k taps = calibrated s k taps := by
  rw [calibrationDone, if_neg (by rw [hrun]; decide), if_neg (by rw [hroll]; decide)]

/-- A rolling calibration with beams left to measure makes its step and no more. -/
theorem calibrationDone_step {s : State} {k : Fin 6} {taps : List Nat} (hrun : s.btu[k].calRunning = true)
    (hroll : s.btu[k].calRolling = true) (hleft : (s.btu[k].calStep taps).calBeams ≠ 0xFFFF) :
    calibrationDone s k taps = s.modBtu k fun x => x.calStep taps := by
  rw [calibrationDone, if_neg (by rw [hrun]; decide), if_pos hroll]
  dsimp only
  rw [State.modBtu_btu, updF_get_same, if_neg hleft]

/-! ## APC samples (R309, R467) -/

/-- A sample of the APC monitor for a station. -/
def isApcSample (k : Fin 6) (c : Instr) : Bool := match c with | .apcSample j _ => j == k | _ => false

/-- The laser-power slot of the beam whose turn it is. -/
def apcSlot (s : State) (k : Fin 6) : Fin 160 := Fin.ofNat 160 (16 * k.1 + (apcBeam s.btu[k]).1)

theorem eq_apcSlot {s : State} {k : Fin 6} {n : Fin 160} (hn : n.1 = 16 * k.1 + (apcBeam s.btu[k]).1) :
    n = apcSlot s k := by
  rw [apcSlot, ← hn, Fin.ofNat_val_eq_self]

/-- What a laser-power slot is given for a monitor sample: the code, or its value by the slot's table. -/
def apcInput (s : State) (n : Fin 160) (code : Nat) : Int :=
  let e := slotEntry s s.ctl.loops[n]
  if bitOf (entInput e) 7 then linearised (linTable (loopsBody s) (entLin e)) code else code

/-- The level of a beam, within the limits of the station's recipe, for an output of its slot. -/
def apcLevelOf (b : List Byte) (out : Int) : Nat := (clampI (stLevelMin b) (stLevelMax b) out).toNat

/-- A beam's sample and new level are noted, the level is sent, and it is watched at the limits of recipe b. -/
def apcUpdate (b : List Byte) (s : State) (k : Fin 6) (beam : Fin 16) (code level : Nat) : State :=
  apcWatch (sendLater (measureBeam s k beam code) k beam level) k beam (level == stLevelMin b || level == stLevelMax b)

/-- A sample that is taken evaluates the slot of the beam, whose output gives the beam's level. -/
theorem apcSample_eq {s : State} {k : Fin 6} (code : Nat) (hlden : s.btu[k].lden = true)
    (hscan : s.btu[k].lock.scanning = true) (hen : s.ctl.loops[apcSlot s k].en = true)
    (hc : coming s (isApcSample k) = false) :
    apcSample s k code =
      let t := evaluateSlot s (apcSlot s k) code (apcInput s (apcSlot s k) code) true
      apcUpdate (stationBody s k.1) t k (apcBeam s.btu[k]) code
        (apcLevelOf (stationBody s k.1) t.ctl.loops[apcSlot s k].out) := by
  have hon : ¬ ((!s.btu[k].lden || !s.btu[k].lock.scanning || !s.ctl.loops[apcSlot s k].en) = true) := by
    rw [hlden, hscan, hen]
    decide
  exact (if_neg hon).trans (if_neg (ne_true_of_eq_false hc))

/-- A beam's new level is stored whether it is sent now or later. -/
theorem sendLater_level (s : State) (k : Fin 6) (beam : Fin 16) (level : Nat) :
    (sendLater s k beam level).btu[k].apcLevel[beam] = level := by
  unfold sendLater sendLevel sendFrame
  split <;> simp

/-- The watch over a level at its limit leaves the level. -/
theorem apcWatch_apcLevel (s : State) (k : Fin 6) (beam : Fin 16) (atLimit : Bool) :
    (apcWatch s k beam atLimit).btu[k].apcLevel = s.btu[k].apcLevel := by
  unfold apcWatch State.stick
  dsimp only
  generalize (if atLimit = true then min 17 (s.btu[k].apcRun[beam] + 1) else 0) = run
  split <;> simp

theorem apcUpdate_level (b : List Byte) (s : State) (k : Fin 6) (beam : Fin 16) (code level : Nat) :
    (apcUpdate b s k beam code level).btu[k].apcLevel[beam] = level := by
  simp only [apcUpdate, apcWatch_apcLevel, sendLater_level]

@[simp] theorem apcUpdate_ctl (b : List Byte) (s : State) (k : Fin 6) (beam : Fin 16) (code level : Nat) :
    (apcUpdate b s k beam code level).ctl = s.ctl :=
  same_ctl (by
    rw [apcUpdate, apcWatch_view _ _ _ _ (by decide) (by decide), sendLater_view _ _ _ _ (by decide) (by decide),
      measureBeam_view _ _ _ _ (by decide)])

/-- Settles O47: the calibrations by what they do to their station, the sample by its equation and the level that it
leaves. -/
theorem beamServicesComplete : Obligations.BeamServicesComplete := by
  intro s k hup
  refine ⟨fun hout => ?_, fun hin hroom => ?_, fun hin hshort => ?_, fun taps hrun hroll => ?_,
    fun taps hrun hroll hleft => ?_, fun code beam n hbeam hn hlden hscan hen hc => ?_⟩
  · refine ⟨_, rfl, ?_⟩
    rw [whenUp_eq _ hup, (calibrationDue_starts (by simp [hout])).get, hout]
    rfl
  · refine ⟨_, rfl, ?_⟩
    rw [whenUp_eq _ hup, (calibrationDue_starts fun _ => hroom).get, hin]
    rfl
  · refine ⟨_, rfl, ?_⟩
    rw [whenUp_eq _ hup, (calibrationDue_waits hin hshort).get]
    rfl
  · refine ⟨_, rfl, ?_⟩
    rw [whenUp_eq _ hup, calibrationDone_whole taps hrun hroll, (calibrated_station s k taps).get]
    exact ⟨rfl, fun j hj => (calibrated_station s k taps).other hj⟩
  · refine ⟨_, rfl, ?_⟩
    have hstep := stationMod_modBtu s k fun x => x.calStep taps
    rw [whenUp_eq _ hup, calibrationDone_step hrun hroll hleft, hstep.get]
    exact ⟨rfl, fun j hj => hstep.other hj⟩
  · subst hbeam
    obtain rfl := eq_apcSlot hn
    refine ⟨_, rfl, ?_⟩
    rw [whenUp_eq _ hup, apcSample_eq code.toNat hlden hscan hen hc, apcUpdate_level, apcUpdate_ctl]
    rfl

end Sys2Proof.Machine
end

section
/-!
Proof of the statement about the marking heads (O49): the strobe watchdog (R334..R336), head temperatures (R341, R342), duty
windows (R337), capping moves (R345) and mark rendering (R377). What the shared operations do to their head comes first.
-/

namespace Sys2Proof.Machine
open Sys2Proof Sys2Proof.Safety

/-! ## What leaves the heads alone -/

@[simp] theorem raise_hdp (s : State) (src detail : Nat) : (raise s src detail).hdp = s.hdp :=
  same_hdp (raise_view s src detail (by decide))

@[simp] theorem stick_hdp (s : State) (offset mask : Nat) : (s.stick offset mask).hdp = s.hdp :=
  same_hdp (State.stick_view s offset mask (by decide))

@[simp] theorem selfFence_hdp (s : State) (src : Nat) : (selfFence s src).hdp = s.hdp :=
  same_hdp (selfFence_view s src (by decide))

@[simp] theorem spoilHead_hdp (s : State) (h : Nat) (r : Spoil) : (spoilHead s h r).hdp = s.hdp :=
  same_hdp (spoilHead_view s h r (by decide))

@[simp] theorem modMark_hdp (s : State) (i : Fin 512) (k : Nat) (g : Mark → Mark) : (modMark s i k g).hdp = s.hdp :=
  same_hdp (modMark_view s i k g (by decide))

theorem modHead_head (s : State) (h : Fin 8) (g : Head → Head) : (s.modHead h g).hdp[h] = g s.hdp[h] :=
  updF_get_same s.hdp h g

/-! ## What a head keeps when its field breaks off, and how it leaves service -/

/-- From x to y a head keeps its temperature, its flags and its count of cuts, and it does not become absent. -/
structure Head.Keeps (x y : Head) : Prop where
  temp : y.temp = x.temp
  flags : y.flags = x.flags
  cuts : y.cuts = x.cuts
  present : x.state ≠ .absent → y.state ≠ .absent

theorem Head.Keeps.rfl {x : Head} : x.Keeps x := ⟨Eq.refl _, Eq.refl _, Eq.refl _, id⟩

theorem Head.Keeps.trans {x y z : Head} (h : x.Keeps y) (h' : y.Keeps z) : x.Keeps z :=
  ⟨h'.temp.trans h.temp, h'.flags.trans h.flags, h'.cuts.trans h.cuts, h'.present ∘ h.present⟩

theorem settleHead_keeps (s : State) (h : Fin 8) : s.hdp[h].Keeps (settleHead s h).hdp[h] := by
  unfold settleHead
  split
  · exact .rfl
  · rw [modHead_head]
    exact ⟨rfl, rfl, rfl, id⟩

theorem endField_keeps (s : State) (h : Fin 8) : s.hdp[h].Keeps (endField s h).hdp[h] := by
  refine .trans ?_ (settleHead_keeps _ h)
  rw [modHead_head]
  refine ⟨rfl, rfl, rfl, fun hpresent => ?_⟩
  dsimp only
  split
  · decide
  · exact hpresent

theorem breakField_keeps (s : State) (h : Fin 8) : s.hdp[h].Keeps (breakField s h).hdp[h] := by
  unfold breakField
  split
  · exact endField_keeps (modMark s _ _ _) h
  · exact .rfl

/-- A head that leaves for HELD or FENCED changes its state, and perhaps gives its new fields to its partner. -/
theorem headLeaves_head (s : State) (h : Fin 8) (new : HeadState) :
    ∃ m, (headLeaves s h new).hdp[h] = { s.hdp[h] with state := new, moved := m } := by
  unfold headLeaves
  dsimp only
  split
  · exact ⟨true, by simp⟩
  · exact ⟨s.hdp[h].moved, by simp⟩

theorem fenceHead_head {s : State} {h : Fin 8} (hpresent : s.hdp[h].state ≠ .absent) :
    ∃ m, (fenceHead s h).hdp[h] = { s.hdp[h] with state := .fenced, moved := m } := by
  by_cases hfenced : s.hdp[h].state = .fenced
  · refine ⟨s.hdp[h].moved, ?_⟩
    rw [fenceHead, if_pos (by rw [hfenced]; decide), ← hfenced]
  · rw [fenceHead, if_neg (by simpa using ⟨hpresent, hfenced⟩)]
    exact headLeaves_head s h .fenced

/-! ## The strobe watchdog (R334..R336, R344) -/

section
variable {s : State} {h : Fin 8} {mem : HeadMem} {high spacing : Nat}

theorem strobeCut_of_good (hmem : s.hdp[h].mem = some mem)
    (hgood : strobeBad (headBody s h.1) mem high spacing = false) : strobeCut s h high spacing = s := by
  rw [strobeCut, hmem]
  exact if_pos (by rw [hgood]; simp)

/-- The strobed field breaks off, with its sheets spoiled, and the head notes the cut. -/
def cutNoted (s : State) (h : Fin 8) : State :=
  (breakField (spoilHead s h.1 .headStrobe) h).modHead h fun x =>
    { x with cuts := inc32 x.cuts, flags := x.flags ||| 0x01, cutHold := true }

theorem cutNoted_head (hpresent : s.hdp[h].state ≠ .absent) :
    let y := (cutNoted s h).hdp[h]
    y.state ≠ .absent ∧ y.cuts = inc32 s.hdp[h].cuts ∧ y.cutHold = true ∧ y.flags = s.hdp[h].flags ||| 0x01 := by
  have hkeeps := breakField_keeps (spoilHead s h.1 .headStrobe) h
  rw [spoilHead_hdp] at hkeeps
  rw [cutNoted, modHead_head, ← hkeeps.cuts, ← hkeeps.flags]
  dsimp only
  exact ⟨hkeeps.present hpresent, rfl, rfl, rfl⟩

theorem strobeCut_of_bad (hmem : s.hdp[h].mem = some mem) (hpresent : s.hdp[h].state ≠ .absent)
    (hbad : strobeBad (headBody s h.1) mem high spacing = true) :
    strobeCut s h high spacing =
      selfFence (fenceHead (raise ((cutNoted s h).stick (0x1624 + 0x80 * h.1) 1) (0x90 + 2 * h.1) (high / 2)) h)
        (0x90 + 2 * h.1) := by
  rw [strobeCut, hmem]
  exact if_neg (by rw [hbad]; simpa using hpresent)

/-- A cut leaves its head fenced, its cut counted, flagged and held. -/
theorem strobeCut_head (hmem : s.hdp[h].mem = some mem) (hpresent : s.hdp[h].state ≠ .absent)
    (hbad : strobeBad (headBody s h.1) mem high spacing = true) :
    let y := (strobeCut s h high spacing).hdp[h]
    y.state = .fenced ∧ y.cuts = inc32 s.hdp[h].cuts ∧ y.cutHold = true ∧ y.flags = s.hdp[h].flags ||| 0x01 := by
  obtain ⟨hstate, hcuts, hhold, hflags⟩ := cutNoted_head hpresent
  obtain ⟨m, hm⟩ := fenceHead_head (h := h)
    (s := raise ((cutNoted s h).stick (0x1624 + 0x80 * h.1) 1) (0x90 + 2 * h.1) (high / 2))
    (by rwa [raise_hdp, stick_hdp])
  rw [strobeCut_of_bad hmem hpresent hbad, selfFence_hdp, hm, raise_hdp, stick_hdp]
  dsimp only
  exact ⟨rfl, hcuts, hhold, hflags⟩

end

/-! ## Head temperatures (R341, R342) -/

/-- A head with the temperature of a thermistor code noted. -/
def tempNoted (s : State) (h : Fin 8) (mem : HeadMem) (code : Nat) : State :=
  s.modHead h fun x => { x with temp := headTemp mem.table code }

/-- A head at its limit has its field broken off and its hold flagged and raised. -/
def tempOver (s : State) (h : Fin 8) : State :=
  raise (((breakField (spoilHead s h.1 .headTemp) h).modHead h fun x => { x with flags := x.flags ||| 0x04 }).stick
    (0x1624 + 0x80 * h.1) 4) (0x91 + 2 * h.1) 0x02

theorem tempNoted_head (s : State) (h : Fin 8) (mem : HeadMem) (code : Nat) :
    (tempNoted s h mem code).hdp[h] = { s.hdp[h] with temp := headTemp mem.table code } :=
  modHead_head s h _

section
variable {s : State} {h : Fin 8} {mem : HeadMem} {code : Nat}

/-- The sample of a sound thermistor, with no fire cycle still to come, notes its temperature and then acts by the
head's state. -/
theorem tempSample_eq (hmem : s.hdp[h].mem = some mem) (hlow : code ≠ 0) (hhigh : code ≠ 4095)
    (hc : cycleComes s h = false) :
    tempSample s h code =
      match s.hdp[h].state with
      | .idle | .marking =>
        if headTemp mem.table code < mem.limit then tempNoted s h mem code
        else headLeaves (tempOver (tempNoted s h mem code) h) h .held
      | .held =>
        if headTemp mem.table code < mem.limit - mem.hyst then
          (tempNoted s h mem code).modHead h fun x => { x with state := .idle, moved := false }
        else tempNoted s h mem code
      | _ => tempNoted s h mem code := by
  have hsound : (code == 0 || code == 4095) = false := by simp [hlow, hhigh]
  have hhead := tempNoted_head s h mem code
  rw [tempSample, hmem]
  dsimp only
  rw [hc, hsound, if_neg (by decide), if_neg (by decide), ← tempNoted, hhead]
  cases s.hdp[h].state <;> simp only [decide_eq_true_eq] <;> rfl

theorem tempSample_below (hmem : s.hdp[h].mem = some mem) (hlow : code ≠ 0) (hhigh : code ≠ 4095)
    (hc : cycleComes s h = false) (hstate : s.hdp[h].state = .idle ∨ s.hdp[h].state = .marking)
    (hbelow : headTemp mem.table code < mem.limit) :
    (tempSample s h code).hdp[h] = { s.hdp[h] with temp := headTemp mem.table code } := by
  rw [tempSample_eq hmem hlow hhigh hc, ← tempNoted_head s h mem code]
  obtain hs | hs := hstate <;> simp only [hs, if_pos hbelow]

/-- A head that works at its limit is held, with its temperature noted and its hold flagged. -/
theorem tempSample_atLimit (hmem : s.hdp[h].mem = some mem) (hlow : code ≠ 0) (hhigh : code ≠ 4095)
    (hc : cycleComes s h = false) (hstate : s.hdp[h].state = .idle ∨ s.hdp[h].state = .marking)
    (hlimit : mem.limit ≤ headTemp mem.table code) :
    let y := (tempSample s h code).hdp[h]
    y.state = .held ∧ y.temp = headTemp mem.table code ∧ y.flags = s.hdp[h].flags ||| 0x04 := by
  have hheld : tempSample s h code = headLeaves (tempOver (tempNoted s h mem code) h) h .held := by
    rw [tempSample_eq hmem hlow hhigh hc]
    obtain hs | hs := hstate <;> simp only [hs, if_neg (Int.not_lt.mpr hlimit)]
  have hkeeps := breakField_keeps (spoilHead (tempNoted s h mem code) h.1 .headTemp) h
  rw [spoilHead_hdp, tempNoted_head] at hkeeps
  obtain ⟨m, hm⟩ := headLeaves_head (tempOver (tempNoted s h mem code) h) h .held
  rw [hheld, hm, tempOver, raise_hdp, stick_hdp, modHead_head, ← hkeeps.flags]
  dsimp only
  exact ⟨rfl, hkeeps.temp, rfl⟩

theorem tempSample_releases (hmem : s.hdp[h].mem = some mem) (hlow : code ≠ 0) (hhigh : code ≠ 4095)
    (hc : cycleComes s h = false) (hstate : s.hdp[h].state = .held)
    (hcool : headTemp mem.table code < mem.limit - mem.hyst) : (tempSample s h code).hdp[h].state = .idle := by
  rw [tempSample_eq hmem hlow hhigh hc, hstate]
  dsimp only
  rw [if_pos hcool, modHead_head]

end

/-! ## Duty windows, capping moves and images (R337, R345, R377) -/

theorem dutyWindow_head (s : State) (j : Fin 8) :
    (dutyWindow s).hdp[j] = { s.hdp[j] with dutyFires := [], dutyDrops := 0 } := by
  simp [dutyWindow]

/-- A capping move that ends at an idle head caps it and touches no other. -/
theorem capMoveDone_caps {s : State} {h : Fin 8} (hmove : s.hdp[h].capMove = some true)
    (hidle : s.hdp[h].state = .idle) :
    (capMoveDone s h).hdp = updF s.hdp h fun x => { x with capMove := none, state := .capped } := by
  have hidle' : s.hdp[h.1].state = .idle := hidle
  rw [capMoveDone, hmove]
  simp [capHead, updF, hidle']

/-- A mark of sheet e with its image, when its kind is rendered and has none yet, by MARKS recipe b. -/
def Mark.rendered (b : List Byte) (e : Sheet) (m : Mark) : Mark :=
  if (m.kind == 1 || m.kind == 3) && m.image.isNone then
    { m with image := some (renderImage b (mkFormat b m.format) (fieldValue (mkFormat b m.format) e)) }
  else m

theorem Mark.rendered_image {b : List Byte} {e : Sheet} {m : Mark} (hkind : m.kind = 1 ∨ m.kind = 3)
    (hnone : m.image = none) :
    (m.rendered b e).image = some (renderImage b (mkFormat b m.format) (fieldValue (mkFormat b m.format) e)) := by
  rw [Mark.rendered, if_pos (by simpa [hnone] using hkind)]

theorem renderMarks_entry {s : State} {i : Fin 512} {e : Sheet} (hentry : s.led.entries[i] = some e)
    (hopen : e.open = true) :
    (renderMarks s i).led.entries[i] = some { e with marks := e.marks.map (Mark.rendered (marksBody s) e) } := by
  unfold renderMarks
  dsimp only
  rw [State.modSheet_led, updF_get_same, hentry, Option.map_some, if_neg (by simp [hopen])]
  rfl

/-- Settles O49: each row by what it does to its head, and the rendering by what it does to its sheet. -/
theorem headRowsComplete : Obligations.HeadRowsComplete := by
  intro s h hup
  refine ⟨fun high spacing mem hmem hgood => ?_, fun high spacing mem hmem hpresent hbad => ?_,
    fun code mem hmem hlow hhigh hc => ?_, ?_, fun hmove hidle => ?_, fun i e hentry hopen => ?_⟩
  · refine congrArg Host.Outcome.next ?_
    rw [whenUp_eq _ hup, strobeCut_of_good hmem hgood]
  · refine ⟨_, rfl, ?_⟩
    rw [whenUp_eq _ hup]
    exact strobeCut_head hmem hpresent hbad
  · have hlow' : code.toNat ≠ 0 := fun he => hlow (BitVec.eq_of_toNat_eq he)
    have hhigh' : code.toNat ≠ 4095 := fun he => hhigh (BitVec.eq_of_toNat_eq he)
    refine ⟨fun hstate hbelow => ⟨_, rfl, ?_⟩, fun hstate hlimit => ⟨_, rfl, ?_⟩, fun hstate hcool => ⟨_, rfl, ?_⟩⟩ <;>
      rw [whenUp_eq _ hup]
    · exact tempSample_below hmem hlow' hhigh' hc hstate hbelow
    · exact tempSample_atLimit hmem hlow' hhigh' hc hstate hlimit
    · exact tempSample_releases hmem hlow' hhigh' hc hstate hcool
  · refine ⟨_, rfl, fun j => ?_⟩
    rw [whenUp_eq _ hup]
    exact dutyWindow_head s j
  · refine ⟨_, rfl, ?_⟩
    rw [whenUp_eq _ hup, capMoveDone_caps hmove hidle]
    exact ⟨updF_get_same .., fun j hj => updF_get_other _ _ _ _ hj⟩
  · refine ⟨_, _, rfl, by rw [whenUp_eq _ hup]; exact renderMarks_entry hentry hopen, List.length_map .., ?_⟩
    intro k m hm hkind hnone
    exact ⟨m.rendered (marksBody s) e, by rw [List.getElem?_map, hm]; rfl, Mark.rendered_image hkind hnone⟩

end Sys2Proof.Machine
end

section
/-! Proof of the statement about what a step runs: the front command, or the idle step. -/
namespace Sys2Proof.Machine
open Sys2Proof Sys2Proof.Safety

/-- The idle step takes nothing from the queue and puts nothing there. -/
theorem idle_pending (s : State) : (idle s).pending = s.pending := by
  refine same_pending ?_
  unfold idle
  split
  · rfl
  · split
    · simp
    · simp

/-- Settles O1: the two branches of `step`, and the idle step's queue. -/
theorem stepRunsFrontCommand : Obligations.StepRunsFrontCommand := by
  refine ⟨fun c rest s h => ?_, fun s h => ⟨?_, (idle_pending s).trans h⟩⟩
  · rw [step, h]
  · rw [step, h]
end Sys2Proof.Machine
end

section
/-! Proof of the statement about the frame of every command: the laws say of each function of the model which parts it
leaves; a command's frame is then read off its arm of `exec`. -/
namespace Sys2Proof.Machine
open Sys2Proof Sys2Proof.Safety

theorem pending_not_mem_mayChange (i : Instr) : Part.pending ∉ mayChange i := by
  cases i <;> simp [mayChange]

/-- The assignment of a free decode lane is that of one waiting read (R274), or nothing. -/
theorem firstAssignment_view {p : Part} (s : State) (ws : List Work) (h_free : p ≠ .free) (h_cdc : p ≠ .cdc)
    (h_stp : p ≠ .stp) (h_drc : p ≠ .drc) (h_flt : p ≠ .flt) :
    view p ((ws.findSome? (tryAssign s)).getD s) = view p s := by
  cases h : ws.findSome? (tryAssign s) with
  | none => rfl
  | some t =>
    obtain ⟨w, -, hw⟩ := List.exists_of_findSome?_eq_some h
    exact tryAssign_view s w t hw h_free h_cdc h_stp h_drc h_flt

/-- No arm of `exec` refuses, and each leaves the parts outside its frame. The named cases branch on the state inside
the guard that the device is up; in the others the laws of the functions called are enough. -/
theorem exec_frame (i : Instr) (s : State) : ∃ t, exec i s = .next t ∧ OnlyChanges (mayChange i) s t := by
  cases i
  all_goals refine ⟨_, rfl, fun p hp => ?_⟩
  all_goals simp only [mayChange, List.mem_cons, List.not_mem_nil, or_false, not_or] at hp
  case nop =>
    obtain ⟨hout, hhif, hmgt, hsup, hktl, hflt⟩ := hp
    exact direct_view nopSpec _ _ hout hhif hmgt hsup hktl hflt fun _ _ => rfl
  case spiReplyTimeout | encoderTimeout | mainsLossTimeout | laneLockup =>
    exact whenUp_view _ _ fun u => giveWay_view _ _ _ (by simp [hp])
  case ingestDeadlineExpiry =>
    refine whenUp_view _ _ fun u => ?_
    split
    · exact giveWay_view _ _ _ (by simp [hp])
    · rfl
  case msixUnmask | ingestSourceReadDone =>
    exact overPcie_view _ _ (by simp [hp]) fun u => by split <;> simp [hp]
  case ringEntryFetched =>
    refine overPcie_view _ _ (by simp [hp]) fun u => ?_
    dsimp only
    split <;> simp [hp]
  case decodeAssign =>
    refine whenUp_view _ _ fun u => ?_
    split
    · rfl
    · exact firstAssignment_view u _ (by simp [hp]) (by simp [hp]) (by simp [hp]) (by simp [hp]) (by simp [hp])
  case verifyDeadline =>
    exact whenUp_view _ _ fun u => view_foldl _ _ _ fun v i => by (repeat' split) <;> simp [hp]
  case dramBootTraining | wakeComplete =>
    dsimp only
    (repeat' split) <;> simp [hp]
  case replyCoalesceExpiry | linkUp | ingestStart | encodeBandEnd | dramTrainStepEnd | faultRaise | caddyRepairComplete
     | decodeAttemptReport =>
    exact whenUp_view _ _ fun u => by split <;> simp [hp]
  case leafEntry | bandDone | slotReadError => exact whenUp_view _ _ fun u => by (repeat' split) <;> simp [hp]
  case eventCoalesceExpiry => exact whenUp_view _ _ fun u => by dsimp only; split <;> simp [hp]
  all_goals simp [hp, echoSpec, getInfoSpec, getStatusSpec, setModeSpec, setWakeBudgetSpec, setEventRouteSpec, axisHomeSpec,
    axisMoveSpec, groupMoveSpec, axisStopSpec, axisQuerySpec, stationCalibrateSpec, stationLockSpec,
    stationQuerySpec, loadRecipeSpec, queryRecipeSpec, activateSpec, faultReadSpec, faultClearSpec,
    faultSetSeveritySpec, faultInjectSpec, codecRunSpec, openJobSpec, admitSheetSpec, commitSheetSpec,
    cancelSheetSpec, closeJobSpec, querySheetSpec, evictLeavesSpec, dramTrainSpec, dramSetRateSpec,
    dramQuerySpec, fuseReadSpec, fuseShadowSpec, fuseBurnSpec, fuseLockSpec, provisionSpec, headScanSpec,
    headMaintainSpec, headMarkDeadSpec, journalReadSpec, journalSealSpec, journalCollectedSpec, serialQuerySpec,
    serialAnchorSpec, loopSetSpec, loopSetpointSpec, loopModeSpec, loopQuerySpec, motorStartSpec, motorStopSpec,
    motorSetSpeedSpec, motorQuerySpec]

/-- Settles O2: the frame of each arm of `exec`, which never names the queue. -/
theorem everyCommandKeepsItsFrame : Obligations.EveryCommandKeepsItsFrame := by
  intro i s
  obtain ⟨t, ht, hkeep⟩ := exec_frame i s
  exact ⟨t, ht, hkeep, same_pending (hkeep .pending (pending_not_mem_mayChange i))⟩

end Sys2Proof.Machine
end

section
/-! Facts about a sample of the die temperature (R540, R541): what it takes, and what it leaves to the rest of the cycle. -/
namespace Sys2Proof.Machine
open Sys2Proof Sys2Proof.Safety

/-- The state with the code of a sample stored. -/
def withCode (s : State) (code : Option (BitVec 16)) : State :=
  match code with
  | some c => s.modTmp fun x => { x with raw := c }
  | none => s

/-- What a sample makes of the state that holds its code: a good temperature, or a broken sensor. -/
def sampleTaken (s : State) (code : Option (BitVec 16)) (before : Int) : State :=
  match dieSample s code with
  | some t => resenseWatch (goodSample s t) before t
  | none => brokenSample s

/-- What follows a sample in its cycle: the throttle's time, the reference of the converter and the drift of what was calibrated
at another temperature. -/
def afterSample (s : State) (before : Int) : State :=
  let s := s.modTmp fun x => { x with throttleMs := if x.step = 0 then x.throttleMs else inc32 x.throttleMs }
  let s := s.modTmp fun x =>
    { x with adcRef := ((fuseWord s 33).toNat % 2 ^ 16, (fuseWord s 33).toNat / 2 ^ 16 % 2 ^ 16, compTemp s) }
  calibrationsWatch before (calibrationsDrift (columnsWatch s))

theorem dieTempSample_eq {s : State} (h : s.fus.sensed = true) (code : Option (BitVec 16)) :
    dieTempSample s code = afterSample (sampleTaken (withCode s code) code (compTemp s)) (compTemp s) := by
  unfold dieTempSample
  rw [if_neg (by simp [h])]
  rfl

theorem withCode_view {p : Part} (s : State) (code : Option (BitVec 16)) (h_tmp : p ≠ .tmp) :
    view p (withCode s code) = view p s := by
  cases code with
  | none => rfl
  | some c => exact State.modTmp_view _ _ h_tmp

theorem withCode_tmp (s : State) (code : Option (BitVec 16)) : ∃ r, (withCode s code).tmp = { s.tmp with raw := r } := by
  cases code with
  | none => exact ⟨s.tmp.raw, rfl⟩
  | some c => exact ⟨c, rfl⟩

/-- A sample's temperature rests on its code and the fuses. -/
theorem dieSample_withCode (s : State) (code : Option (BitVec 16)) :
    dieSample (withCode s code) code = dieSample s code := by
  cases code with
  | none => rfl
  | some c => rfl

theorem afterSample_view {p : Part} (s : State) (before : Int) (h_tmp : p ≠ .tmp) (h_clk : p ≠ .clk) (h_btu : p ≠ .btu)
    (h_flt : p ≠ .flt) : view p (afterSample s before) = view p s := by
  simp [afterSample, h_tmp, h_clk, h_btu, h_flt]

theorem afterSample_tmp (s : State) (before : Int) :
    ∃ ms r, (afterSample s before).tmp = { s.tmp with throttleMs := ms, adcRef := r } := by
  have hwatches (u : State) : (calibrationsWatch before (calibrationsDrift (columnsWatch u))).tmp = u.tmp :=
    same_tmp (by simp)
  exact ⟨_, _, hwatches _⟩

/-! ### RUNOUT -/

theorem runoutWith_sys (s : State) :
    (runoutWith s).sys = { s.sys with mode := .runout, depth := 0, held := true } := by
  have henter : ((enterMode s .runout).modSys fun x => { x with held := true }).sys =
      { s.sys with mode := .runout, depth := 0, held := true } := by
    rw [State.modSys_sys, enterMode_sys]
    rfl
  rw [← henter]
  refine same_sys ?_
  unfold runoutWith
  simp

theorem runoutEntry_sys {s : State} (h : s.sys.mode = .ready ∨ s.sys.mode = .print) (src : Nat) :
    (runoutEntry s src).sys =
      { s.sys with lastCause := BitVec.ofNat 8 src, lcSrc := true, mode := .runout, depth := 0, held := true } := by
  unfold runoutEntry
  rw [if_pos (by rcases h with h | h <;> simp [h]), runoutWith_sys]
  rfl

/-! ### A good sample -/

/-- The throttle step and the levels that a sample leaves; what it enters acts elsewhere. -/
theorem throttleTo_tmp (s : State) (n : Nat) :
    ∃ fl, (throttleTo s n).tmp = { s.tmp with step := n, flags := fl } := by
  unfold throttleTo
  dsimp only
  split
  next h => exact ⟨s.tmp.flags, by rw [← h]⟩
  next =>
    split
    · exact ⟨_, by rw [same_tmp (raise_view _ _ _ (by decide)), same_tmp (State.stick_view _ _ _ (by decide))]; rfl⟩
    · exact ⟨_, by rw [same_tmp (raise_view _ _ _ (by decide))]; rfl⟩

theorem warnEntered_tmp (s : State) : (warnEntered s).tmp = { s.tmp with flags := s.tmp.flags ||| 0x1 } := by
  rw [warnEntered, same_tmp (raise_view _ _ _ (by decide)), same_tmp (State.stick_view _ _ _ (by decide))]
  rfl

theorem hotEntered_tmp (s : State) (trips : Bool) :
    (hotEntered s trips).tmp = { s.tmp with flags := s.tmp.flags ||| 0x4 } := by
  have h : (raise ((s.modTmp fun x => { x with flags := x.flags ||| 0x4 }).stick 0xB50 4) 0xF6 0).tmp =
      { s.tmp with flags := s.tmp.flags ||| 0x4 } := by
    rw [same_tmp (raise_view _ _ _ (by decide)), same_tmp (State.stick_view _ _ _ (by decide))]
    rfl
  unfold hotEntered
  split
  · exact h
  · exact (same_tmp (by simp)).trans h

/-- Only the flags of the die temperature differ. -/
def FlagsOnly (s t : State) : Prop := ∃ fl, t.tmp = { s.tmp with flags := fl }

theorem FlagsOnly.ite {s t : State} {c : Prop} [Decidable c] (h : FlagsOnly s t) : FlagsOnly s (if c then t else s) := by
  split
  · exact h
  · exact ⟨s.tmp.flags, rfl⟩

/-- A good sample is in force at once, with the levels and the throttle step that it reaches. -/
theorem goodSample_tmp (s : State) (v : Int) :
    (goodSample s v).tmp.temp = v ∧ (goodSample s v).tmp.good = v ∧ (goodSample s v).tmp.broken = false ∧
      (goodSample s v).tmp.peak = max s.tmp.peak v ∧ (goodSample s v).tmp.step = throttleStep s.tmp.step v := by
  unfold goodSample
  extract_lets old warn hot trip stored warned throttled heated
  obtain ⟨fw, hwarned⟩ : FlagsOnly stored warned := .ite ⟨_, warnEntered_tmp stored⟩
  obtain ⟨ft, hthrottled⟩ := throttleTo_tmp warned (throttleStep old.step v)
  obtain ⟨fh, hheated⟩ : FlagsOnly throttled heated := .ite ⟨_, hotEntered_tmp throttled _⟩
  have hend : ∀ c : Prop, ∀ _ : Decidable c, (if c then raise heated 0xF7 0 else heated).tmp = heated.tmp := fun c _ => by
    split
    · exact same_tmp (raise_view _ _ _ (by decide))
    · rfl
  rw [hend, hheated, hthrottled, hwarned]
  exact ⟨rfl, rfl, rfl, rfl, rfl⟩

theorem brokenSample_tmp (s : State) : (brokenSample s).tmp.temp = 440 ∧ (brokenSample s).tmp.broken = true ∧
    (brokenSample s).tmp.step = 3 ∧ (brokenSample s).tmp.good = s.tmp.good := by
  obtain ⟨fl, hfl⟩ := throttleTo_tmp ((s.stick 0xB50 8).modTmp fun x => { x with
    temp := 440, broken := true, warn := true, hot := false, trip := false, flags := x.flags ||| 0x8 }) 3
  have h : (brokenSample s).tmp = (throttleTo ((s.stick 0xB50 8).modTmp fun x => { x with
      temp := 440, broken := true, warn := true, hot := false, trip := false, flags := x.flags ||| 0x8 }) 3).tmp := by
    unfold brokenSample
    dsimp only
    split
    · rfl
    · exact same_tmp (raise_view _ _ _ (by decide))
  rw [h, hfl]
  exact ⟨rfl, rfl, rfl, by rw [State.modTmp_tmp, same_tmp (State.stick_view _ _ _ (by decide))]⟩

/-- A sample that crosses 120.00 °C and not yet 125.00 °C ends the print (R541). -/
theorem goodSample_hot {s : State} {v : Int} (hlow : 480 ≤ v) (hhigh : v < 500) (hhot : s.tmp.hot = false)
    (hmode : s.sys.mode = .ready ∨ s.sys.mode = .print) :
    (goodSample s v).sys.mode = .runout ∧ (goodSample s v).sys.lastCause = 0xF6 ∧ (goodSample s v).sys.lcSrc = true := by
  unfold goodSample
  extract_lets old warn hot trip stored warned throttled heated
  have hcross : hot = true := by simp [hot, level, hlow]
  have htrip : (trip && !old.trip) = false := by
    cases ht : old.trip <;> simp [trip, level, ht, Int.not_le.mpr hhigh]
  have hwarned : warned.sys = s.sys := by
    refine same_sys ?_
    simp only [warned, stored]
    split <;> simp
  have hthrottled : throttled.sys = s.sys := (same_sys (throttleTo_view _ _ (by decide) (by decide))).trans hwarned
  have hheated : heated.sys =
      { s.sys with lastCause := BitVec.ofNat 8 0xF6, lcSrc := true, mode := .runout, depth := 0, held := true } := by
    have hraised : ∀ u : State, (raise (u.stick 0xB50 4) 0xF6 0).sys = u.sys := fun u => same_sys (by simp)
    simp only [heated, hcross, old, hhot, htrip, hotEntered, Bool.not_false, Bool.and_true, if_true, Bool.false_eq_true,
      if_false]
    rw [runoutEntry_sys, hraised, State.modTmp_sys, hthrottled]
    rw [hraised, State.modTmp_sys, hthrottled]
    exact hmode
  rw [htrip, if_neg (by decide), hheated]
  exact ⟨rfl, rfl, rfl⟩

/-! ### The statement about the temperature -/

theorem sampleTaken_good {s : State} {code : Option (BitVec 16)} {v : Int} (h : dieSample s code = some v) (before : Int) :
    sampleTaken s code before = resenseWatch (goodSample s v) before v := by
  rw [sampleTaken, h]

theorem sampleTaken_broken {s : State} {code : Option (BitVec 16)} (h : dieSample s code = none) (before : Int) :
    sampleTaken s code before = brokenSample s := by
  rw [sampleTaken, h]

theorem exec_dieTempSample {s : State} (hm : s.sys.mode ≠ .reset) (hs : s.fus.sensed = true) (code : Option (BitVec 16)) :
    exec (.dieTempSample code) s =
      .next (afterSample (sampleTaken (withCode s code) code (compTemp s)) (compTemp s)) := by
  rw [← dieTempSample_eq hs]
  exact congrArg _ (whenUp_eq _ hm)

theorem dieTempSample_good {s : State} {code : Option (BitVec 16)} {v : Int} (hm : s.sys.mode ≠ .reset) (hs : s.fus.sensed = true)
    (h : dieSample s code = some v) : ∃ t, exec (.dieTempSample code) s = .next t ∧ t.tmp.temp = v ∧ t.tmp.good = v ∧
      t.tmp.broken = false ∧ t.tmp.peak = max s.tmp.peak v ∧ t.tmp.step = throttleStep s.tmp.step v := by
  obtain ⟨ms, r, htail⟩ := afterSample_tmp (sampleTaken (withCode s code) code (compTemp s)) (compTemp s)
  obtain ⟨raw, hraw⟩ := withCode_tmp s code
  refine ⟨_, exec_dieTempSample hm hs code, ?_⟩
  have hgood := goodSample_tmp (withCode s code) v
  rw [htail, sampleTaken_good ((dieSample_withCode s code).trans h), same_tmp (resenseWatch_view _ _ _ (by decide))]
  rwa [hraw] at hgood

theorem dieTempSample_broken {s : State} {code : Option (BitVec 16)} (hm : s.sys.mode ≠ .reset) (hs : s.fus.sensed = true)
    (h : dieSample s code = none) : ∃ t, exec (.dieTempSample code) s = .next t ∧ t.tmp.temp = 440 ∧
      t.tmp.broken = true ∧ t.tmp.step = 3 ∧ t.tmp.good = s.tmp.good := by
  obtain ⟨ms, r, htail⟩ := afterSample_tmp (sampleTaken (withCode s code) code (compTemp s)) (compTemp s)
  obtain ⟨raw, hraw⟩ := withCode_tmp s code
  refine ⟨_, exec_dieTempSample hm hs code, ?_⟩
  have hbroken := brokenSample_tmp (withCode s code)
  rw [htail, sampleTaken_broken ((dieSample_withCode s code).trans h)]
  rwa [hraw] at hbroken

theorem dieTempSample_hot {s : State} {code : Option (BitVec 16)} {v : Int} (hm : s.sys.mode ≠ .reset) (hs : s.fus.sensed = true)
    (h : dieSample s code = some v) (hlow : 480 ≤ v) (hhigh : v < 500) (hhot : s.tmp.hot = false)
    (hmode : s.sys.mode = .ready ∨ s.sys.mode = .print) :
    ∃ t, exec (.dieTempSample code) s = .next t ∧ t.sys.mode = .runout ∧ t.sys.lastCause = 0xF6 ∧ t.sys.lcSrc = true := by
  refine ⟨_, exec_dieTempSample hm hs code, ?_⟩
  rw [sampleTaken_good ((dieSample_withCode s code).trans h),
    same_sys (afterSample_view _ _ (by decide) (by decide) (by decide) (by decide)),
    same_sys (resenseWatch_view _ _ _ (by decide))]
  have hview : view .sys (withCode s code) = view .sys s := withCode_view s code (by decide)
  obtain ⟨raw, hraw⟩ := withCode_tmp s code
  exact goodSample_hot hlow hhigh (by rw [hraw]; exact hhot) (by rwa [same_sys hview])

theorem resense_counts {s : State} (hr : s.fus.resensing = true) (hb : fuseBusy s = false) (differs : List (Fin 256)) :
    (resense s differs).fus = { s.fus with
      differences := satAdd 16 s.fus.differences differs.length, resenses := satAdd 16 s.fus.resenses 1
      senseTemp := compTemp s, resensing := false } := by
  unfold resense
  rw [if_neg (by simp [hr]), if_neg (by simp [hb])]
  exact same_fus (view_foldl _ _ _ fun _ _ => raise_view _ _ _ (by decide))

/-- Settles O59, by what a sample takes and the functions that it enters. -/
theorem temperatureRowsComplete : Obligations.TemperatureRowsComplete := by
  intro s hm hs
  refine ⟨fun code v h => dieTempSample_good hm hs h, fun code h => dieTempSample_broken hm hs h,
    fun code v h hlow hhigh hhot hmode => dieTempSample_hot hm hs h hlow hhigh hhot hmode,
    fun differs hr hb => ⟨_, congrArg Host.Outcome.next (whenUp_eq _ hm), ?_⟩⟩
  rw [resense_counts hr hb]
  exact ⟨rfl, rfl, rfl, rfl, rfl, rfl⟩

end Sys2Proof.Machine
end

section
/-! Proof of the statement about burned fuses: the array changes by a burn alone, which adds bits to one row (R526). -/
namespace Sys2Proof.Machine
open Sys2Proof Sys2Proof.Safety

/-- Every bit that is burned in the array of one state is burned in that of the other. -/
def RowsGrow (s t : State) : Prop := ∀ k, getN t.fus.rows k 0 &&& getN s.fus.rows k 0 = getN s.fus.rows k 0

namespace RowsGrow

theorem of_rows {s t : State} (h : t.fus.rows = s.fus.rows) : RowsGrow s t := fun k => by rw [h, BitVec.and_self]

theorem of_view {s t : State} (h : view .fus t = view .fus s) : RowsGrow s t :=
  of_rows (by rw [same_fus h])

theorem refl (s : State) : RowsGrow s s := of_rows rfl

theorem trans {s t u : State} (hst : RowsGrow s t) (htu : RowsGrow t u) : RowsGrow s u := fun k => by
  rw [← hst k, ← BitVec.and_assoc, htu k]

theorem foldl {α : Type} {f : State → α → State} (hf : ∀ u x, RowsGrow u (f u x)) (l : List α) (s : State) :
    RowsGrow s (l.foldl f s) := by
  induction l generalizing s with
  | nil => exact refl s
  | cons x xs ih => exact (hf s x).trans (ih _)

/-- What follows a growth without a write of the fuses keeps it. -/
theorem then_view {s t u : State} (h : RowsGrow s t) (hu : view .fus u = view .fus t) : RowsGrow s u :=
  h.trans (of_view hu)

theorem ite {s t u : State} {c : Prop} [Decidable c] (ht : RowsGrow s t) (hu : RowsGrow s u) :
    RowsGrow s (if c then t else u) := by
  split
  · exact ht
  · exact hu

end RowsGrow

/-! ### Burns -/

theorem getN_updN_or (v : Vector (BitVec 72) n) (r k : Nat) (b : BitVec 72) :
    getN (updN v r fun x => x ||| b) k 0 &&& getN v k 0 = getN v k 0 := by
  by_cases hk : k < n
  · have := updN_get v r ⟨k, hk⟩ fun x => x ||| b
    simp only [Fin.getElem_fin] at this
    rw [getN_lt _ k 0 hk, getN_lt _ k 0 hk, this]
    split
    · ext i; simp; grind
    · exact BitVec.and_self
  · simp [getN, hk]

theorem burnRow_grows (s : State) (r : Nat) (bits : BitVec 72) : RowsGrow s (burnRow s r bits) :=
  fun k => getN_updN_or s.fus.rows r k bits

theorem latchRow_rows (s : State) (w : Nat) (r : BitVec 72) : (latchRow s w r).fus.rows = s.fus.rows := rfl

theorem burnTo_grows (s : State) (r : Nat) (want back : BitVec 72) : RowsGrow s (burnTo s r want back) := by
  unfold burnTo
  split
  · exact burnRow_grows s r _
  · exact RowsGrow.then_view (burnRow_grows s r _) (State.drawn_view _ (by decide))

/-- An attempt with one spare row burns its two rows and reports (R529). -/
theorem spareTry_grows (s : State) (k w : Nat) (want a e b : BitVec 72) :
    RowsGrow s (raise (latchRow (burnTo (burnTo s (256 + k) want a) (240 + k) e b) (240 + k) (b &&& e)) 0xF3 w) :=
  (((burnTo_grows s _ _ _).trans (burnTo_grows _ _ _ _)).trans (.of_rows (latchRow_rows _ _ _))).then_view
    (raise_view _ _ _ (by decide))

theorem trySpares_grows (w : Nat) (want : BitVec 72) (ks : List Nat) (back : List (BitVec 72)) (s : State) :
    RowsGrow s (trySpares w want ks back s).1 := by
  induction ks generalizing back s with
  | nil => exact .refl s
  | cons k ks ih =>
    rw [trySpares]
    refine (spareTry_grows s k w want (back.getD 0 want) (fuseRow (redirectEntry w) 0)
      (back.getD 1 (fuseRow (redirectEntry w) 0))).trans ?_
    split
    · exact .of_rows (by rw [latchRow_rows, State.modFus_fus])
    · exact ih _ _

theorem burnWord_grows (s : State) (w : Nat) (bits : BitVec 64) (back : List (BitVec 72)) :
    RowsGrow s (burnWord s w bits back).1 := by
  unfold burnWord
  dsimp only
  split
  · exact (burnTo_grows s _ _ _).trans (.of_rows (latchRow_rows _ _ _))
  · exact (burnTo_grows s _ _ _).trans (trySpares_grows w _ _ _ _)

theorem noteWords_rows (s : State) (l : List (Fin 256)) : (noteWords s l).fus.rows = s.fus.rows := by
  rw [noteWords, State.modFus_fus]

theorem fuseBurnDone_grows (s : State) (c : Cmd) (back : List (BitVec 72)) : RowsGrow s (fuseBurnDone s c back).1 := by
  have h := (RowsGrow.of_rows (noteWords_rows s [Fin.ofNat 256 (Cmd.p8 c 16)])).trans
    (burnWord_grows _ (Cmd.p8 c 16) (BitVec.ofNat 64 (Cmd.p64 c 20)) back)
  unfold fuseBurnDone
  dsimp only
  split
  · exact h.then_view (by simp)
  · exact h.then_view (by simp)

theorem lockRegion_grows (s : State) (r : Nat) : RowsGrow s (lockRegion s r) := burnRow_grows s 239 _

theorem fuseLockDone_grows (s : State) (c : Cmd) : RowsGrow s (fuseLockDone s c).1 := by
  have h := (RowsGrow.of_rows (noteWords_rows s [239])).trans (lockRegion_grows _ (Cmd.p8 c 16))
  unfold fuseLockDone
  dsimp only
  split
  · exact h.then_view (by simp)
  · exact h.then_view (by simp)

theorem burnKey_grows (s : State) (w : Nat) (l : List Byte) : RowsGrow s (burnKey s w l) :=
  .foldl (fun u _ => (burnRow_grows u _ _).trans (.of_rows (latchRow_rows _ _ _))) _ s

theorem provisionCut_grows (s : State) (c : Cmd) : RowsGrow s (provisionCut s c) := by
  unfold provisionCut
  dsimp only
  split
  · exact .of_view (by simp)
  · refine RowsGrow.then_view ?_ ((State.drawn_view _ (by decide)).trans (State.drawn_view _ (by decide)))
    exact (burnKey_grows s 128 _).trans ((burnRow_grows _ _ _).trans (.of_rows (latchRow_rows _ _ _)))

theorem provisionDone_grows (s : State) (c : Cmd) (healthy : Bool) (key : BitVec 256) :
    RowsGrow s (provisionDone s c healthy key).1 := by
  unfold provisionDone
  split
  · exact .refl s
  · dsimp only
    have hkey : RowsGrow s (lockRegion (emit (burnKey s 128 (keyBytes c key.toNat))
        (.write (BitVec.ofNat 64 (Cmd.p64 c 16)) (ecPublic key.toNat))) 4) :=
      ((burnKey_grows s 128 _).then_view (emit_view _ _ (by decide))).trans (lockRegion_grows _ 4)
    exact hkey.then_view (by simp)

/-! ### Commands that wait for their hardware, and what cuts them -/

theorem resumed_grows {s t : State} {op : Nat} {c : Cmd} {d : Resume} {r : Res} (h : resumed s op c d = some (t, r)) :
    RowsGrow s t := by
  unfold resumed at h
  split at h
  case h_6 => obtain rfl := congrArg Prod.fst (Option.some.inj h); exact fuseBurnDone_grows s c _
  case h_7 => obtain rfl := congrArg Prod.fst (Option.some.inj h); exact fuseLockDone_grows s c
  case h_9 => obtain rfl := congrArg Prod.fst (Option.some.inj h); exact provisionDone_grows s c _ _
  case h_4 => exact .of_view (calibrateDone_view s c t r h (by decide))
  case h_8 =>
    exact .of_view (codecDone_view s c _ _ _ _ t r h (by decide) (by decide) (by decide) (by decide) (by decide)
      (by decide) (by decide))
  case h_10 => cases h
  all_goals obtain rfl := congrArg Prod.fst (Option.some.inj h); exact .of_view (by simp)

/-- A command that is resumed leaves the fuses as its end does; its reply and its place are in other parts. -/
theorem resumeParked_grows (s : State) (k : Nat) (d : Resume) : RowsGrow s (resumeParked s k d) := by
  unfold resumeParked
  split
  · exact .refl s
  · split
    · exact .refl s
    · split
      · exact .refl s
      next t r h =>
        have ht := resumed_grows h
        split
        · have hj := journaledEnd_view (vp := .fus) s t r
          split
          next heq => rw [heq] at hj; exact (ht.then_view hj).then_view (by simp)
          next heq => rw [heq] at hj; exact (ht.then_view hj).then_view (by simp)
        · exact ht.then_view (by simp)

theorem interruptParked_grows (s : State) (p : Parked) : RowsGrow s (interruptParked s p) := by
  unfold interruptParked
  dsimp only
  split
  · exact .refl s
  · split
    · exact RowsGrow.then_view (burnRow_grows s _ _) (State.drawn_view _ (by decide))
    · exact RowsGrow.then_view (burnRow_grows s _ _) (State.drawn_view _ (by decide))
    · exact provisionCut_grows s p.cmd
    · exact .of_view (by simp)
    · exact .of_view (by simp)

theorem restart_grows (s : State) : RowsGrow s (restart s) := by
  have hparked (u : State) (p : Parked) : RowsGrow u (replyParked u p) :=
    (interruptParked_grows u p).then_view (deliverLate_view _ _ _ _ _ _ (by decide) (by decide) (by decide) (by decide)
      (by decide) (by decide))
  have hstart : RowsGrow s (s.modKtl fun k => { k with parked := [], fetching := [], restarts := s.now :: k.restarts }) :=
    .of_view (State.modKtl_view _ _ (by decide))
  unfold restart
  exact (hstart.trans (.foldl hparked s.ktl.parked _)).then_view (by simp)

theorem kettleTrigger_grows (s : State) (detail : Nat) (selfTest : Bool) : RowsGrow s (kettleTrigger s detail selfTest) := by
  unfold kettleTrigger
  split
  · exact .refl s
  · dsimp only
    (repeat' split)
    · exact .of_view (by simp)
    · exact (RowsGrow.of_view (by simp)).trans (restart_grows _)
    · exact .of_view (by simp)

theorem cutBurns_grows (s : State) : RowsGrow s (cutBurns s) :=
  .foldl (fun u p => by
    split
    · exact interruptParked_grows u p
    · exact .refl u) _ s

theorem enterReset_grows (s : State) : RowsGrow s (enterReset s) := by
  by_cases h : s.sys.mode = .reset
  · rw [enterReset, if_pos (by simpa using h)]
    exact .refl s
  · rw [enterReset_eq h]
    have hreset : RowsGrow (cutBurns s) (resetState (cutBurns s) (cutProgram (cutBurns s))) := .of_rows rfl
    exact ((cutBurns_grows s).trans hreset).then_view (State.drawn_view _ (by decide))

/-! ### Opcodes: a fuse shadow is no burn, and no other opcode writes the fuses before its hardware ends -/

/-- A command that waits for room in the journal leaves its state as it was (R362). -/
theorem journaled_state (before s : State) (r : Res) :
    (journaled before s r).state = before ∨ (journaled before s r).state = s := by
  unfold journaled
  (repeat' split) <;> simp

theorem fuseShadowRun_grows (c : Cmd) (s : State) : RowsGrow s (fuseShadowRun c s).state := by
  have hrefuse (r : Res) : RowsGrow s (refuse s r).state := .of_view (by simp)
  unfold fuseShadowRun
  extract_lets w set k t
  have ht : RowsGrow s t := by
    refine .of_rows ?_
    simp only [t, State.modFus_fus]
    split
    · rfl
    · exact noteWords_rows s _
  split
  · exact hrefuse _
  · split
    · exact hrefuse _
    · split
      · exact hrefuse _
      · split
        · exact hrefuse _
        · rcases journaled_state s (journalCommand t 0x69 .ok c) { status := .ok } with h | h
          · rw [h]
            exact .refl s
          · rw [h]
            exact ht.then_view (by simp)

theorem run_grows {op : Nat} {sp : OpSpec} (h : opSpecOf op = some sp) (c : Cmd) (s : State) :
    RowsGrow s (sp.run c s).state := by
  suffices hall : ∀ o ∈ opcodes, o = fuseShadowSpec ∨ view .fus (o.run c s).state = view .fus s by
    rcases hall sp (List.mem_of_find?_eq_some h) with rfl | hv
    · exact fuseShadowRun_grows c s
    · exact .of_view hv
  simp only [opcodes, sheetOpcodes, engineOpcodes, systemOpcodes, List.forall_mem_append, List.forall_mem_cons]
  simp [nopSpec, echoSpec, getInfoSpec, getStatusSpec, setModeSpec, setWakeBudgetSpec, setEventRouteSpec,
      axisHomeSpec, axisMoveSpec, groupMoveSpec, axisStopSpec, axisQuerySpec, stationCalibrateSpec,
      stationLockSpec, stationQuerySpec, loadRecipeSpec, queryRecipeSpec, activateSpec, faultReadSpec,
      faultClearSpec, faultSetSeveritySpec, faultInjectSpec, codecRunSpec, openJobSpec, admitSheetSpec,
      commitSheetSpec, cancelSheetSpec, closeJobSpec, querySheetSpec, evictLeavesSpec, dramTrainSpec,
      dramSetRateSpec, dramQuerySpec, fuseReadSpec, fuseBurnSpec, fuseLockSpec, provisionSpec, headScanSpec,
      headMaintainSpec, headMarkDeadSpec, journalReadSpec, journalSealSpec, journalCollectedSpec,
      serialQuerySpec, serialAnchorSpec, loopSetSpec, loopSetpointSpec, loopModeSpec, loopQuerySpec,
      motorStartSpec, motorStopSpec, motorSetSpeedSpec, motorQuerySpec]

theorem runCommand_grows {sp : OpSpec} (h : ∀ c u, RowsGrow u (sp.run c u).state) (c : Cmd) (f : Fate) (late : Bool)
    (s : State) : RowsGrow s (runCommand sp c f late s) := by
  have hrun := h c s
  unfold runCommand
  split
  · exact .of_view (by simp)
  · split
    next heq => rw [heq] at hrun; exact hrun.then_view (by simp)
    next heq => rw [heq] at hrun; exact hrun.then_view (by simp)

theorem startCommand_grows {sp : OpSpec} (h : ∀ c u, RowsGrow u (sp.run c u).state) (c : Cmd) (s : State) :
    RowsGrow s (startCommand sp c s) := by
  unfold startCommand
  split
  · exact .of_view (by simp)
  · exact runCommand_grows h _ _ _ _

theorem direct_grows {sp : OpSpec} (h : ∀ c u, RowsGrow u (sp.run c u).state) (c : Cmd) (s : State) :
    RowsGrow s (direct sp c s) := by
  have haccept : RowsGrow s (accept (arrive s c) (some sp) (Cmd.packet c sp.op) c).2 := .of_view (by simp)
  have hqueued (g : Kettle → Kettle) :
      RowsGrow s ((accept (arrive s c) (some sp) (Cmd.packet c sp.op) c).2.modKtl g) :=
    haccept.then_view (State.modKtl_view _ _ (by decide))
  exact .ite (.refl s) (.ite (.ite (haccept.trans (startCommand_grows h c _)) haccept)
    (.ite (.refl s) (.ite (hqueued _) haccept)))

theorem startNext_grows (s : State) (reads : List Fetch) : RowsGrow s (startNext s reads) := by
  unfold startNext
  split
  · exact .refl s
  next p rest _ =>
    split
    · exact .refl s
    · dsimp only
      have hrest : RowsGrow s (s.modKtl fun k => { k with intake := rest }) := .of_view (by simp)
      refine RowsGrow.then_view (hrest.trans ?_) (fillIntake_view _ (by decide))
      split
      next sp h =>
        unfold proceed
        split
        · exact .of_view (by simp)
        · split
          · exact .of_view (by simp)
          · exact runCommand_grows (run_grows h) _ _ _ _
      · exact .refl _

theorem blockFetched_grows (s : State) (r : Fetch) (reads : List Fetch) : RowsGrow s (blockFetched s r reads) := by
  unfold blockFetched
  split
  · exact .refl s
  next p rest _ =>
    dsimp only
    have hrest : RowsGrow s (s.modKtl fun k => { k with fetching := rest }) := .of_view (by simp)
    refine hrest.trans ?_
    split
    next h => exact runCommand_grows (run_grows h) _ _ _ _
    · exact .of_view (by simp)

/-! ### The die temperature and the sense of the fuses -/

theorem resenseWatch_rows (s : State) (before t : Int) : (resenseWatch s before t).fus.rows = s.fus.rows := by
  unfold resenseWatch
  split
  · rfl
  · split <;> rfl

theorem sampleTaken_grows (s : State) (code : Option (BitVec 16)) (before : Int) :
    RowsGrow s (sampleTaken s code before) := by
  unfold sampleTaken
  split
  · exact (RowsGrow.of_view (goodSample_view s _ (by decide) (by decide) (by decide) (by decide) (by decide) (by decide)
      (by decide) (by decide))).trans (.of_rows (resenseWatch_rows _ _ _))
  · exact .of_view (brokenSample_view s (by decide) (by decide))

theorem dieTempSample_grows (s : State) (code : Option (BitVec 16)) : RowsGrow s (dieTempSample s code) := by
  cases hs : s.fus.sensed with
  | false =>
    unfold dieTempSample
    rw [if_pos (by simp [hs])]
    exact .refl s
  | true =>
    rw [dieTempSample_eq hs]
    have hcode : RowsGrow s (withCode s code) := .of_view (withCode_view s code (by decide))
    exact (hcode.trans (sampleTaken_grows _ _ _)).then_view
      (afterSample_view _ _ (by decide) (by decide) (by decide) (by decide))

theorem resense_grows (s : State) (differs : List (Fin 256)) : RowsGrow s (resense s differs) := by
  unfold resense
  split
  · exact .refl s
  · split
    · exact .of_rows rfl
    · exact .foldl (fun u _ => .of_view (raise_view _ _ _ (by decide))) _ _

theorem whenUp_grows {s : State} {f : State → State} (h : ∀ u, RowsGrow u (f u)) : RowsGrow s (whenUp s f) := by
  unfold whenUp
  split
  · exact .refl s
  · exact h s

theorem senseFuses_grows (s : State) (weak : List (Nat × BitVec 72)) : RowsGrow s (senseFuses s weak) :=
  .of_rows (senseFuses_fus s weak).2

/-- The commands whose frame names the fuses burn them or leave the array. -/
theorem exec_grows_of_mem {i : Instr} (hi : Part.fus ∈ mayChange i) {s t : State} (h : exec i s = .next t) :
    RowsGrow s t := by
  cases i
  case fuseResense differs =>
    cases h
    exact whenUp_grows fun u => resense_grows u differs
  case dieTempSample code =>
    cases h
    exact whenUp_grows fun u => dieTempSample_grows u code
  case fuseSense weak =>
    cases h
    exact .ite (.refl s) ((senseFuses_grows s weak).then_view (by simp))
  case fuseShadow c =>
    cases h
    exact direct_grows (sp := fuseShadowSpec) fuseShadowRun_grows c s
  case packetStart reads =>
    cases h
    exact startNext_grows s reads
  case indirectBlockFetched r reads =>
    cases h
    exact .ite (blockFetched_grows s r reads) (.refl s)
  case parkedCommandResume k d =>
    cases h
    exact .ite (resumeParked_grows s k d) (.refl s)
  case kettleLockstepMismatch ok =>
    cases h
    exact (kettleTrigger_grows s 1 ok).then_view (by simp)
  case kettleWatchdogExpiry ok =>
    cases h
    exact kettleTrigger_grows s 2 ok
  case powerOnReset xoLow =>
    cases h
    exact (enterReset_grows s).then_view (by simp)
  case rstNAssert =>
    cases h
    exact enterReset_grows s
  all_goals simp [mayChange] at hi

theorem exec_grows {i : Instr} {s t : State} (h : exec i s = .next t) : RowsGrow s t := by
  by_cases hi : Part.fus ∈ mayChange i
  · exact exec_grows_of_mem hi h
  · obtain ⟨u, hu, hkeep⟩ := exec_frame i s
    obtain rfl : u = t := by rw [hu] at h; exact Host.Outcome.next.inj h
    exact .of_view (hkeep .fus hi)

/-- Settles O6: every arm of `exec` lets the rows of the array grow. -/
theorem fusesAreNeverCleared : Obligations.FusesAreNeverCleared := fun _ _ _ h => exec_grows h



end Sys2Proof.Machine
end

section
/-! Proof of the statement about FLT_SEL, which each path of access keeps for itself (R525). -/
namespace Sys2Proof.Machine
open Sys2Proof Sys2Proof.Safety

theorem writeReg_fltSelBar0 (s : State) (v : Word) :
    writeReg s .bar0 0x910 v = s.modHif fun h => { h with fltSelBar0 := Fin.ofNat 256 v.toNat } := rfl

theorem writeReg_fltSelMgmt (s : State) (v : Word) :
    writeReg s .mgmt 0x910 v = s.modHif fun h => { h with fltSelMgmt := Fin.ofNat 256 v.toNat } := rfl

/-- A path's selection reads back (R525). -/
theorem regValue_fltSelBar0 (s : State) : regValue s .bar0 0x910 = s.hif.fltSelBar0.1 := rfl

theorem regValue_fltSelMgmt (s : State) : regValue s .mgmt 0x910 = s.hif.fltSelMgmt.1 := rfl

/-- The link stays as it is or, if it was in L1, leaves it: either way it is down in both states or in none. -/
def LinkKept (h g : Hif) : Prop := g.link = h.link ∨ (∃ b, h.link = .l1 b) ∧ g.link = .up

theorem linkWake_kept (s : State) :
    ∃ l, linkWake s = s.modHif (fun h => { h with link := l }) ∧ LinkKept s.hif { s.hif with link := l } := by
  unfold linkWake
  split
  next b hb => exact ⟨.up, rfl, .inr ⟨⟨b, hb⟩, rfl⟩⟩
  · exact ⟨s.hif.link, rfl, .inl rfl⟩

/-- Of the host interface a fault's cause looks at nothing but whether the link is down (R511). -/
theorem causePresent_modHif (s : State) {g : Hif → Hif} (hg : LinkKept s.hif (g s.hif)) (k : Nat) :
    causePresent (s.modHif g) k = causePresent s k := by
  unfold causePresent
  split
  case h_1 =>
    rcases hg with h | ⟨⟨b, hb⟩, h⟩
    · simp [h]
    · simp [h, hb]
  all_goals rfl

/-- What a selection shows at 0x0914 to 0x091C does not rest on the selection of the other path. -/
theorem sharedReg_modHif (s : State) {g : Hif → Hif} (hg : LinkKept s.hif (g s.hif)) (sel : Fin 256) {o : Nat}
    (ho : o ∈ [0x914, 0x918, 0x91C]) : sharedReg (s.modHif g) sel o = sharedReg s sel o := by
  simp only [List.mem_cons, List.not_mem_nil, or_false] at ho
  rcases ho with rfl | rfl | rfl <;> simp [sharedReg, faultReg, causePresent_modHif s hg]

theorem regValue_mgmt_modHif (s : State) {g : Hif → Hif} (hg : LinkKept s.hif (g s.hif))
    (hsel : (g s.hif).fltSelMgmt = s.hif.fltSelMgmt) {o : Nat} (ho : o ∈ [0x914, 0x918, 0x91C]) :
    regValue (s.modHif g) .mgmt o = regValue s .mgmt o := by
  have h (u : State) : regValue u .mgmt o = sharedReg u u.hif.fltSelMgmt o := by
    simp only [List.mem_cons, List.not_mem_nil, or_false] at ho
    rcases ho with rfl | rfl | rfl <;> rfl
  rw [h, h, sharedReg_modHif s hg _ ho, State.modHif_hif, hsel]

theorem regValue_bar0_modHif (s : State) {g : Hif → Hif} (hg : LinkKept s.hif (g s.hif))
    (hsel : (g s.hif).fltSelBar0 = s.hif.fltSelBar0) {o : Nat} (ho : o ∈ [0x914, 0x918, 0x91C]) :
    regValue (s.modHif g) .bar0 o = regValue s .bar0 o := by
  have h (u : State) : regValue u .bar0 o = sharedReg u u.hif.fltSelBar0 o := by
    simp only [List.mem_cons, List.not_mem_nil, or_false] at ho
    rcases ho with rfl | rfl | rfl <;> rfl
  rw [h, h, sharedReg_modHif s hg _ ho, State.modHif_hif, hsel]

/-- A write of FLT_SEL through BAR0 wakes the link and stores the selection. -/
theorem exec_fltSelBar0 {s : State} (hup : s.sys.up = true) (v : Word) : ∃ l, LinkKept s.hif { s.hif with link := l } ∧
    exec (.registerWrite .bar0 0x910 v) s =
      .next (s.modHif fun h => { h with link := l, fltSelBar0 := Fin.ofNat 256 v.toNat }) := by
  obtain ⟨l, hl, hkept⟩ := linkWake_kept s
  refine ⟨l, hkept, ?_⟩
  have hrun : overPath s .bar0 (fun u => writeReg u .bar0 0x910 v) = writeReg (linkWake s) .bar0 0x910 v :=
    overPcie_eq (fun u => writeReg u .bar0 0x910 v) hup
  rw [hl, writeReg_fltSelBar0] at hrun
  exact congrArg Host.Outcome.next hrun

theorem exec_fltSelMgmt {s : State} (hup : s.sys.up = true) (v : Word) :
    exec (.registerWrite .mgmt 0x910 v) s = .next (s.modHif fun h => { h with fltSelMgmt := Fin.ofNat 256 v.toNat }) :=
  congrArg Host.Outcome.next (overPath_mgmt_eq (fun u => writeReg u .mgmt 0x910 v) hup)

/-- Settles O8: each path's write stores its own selection, and the other path's view of its source stays. -/
theorem fltSelPerPath : Obligations.FltSelPerPath := by
  intro s v w hup
  obtain ⟨l, hkept, hbar0⟩ := exec_fltSelBar0 hup v
  obtain ⟨l', -, hbar0'⟩ := exec_fltSelBar0 (s := s.modHif fun h => { h with fltSelMgmt := Fin.ofNat 256 w.toNat }) hup v
  refine ⟨⟨_, hbar0, rfl, rfl, rfl, fun o ho => regValue_mgmt_modHif s hkept rfl ho⟩,
    ⟨_, exec_fltSelMgmt hup v, rfl, rfl, rfl, fun o ho => regValue_bar0_modHif s (.inl rfl) rfl ho⟩,
    ⟨_, _, hbar0, exec_fltSelMgmt (s := s.modHif _) hup w, rfl, rfl⟩,
    ⟨_, _, exec_fltSelMgmt hup w, hbar0', rfl, rfl⟩⟩

end Sys2Proof.Machine
end

section
/-! Refutation of the statement about paper at the sensors (O52). -/
namespace Sys2Proof.Machine
open Sys2Proof Sys2Proof.Safety

/-- A SHEET recipe whose every byte is 1: sensor 1 is the exit of every route, each sensor watches the path, and a trailing
edge may be 257 counts late. -/
def onesRecipe : Recipe := ⟨0x0040, 0xFFFF, 0, 0, List.replicate 1088 1, true⟩

/-- A sheet that was committed and picked, and has no window open. -/
def pickedBare : Sheet :=
  { job := 0, handle := 0, media := 0, mask := 0, length := 0, duplex := 0, dest := 0, spoilDest := 0, lead := 0
    partner := 0, widths := Vector.replicate 6 0, marks := [], state := .committed, cancel := false, order := 2
    since := none, ordinal := 0, serial := 0, t := some 0, spoil := none, spoilCycle := 0, spoilMore := 0, outcomes := []
    route := none, windows := [], recorded := none, recipeIdx := 0, digest := 0, overHead := none, formed := true
    hold := false, gated := false }

/-- The sheet before it, past the gate, whose trailing edge is due at its exit. -/
def atExit : Sheet :=
  { pickedBare with state := .pastGate, order := 1, route := some 0, windows := [⟨1, 0, 0, some 0, false⟩], gated := true }

/-- RUNOUT with both sheets on the path: paper at sensor 2, and the last of the first sheet at its exit, sensor 1. -/
def twoOnPath : State :=
  { sys := { mode := .runout, bootStage := 7, up := true }
    led := { store := Vector.set (Vector.replicate 32 none) 0 (some onesRecipe)
             entries := updF (updF (Vector.replicate 512 none) 0 fun _ => some atExit) 1 fun _ => some pickedBare }
    seq := { psn := 0b110 } }

theorem twoOnPath_done : (settle (sensorEdge twoOnPath 1 false)).seq.done = 2 := by decide +kernel

theorem twoOnPath_passing : passingAt twoOnPath 1 = some (0, atExit, 0) := by decide +kernel

/-- Refutes O52: where the sheet that leaves is the last past the gate, RUNOUT ends in READY, and paper that stands at
another sensor stops the path in the same cycle (R43, R401): the sheets that are still picked complete with it, and
SEQ_DONE counts them too. -/
theorem not_paperRowsComplete : ¬ Obligations.PaperRowsComplete := by
  intro h
  obtain ⟨-, hexit, -⟩ := h twoOnPath 1 (by decide) (by decide) rfl (by decide +kernel)
  obtain ⟨t, ht, -, hdone, -⟩ := hexit 0 atExit 0 0 (by decide) (by decide +kernel) twoOnPath_passing
    (by decide +kernel) (by decide +kernel) rfl (by decide +kernel) rfl rfl
  have hrun : exec (.paperSensorEdge 1 false) twoOnPath = .next (settle (sensorEdge twoOnPath 1 false)) :=
    congrArg Host.Outcome.next (whenUp_eq _ (by decide))
  rw [hrun] at ht
  rw [← Host.Outcome.next.inj ht, twoOnPath_done] at hdone
  exact absurd hdone (by decide)
end Sys2Proof.Machine
end

section
/-! Refutation of the statement about the rows of the axes (O54). -/
namespace Sys2Proof.Machine
open Sys2Proof Sys2Proof.Safety

/-- A MOTION recipe whose every byte is 1: 257 PWM periods per second, and motor clocks that give a feed bits. -/
def motionOnes : Recipe := ⟨0x0030, 0xFFFF, 0, 0, List.replicate 2048 1, true⟩

/-- A velocity move that ends at a soft limit. -/
def limitMove : Move := ⟨2, 100, 1000, 1000, true⟩

/-- Axis 0 reaches the soft limit of its move in this cycle, and the feed of its coil A has repeated one level 63 times. -/
def limitReached : State :=
  { sys := { mode := .ready, bootStage := 7, up := true }
    led := { store := Vector.set (Vector.replicate 32 none) 0 (some motionOnes) }
    pending := [.axisTargetReached 0]
    axs := updF (Vector.replicate 16 {}) 0 fun x =>
      { x with state := .moving, move := some limitMove, feed := (List.replicate 63 true, []) } }

/-- The 64th repetition makes the feed a stuck one (R411). -/
theorem limitReached_stuck :
    feedStuck (axisSample limitReached 0 [true] [true]).bitsA limitReached.axs[(0 : Fin 16)].feed.1 = true := by
  decide +kernel

/-- The fence lets the move end first (R24), so that both LIMIT and FEED are flagged. -/
theorem limitReached_flags : (axisPwm limitReached 0 [true] [true]).axs[(0 : Fin 16)].flags = 0x22 := by
  decide +kernel

/-- Refutes O54: a feed that is stuck in the cycle in which the axis reaches the soft limit of a velocity move flags FEED
and LIMIT, not FEED alone. -/
theorem not_axisRowsComplete : ¬ Obligations.AxisRowsComplete := by
  intro h
  obtain ⟨-, hfeed, -⟩ := h limitReached 0 (by decide)
  obtain ⟨t, ht, -, -, hflags⟩ := hfeed [true] [true] _ rfl (by decide +kernel) (by decide +kernel) (.inl limitReached_stuck)
  have hrun : exec (.axisPwmPeriod 0 [true] [true]) limitReached = .next (axisPwm limitReached 0 [true] [true]) :=
    congrArg Host.Outcome.next (whenUp_eq _ (by decide))
  rw [hrun] at ht
  rw [← Host.Outcome.next.inj ht, limitReached_flags] at hflags
  exact absurd hflags (by decide +kernel)

end Sys2Proof.Machine
end

section
/-! Proof of the statement about the rows of the DRAM channels (O21). -/
namespace Sys2Proof.Machine
open Sys2Proof Sys2Proof.Safety

theorem modChan_get_same (s : State) (n : Fin 2) (f : Channel → Channel) : (s.modChan n f).drc.ch[n] = f s.drc.ch[n] := by
  rw [State.modChan_drc]
  exact updF_get_same ..

theorem modChan_get_other (s : State) {n m : Fin 2} (h : m ≠ n) (f : Channel → Channel) :
    (s.modChan n f).drc.ch[m] = s.drc.ch[m] := by
  rw [State.modChan_drc]
  exact updF_get_other _ _ _ _ h

/-! ### Refreshes, calibrations and self-refresh -/

theorem refreshDue_idle {x : Channel} {now : Nat} (hup : x.up = true) (hsr : x.sr = false) (hj : x.joined ≠ some now) :
    x.refreshDue now false = { x with owed := 0 } := by
  simp [Channel.refreshDue, hup, hsr, hj]

theorem refreshDue_forced {x : Channel} {now : Nat} (hup : x.up = true) (hsr : x.sr = false) (hj : x.joined ≠ some now)
    (hcap : owedCap x ≤ x.owed) : x.refreshDue now true = { x with forced := inc32 x.forced } := by
  simp [Channel.refreshDue, hup, hsr, hj, hcap]

theorem refreshDue_owed {x : Channel} {now : Nat} (hup : x.up = true) (hsr : x.sr = false) (hj : x.joined ≠ some now)
    (hcap : x.owed < owedCap x) : x.refreshDue now true = { x with owed := x.owed + 1 } := by
  simp [Channel.refreshDue, hup, hsr, hj, Nat.not_le.mpr hcap]

theorem selfRefresh_of_up {x : Channel} (hup : x.up = true) (hsr : x.sr = false) :
    selfRefresh x = { x with sr := true, owed := 0, srEntries := inc32 x.srEntries } := by
  simp [selfRefresh, hup, hsr]

theorem exec_refreshDue {s : State} (hm : s.sys.mode ≠ .reset) (n : Fin 2) (waiting : Bool) :
    exec (.refreshDue n waiting) s = .next (s.modChan n fun x => x.refreshDue s.now waiting) :=
  congrArg Host.Outcome.next (whenUp_eq (fun u => u.modChan n fun x => x.refreshDue u.now waiting) hm)

theorem exec_zqCalDue {s : State} (hm : s.sys.mode ≠ .reset) (n : Fin 2) : exec (.zqCalDue n) s =
    .next (s.modChan n fun x => if x.up && !x.sr then { x with zqCals := x.zqCals + 1 } else x) :=
  congrArg Host.Outcome.next (whenUp_eq _ hm)

theorem exec_selfRefreshIdle {s : State} (hm : s.sys.mode ≠ .reset) {n : Fin 2} (hc : claimed s = false)
    (hd : s.hdp.any (·.state == .marking) = false) (hr : requestComes s = false) :
    exec (.selfRefreshIdle n) s = .next (s.modChan n selfRefresh) := by
  refine congrArg Host.Outcome.next ((whenUp_eq _ hm).trans ?_)
  rw [hc, hd, hr]
  rfl

/-! ### The temperature of a channel -/

/-- A refresh interval that halves runs what is owed at once (R493), in its own channel. -/
theorem enterDoubled_chan (s : State) (n : Fin 2) :
    (∃ j o f, (enterDoubled s n).drc.ch[n] = { s.drc.ch[n] with joined := j, doubled := true, owed := o, forced := f }) ∧
      ∀ m, m ≠ n → (enterDoubled s n).drc.ch[m] = s.drc.ch[m] := by
  unfold enterDoubled
  extract_lets x joins run stored
  by_cases h : x.doubled = true
  · rw [if_pos h]
    refine ⟨⟨x.joined, x.owed, x.forced, ?_⟩, fun _ _ => rfl⟩
    rw [← h]
  · rw [if_neg h, raise_drc]
    exact ⟨⟨_, _, _, modChan_get_same s n _⟩, fun m hm => modChan_get_other s hm _⟩

theorem dramReading_chan (s : State) (n : Fin 2) (v : Int) :
    (dramReading s n v).drc.ch[n].temp = v ∧ (dramReading s n v).drc.ch[n].broken = false ∧
      (340 ≤ v → (dramReading s n v).drc.ch[n].doubled = true) ∧ (v < 332 → (dramReading s n v).drc.ch[n].doubled = false) ∧
      (332 ≤ v → v < 340 → (dramReading s n v).drc.ch[n].doubled = s.drc.ch[n].doubled) ∧
      ∀ m, m ≠ n → (dramReading s n v).drc.ch[m] = s.drc.ch[m] := by
  unfold dramReading
  extract_lets old stuck stored raised
  have hstuck : stuck.drc = s.drc := by
    simp only [stuck]
    split
    · exact same_drc (State.stick_view _ _ _ (by decide))
    · rfl
  have hraised : raised.drc = stored.drc := by
    simp only [raised]
    split
    · exact raise_drc ..
    · rfl
  have hsame : ∃ fl, raised.drc.ch[n] = { s.drc.ch[n] with temp := v, broken := false, flags := fl } := by
    rw [hraised]
    simp only [stored]
    rw [modChan_get_same, hstuck]
    exact ⟨_, rfl⟩
  have hother : ∀ m, m ≠ n → raised.drc.ch[m] = s.drc.ch[m] := fun m hm => by
    rw [hraised]
    simp only [stored]
    rw [modChan_get_other _ hm, hstuck]
  obtain ⟨fl, hfl⟩ := hsame
  by_cases h340 : 340 ≤ v
  · obtain ⟨⟨j, o, f, hd⟩, hrest⟩ := enterDoubled_chan raised n
    rw [if_pos h340, hd, hfl]
    exact ⟨rfl, rfl, fun _ => rfl, fun h => by omega, fun _ h => by omega, fun m hm => (hrest m hm).trans (hother m hm)⟩
  · by_cases h : v < 332 ∧ old.doubled = true
    · rw [if_neg h340, if_pos h, raise_drc, modChan_get_same, hfl]
      exact ⟨rfl, rfl, fun _ => by omega, fun _ => rfl, fun _ => by omega,
        fun m hm => (modChan_get_other _ hm _).trans (hother m hm)⟩
    · rw [if_neg h340, if_neg h, hfl]
      exact ⟨rfl, rfl, fun _ => by omega, fun hlow => Bool.eq_false_iff.mpr fun hd => h ⟨hlow, hd⟩, fun _ _ => rfl, hother⟩

theorem exec_dramTempSample {s : State} (hm : s.sys.mode ≠ .reset) {n : Fin 2} {code : BitVec 12} {v : Int}
    (hb : (dramBody s).isEmpty = false) (hfit : u8 (dramBody s) (0x16 + n.1) ≠ 0xFF) (h0 : code ≠ 0) (hmax : code ≠ 4095)
    (hv : between (dramTable (dramBody s)) code.toNat = some v) :
    exec (.dramTempSample n code) s = .next (dramReading s n v) := by
  have hcode : (u8 (dramBody s) (0x16 + n.1) == 0xFF || code == 0 || code == 4095) = false := by
    rw [beq_eq_false_iff_ne.mpr hfit, beq_eq_false_iff_ne.mpr h0, beq_eq_false_iff_ne.mpr hmax]
    rfl
  refine congrArg Host.Outcome.next ((whenUp_eq _ hm).trans ?_)
  dsimp only
  rw [hb, hcode, hv]
  rfl

/-- Settles O21, by what each row does to its channel. -/
theorem dramRowsComplete : Obligations.DramRowsComplete := by
  intro s n hm
  refine ⟨fun hup hsr => ⟨fun hj => ⟨?_, fun hcap => ?_, fun hcap => ?_⟩, ?_, fun hc hd hr => ?_⟩,
    fun code hb hfit h0 hmax v hv => ⟨_, exec_dramTempSample hm hb hfit h0 hmax hv, dramReading_chan s n v⟩⟩
  · refine ⟨_, exec_refreshDue hm n false, ?_⟩
    rw [modChan_get_same, refreshDue_idle hup hsr hj]
    exact ⟨rfl, rfl⟩
  · refine ⟨_, exec_refreshDue hm n true, ?_⟩
    rw [modChan_get_same, refreshDue_forced hup hsr hj hcap]
    exact ⟨rfl, rfl⟩
  · refine ⟨_, exec_refreshDue hm n true, ?_⟩
    rw [modChan_get_same, refreshDue_owed hup hsr hj hcap]
    exact ⟨rfl, rfl⟩
  · refine ⟨_, exec_zqCalDue hm n, ?_⟩
    rw [modChan_get_same, hup, hsr]
    rfl
  · refine ⟨_, exec_selfRefreshIdle hm hc hd hr, ?_⟩
    rw [modChan_get_same, selfRefresh_of_up hup hsr]
    exact ⟨rfl, rfl, rfl⟩

end Sys2Proof.Machine
end

section
/-! Proof of the statement about the events of the DRAM (O22). -/
namespace Sys2Proof.Machine
open Sys2Proof Sys2Proof.Safety

/-! ### A HALT takes no channel out of service -/

/-- The same channels serve in both states. -/
def SameUp (s t : State) : Prop := ∀ n : Fin 2, t.drc.ch[n].up = s.drc.ch[n].up

theorem SameUp.of_drc {s t : State} (h : t.drc = s.drc) : SameUp s t := fun n => by rw [h]

theorem SameUp.trans {s t u : State} (h : SameUp s t) (h' : SameUp t u) : SameUp s u := fun n => (h' n).trans (h n)

theorem leaveRefresh_sameUp (s : State) : SameUp s (leaveRefresh s) := fun n => by
  simp [leaveRefresh]

theorem haltFromStandby_sameUp (s : State) : SameUp s (haltFromStandby s) := by
  unfold haltFromStandby
  split
  · exact .of_drc rfl
  · extract_lets d fourth left
    have hfourth : fourth.drc = s.drc := by
      simp only [fourth]
      split
      · exact same_drc (leaveFourth_view _ (by decide) (by decide))
      · rfl
    have hleft : SameUp fourth left := by
      simp only [left]
      split
      · exact leaveRefresh_sameUp fourth
      · exact .of_drc rfl
    have hend (g : Sys → Sys) : ((restartSynths left).modSys g).drc = left.drc := by
      rw [State.modSys_drc]
      exact same_drc (restartSynths_view _ (by decide))
    exact ((SameUp.of_drc hfourth).trans hleft).trans (.of_drc (hend _))

theorem haltWith_sameUp (s : State) (r : Spoil) : SameUp s (haltWith s r) := by
  have hrest (u : State) (g : Sys → Sys) :
      (stopIngest (abandonAll (spoilCommitted (enterMode ((haltOutputs u).modSys g) .halt) r))).drc = u.drc :=
    same_drc (by simp)
  unfold haltWith
  split
  · exact .of_drc rfl
  · exact (haltFromStandby_sameUp s).trans (.of_drc (hrest _ _))

theorem haltForGood_sameUp (s : State) (src : Nat) : SameUp s (haltForGood s src) := by
  unfold haltForGood haltEntry
  split
  · exact .of_drc rfl
  · exact haltWith_sameUp (causeBy s src) .halt

/-! ### Replays -/

theorem replayed_chan (s : State) (n : Fin 2) (parity : Bool) :
    (∃ fl, (replayed s n parity).drc.ch[n] = { s.drc.ch[n] with
      parityReplays := if parity then inc32 s.drc.ch[n].parityReplays else s.drc.ch[n].parityReplays
      crcReplays := if parity then s.drc.ch[n].crcReplays else inc32 s.drc.ch[n].crcReplays, flags := fl }) ∧
      ∀ m, m ≠ n → (replayed s n parity).drc.ch[m] = s.drc.ch[m] := by
  unfold replayed
  extract_lets t
  have ht : (raise (t.stick (0x2C68 + 0x40 * n.1) 2) 0xE9 ((if parity then 1 else 2) + 2 ^ 24 * n.1)).drc = t.drc :=
    same_drc (by simp)
  rw [ht]
  exact ⟨⟨_, modChan_get_same s n _⟩, fun m hm => modChan_get_other s hm _⟩

/-- A channel that is lost serves no more, whatever HALT follows (R487, R495). -/
theorem loseChannel_down {s : State} {n : Fin 2} (h : s.drc.ch[n].up = true) : (loseChannel s n).drc.ch[n].up = false := by
  unfold loseChannel
  rw [h]
  extract_lets down cut spread low
  have hlow : low.drc = down.drc := same_drc (by simp [low, spread, cut])
  have hdown : low.drc.ch[n].up = false := by
    rw [hlow]
    simp only [down, modChan_get_same]
  rw [if_neg (by decide)]
  split
  · exact hdown
  · rw [haltForGood_sameUp, same_drc (raiseAt_view _ _ _ _ (by decide))]
    exact hdown

theorem replayFailed_up {s : State} {n : Fin 2} (h : s.drc.ch[n].up = true) (retrain : Bool) :
    (replayFailed s n retrain).drc.ch[n].up = retrain := by
  unfold replayFailed
  extract_lets flagged raised
  have hraised : raised.drc.ch[n].up = true := by
    have hdrc : raised.drc = (s.modChan n fun x => { x with flags := x.flags ||| 0x04 }).drc :=
      same_drc (by simp [raised, flagged])
    rw [hdrc, modChan_get_same]
    exact h
  cases retrain with
  | false => exact loseChannel_down hraised
  | true =>
    rw [if_pos rfl, modChan_get_same]
    exact hraised

theorem exec_dramAlert {s : State} (hm : s.sys.mode ≠ .reset) {n : Fin 2} (h : s.drc.ch[n].up = true) (a : Alert) :
    exec (.dramAlert n a) s =
      .next (if a.third then replayFailed (replayed s n a.parity) n a.retrain else replayed s n a.parity) := by
  refine congrArg Host.Outcome.next ((whenUp_eq _ hm).trans ?_)
  dsimp only
  rw [h]
  rfl

theorem dramAlert_replayed {s : State} (hm : s.sys.mode ≠ .reset) {n : Fin 2} {a : Alert} (h : s.drc.ch[n].up = true)
    (ha : a.third = false) :
    ∃ t, exec (.dramAlert n a) s = .next t ∧ t.drc.ch[n].up = true ∧
      t.drc.ch[n].parityReplays = (if a.parity then inc32 s.drc.ch[n].parityReplays else s.drc.ch[n].parityReplays) ∧
      t.drc.ch[n].crcReplays = (if a.parity then s.drc.ch[n].crcReplays else inc32 s.drc.ch[n].crcReplays) ∧
      ∀ m, m ≠ n → t.drc.ch[m] = s.drc.ch[m] := by
  obtain ⟨⟨fl, hfl⟩, hrest⟩ := replayed_chan s n a.parity
  refine ⟨_, exec_dramAlert hm h a, ?_⟩
  rw [ha, if_neg (by decide), hfl]
  exact ⟨h, rfl, rfl, hrest⟩

theorem dramAlert_failed {s : State} (hm : s.sys.mode ≠ .reset) {n : Fin 2} {a : Alert} (h : s.drc.ch[n].up = true)
    (ha : a.third = true) : ∃ t, exec (.dramAlert n a) s = .next t ∧ t.drc.ch[n].up = a.retrain := by
  obtain ⟨⟨fl, hfl⟩, -⟩ := replayed_chan s n a.parity
  refine ⟨_, exec_dramAlert hm h a, ?_⟩
  rw [ha, if_pos rfl]
  exact replayFailed_up (by rw [hfl]; exact h) _

/-! ### Training steps -/

/-- Without a change of rate that waits, a training step is all that its end does. -/
theorem deferredRate_none {s : State} (h : s.drc.ratePend = none) : deferredRate s = s := by
  rw [deferredRate, h]

/-- The end of a step is noted (R482). -/
def stepEnded (s : State) : State := s.modDrc fun d => { d with stepAt := some s.now }

theorem exec_dramTrainStepEnd {s : State} (hm : s.sys.mode ≠ .reset) {x : Training} (h : s.drc.training = some x)
    (ok : Bool) : exec (.dramTrainStepEnd ok) s = .next (deferredRate (
      if ok then stepPassed (stepEnded s) x
      else if x.retried then stepFailed (stepEnded s) x
      else (stepEnded s).modDrc fun d => { d with training := some { x with retried := true } })) := by
  refine congrArg Host.Outcome.next ((whenUp_eq _ hm).trans ?_)
  dsimp only
  rw [h]
  rfl

theorem stepPassed_next {s : State} {x : Training} (h : x.step + 1 < stepCount s.drc.ch[x.channel] x.kind) :
    stepPassed s x = s.modDrc fun d => { d with training := some { x with step := x.step + 1, retried := false } } := by
  unfold stepPassed
  rw [if_pos h]
  rfl

theorem dramTrainStepEnd_retries {s : State} (hm : s.sys.mode ≠ .reset) {x : Training} (h : s.drc.training = some x)
    (hrate : s.drc.ratePend = none) (hx : x.retried = false) :
    ∃ t, exec (.dramTrainStepEnd false) s = .next t ∧ t.drc.training = some { x with retried := true } := by
  refine ⟨_, exec_dramTrainStepEnd hm h false, ?_⟩
  rw [hx, if_neg (by decide), if_neg (by decide), deferredRate_none]
  · rfl
  · exact hrate

theorem dramTrainStepEnd_passes {s : State} (hm : s.sys.mode ≠ .reset) {x : Training} (h : s.drc.training = some x)
    (hrate : s.drc.ratePend = none) (hx : x.step + 1 < stepCount s.drc.ch[x.channel] x.kind) :
    ∃ t, exec (.dramTrainStepEnd true) s = .next t ∧
      t.drc.training = some { x with step := x.step + 1, retried := false } := by
  refine ⟨_, exec_dramTrainStepEnd hm h true, ?_⟩
  rw [if_pos rfl, stepPassed_next (s := stepEnded s) hx, deferredRate_none]
  · rfl
  · exact hrate

/-! ### Fill and health scan -/

theorem dramFillBlock_fills {s : State} (hm : s.sys.mode ≠ .reset) (hdone : s.drc.fillDone = false)
    (hcap : s.cad.capPages ≠ 0) (hdepth : s.sys.depth < 2) :
    ∃ t, exec .dramFillBlock s = .next t ∧ t.cad.filledPages = s.cad.filledPages + 512 ∧
      t.drc.fill = s.drc.fill + 2 * s.drc.ch.toList.countP (·.up) := by
  have hguard : ¬(s.drc.fillDone || decide (s.cad.capPages = 0) || decide (2 ≤ s.sys.depth)) = true := by
    simp [hdone, hcap, hdepth]
  refine ⟨_, congrArg Host.Outcome.next ((whenUp_eq _ hm).trans (if_neg hguard)), rfl, ?_⟩
  have hreq : (dramRequest s).drc = { s.drc with ch := s.drc.ch.map fun (c : Channel) => { c with sr := false } } := by
    rw [dramRequest, if_neg (by omega)]
    rfl
  simp [hreq, Function.comp_def]

theorem healthScanPassEnd_counts {s : State} (hm : s.sys.mode ≠ .reset) (hdone : s.drc.fillDone = true)
    (hsr : s.drc.ch.any (·.sr) = false) :
    ∃ t, exec .healthScanPassEnd s = .next t ∧ t.drc.scans = inc32 s.drc.scans ∧ t.drc.scanFails = 0 := by
  have hguard : ¬(!s.drc.fillDone || s.drc.ch.any (·.sr)) = true := by simp [hdone, hsr]
  refine ⟨_, congrArg Host.Outcome.next ((whenUp_eq _ hm).trans (if_neg hguard)), ?_⟩
  rw [raise_drc]
  exact ⟨rfl, rfl⟩

/-- Settles O22, event by event. -/
theorem dramEventsComplete : Obligations.DramEventsComplete := fun _ _ hm =>
  ⟨fun _ hup ha => dramAlert_replayed hm hup ha, fun _ hup ha => dramAlert_failed hm hup ha,
    fun _ hx hrate => ⟨fun h => dramTrainStepEnd_retries hm hx hrate h, fun h => dramTrainStepEnd_passes hm hx hrate h⟩,
    fun hdone hcap hdepth => dramFillBlock_fills hm hdone hcap hdepth,
    fun hdone hsr => healthScanPassEnd_counts hm hdone hsr⟩

end Sys2Proof.Machine
end

section
/-! Facts about a path stop (R401, R404), and the proof of the statement about windows, the main drive, routes and the deskew
deadline (O53). -/
namespace Sys2Proof.Machine
open Sys2Proof Sys2Proof.Safety

/-! ### What a sheet that completes leaves of the sequencer -/

/-- Only what the completion of sheets counts differs in the sequencer: no stop, no jam and no flag. -/
def SeqCounted (s t : State) : Prop :=
  ∃ d sp ov own, t.seq = { s.seq with done := d, spoiled := sp, ovsRun := ov, own := own }

namespace SeqCounted

theorem of_seq {s t : State} (h : t.seq = s.seq) : SeqCounted s t :=
  ⟨s.seq.done, s.seq.spoiled, s.seq.ovsRun, s.seq.own, h⟩

theorem of_view {s t : State} (h : view .seq t = view .seq s) : SeqCounted s t := of_seq (same_seq h)

theorem refl (s : State) : SeqCounted s s := of_seq rfl

theorem trans {s t u : State} (hst : SeqCounted s t) (htu : SeqCounted t u) : SeqCounted s u := by
  obtain ⟨d, sp, ov, own, ht⟩ := hst
  obtain ⟨d', sp', ov', own', hu⟩ := htu
  exact ⟨d', sp', ov', own', by rw [hu, ht]⟩

theorem foldl {α : Type} {f : State → α → State} (hf : ∀ u x, SeqCounted u (f u x)) (l : List α) (s : State) :
    SeqCounted s (l.foldl f s) := by
  induction l generalizing s with
  | nil => exact refl s
  | cons x xs ih => exact (hf s x).trans (ih _)

end SeqCounted

theorem overspeedRun_counted (s : State) (i : Fin 512) (e : Sheet) : SeqCounted s (overspeedRun s i e) := by
  have hrun (n : Nat) : SeqCounted s (s.modSeq fun q => { q with ovsRun := n }) := ⟨_, _, n, _, rfl⟩
  unfold overspeedRun
  split
  · exact hrun 0
  · dsimp only
    split
    · exact hrun _
    · split
      · exact (hrun _).trans (.of_view (raise_view _ _ _ (by decide)))
      · exact hrun _

theorem releaseUnits_counted (s : State) : SeqCounted s (releaseUnits s) := by
  unfold releaseUnits
  split
  · exact .refl s
  · exact ⟨_, _, _, false, rfl⟩

theorem completeSheet_counted (s : State) (i : Fin 512) : SeqCounted s (completeSheet s i) := by
  unfold completeSheet
  split
  · exact .refl s
  next e _ =>
    split
    · exact .refl s
    · extract_lets bad closed counted noted run raised
      have hcounted : SeqCounted s noted := ⟨_, _, _, _, rfl⟩
      have hraised : SeqCounted run raised := .of_view (raise_view _ _ _ (by decide))
      have hrecorded : SeqCounted raised (recordSheet raised i) :=
        .of_view (recordSheet_view _ _ (by decide) (by decide) (by decide) (by decide) (by decide))
      exact (((hcounted.trans (overspeedRun_counted _ i e)).trans hraised).trans hrecorded).trans
        (releaseUnits_counted _)

theorem completeSpoiled_counted (s : State) (i : Fin 512) (r : Spoil) : SeqCounted s (completeSpoiled s i r) := by
  unfold completeSpoiled
  exact (SeqCounted.of_view (by simp)).trans (completeSheet_counted _ i)

theorem beforeStop_counted (s : State) : SeqCounted s (beforeStop s) :=
  (SeqCounted.foldl (fun u (x : Fin 512 × Sheet) => completeSheet_counted u x.1) _ s).trans
    (.of_view (view_foldl _ _ _ fun _ _ => State.modSheet_view _ _ _ (by decide)))

/-! ### The stop itself -/

/-- What a path stop leaves in the sequencer (R401, R404). -/
theorem pathStop_seq {s : State} (h : s.seq.pathStop = none) (r : Spoil) (sensor kind sheet count : Nat) :
    (pathStop s r sensor kind sheet count).seq.pathStop = some ⟨r, false⟩ ∧
      (pathStop s r sensor kind sheet count).seq.jamSensor = (if r == .jam then sensor else s.seq.jamSensor) ∧
      (pathStop s r sensor kind sheet count).seq.jamKind = (if r == .jam then kind else s.seq.jamKind) ∧
      (pathStop s r sensor kind sheet count).seq.flags = s.seq.flags ||| (if r == .jam then 0x1 else 0x2) := by
  unfold pathStop
  rw [if_neg (by simp [h])]
  extract_lets jam stopped spoiled held slowed ramped
  obtain ⟨d, sp, ov, own, hbefore⟩ := beforeStop_counted s
  obtain ⟨d', sp', ov', own', hspoiled⟩ : SeqCounted stopped spoiled :=
    .foldl (fun u (x : Fin 512 × Sheet) => by
      split
      · exact completeSpoiled_counted u x.1 r
      · exact .refl u) _ _
  have hramped : ramped.seq = spoiled.seq := same_seq (by simp [ramped, slowed, held])
  have hend (c : Prop) [Decidable c] (m : State) (a b : Nat) :
      (if c then raiseMany m 0xB1 a count else raise m 0xB2 b).seq = m.seq := by
    split
    · exact same_seq (raiseMany_view _ _ _ _ (by decide))
    · exact same_seq (raise_view _ _ _ (by decide))
  rw [hend, hramped, hspoiled]
  have hstick : ((beforeStop s).stick 0x1A24 (if jam then 1 else 2)).seq = (beforeStop s).seq :=
    same_seq (State.stick_view _ _ _ (by decide))
  rw [State.modSeq_seq, hstick, hbefore]
  exact ⟨rfl, rfl, rfl, rfl⟩

theorem strayCheck_stopped {s : State} (h : s.seq.pathStop.isSome = true) : strayCheck s = s := by
  unfold strayCheck
  dsimp only
  split
  · rfl
  · rw [pathStop, if_pos h]

/-- A path that stands has no second stop: the modes that end in the cycle leave the sequencer. -/
theorem settle_stopped_seq {s : State} (h : s.seq.pathStop.isSome = true) : (settle s).seq = s.seq := by
  have hmode (m : Mode) : (enterMode s m).seq = s.seq := same_seq (enterMode_view s m (by decide) (by decide) (by decide))
  have hready : (enterReady s).seq = s.seq := by
    rw [enterReady, strayCheck_stopped (by rw [hmode]; exact h), hmode]
  unfold settle
  extract_lets ended
  have hended : ended.seq = s.seq := by
    simp only [ended]
    split
    · exact hready
    · split
      · exact hready
      · rfl
  split
  · exact hended
  · exact hended

/-! ### Windows that end (R400) -/

/-- The jams that the ended windows of one sensor give. -/
def endedAt (s : State) (k : Nat) : List Jam :=
  (sheets s).filterMap fun x =>
    if !x.2.picked then none
    else match x.2.windows.find? fun w => w.sensor == k with
      | none => none
      | some w => match w.lead with
        | none => if w.stop < (ppc s : Int) then some (k, 1, x.1.1) else none
        | some l => if !w.trailed && decide (l + 16 * x.2.length + tailTol s x.2.media < ppc s) then some (k, 3, x.1.1)
          else none

theorem endedWindows_eq (s : State) : endedWindows s = ((List.range 32).map (endedAt s)).flatten := rfl

theorem sensor_of_mem_endedAt {s : State} {k : Nat} {j : Jam} (h : j ∈ endedAt s k) : j.1 = k := by
  obtain ⟨x, -, hx⟩ := List.mem_filterMap.mp h
  split at hx
  · cases hx
  · split at hx
    · cases hx
    · split at hx
      · split at hx
        · cases hx; rfl
        · cases hx
      · split at hx
        · cases hx; rfl
        · cases hx

/-- The jams of the windows that have ended come sensor by sensor. -/
theorem endedWindows_sorted (s : State) : (endedWindows s).Pairwise fun x y => x.1 ≤ y.1 := by
  rw [endedWindows_eq, List.pairwise_flatten]
  refine ⟨fun l hl => ?_, List.pairwise_map.mpr (List.pairwise_lt_range.imp fun {k m} hkm x hx y hy => ?_)⟩
  · obtain ⟨k, -, rfl⟩ := List.mem_map.mp hl
    exact List.pairwise_of_forall_mem_list fun x hx y hy =>
      Nat.le_of_eq ((sensor_of_mem_endedAt hx).trans (sensor_of_mem_endedAt hy).symm)
  · rw [sensor_of_mem_endedAt hx, sensor_of_mem_endedAt hy]
    exact Nat.le_of_lt hkm

theorem endedWindows_sensor {s : State} {j : Jam} (h : j ∈ endedWindows s) : j.1 < 32 := by
  rw [endedWindows_eq] at h
  obtain ⟨l, hl, hj⟩ := List.mem_flatten.mp h
  obtain ⟨k, hk, rfl⟩ := List.mem_map.mp hl
  rw [sensor_of_mem_endedAt hj]
  exact List.mem_range.mp hk

/-- The first jam of the lowest sensor with one is the head of a list that comes sensor by sensor. -/
theorem lowest_jam {j : Jam} {rest : List Jam} (h32 : j.1 < 32) (hlow : ∀ x ∈ rest, j.1 ≤ x.1) :
    ((List.range 32).filterMap fun k => (j :: rest).find? fun x => x.1 == k).head? = some j := by
  rw [List.head?_filterMap, List.findSome?_eq_some_iff]
  refine ⟨List.range j.1, j.1, (List.range (31 - j.1)).map (j.1 + 1 + ·), ?_, by simp, fun k hk => ?_⟩
  · have h := List.range_add (n := j.1 + 1) (m := 31 - j.1)
    rw [List.range_succ, List.append_assoc] at h
    rw [← List.singleton_append, ← h]
    congr 1
    omega
  · refine List.find?_eq_none.mpr fun x hx => ?_
    have hk := List.mem_range.mp hk
    have hx : j.1 ≤ x.1 := by
      rcases List.mem_cons.mp hx with rfl | hx
      · exact Nat.le_refl _
      · exact hlow x hx
    simp
    omega

/-- No paper sensor changes in the cycle. -/
def NoEdge (s : State) : Prop := ∀ k paper, Instr.paperSensorEdge k paper ∉ s.pending

/-- With no edge in the cycle, the jams of a window's end are those of all windows that have ended. -/
theorem jamsComing_noEdge {s : State} (h : NoEdge s) : ∀ x ∈ jamsComing s, x ∈ endedWindows s := by
  intro x hx
  unfold jamsComing at hx
  extract_lets edges at hx
  have hedges : edges = [] := by
    refine List.filterMap_eq_nil_iff.mpr fun c hc => ?_
    split
    next k paper => exact absurd hc (h k paper)
    · rfl
  rw [hedges, List.nil_append] at hx
  split at hx
  · exact hx
  · cases hx

/-- The stop of a jam names the lowest sensor with one. -/
theorem jamStop_ended {s : State} {j : Jam} {rest : List Jam} (h : endedWindows s = j :: rest)
    (hc : NoEdge s) :
    ∃ n, jamStop s (endedWindows s) = pathStop s .jam j.1 j.2.1 j.2.2 n := by
  have hsorted := endedWindows_sorted s
  have h32 : j.1 < 32 := endedWindows_sensor (by rw [h]; exact List.mem_cons_self)
  rw [h, List.pairwise_cons] at hsorted
  have hlow : ∀ x ∈ rest ++ jamsComing s, j.1 ≤ x.1 := fun x hx => by
    rcases List.mem_append.mp hx with hx | hx
    · exact hsorted.1 x hx
    · have hx := jamsComing_noEdge hc x hx
      rw [h] at hx
      rcases List.mem_cons.mp hx with rfl | hx
      · exact Nat.le_refl _
      · exact hsorted.1 x hx
  have hhead := lowest_jam h32 hlow
  unfold jamStop
  rw [h, List.cons_append]
  dsimp only
  split
  next hnil => rw [hnil] at hhead; cases hhead
  next j' l hcons =>
    rw [hcons] at hhead
    cases hhead
    exact ⟨_, rfl⟩

theorem sensorWindowExpiry_stops {s : State} (hm : s.sys.mode ≠ .reset) (hh : s.sys.mode ≠ .halt)
    (hp : s.seq.pathStop = none) {k : Fin 32} {j : Jam} {rest : List Jam} (hj : endedWindows s = j :: rest)
    (hk : ((j :: rest).any fun x => x.1 == k.1) = true)
    (hc : NoEdge s) :
    ∃ t p, exec (.sensorWindowExpiry k) s = .next t ∧ t.seq.pathStop = some p ∧ p.reason = .jam ∧
      t.seq.jamSensor = j.1 ∧ t.seq.jamKind = j.2.1 ∧ t.seq.flags = s.seq.flags ||| 0x1 := by
  obtain ⟨n, hstop⟩ := jamStop_ended hj hc
  obtain ⟨hpath, hsensor, hkind, hflags⟩ := pathStop_seq hp .jam j.1 j.2.1 j.2.2 n
  have hopen : (windowsOpen s && (endedWindows s).any fun x => x.1 == k.1) = true := by
    simp [windowsOpen, hh, hp, hj, hk]
  have hrun : windowExpires s k.1 = pathStop s .jam j.1 j.2.1 j.2.2 n := by
    rw [windowExpires, if_pos hopen, hstop]
  refine ⟨_, ⟨.jam, false⟩, congrArg Host.Outcome.next (whenUp_eq _ hm), ?_⟩
  rw [hrun, settle_stopped_seq (by rw [hpath]; rfl)]
  exact ⟨hpath, rfl, hsensor, hkind, hflags⟩

theorem mainDriveToleranceExpiry_stops {s : State} (hm : s.sys.mode ≠ .reset) (hp : s.seq.pathStop = none)
    (htol : m6InTolerance s = false) (hpicked : ((sheets s).any fun x => x.2.picked) = true) :
    ∃ t p, exec .mainDriveToleranceExpiry s = .next t ∧ t.seq.pathStop = some p ∧ p.reason = .mainDrive ∧
      t.seq.flags = s.seq.flags ||| 0x2 := by
  obtain ⟨hpath, -, -, hflags⟩ := pathStop_seq hp .mainDrive 0 0 0 1
  have hrun : mainDriveOut s = pathStop s .mainDrive 0 0 0 1 := by
    rw [mainDriveOut, if_neg (by simp [htol, hpicked])]
  refine ⟨_, ⟨.mainDrive, false⟩, congrArg Host.Outcome.next (whenUp_eq _ hm), ?_⟩
  rw [hrun, settle_stopped_seq (by rw [hpath]; rfl)]
  exact ⟨hpath, rfl, hflags⟩

/-! ### Routes and the deskew deadline -/

theorem entries_of_mem_sheets {s : State} {x : Fin 512 × Sheet} : x ∈ sheets s → s.led.entries[x.1] = some x.2 := by
  intro h
  obtain ⟨y, hy, hx⟩ := List.mem_filterMap.mp h
  obtain ⟨n, hn, hget⟩ := List.getElem_of_mem hy
  rw [List.getElem_zip] at hget
  obtain ⟨e, he, rfl⟩ := Option.map_eq_some_iff.mp hx
  rw [← hget] at he ⊢
  simpa using he

/-- The windows that a route opens for a sheet, and the route, are in its entry (R393). -/
theorem fixRoute_entry {s : State} {i : Fin 512} {e : Sheet} (he : s.led.entries[i] = some e) :
    (fixRoute s i e).led.entries[i] = some { e with
      route := some (if e.spoil.isSome || e.cancel then e.spoilDest else e.dest)
      windows := e.windows ++ ((List.range 32).filter fun k => k != gateSensor s &&
        sensorServes s k (if e.spoil.isSome || e.cancel then e.spoilDest else e.dest) &&
        !(sensorServes s k e.dest && sensorServes s k e.spoilDest)).map (windowOf s (e.t.getD 0)) } := by
  rw [fixRoute, same_led (moveDiverters_view _ _ (by decide)), State.modSheet_led]
  refine (updF_get_same _ _ _).trans ?_
  rw [he]
  rfl

theorem routeDecision_routes {s : State} (hm : s.sys.mode ≠ .reset) (hh : s.sys.mode ≠ .halt) {i : Fin 512} {e : Sheet}
    {n : Nat} (hs : sheets s = [(i, e)]) (ht : e.t = some n) (ho : e.open = true) (hr : e.route = none)
    (hn : n + divDecide s ≤ ppc s) : ∃ t x, exec .routeDecision s = .next t ∧ t.led.entries[i] = some x ∧
      x.route = some (if e.spoil.isSome || e.cancel then e.spoilDest else e.dest) := by
  have he := entries_of_mem_sheets (s := s) (x := (i, e)) (by rw [hs]; exact List.mem_singleton_self _)
  have hrun : routeDecision s = fixRoute s i e := by
    unfold routeDecision
    rw [if_neg (by simpa using hh), hs]
    simp [ht, ho, hr, hn]
  refine ⟨_, _, congrArg Host.Outcome.next ((whenUp_eq _ hm).trans hrun), fixRoute_entry he, rfl⟩

theorem skew_axs (s : State) (why : Nat) : (skew s why).axs =
    updF s.axs (Fin.ofNat 16 (deskewRight (motionBody s))) fun x => { x with flags := x.flags ||| 0x40 } := by
  have hend (u : State) (o m src d : Nat) : (raise (u.stick o m) src d).axs = u.axs := same_axs (by simp)
  rw [skew, hend]
  rfl

theorem deskewDeadline_flags {s : State} (hm : s.sys.mode ≠ .reset) {a : Fin 16} {i : Fin 512} {e : Sheet} {n : Nat}
    (hc : deskewComes s = false) (ha : a.1 = deskewRight (motionBody s)) (hb : (motionBody s).isEmpty = false)
    (hs : sheets s = [(i, e)]) (he : e.state = .committed) (hl : e.watched (deskewSensorL (motionBody s)) = true)
    (hr : e.watched (deskewSensorR (motionBody s)) = true) (hlead : e.leadAt (deskewSensorL (motionBody s)) = none)
    (ht : e.t = some n) (hn : n ≤ ppc s + deskewEnd (motionBody s)) :
    ∃ t, exec .deskewDeadline s = .next t ∧ t.axs[a].flags = s.axs[a].flags ||| 0x40 ∧
      ∀ b, b ≠ a → t.axs[b] = s.axs[b] := by
  have hrun : deskewLate s = skew s 3 := by
    unfold deskewLate
    rw [hc, hs]
    simp [he, hb, hl, hr, hlead, ht, hn]
  have hright : Fin.ofNat 16 (deskewRight (motionBody s)) = a := by
    rw [← ha]
    simp
  refine ⟨_, congrArg Host.Outcome.next ((whenUp_eq _ hm).trans hrun), ?_⟩
  rw [skew_axs, hright]
  exact ⟨by rw [updF_get_same], fun b hb => updF_get_other _ _ _ _ hb⟩

/-- Settles O53, row by row. -/
theorem pathRowsComplete : Obligations.PathRowsComplete := fun _ hm hh hp =>
  ⟨fun _ _ _ hj hk hc => sensorWindowExpiry_stops hm hh hp hj hk fun _ _ he => List.any_eq_false.mp hc _ he rfl,
    fun htol hpicked => mainDriveToleranceExpiry_stops hm hp htol hpicked,
    fun _ _ _ hs ht ho hr hn => routeDecision_routes hm hh hs ht ho hr hn,
    fun _ _ _ _ hc ha hb hs he hl hr hlead ht hn => deskewDeadline_flags hm hc ha hb hs he hl hr hlead ht hn⟩

end Sys2Proof.Machine
end

section
/-! Facts about the channels of the motors: what a coast, a stop, a path stop and a HALT keep of them, and what waits in the
queue of a cycle. -/
namespace Sys2Proof.Machine
open Sys2Proof Sys2Proof.Safety

/-! ### The cycle's own commands -/

theorem coming_eq_false {s : State} {p : Instr → Bool} (h : ∀ c ∈ s.pending, p c = false) : coming s p = false :=
  List.any_eq_false.mpr fun c hc => by simp [h c hc]

theorem eq_false_of_coming {s : State} {p : Instr → Bool} (h : coming s p = false) {c : Instr} (hc : c ∈ s.pending) :
    p c = false := by
  simpa using List.any_eq_false.mp h c hc

/-! ### One channel -/

theorem modMotor_get_same (s : State) (m : Fin 10) (g : Motor → Motor) : (s.modMotor m g).mot.ch[m] = g s.mot.ch[m] := by
  rw [State.modMotor_mot]
  exact updF_get_same ..

theorem modMotor_get_other (s : State) {m k : Fin 10} (h : k ≠ m) (g : Motor → Motor) :
    (s.modMotor m g).mot.ch[k] = s.mot.ch[k] := by
  rw [State.modMotor_mot]
  exact updF_get_other _ _ _ _ h

/-! ### What is kept of every channel -/

/-- Of the motors only the channels may differ; each drives its gates as before, and one that is fenced stays so. -/
def ChansKept (s t : State) : Prop :=
  (∃ ch, t.mot = { s.mot with ch := ch }) ∧ ∀ m : Fin 10,
    t.mot.ch[m].drven = s.mot.ch[m].drven ∧ (s.mot.ch[m].state = .fenced → t.mot.ch[m].state = .fenced)

namespace ChansKept

theorem of_mot {s t : State} (h : t.mot = s.mot) : ChansKept s t :=
  ⟨⟨s.mot.ch, h⟩, fun m => by rw [h]; exact ⟨rfl, id⟩⟩

theorem of_view {s t : State} (h : view .mot t = view .mot s) : ChansKept s t := of_mot (same_mot h)

theorem refl (s : State) : ChansKept s s := of_mot rfl

theorem trans {s t u : State} (hst : ChansKept s t) (htu : ChansKept t u) : ChansKept s u := by
  obtain ⟨⟨ch, ht⟩, hm⟩ := hst
  obtain ⟨⟨ch', hu⟩, hm'⟩ := htu
  exact ⟨⟨ch', by rw [hu, ht]⟩, fun m => ⟨(hm' m).1.trans (hm m).1, fun h => (hm' m).2 ((hm m).2 h)⟩⟩

theorem foldl {α : Type} {f : State → α → State} (hf : ∀ u x, ChansKept u (f u x)) (l : List α) (s : State) :
    ChansKept s (l.foldl f s) := by
  induction l generalizing s with
  | nil => exact refl s
  | cons x xs ih => exact (hf s x).trans (ih _)

theorem modMotor {s : State} {m : Fin 10} {g : Motor → Motor} (hd : ∀ x, (g x).drven = x.drven)
    (hf : s.mot.ch[m].state ≠ .fenced) : ChansKept s (s.modMotor m g) := by
  refine ⟨⟨_, State.modMotor_mot s m g⟩, fun k => ?_⟩
  by_cases hk : k = m
  · subst hk
    rw [modMotor_get_same]
    exact ⟨hd _, fun h => absurd h hf⟩
  · rw [modMotor_get_other s hk]
    exact ⟨rfl, id⟩

end ChansKept

theorem coast_kept (s : State) (m : Fin 10) : ChansKept s (coast s m) := by
  unfold coast
  split
  · exact .refl s
  · exact .refl s
  next _ hf =>
    refine ChansKept.trans ?_ (.of_view (motorSlotOff_view (vp := .mot) _ _ (by decide)))
    exact ChansKept.modMotor (fun _ => rfl) hf

theorem controlledStop_kept (s : State) (m : Fin 10) : ChansKept s (controlledStop s m) := by
  have hbrake (h : s.mot.ch[m].state ≠ .fenced) : ChansKept s (if noRegen s || softComes s then coast s m
      else motorSlotKeep (s.modMotor m fun x => { x with state := .braking, reverse := false, lowSides := false }) m) := by
    split
    · exact coast_kept s m
    · refine ChansKept.trans ?_ (.of_view (motorSlotKeep_view (vp := .mot) _ _ (by decide)))
      exact ChansKept.modMotor (fun _ => rfl) h
  unfold controlledStop
  split
  next h => exact hbrake (by rw [h]; decide)
  next h => exact hbrake (by rw [h]; decide)
  · exact coast_kept s m
  · exact coast_kept s m
  · exact .refl s

theorem releaseUnits_kept (s : State) : ChansKept s (releaseUnits s) := by
  unfold releaseUnits
  split
  · exact .refl s
  · refine ⟨⟨_, rfl⟩, fun m => ?_⟩
    simp

theorem completeSheet_kept (s : State) (i : Fin 512) : ChansKept s (completeSheet s i) := by
  unfold completeSheet
  split
  · exact .refl s
  next e _ =>
    split
    · exact .refl s
    · extract_lets bad closed counted noted run raised
      have hraised : ChansKept s (recordSheet raised i) :=
        .of_view (by simp [raised, run, noted, counted, closed])
      exact hraised.trans (releaseUnits_kept _)

theorem completeSpoiled_kept (s : State) (i : Fin 512) (r : Spoil) : ChansKept s (completeSpoiled s i r) := by
  unfold completeSpoiled
  exact (ChansKept.of_view (by simp)).trans (completeSheet_kept _ i)

theorem beforeStop_kept (s : State) : ChansKept s (beforeStop s) :=
  (ChansKept.foldl (fun u (x : Fin 512 × Sheet) => completeSheet_kept u x.1) _ s).trans
    (.of_view (view_foldl _ _ _ fun _ _ => State.modSheet_view _ _ _ (by decide)))

theorem pathStop_kept (s : State) (r : Spoil) (sensor kind sheet count : Nat) :
    ChansKept s (pathStop s r sensor kind sheet count) := by
  unfold pathStop
  split
  · exact .refl s
  · extract_lets jam stopped spoiled held slowed ramped
    have hstopped : ChansKept s stopped := (beforeStop_kept s).trans (.of_view (by simp [stopped]))
    have hspoiled : ChansKept stopped spoiled :=
      .foldl (fun u (x : Fin 512 × Sheet) => by
        split
        · exact completeSpoiled_kept u x.1 r
        · exact .refl u) _ _
    have hslowed : ChansKept spoiled slowed :=
      (ChansKept.of_view (by simp [held])).trans (controlledStop_kept held 6)
    have hend : ChansKept slowed (if jam then raiseMany ramped 0xB1 (sensor + 32 * kind + 65536 * sheet) count
        else raise ramped 0xB2 r.code) := .of_view (by simp [ramped])
    exact ((hstopped.trans hspoiled).trans hslowed).trans hend

theorem haltOutputs_kept (s : State) : ChansKept s (haltOutputs s) := by
  unfold haltOutputs
  extract_lets dark cold off coasted braked
  have hoff : ChansKept s off := .of_view (by simp [off, cold, dark])
  have hcoasted : ChansKept off coasted := .foldl coast_kept _ _
  exact (hoff.trans hcoasted).trans (.of_view (by simp [braked]))

theorem spoilCommitted_kept (s : State) (r : Spoil) : ChansKept s (spoilCommitted s r) :=
  .foldl (fun u (x : Fin 512 × Sheet) => by
    split
    · exact completeSpoiled_kept u x.1 r
    · exact .refl u) _ s

/-- A HALT coasts the motors and completes the sheets, and opens no gate (R43, R47). -/
theorem haltEntry_kept (s : State) (src : Nat) : ChansKept s (haltEntry s src) := by
  have hwith (u : State) (r : Spoil) : ChansKept u (haltWith u r) := by
    unfold haltWith
    split
    · exact .refl u
    · extract_lets out mode spoiled
      have hout : ChansKept u out :=
        (ChansKept.of_view (haltFromStandby_view u (by decide) (by decide) (by decide) (by decide))).trans (haltOutputs_kept _)
      have hmode : ChansKept out mode := .of_view (by simp [mode])
      exact ((hout.trans hmode).trans (spoilCommitted_kept mode r)).trans (.of_view (by simp [spoiled]))
  unfold haltEntry
  split
  · exact .refl s
  · exact (ChansKept.of_view (by simp)).trans (hwith (causeBy s src) .halt)
end Sys2Proof.Machine
end

section
/-! Proof of the statement about zero crossings, commutations and PWM periods (O55). -/
namespace Sys2Proof.Machine
open Sys2Proof Sys2Proof.Safety

/-! ### Zero crossings and commutations -/

theorem exec_motorZeroCrossing {s : State} (hm : s.sys.mode ≠ .reset) (m : Fin 10) (phase : Fin 3) (rising : Bool)
    (prev last since : Nat) : exec (.motorZeroCrossing m phase rising prev last since) s =
      .next (zeroCrossing s m phase rising prev last since) :=
  congrArg Host.Outcome.next (whenUp_eq (fun u => zeroCrossing u m phase rising prev last since) hm)

/-- A channel that drives nothing reads every crossing (R431). -/
theorem crossingRead_of_released {e : List Byte} {x : Motor} (h : x.state.driving = false) (phase : Fin 3) (rising : Bool)
    (since : Nat) : crossingRead e x phase rising since = true := by
  simp [crossingRead, h]

/-- A driven channel reads the phase and the level of its step alone (R430). -/
theorem crossingRead_of_other {e : List Byte} {x : Motor} {phase : Fin 3} {rising : Bool} (hd : x.state.driving = true)
    (h0 : x.step ≠ 0) (hstep : x.step ≠ crossingStep e phase rising) (since : Nat) :
    crossingRead e x phase rising since = false := by
  simp [crossingRead, hd, h0, hstep]

theorem zeroCrossing_catching {s : State} {m : Fin 10} (h : s.mot.ch[m].state = .catching) (phase : Fin 3) (rising : Bool)
    (prev last since : Nat) : zeroCrossing s m phase rising prev last since =
      s.modMotor m fun x => x.caught (motorOf s m) (crossingStep (motorOf s m) phase rising) ((prev + last) / 2) := by
  unfold zeroCrossing
  extract_lets e x stepNs measure
  have hread : crossingRead e x phase rising since = true := crossingRead_of_released (by simp only [x, h]; rfl) ..
  rw [hread, if_neg (by decide)]
  simp only [x, h]
  rfl

theorem zeroCrossing_coasting {s : State} {m : Fin 10} (h : s.mot.ch[m].state = .coasting) (phase : Fin 3) (rising : Bool)
    (prev last since : Nat) : zeroCrossing s m phase rising prev last since = s.modMotor m fun x =>
      { x with
        periods := ((prev + last) / 2 :: x.periods).take 6
        speed := speedOf (motorOf s m) (meanPeriod { x with periods := ((prev + last) / 2 :: x.periods).take 6 }) } := by
  unfold zeroCrossing
  extract_lets e x stepNs measure
  have hread : crossingRead e x phase rising since = true := crossingRead_of_released (by simp only [x, h]; rfl) ..
  rw [hread, if_neg (by decide)]
  simp only [x, h]
  rfl

theorem zeroCrossing_unread {s : State} {m : Fin 10} {phase : Fin 3} {rising : Bool}
    (hd : s.mot.ch[m].state.driving = true) (h0 : s.mot.ch[m].step ≠ 0)
    (hstep : s.mot.ch[m].step ≠ crossingStep (motorOf s m) phase rising) (prev last since : Nat) :
    zeroCrossing s m phase rising prev last since = s := by
  unfold zeroCrossing
  extract_lets e x stepNs measure
  rw [crossingRead_of_other hd h0 hstep]
  rfl

theorem commutate_next {s : State} {m : Fin 10} (h0 : s.mot.ch[m].step ≠ 0)
    (h : s.mot.ch[m].state = .ramping ∨ s.mot.ch[m].state = .running ∨ s.mot.ch[m].state = .braking) :
    (commutate s m).mot.ch[m].step = nextStep (motorOf s m) s.mot.ch[m].step ∧
      (commutate s m).mot.ch[m].state = s.mot.ch[m].state := by
  have hdrives (x : Motor) (h0 : x.step ≠ 0) (h : x.state = .ramping ∨ x.state = .running ∨ x.state = .braking) :
      ¬(decide (x.step = 0) || !x.state.driving || x.state == .aligning) = true := by
    rcases h with h | h | h <;> simp [h, h0, MotorState.driving]
  unfold commutate
  rw [modMotor_get_same]
  dsimp only
  rw [if_neg (hdrives _ h0 h)]
  exact ⟨rfl, rfl⟩

/-! ### PWM periods -/

theorem motorRaise_state (s : State) (m : Fin 10) (cause value flag : Nat) :
    (motorRaise s m cause value flag).mot.ch[m].state = s.mot.ch[m].state := by
  unfold motorRaise
  extract_lets flagged
  have hraise : (raise flagged (0xD0 + m.1) (cause + 256 * value)).mot = flagged.mot := same_mot (raise_view _ _ _ (by decide))
  rw [hraise]
  by_cases h : flag < 6
  · have hstick (u : State) (o k : Nat) : (u.stick o k).mot = u.mot := same_mot (State.stick_view _ _ _ (by decide))
    simp only [flagged, if_pos h, hstick, modMotor_get_same]
  · simp only [flagged, if_neg h]

/-- A fence opens the bridge, and the path stop of an owned channel leaves it so (R404, R509). -/
theorem fenceChannel_fences {s : State} {m : Fin 10} (h : s.mot.ch[m].state ≠ .fenced) :
    (fenceChannel s m).mot.ch[m].state = .fenced ∧ (fenceChannel s m).mot.ch[m].drven = false := by
  have hfence : (fenceMotor s m).mot.ch[m].state = .fenced ∧ (fenceMotor s m).mot.ch[m].drven = false := by
    rw [fenceMotor, same_mot (motorSlotOff_view _ _ (by decide)), modMotor_get_same]
    exact ⟨rfl, rfl⟩
  have hstop := (pathStop_kept (fenceMotor s m) .stop 0 0 0 1).2 m
  obtain ⟨hstate, hdrven⟩ := hfence
  unfold fenceChannel
  rw [if_neg (by simpa using h)]
  by_cases ho : s.mot.ch[m].owned = true
  · rw [if_pos ho]
    exact ⟨hstop.2 hstate, hstop.1.trans hdrven⟩
  · rw [if_neg ho]
    exact ⟨hstate, hdrven⟩

/-- A channel that protects itself is fenced, and its source with it (R436, R509). -/
theorem motorProtect_fences {s : State} {m : Fin 10} (h : s.mot.ch[m].state ≠ .fenced) (cause value flag : Nat) :
    (motorProtect s m cause value flag).mot.ch[m].state = .fenced ∧
      (motorProtect s m cause value flag).mot.ch[m].drven = false ∧
      (motorProtect s m cause value flag).flt.src[Fin.ofNat 256 (0xD0 + m.1)].fenced = true := by
  have hraise : (motorRaise s m cause value flag).mot.ch[m].state ≠ .fenced := by
    rw [motorRaise_state]
    exact h
  have hself (u : State) (src : Nat) : (selfFence u src).mot = u.mot := same_mot (selfFence_view _ _ (by decide))
  obtain ⟨hstate, hdrven⟩ := fenceChannel_fences hraise
  refine ⟨?_, ?_, ?_⟩
  · rw [motorProtect, hself]
    exact hstate
  · rw [motorProtect, hself]
    exact hdrven
  · rw [motorProtect, selfFence, State.modSrc_flt]
    exact congrArg Src.fenced (updF_get_same _ _ _)

/-- A PWM period of a channel that runs: what it stores before it looks at the feeds and the trip current (R433, R435). -/
theorem motorPwm_runs {s : State} {m : Fin 10} {bitsU bitsV : List Bool} {bits : List (Bool × Bool)}
    (hbits : bits = (bitsU.zip bitsV).take (motorPwmNs (motorOf s m) / (5 * mdclkCycles s (moClock (motorOf s m)))))
    (hstop : s.mot.ch[m].state ≠ .stopped) (hf : s.mot.ch[m].state ≠ .fenced) :
    ∃ u, motorPwm s m bitsU bitsV =
      (if feedStuck (bits.map (·.1)) s.mot.ch[m].feed.1 then motorProtect u m 0x07 0 3
       else if feedStuck (bits.map (·.2)) s.mot.ch[m].feed.2 then motorProtect u m 0x07 1 3
       else match (scanFeeds (motorOf s m) s.mot.ch[m] bits).trip with
         | some p => motorProtect u m 0x06 p 2
         | none => u) ∧
      u.mot.ch[m].state = s.mot.ch[m].state ∧
      u.mot.ch[m].ocRun = (scanFeeds (motorOf s m) s.mot.ch[m] bits).run ∧ u.free = s.free + 1 ∧
      (s.mot.ch[m].state.driving = false → u.mot.ch[m].duty = 0) ∧ ∀ k, k ≠ m → u.mot.ch[k] = s.mot.ch[k] := by
  subst hbits
  unfold motorPwm
  extract_lets e x clocks bits i scan peak drives d floor stored sticky
  have hsticky : sticky.mot = stored.mot ∧ sticky.free = stored.free := by
    have hstick (o k : Nat) : (stored.stick o k).mot = stored.mot := same_mot (State.stick_view _ _ _ (by decide))
    simp only [sticky]
    split
    · exact ⟨hstick _ _, rfl⟩
    · exact ⟨rfl, rfl⟩
  obtain ⟨hmot, hfree⟩ := hsticky
  have hx : x.state ≠ .stopped ∧ x.state ≠ .fenced := ⟨hstop, hf⟩
  refine ⟨sticky, if_neg (by simp [hx]), ?_⟩
  rw [hmot, hfree]
  simp only [stored, modMotor_get_same]
  refine ⟨rfl, rfl, rfl, fun (hd : x.state.driving = false) => if_neg (by simp [drives, hd]), fun k hk => ?_⟩
  exact modMotor_get_other _ hk _

theorem exec_motorPwmPeriod {s : State} (hm : s.sys.mode ≠ .reset) (m : Fin 10) (bitsU bitsV : List Bool) :
    exec (.motorPwmPeriod m bitsU bitsV) s = .next (motorPwm s m bitsU bitsV) :=
  congrArg Host.Outcome.next (whenUp_eq (fun u => motorPwm u m bitsU bitsV) hm)

theorem motorPwmPeriod_draws {s : State} (hm : s.sys.mode ≠ .reset) {m : Fin 10} {bitsU bitsV : List Bool}
    {bits : List (Bool × Bool)}
    (hbits : bits = (bitsU.zip bitsV).take (motorPwmNs (motorOf s m) / (5 * mdclkCycles s (moClock (motorOf s m)))))
    (hstop : s.mot.ch[m].state ≠ .stopped) (hf : s.mot.ch[m].state ≠ .fenced)
    (hu : feedStuck (bits.map (·.1)) s.mot.ch[m].feed.1 = false) (hv : feedStuck (bits.map (·.2)) s.mot.ch[m].feed.2 = false)
    (htrip : (scanFeeds (motorOf s m) s.mot.ch[m] bits).trip = none) :
    ∃ t, exec (.motorPwmPeriod m bitsU bitsV) s = .next t ∧ t.mot.ch[m].state = s.mot.ch[m].state ∧
      t.mot.ch[m].ocRun = (scanFeeds (motorOf s m) s.mot.ch[m] bits).run ∧ t.free = s.free + 1 ∧
      (s.mot.ch[m].state.driving = false → t.mot.ch[m].duty = 0) ∧ ∀ k, k ≠ m → t.mot.ch[k] = s.mot.ch[k] := by
  obtain ⟨u, hrun, hkept⟩ := motorPwm_runs hbits hstop hf
  rw [hu, hv, htrip] at hrun
  exact ⟨u, (exec_motorPwmPeriod hm m bitsU bitsV).trans (congrArg Host.Outcome.next hrun), hkept⟩

theorem motorPwmPeriod_protects {s : State} (hm : s.sys.mode ≠ .reset) {m : Fin 10} {bitsU bitsV : List Bool}
    {bits : List (Bool × Bool)}
    (hbits : bits = (bitsU.zip bitsV).take (motorPwmNs (motorOf s m) / (5 * mdclkCycles s (moClock (motorOf s m)))))
    (hstop : s.mot.ch[m].state ≠ .stopped) (hf : s.mot.ch[m].state ≠ .fenced)
    (h : feedStuck (bits.map (·.1)) s.mot.ch[m].feed.1 = true ∨ feedStuck (bits.map (·.2)) s.mot.ch[m].feed.2 = true ∨
      (scanFeeds (motorOf s m) s.mot.ch[m] bits).trip.isSome = true) :
    ∃ t, exec (.motorPwmPeriod m bitsU bitsV) s = .next t ∧ t.mot.ch[m].state = .fenced ∧ t.mot.ch[m].drven = false ∧
      t.flt.src[Fin.ofNat 256 (0xD0 + m.1)].fenced = true := by
  obtain ⟨u, hrun, hstate, -⟩ := motorPwm_runs hbits hstop hf
  have hu : u.mot.ch[m].state ≠ .fenced := by rw [hstate]; exact hf
  refine ⟨_, exec_motorPwmPeriod hm m bitsU bitsV, ?_⟩
  rw [hrun]
  by_cases hA : feedStuck (bits.map (·.1)) s.mot.ch[m].feed.1 = true
  · rw [if_pos hA]
    exact motorProtect_fences hu _ _ _
  · by_cases hB : feedStuck (bits.map (·.2)) s.mot.ch[m].feed.2 = true
    · rw [if_neg hA, if_pos hB]
      exact motorProtect_fences hu _ _ _
    · rw [if_neg hA, if_neg hB]
      obtain ⟨p, hp⟩ := Option.isSome_iff_exists.mp ((h.resolve_left hA).resolve_left hB)
      rw [hp]
      exact motorProtect_fences hu _ _ _

/-- Settles O55, command by command. -/
theorem motorRowsComplete : Obligations.MotorRowsComplete := by
  intro s m hm
  refine ⟨fun phase rising prev last since h => ?_, fun phase rising prev last since h => ?_,
    fun phase rising prev last since hd h0 hstep => ?_, fun h0 h => ?_,
    fun bitsU bitsV bits hbits hstop hf => ⟨fun hu hv htrip => motorPwmPeriod_draws hm hbits hstop hf hu hv htrip,
      fun h => motorPwmPeriod_protects hm hbits hstop hf h⟩⟩
  · refine ⟨_, exec_motorZeroCrossing hm m phase rising prev last since, ?_⟩
    rw [zeroCrossing_catching h, modMotor_get_same]
    exact ⟨rfl, fun k hk => modMotor_get_other s hk _⟩
  · refine ⟨_, exec_motorZeroCrossing hm m phase rising prev last since, ?_⟩
    rw [zeroCrossing_coasting h, modMotor_get_same]
    exact ⟨rfl, rfl, h, fun k hk => modMotor_get_other s hk _⟩
  · rw [exec_motorZeroCrossing hm, zeroCrossing_unread hd h0 hstep]
  · obtain ⟨hstep, hstate⟩ := commutate_next h0 h
    exact ⟨_, congrArg Host.Outcome.next (whenUp_eq (fun u => commutate u m) hm), hstep, hstate,
      fun k hk => modMotor_get_other s hk _⟩


end Sys2Proof.Machine
end

section
/-! Proof of the statement about the motor bus, its chopper and the speed inputs (O57). -/
namespace Sys2Proof.Machine
open Sys2Proof Sys2Proof.Safety

/-! ### Every channel in turn -/

/-- What each channel's step sets for it, and keeps for the others, holds of all channels at the end. -/
theorem overMotors_all {P : Motor → Prop} {f : State → Fin 10 → State}
    (hset : ∀ (u : State) (m : Fin 10), P (f u m).mot.ch[m])
    (hkeep : ∀ (u : State) (m k : Fin 10), P u.mot.ch[k] → P (f u m).mot.ch[k]) (s : State) (m : Fin 10) : P (overMotors s f).mot.ch[m] := by
  have hfold (l : List (Fin 10)) : ∀ u : State, (m ∈ l ∨ P u.mot.ch[m]) → P (l.foldl f u).mot.ch[m] := by
    induction l with
    | nil => exact fun u h => h.resolve_left List.not_mem_nil
    | cons k ks ih =>
      refine fun u h => ih (f u k) ?_
      rcases h with h | h
      · rcases List.mem_cons.mp h with rfl | h
        · exact .inr (hset u m)
        · exact .inl h
      · exact .inr (hkeep u k m h)
  exact hfold _ s (.inl (List.mem_finRange m))

/-- The channel gives no torque and is not fenced on the way to it: it stands, coasts, or was fenced before. -/
def Motor.Released (x : Motor) : Prop := x.state = .stopped ∨ x.state = .fenced ∨ x.state = .coasting

/-- A channel that stands or is fenced does not coast; any other does (R437). -/
theorem coast_cases (s : State) (m : Fin 10) : s.mot.ch[m].Released ∧ coast s m = s ∨ coast s m =
    motorSlotOff (s.modMotor m fun x => { x.idle with state := .coasting, lost := false, crossings := 0 }) m := by
  unfold coast
  split
  next h => exact .inl ⟨.inl h, rfl⟩
  next h => exact .inl ⟨.inr (.inl h), rfl⟩
  · exact .inr rfl

theorem coast_get (s : State) (m : Fin 10) : (coast s m).mot.ch[m].Released ∧
    ∀ k, k ≠ m → (coast s m).mot.ch[k] = s.mot.ch[k] := by
  rcases coast_cases s m with ⟨hr, h⟩ | h
  · rw [h]
    exact ⟨hr, fun _ _ => rfl⟩
  · rw [h, same_mot (motorSlotOff_view _ _ (by decide)), modMotor_get_same]
    exact ⟨.inr (.inr rfl), fun k hk => modMotor_get_other s hk _⟩

theorem overMotors_coast (s : State) (m : Fin 10) : (overMotors s coast).mot.ch[m].Released := by
  refine overMotors_all (P := Motor.Released) (fun u k => (coast_get u k).1) (fun u k j hj => ?_) s m
  by_cases h : j = k
  · subst h
    exact (coast_get u j).1
  · rw [(coast_get u k).2 j h]
    exact hj

theorem Motor.Released.not_braking {x : Motor} (h : x.Released) : x.state ≠ .braking := by
  rcases h with h | h | h <;> simp [h]

/-- Raising a source of a channel flags it, and no more. -/
theorem motorRaise_get (s : State) (m : Fin 10) (cause value flag : Nat) :
    (∃ fl, (motorRaise s m cause value flag).mot.ch[m] = { s.mot.ch[m] with flags := fl }) ∧
      ∀ k, k ≠ m → (motorRaise s m cause value flag).mot.ch[k] = s.mot.ch[k] := by
  unfold motorRaise
  extract_lets flagged
  have hraise : (raise flagged (0xD0 + m.1) (cause + 256 * value)).mot = flagged.mot := same_mot (raise_view _ _ _ (by decide))
  have hstick (u : State) (o k : Nat) : (u.stick o k).mot = u.mot := same_mot (State.stick_view _ _ _ (by decide))
  rw [hraise]
  by_cases h : flag < 6
  · simp only [flagged, if_pos h, hstick]
    exact ⟨⟨_, modMotor_get_same s m _⟩, fun k hk => modMotor_get_other s hk _⟩
  · have hflagged : flagged = s := if_neg h
    rw [hflagged]
    exact ⟨⟨s.mot.ch[m].flags, rfl⟩, fun _ _ => rfl⟩

theorem motorRaise_kept (s : State) (m : Fin 10) (cause value flag : Nat) :
    ChansKept s (motorRaise s m cause value flag) := by
  obtain ⟨⟨fl, hsame⟩, hother⟩ := motorRaise_get s m cause value flag
  refine ⟨?_, fun k => ?_⟩
  · unfold motorRaise
    extract_lets flagged
    rw [same_mot (raise_view _ _ _ (by decide))]
    simp only [flagged]
    split
    · exact ⟨_, rfl⟩
    · exact ⟨_, rfl⟩
  · by_cases hk : k = m
    · subst hk
      rw [hsame]
      exact ⟨rfl, id⟩
    · rw [hother k hk]
      exact ⟨rfl, id⟩

theorem overMotors_kept {f : State → Fin 10 → State} (hf : ∀ u m, ChansKept u (f u m)) (s : State) :
    ChansKept s (overMotors s f) :=
  .foldl hf _ s

/-- What a ban on regeneration does to one channel (R441, R443). -/
def brakeToCoast (s : State) (m : Fin 10) : State :=
  if s.mot.ch[m].state == .braking then motorRaise (coast s m) m 0x08 0 5 else s

theorem brakingCoasts_eq (s : State) : brakingCoasts s = overMotors s brakeToCoast := rfl

theorem brakeToCoast_kept (s : State) (m : Fin 10) : ChansKept s (brakeToCoast s m) := by
  unfold brakeToCoast
  split
  · exact (coast_kept s m).trans (motorRaise_kept _ m 0x08 0 5)
  · exact .refl s

theorem brakeToCoast_get (s : State) (m : Fin 10) : (brakeToCoast s m).mot.ch[m].state ≠ .braking ∧
    ∀ k, k ≠ m → (brakeToCoast s m).mot.ch[k] = s.mot.ch[k] := by
  unfold brakeToCoast
  by_cases h : s.mot.ch[m].state = .braking
  · obtain ⟨⟨fl, hsame⟩, hother⟩ := motorRaise_get (coast s m) m 0x08 0 5
    obtain ⟨hreleased, hrest⟩ := coast_get s m
    rw [if_pos (by simpa using h), hsame]
    exact ⟨hreleased.not_braking, fun k hk => (hother k hk).trans (hrest k hk)⟩
  · rw [if_neg (by simpa using h)]
    exact ⟨h, fun _ _ => rfl⟩

theorem brakingCoasts_kept (s : State) : ChansKept s (brakingCoasts s) := by
  rw [brakingCoasts_eq]
  exact overMotors_kept brakeToCoast_kept s

/-- The motor channels that brake coast, and none brakes then (R441, R443). -/
theorem brakingCoasts_none (s : State) (m : Fin 10) : (brakingCoasts s).mot.ch[m].state ≠ .braking := by
  rw [brakingCoasts_eq]
  refine overMotors_all (P := fun x => x.state ≠ .braking) (fun u k => (brakeToCoast_get u k).1) (fun u k j hj => ?_) s m
  by_cases h : j = k
  · subst h
    exact (brakeToCoast_get u j).1
  · rw [(brakeToCoast_get u k).2 j h]
    exact hj

/-! ### A HALT reaches its mode from every mode -/

theorem haltEntry_mode {s : State} (h : s.sys.mode ≠ .reset) (src : Nat) : (haltEntry s src).sys.mode = .halt := by
  unfold haltEntry
  by_cases hh : s.sys.mode = .halt
  · rw [if_pos (by simp [hh])]
    exact hh
  · rw [if_neg (by simp [h, hh])]
    have hc : ¬((causeBy s src).sys.mode == .halt) = true := by simpa [causeBy] using hh
    unfold haltWith
    rw [if_neg hc]
    extract_lets out mode spoiled
    have hsys : (stopIngest (abandonAll spoiled)).sys = mode.sys := same_sys (by simp [spoiled])
    rw [hsys]
    simp only [mode, enterMode_sys]

/-! ### BUS_SAMPLE -/

/-- The bus, its peak and the chopper's answer as a sample has stored them, and whether the hard limit is in force. -/
def BusKept (s t : State) : Prop :=
  t.mot.busV = s.mot.busV ∧ t.mot.busPeak = s.mot.busPeak ∧ t.mot.brkFb = s.mot.brkFb ∧ t.mot.hard = s.mot.hard

theorem ChansKept.bus {s t : State} (h : ChansKept s t) : BusKept s t := by
  obtain ⟨⟨ch, h⟩, -⟩ := h
  rw [BusKept, h]
  exact ⟨rfl, rfl, rfl, rfl⟩

theorem BusKept.trans {s t u : State} (h : BusKept s t) (h' : BusKept t u) : BusKept s u :=
  ⟨h'.1.trans h.1, h'.2.1.trans h.2.1, h'.2.2.1.trans h.2.2.1, h'.2.2.2.trans h.2.2.2⟩

/-- The values of a sample are stored (R441). -/
def busStored (s : State) (code : BitVec 12) (fb : Bool) : State :=
  s.modMot fun m => { m with
    busV := busMillivolts (motorBody s) code.toNat, busPeak := Nat.max m.busPeak (busMillivolts (motorBody s) code.toNat)
    brkFb := fb }

/-- What the chopper and the soft limit do with a sample keeps its values; then the hard limit acts. -/
theorem busSample_eq {s : State} (hb : (motorBody s).isEmpty = false) (code : BitVec 12) (fb : Bool) :
    ∃ u, BusKept (busStored s code fb) u ∧ u.sys = s.sys ∧ busSample s code fb =
      if decide (busHard (motorBody s) ≤ busMillivolts (motorBody s) code.toNat) && !u.mot.hard then busHardLimit u else u := by
  unfold busSample
  extract_lets b v stored chopped cleared limited
  refine ⟨limited, ?_, ?_, if_neg (by simp [b, hb])⟩
  · have hcleared : BusKept stored cleared := by
      simp only [cleared]
      split
      · exact ⟨rfl, rfl, rfl, rfl⟩
      · exact ⟨rfl, rfl, rfl, rfl⟩
    have hlimited : BusKept cleared limited := by
      have hraise (u : State) (o k src d : Nat) : (raise (u.stick o k) src d).mot = u.mot := same_mot (by simp)
      simp only [limited]
      split
      · refine BusKept.trans ?_ (brakingCoasts_kept _).bus
        rw [BusKept, hraise]
        exact ⟨rfl, rfl, rfl, rfl⟩
      · exact ⟨rfl, rfl, rfl, rfl⟩
    exact hcleared.trans hlimited
  · refine same_sys ?_
    simp only [limited, cleared, chopped, stored]
    split <;> split <;> simp [brakingCoasts]

/-- Past the hard limit every channel's bridge is open, and the device halts (R441, R444). -/
theorem busHardLimit_mot {s : State} : (busHardLimit s).mot.busV = s.mot.busV ∧
    (busHardLimit s).mot.busPeak = s.mot.busPeak ∧ (busHardLimit s).mot.brkFb = s.mot.brkFb ∧
    (busHardLimit s).mot.hard = true ∧ ∀ m : Fin 10, (busHardLimit s).mot.ch[m].drven = false := by
  unfold busHardLimit
  extract_lets coasted opened
  have hcoasted : ChansKept s coasted := overMotors_kept coast_kept s
  clear_value coasted
  have hopened (m : Fin 10) : opened.mot.ch[m].drven = false := by simp [opened]
  have hstored : opened.mot.busV = coasted.mot.busV ∧ opened.mot.busPeak = coasted.mot.busPeak ∧
      opened.mot.brkFb = coasted.mot.brkFb ∧ opened.mot.hard = true := ⟨rfl, rfl, rfl, rfl⟩
  clear_value opened
  obtain ⟨hv, hpeak, hfb, -⟩ := hcoasted.bus
  obtain ⟨hov, hopeak, hofb, hohard⟩ := hstored
  have hhalt : ChansKept opened (haltEntry (raiseAt opened 0xDA 0 .halt) 0xDA) :=
    (ChansKept.of_view (raiseAt_view _ _ _ _ (by decide))).trans (haltEntry_kept _ _)
  obtain ⟨hhv, hhpeak, hhfb, hhhard⟩ := hhalt.bus
  exact ⟨hhv.trans (hov.trans hv), hhpeak.trans (hopeak.trans hpeak), hhfb.trans (hofb.trans hfb), hhhard.trans hohard,
    fun m => (hhalt.2 m).1.trans (hopened m)⟩

theorem busHardLimit_mode {s : State} (h : s.sys.mode ≠ .reset) : (busHardLimit s).sys.mode = .halt := by
  unfold busHardLimit
  extract_lets coasted opened
  have hsys : (raiseAt opened 0xDA 0 .halt).sys = s.sys := same_sys (by simp [opened, coasted])
  exact haltEntry_mode (by rw [hsys]; exact h) _

theorem exec_busSample {s : State} (hm : s.sys.mode ≠ .reset) (code : BitVec 12) (fb : Bool) :
    exec (.busSample code fb) s = .next (busSample s code fb) :=
  congrArg Host.Outcome.next (whenUp_eq (fun u => busSample u code fb) hm)

theorem busSample_measures (s : State) (code : BitVec 12) (fb : Bool) :
    (busSample s code fb).mot.busV = busMillivolts (motorBody s) code.toNat ∧
      (busSample s code fb).mot.busPeak = Nat.max s.mot.busPeak (busMillivolts (motorBody s) code.toNat) ∧
      (busSample s code fb).mot.brkFb = fb := by
  cases hb : (motorBody s).isEmpty with
  | true =>
    unfold busSample
    rw [if_pos hb]
    exact ⟨rfl, rfl, rfl⟩
  | false =>
    obtain ⟨u, ⟨hv, hpeak, hfb, -⟩, -, hrun⟩ := busSample_eq hb code fb
    rw [hrun]
    split
    · obtain ⟨hv', hpeak', hfb', -⟩ := busHardLimit_mot (s := u)
      exact ⟨hv'.trans hv, hpeak'.trans hpeak, hfb'.trans hfb⟩
    · exact ⟨hv, hpeak, hfb⟩

theorem busSample_hard {s : State} (hm : s.sys.mode ≠ .reset) {code : BitVec 12} (hb : (motorBody s).isEmpty = false)
    (hlimit : busHard (motorBody s) ≤ busMillivolts (motorBody s) code.toNat) (hh : s.mot.hard = false) (fb : Bool) :
    (busSample s code fb).mot.hard = true ∧ (busSample s code fb).sys.mode = .halt ∧
      ∀ m : Fin 10, (busSample s code fb).mot.ch[m].drven = false := by
  obtain ⟨u, ⟨-, -, -, hhard⟩, hsys, hrun⟩ := busSample_eq hb code fb
  obtain ⟨-, -, -, hset, hopen⟩ := busHardLimit_mot (s := u)
  have hu : u.mot.hard = false := hhard.trans hh
  rw [hrun, if_pos (by simp [hlimit, hu])]
  exact ⟨hset, busHardLimit_mode (by rw [hsys]; exact hm), hopen⟩

/-! ### Undervoltage and the chopper -/

/-- A sample of the cycle leaves an undervoltage as it is. -/
def NoRecovery (s : State) : Prop := ∀ code fb, Instr.busSample code fb ∈ s.pending →
  ¬busUv (motorBody s) ≤ busMillivolts (motorBody s) code.toNat

theorem busUndervoltage_coasts {s : State} (hb : (motorBody s).isEmpty = false) (hv : s.mot.busV < busUv (motorBody s))
    (hc : NoRecovery s) : (busUndervoltage s).mot.flags = s.mot.flags ||| 0x4 ∧
      ∀ m : Fin 10, (busUndervoltage s).mot.ch[m].Released := by
  have hcoming : busUndervoltage s =
      raise (((overMotors s coast).modMot fun m => { m with flags := m.flags ||| 0x4 }).stick 0x2310 4) 0xDD 0 := by
    unfold busUndervoltage
    dsimp only
    rw [coming_eq_false, if_neg (by simp [hb, Nat.not_le.mpr hv])]
    intro c hmem
    split
    next code fb => exact decide_eq_false (hc code fb hmem)
    · rfl
  have hraise (u : State) (o k src d : Nat) : (raise (u.stick o k) src d).mot = u.mot := same_mot (by simp)
  obtain ⟨⟨ch, hmot⟩, -⟩ := overMotors_kept coast_kept s
  have hreleased := overMotors_coast s
  rw [hcoming, hraise, State.modMot_mot]
  generalize overMotors s coast = u at hmot hreleased
  exact ⟨by rw [hmot], hreleased⟩

theorem chopperFault_noFeedback {s : State} (hbrk : s.mot.brk = true) (hfb : s.mot.brkFb = false)
    (hc : ∀ code fb, Instr.busSample code fb ∈ s.pending → fb = false) :
    (chopperFault s .noFeedback).mot.chopperHold = true ∧
      (chopperFault s .noFeedback).mot.flags = s.mot.flags ||| 0x2 ∧
      ∀ m : Fin 10, (chopperFault s .noFeedback).mot.ch[m].state ≠ .braking := by
  have hstands : chopperFault s .noFeedback = raise (brakingCoasts
      ((s.modMot fun m => { m with chopperHold := true, flags := m.flags ||| 0x2 }).stick 0x2310 2)) 0xDC 1 := by
    unfold chopperFault
    dsimp only
    rw [coming_eq_false, hbrk, hfb]
    · exact if_neg (by decide)
    intro c hmem
    split
    next code fb _ => exact hc code fb hmem
    next heq => cases heq
    · rfl
  have hraise (u : State) (src d : Nat) : (raise u src d).mot = u.mot := same_mot (by simp)
  have hstick (u : State) (o k : Nat) : (u.stick o k).mot = u.mot := same_mot (by simp)
  obtain ⟨⟨ch, hmot⟩, -⟩ := brakingCoasts_kept
    ((s.modMot fun m => { m with chopperHold := true, flags := m.flags ||| 0x2 }).stick 0x2310 2)
  rw [hstands, hraise]
  refine ⟨?_, ?_, brakingCoasts_none _⟩
  · rw [hmot, hstick]
    rfl
  · rw [hmot, hstick]
    rfl

/-! ### Speed inputs -/

theorem setSpeed_mot (s : State) (m : Fin 10) (v : Nat) :
    (setSpeed s m v).mot.ch[m].setpoint = v ∧ (setSpeed s m v).mot.spdcmd = s.mot.spdcmd := by
  unfold setSpeed
  extract_lets x back stored
  have hslot : (motorSlotTarget (if back then motorSlotKeep stored m else stored) m v).mot = stored.mot :=
    same_mot (by simp)
  rw [hslot]
  simp only [stored, modMotor_get_same]
  exact ⟨trivial, rfl⟩

/-- An input that is not suspended has nothing to resume (R446). -/
theorem spdResume_get {s : State} {m : Fin 10} (h : s.mot.ch[m].suspended = false) (v : Nat) :
    (spdResume s m v).mot.ch[m] = s.mot.ch[m] ∧ (spdResume s m v).mot.spdcmd = s.mot.spdcmd := by
  unfold spdResume
  rw [modMotor_get_same]
  exact ⟨if_pos (by simpa using h), rfl⟩

theorem spdUpdate_sets {s : State} {n : Fin 2} {f set : Nat} (hb : (motorBody s).isEmpty = false)
    (hn : spdMode (motorBody s) n.1 ≠ 0)
    (hset : set = min (moMaxSpeed (motorOf s (spdChannel n))) (spdFull (motorBody s) n.1 * min 65536 f / 65536))
    (hsus : s.mot.ch[spdChannel n].suspended = false) (hen : moEnabled (motorOf s (spdChannel n)) = true)
    (hrun : s.mot.ch[spdChannel n].state = .running) (hlow : moSensorless (motorOf s (spdChannel n)) ≤ set) :
    (spdUpdate s n f).mot.spdcmd[n] = set ∧ (spdUpdate s n f).mot.ch[spdChannel n].setpoint = set := by
  subst hset
  unfold spdUpdate
  extract_lets b m e v stored resumed x
  obtain ⟨hget, hspd⟩ := spdResume_get (s := stored) (m := m) hsus v
  have hx : x = s.mot.ch[m] := hget
  have hspeed : resumed.mot.spdcmd[n] = v := by
    rw [hspd]
    simp [stored]
  obtain ⟨hsetpoint, hcmd⟩ := setSpeed_mot resumed m v
  rw [if_neg (by simp [b, hb, hn]), hx]
  rw [if_neg (by rw [hsus]; simp [e, m, hen]), if_neg (by rw [hrun]; decide), if_neg (by rw [hrun]; decide),
    if_neg (Nat.not_lt.mpr hlow)]
  exact ⟨by rw [hcmd]; exact hspeed, hsetpoint⟩

theorem controlledStop_running {s : State} {m : Fin 10} (h : s.mot.ch[m].state = .running) :
    (controlledStop s m).mot.ch[m].state = if noRegen s || softComes s then .coasting else .braking := by
  unfold controlledStop
  rw [h]
  dsimp only
  by_cases hr : (noRegen s || softComes s) = true
  · rcases coast_cases s m with ⟨hreleased, -⟩ | hc
    · rcases hreleased with hn | hn | hn <;> rw [h] at hn <;> cases hn
    · rw [if_pos hr, if_pos hr, hc, same_mot (motorSlotOff_view _ _ (by decide)), modMotor_get_same]
  · rw [if_neg hr, if_neg hr, same_mot (motorSlotKeep_view _ _ (by decide)), modMotor_get_same]

/-- No sample of the speed input comes in the cycle. -/
def NoUpdate (s : State) (n : Fin 2) : Prop := ∀ f, Instr.spdcmdUpdate n f ∉ s.pending

theorem spdDropout_stops {s : State} {n : Fin 2} (hb : (motorBody s).isEmpty = false) (hn : spdMode (motorBody s) n.1 ≠ 0)
    (hsus : s.mot.ch[spdChannel n].suspended = false) (hrun : s.mot.ch[spdChannel n].state = .running)
    (hstop : stopComes s (spdChannel n) = false) (hc : NoUpdate s n) :
    (spdDropout s n).mot.ch[spdChannel n].state = if noRegen s || softComes s then .coasting else .braking := by
  have hstops : spdDropout s n = motorRaise (controlledStop s (spdChannel n)) (spdChannel n) 0x09 0 6 := by
    unfold spdDropout
    dsimp only
    rw [coming_eq_false, hb, hsus, hstop]
    · exact if_neg (by simp [hn])
    intro c hmem
    split
    next k f => exact beq_eq_false_iff_ne.mpr fun hk => hc f (by rw [← hk]; exact hmem)
    · rfl
  rw [hstops, motorRaise_state, controlledStop_running hrun]

/-- Settles O57, command by command. -/
theorem busRowsComplete : Obligations.BusRowsComplete := by
  intro s hm
  refine ⟨fun code fb => ⟨_, exec_busSample hm code fb, busSample_measures s code fb⟩,
    fun code fb hb hlimit hh => ⟨_, exec_busSample hm code fb, busSample_hard hm hb hlimit hh fb⟩,
    fun hb hv hc => ⟨_, congrArg Host.Outcome.next (whenUp_eq _ hm), busUndervoltage_coasts hb hv fun code fb hmem => ?_⟩,
    fun hbrk hfb hc => ⟨_, congrArg Host.Outcome.next (whenUp_eq (fun u => chopperFault u .noFeedback) hm),
      chopperFault_noFeedback hbrk hfb fun _ _ hmem => eq_false_of_coming hc hmem⟩,
    fun n f set hb hn hset hsus hen hrun hlow =>
      ⟨_, congrArg Host.Outcome.next (whenUp_eq (fun u => spdUpdate u n f) hm),
        spdUpdate_sets hb hn hset hsus hen hrun hlow⟩,
    fun n hb hn hsus hrun hstop hc => ⟨_, congrArg Host.Outcome.next (whenUp_eq (fun u => spdDropout u n) hm),
      spdDropout_stops hb hn hsus hrun hstop fun f hmem => ?_⟩⟩
  · exact of_decide_eq_false (eq_false_of_coming hc hmem)
  · exact beq_eq_false_iff_ne.mp (eq_false_of_coming hc hmem) rfl

end Sys2Proof.Machine
end

section
/-! Proof of the statement about the fault fabric (O60). A reaction to a raise never touches the sources but to fence or coalesce
them: `f_srcs` says of a function of the model that it leaves the whole vector of sources, and `ToldKept` that what the
sources tell of their raises stays. Seen through `view .flt`, the frames of `Laws/Frames` close what does not touch the fabric. -/
namespace Sys2Proof.Machine
open Sys2Proof Sys2Proof.Safety

/-- The sources that a state's fabric holds. -/
def srcs (s : State) : Vector Src 256 := s.flt.src

@[simp] theorem srcs_ite (c : Prop) [Decidable c] (a b : State) : srcs (if c then a else b) = if c then srcs a else srcs b :=
  apply_ite ..

@[simp] theorem srcs_modFlt (s : State) (g : Fabric → Fabric) (h : ∀ f, (g f).src = f.src) :
    srcs (view .flt (s.modFlt g)) = srcs (view .flt s) := h s.flt

@[simp] theorem srcs_stick (s : State) (o m : Nat) : srcs (view .flt (s.stick o m)) = srcs (view .flt s) := rfl

@[simp] theorem srcs_foldl {α : Type} (l : List α) (f : State → α → State) (s : State)
    (h : ∀ u x, srcs (view .flt (f u x)) = srcs (view .flt u)) :
    srcs (view .flt (l.foldl f s)) = srcs (view .flt s) := by
  induction l generalizing s with
  | nil => rfl
  | cons a l ih => rw [List.foldl_cons, ih, h]

@[simp] theorem srcs_iter (f : State → State) (n : Nat) (s : State)
    (h : ∀ u, srcs (view .flt (f u)) = srcs (view .flt u)) : srcs (view .flt (iter f n s)) = srcs (view .flt s) := by
  induction n generalizing s with
  | zero => rfl
  | succ n ih => rw [iter, ih, h]

/-! ### Raises, records and completions -/

@[simp] theorem raiseAt_srcs (s : State) (src : Nat) (detail : Nat) (min : Level) :
    srcs (view .flt (raiseAt s src detail min)) = srcs (view .flt s) := by
  unfold raiseAt
  (repeat' split) <;> simp

@[simp] theorem raise_srcs (s : State) (src : Nat) (detail : Nat) :
    srcs (view .flt (raise s src detail)) = srcs (view .flt s) := by
  unfold raise
  simp

@[simp] theorem raiseMany_srcs (s : State) (src : Nat) (detail : Nat) (count : Nat) :
    srcs (view .flt (raiseMany s src detail count)) = srcs (view .flt s) := by
  unfold raiseMany
  simp

@[simp] theorem overspeedRun_srcs (s : State) (i : Fin 512) (e : Sheet) :
    srcs (view .flt (overspeedRun s i e)) = srcs (view .flt s) := by
  unfold overspeedRun
  (repeat' split) <;> simp

@[simp] theorem voidFormed_srcs (s : State) (u : Unformed) :
    srcs (view .flt (voidFormed s u)) = srcs (view .flt s) := by
  unfold voidFormed
  (repeat' split) <;> simp

@[simp] theorem formOne_srcs (s : State) (u : Unformed) : srcs (view .flt (formOne s u)) = srcs (view .flt s) := by
  unfold formOne
  (repeat' split) <;> simp

@[simp] theorem formReady_srcs (n : Nat) (s : State) : srcs (view .flt (formReady n s)) = srcs (view .flt s) := by
  induction n generalizing s with
  | zero => rfl
  | succ n ih =>
    unfold formReady
    (repeat' split) <;> simp [ih]

@[simp] theorem formAll_srcs (s : State) : srcs (view .flt (formAll s)) = srcs (view .flt s) := by
  unfold formAll
  simp

@[simp] theorem stampHeld_srcs (u : Unformed) (s : State) : srcs (view .flt (stampHeld u s).1) = srcs (view .flt s) := by
  unfold stampHeld
  split <;> simp

@[simp] theorem requestRecord_srcs (s : State) (u : Unformed) :
    srcs (view .flt (requestRecord s u)) = srcs (view .flt s) := by
  unfold requestRecord
  (repeat' split) <;> simp

@[simp] theorem recordSheet_srcs (s : State) (i : Fin 512) :
    srcs (view .flt (recordSheet s i)) = srcs (view .flt s) := by
  unfold recordSheet
  (repeat' split) <;> simp

@[simp] theorem completeSheet_srcs (s : State) (i : Fin 512) :
    srcs (view .flt (completeSheet s i)) = srcs (view .flt s) := by
  unfold completeSheet
  (repeat' split) <;> simp

@[simp] theorem journal_srcs (s : State) (type : Nat) (aux : Nat) (payload : List Byte) :
    srcs (view .flt (journal s type aux payload)) = srcs (view .flt s) := by
  unfold journal
  simp

@[simp] theorem journalEvent_srcs (s : State) (aux : Nat) (src : Nat) (l : Level) (detail : Word) :
    srcs (view .flt (journalEvent s aux src l detail)) = srcs (view .flt s) := by
  unfold journalEvent
  simp

/-! ### Path stops, units and modes -/

@[simp] theorem overAxes_srcs (s : State) (f : State → Fin 16 → State)
    (h : ∀ u a, srcs (view .flt (f u a)) = srcs (view .flt u)) :
    srcs (view .flt (overAxes s f)) = srcs (view .flt s) := by
  unfold overAxes
  exact srcs_foldl _ _ _ h

@[simp] theorem beforeStop_srcs (s : State) : srcs (view .flt (beforeStop s)) = srcs (view .flt s) := by
  unfold beforeStop
  simp

@[simp] theorem retireCheck_srcs (before : State) (s : State) :
    srcs (view .flt (retireCheck before s)) = srcs (view .flt s) := by
  unfold retireCheck
  simp

@[simp] theorem abandon_srcs (s : State) (i : Fin 512) : srcs (view .flt (abandon s i)) = srcs (view .flt s) := by
  unfold abandon
  simp

@[simp] theorem completeSpoiled_srcs (s : State) (i : Fin 512) (r : Spoil) :
    srcs (view .flt (completeSpoiled s i r)) = srcs (view .flt s) := by
  unfold completeSpoiled
  simp

@[simp] theorem panicUpdate_srcs (s : State) : srcs (view .flt (panicUpdate s)) = srcs (view .flt s) := by
  unfold panicUpdate
  simp

@[simp] theorem pathStop_srcs (s : State) (r : Spoil) (sensor : Nat) (kind : Nat) (sheet : Nat) (count : Nat) :
    srcs (view .flt (pathStop s r sensor kind sheet count)) = srcs (view .flt s) := by
  unfold pathStop
  (repeat' split) <;> simp

@[simp] theorem ownedStop_srcs (s : State) : srcs (view .flt (ownedStop s)) = srcs (view .flt s) := by
  unfold ownedStop
  simp

@[simp] theorem poolCheck_srcs (before : State) (s : State) :
    srcs (view .flt (poolCheck before s)) = srcs (view .flt s) := by
  unfold poolCheck
  (repeat' split) <;> simp

@[simp] theorem completeIngest_srcs (s : State) (d : Ingest) (r : IgRes) :
    srcs (view .flt (completeIngest s d r)) = srcs (view .flt s) := by
  unfold completeIngest
  (repeat' split) <;> simp

@[simp] theorem takeEncodeLane_srcs (s : State) (d : Ingest) :
    srcs (view .flt (takeEncodeLane s d)) = srcs (view .flt s) := by
  unfold takeEncodeLane
  dsimp only
  (repeat' split) <;> simp

@[simp] theorem encodeWaiting_srcs (s : State) : srcs (view .flt (encodeWaiting s)) = srcs (view .flt s) := by
  unfold encodeWaiting
  refine srcs_foldl _ _ _ fun u x => ?_
  (repeat' split) <;> simp

@[simp] theorem rerunIngest_srcs (s : State) (n : Fin 12) (selfVerify : Bool) :
    srcs (view .flt (rerunIngest s n selfVerify)) = srcs (view .flt s) := by
  unfold rerunIngest
  (repeat' split) <;> simp

@[simp] theorem finishParked_srcs (s : State) (k : Nat) (r : Reply) :
    srcs (view .flt (finishParked s k r)) = srcs (view .flt s) := by
  unfold finishParked
  (repeat' split) <;> simp

@[simp] theorem cutRun_srcs (s : State) (id : LaneId) (r : Res) :
    srcs (view .flt (cutRun s id r)) = srcs (view .flt s) := by
  unfold cutRun
  extract_lets noted
  have hnoted : srcs (view .flt noted) = srcs (view .flt s) := by simp [noted]
  (repeat' split) <;> simp [hnoted]

@[simp] theorem fenceLane_srcs (s : State) (id : LaneId) : srcs (view .flt (fenceLane s id)) = srcs (view .flt s) := by
  unfold fenceLane
  split
  · rfl
  · extract_lets old before fenced checked failed cut
    have hchecked : srcs (view .flt checked) = srcs (view .flt s) := by simp [checked, fenced]
    rw [encodeWaiting_srcs]
    simp only [cut]
    clear_value old
    split <;> simp [hchecked]

@[simp] theorem headLeaves_srcs (s : State) (h : Fin 8) (new : HeadState) :
    srcs (view .flt (headLeaves s h new)) = srcs (view .flt s) := by
  unfold headLeaves
  simp

@[simp] theorem fenceHead_srcs (s : State) (h : Fin 8) : srcs (view .flt (fenceHead s h)) = srcs (view .flt s) := by
  unfold fenceHead
  (repeat' split) <;> simp

@[simp] theorem axisFlag_srcs (s : State) (a : Fin 16) (k : Nat) :
    srcs (view .flt (axisFlag s a k)) = srcs (view .flt s) := by
  unfold axisFlag
  simp

@[simp] theorem axisEnded_srcs (s : State) (a : Fin 16) (cause : Nat) :
    srcs (view .flt (axisEnded s a cause)) = srcs (view .flt s) := by
  unfold axisEnded
  simp

@[simp] theorem targetReached_srcs (s : State) (a : Fin 16) :
    srcs (view .flt (targetReached s a)) = srcs (view .flt s) := by
  unfold targetReached
  extract_lets x arrive raised
  have hraised : srcs (view .flt raised) = srcs (view .flt s) := by simp [raised]
  (repeat' split) <;> simp [hraised]

@[simp] theorem reachedFirst_srcs (s : State) (a : Fin 16) :
    srcs (view .flt (reachedFirst s a)) = srcs (view .flt s) := by
  unfold reachedFirst
  (repeat' split) <;> simp

@[simp] theorem axisCut_srcs (s : State) (a : Fin 16) : srcs (view .flt (axisCut s a)) = srcs (view .flt s) := by
  unfold axisCut
  (repeat' split) <;> simp

@[simp] theorem stopAxisAtOnce_srcs (s : State) (a : Fin 16) :
    srcs (view .flt (stopAxisAtOnce s a)) = srcs (view .flt s) := by
  unfold stopAxisAtOnce
  simp

@[simp] theorem stopGroup_srcs (s : State) (a : Fin 16) : srcs (view .flt (stopGroup s a)) = srcs (view .flt s) := by
  unfold stopGroup
  (repeat' split) <;> simp

@[simp] theorem fenceAxis_srcs (s : State) (a : Fin 16) : srcs (view .flt (fenceAxis s a)) = srcs (view .flt s) := by
  unfold fenceAxis
  (repeat' split) <;> simp

@[simp] theorem fenceChannel_srcs (s : State) (m : Fin 10) :
    srcs (view .flt (fenceChannel s m)) = srcs (view .flt s) := by
  unfold fenceChannel
  (repeat' split) <;> simp

@[simp] theorem fenceUnit_srcs (s : State) (src detail : Nat) :
    srcs (view .flt (fenceUnit s src detail)) = srcs (view .flt s) := by
  have hstation (u : State) (k : Fin 6) : srcs (view .flt (fenceStation u k)) = srcs (view .flt u) := by simp
  have hslots (k : Fin 6) : srcs (view .flt (s.modBtu k fun b => { b with slotFence := true })) = srcs (view .flt s) := by simp
  have hslot (n : Fin 160) : srcs (view .flt (fenceSlot s src n)) = srcs (view .flt s) := by simp
  unfold fenceUnit
  (repeat' split) <;>
    simp only [fenceLane_srcs, hstation, hslots, fenceHead_srcs, fenceAxis_srcs, fenceChannel_srcs, hslot]

@[simp] theorem haltAxis_srcs (s : State) (a : Fin 16) : srcs (view .flt (haltAxis s a)) = srcs (view .flt s) := by
  unfold haltAxis
  simp

@[simp] theorem haltOutputs_srcs (s : State) : srcs (view .flt (haltOutputs s)) = srcs (view .flt s) := by
  unfold haltOutputs
  simp

@[simp] theorem setMode_srcs (s : State) (m : Mode) : srcs (view .flt (setMode s m)) = srcs (view .flt s) := by
  unfold setMode
  (repeat' split) <;> simp

@[simp] theorem endInjection_srcs (s : State) : srcs (view .flt (endInjection s)) = srcs (view .flt s) := by
  unfold endInjection
  (repeat' split) <;> simp

@[simp] theorem enterMode_srcs (s : State) (m : Mode) : srcs (view .flt (enterMode s m)) = srcs (view .flt s) := by
  unfold enterMode
  simp

@[simp] theorem spoilCommitted_srcs (s : State) (r : Spoil) :
    srcs (view .flt (spoilCommitted s r)) = srcs (view .flt s) := by
  unfold spoilCommitted
  simp

@[simp] theorem stopIngest_srcs (s : State) : srcs (view .flt (stopIngest s)) = srcs (view .flt s) := by
  unfold stopIngest
  simp

@[simp] theorem abandonAll_srcs (s : State) : srcs (view .flt (abandonAll s)) = srcs (view .flt s) := by
  unfold abandonAll
  simp

@[simp] theorem haltWith_srcs (s : State) (r : Spoil) : srcs (view .flt (haltWith s r)) = srcs (view .flt s) := by
  unfold haltWith
  (repeat' split) <;> simp

@[simp] theorem haltEntry_srcs (s : State) (src : Nat) : srcs (view .flt (haltEntry s src)) = srcs (view .flt s) := by
  unfold haltEntry
  (repeat' split) <;> simp

@[simp] theorem holdSheet_srcs (s : State) (i : Fin 512) : srcs (view .flt (holdSheet s i)) = srcs (view .flt s) := by
  unfold holdSheet
  simp

@[simp] theorem runoutWith_srcs (s : State) : srcs (view .flt (runoutWith s)) = srcs (view .flt s) := by
  unfold runoutWith
  simp

@[simp] theorem runoutEntry_srcs (s : State) (src : Nat) :
    srcs (view .flt (runoutEntry s src)) = srcs (view .flt s) := by
  unfold runoutEntry
  (repeat' split) <;> simp

@[simp] theorem interruption_srcs (s : State) (r : Raise) (l : Level) :
    srcs (view .flt (interruption s r l)) = srcs (view .flt s) := by
  unfold interruption
  (repeat' split) <;> simp

@[simp] theorem queueAlarm_srcs (s : State) (src : Fin 256) :
    srcs (view .flt (queueAlarm s src)) = srcs (view .flt s) := by
  unfold queueAlarm
  split
  · exact srcs_modFlt _ _ fun f => by split <;> rfl
  · rfl


/-! ### What a source tells of its raises -/

/-- What the fabric has counted and kept of a source: its raises, the first and the latest detail and the level pending. -/
def told (x : Src) : Nat × Word × Word × Option Level := (x.raises, x.first, x.latest, x.pend)

/-- Every source of one state tells the same in the other. -/
structure ToldKept (s t : State) : Prop where
  same : ∀ k : Fin 256, told t.flt.src[k] = told s.flt.src[k]

namespace ToldKept

theorem of_srcs {s t : State} (h : srcs (view .flt t) = srcs (view .flt s)) : ToldKept s t := by
  have hsrc : t.flt.src = s.flt.src := h
  exact ⟨fun k => by rw [hsrc]⟩

theorem of_view {s t : State} (h : view .flt t = view .flt s) : ToldKept s t := of_srcs (congrArg srcs h)

theorem refl (s : State) : ToldKept s s := of_view rfl

theorem trans {s t u : State} (hst : ToldKept s t) (htu : ToldKept t u) : ToldKept s u :=
  ⟨fun k => (htu.same k).trans (hst.same k)⟩

theorem modSrc (s : State) (j : Fin 256) (g : Src → Src) (h : ∀ x, told (g x) = told x) : ToldKept s (s.modSrc j g) := by
  refine ⟨fun k => ?_⟩
  change told (updF s.flt.src j g)[k] = _
  rw [updF_get]
  split
  · next hk => rw [h, hk]
  · rfl

end ToldKept

theorem postCoalesced_told (s : State) (src : Fin 256) (c : Coalesce) (first : Bool) :
    ToldKept s (postCoalesced s src c first) := .of_view (by simp)

/-- An entry that is posted now starts the source's coalescing interval and tells nothing new of the source (R515). -/
theorem postNow_told (s : State) (r : Raise) (l : Level) (c : Coalesce) (first : Bool) :
    ToldKept s (postCoalesced (s.modSrc r.src fun y => { y with coalesce := some none, coalesceLevel := l }) r.src c first) := by
  refine ToldKept.trans ?_ (postCoalesced_told _ r.src c first)
  exact ToldKept.modSrc s r.src _ fun _ => rfl

theorem deliverEvent_told (s : State) (r : Raise) (l : Level) (first : Bool) : ToldKept s (deliverEvent s r l first) := by
  unfold deliverEvent
  extract_lets x u q now atOnce
  split
  · exact .refl s
  split
  · exact .of_srcs (by simp)
  have hu : ToldKept s u := .of_srcs (by simp [u])
  have hnow (v : State) : ToldKept v (atOnce v) := postNow_told v q l now first
  split
  · exact hu.trans (hnow u)
  split
  · exact hu.trans (ToldKept.modSrc u _ _ fun _ => rfl)
  · refine hu.trans (ToldKept.trans ?_ (hnow _))
    split
    · exact postCoalesced_told _ q.src _ false
    · exact .refl u

theorem selfFence_told (s : State) (src : Nat) : ToldKept s (selfFence s src) := .modSrc s _ _ fun _ => rfl

theorem react_told (s : State) (r : Raise) (l : Level) : ToldKept s (react s r l) := by
  unfold react
  extract_lets src u cause
  have hu : ToldKept s u := by
    unfold u
    split
    · exact (ToldKept.of_srcs (fenceUnit_srcs s src r.detail.toNat)).trans (selfFence_told _ src)
    · exact .refl s
  split
  · exact hu.trans (.of_srcs (by simp))
  split
  · exact hu.trans (.of_srcs (by simp))
  · exact hu

theorem aliveUpdate_told (s : State) : ToldKept s (aliveUpdate s) := .of_view (by simp)

/-! ### What a raise stores (R505) -/

theorem pendNum_max (p : Option Level) (l : Level) :
    pendNum (match p with | some q => some (Level.max q l) | none => some l) = Nat.max (pendNum p) l.toNat := by
  cases p with
  | none => exact (Nat.zero_max _).symm
  | some q => cases q <;> cases l <;> rfl

/-- A source as the raise `r` at level `l` leaves it (R505). -/
structure Recorded (x y : Src) (r : Raise) (l : Level) : Prop where
  raises : y.raises = satAdd 32 x.raises r.count
  latest : y.latest = r.detail
  first : y.first = if x.raises = 0 then r.detail else x.first
  pend : l ≠ .log → pendNum y.pend = Nat.max (pendNum x.pend) l.toNat
  pend_log : l = .log → y.pend = x.pend

theorem Recorded.of_told {x y z : Src} {r : Raise} {l : Level} (h : Recorded x y r l) (hz : told z = told y) : Recorded x z r l := by
  simp only [told, Prod.mk.injEq] at hz
  obtain ⟨hraises, hfirst, hlatest, hpend⟩ := hz
  exact ⟨hraises ▸ h.raises, hlatest ▸ h.latest, hfirst ▸ h.first, hpend ▸ h.pend, hpend ▸ h.pend_log⟩

theorem storeRaise_recorded (s : State) (r : Raise) (l : Level) :
    Recorded s.flt.src[r.src] (storeRaise s r l).flt.src[r.src] r l := by
  unfold storeRaise
  extract_lets x first pend newly u v
  have hv : v.flt.src = s.flt.src := by
    unfold v
    split <;> rfl
  have hstored : ∀ g, (v.modSrc r.src g).flt.src[r.src] = g x := fun g => by
    rw [State.modSrc_flt, updF_get_same, hv]
  rw [hstored]
  refine ⟨rfl, rfl, ?_, fun hl => ?_, fun hl => ?_⟩
  · simp [first, x]
  · simp only [pend, beq_iff_eq, if_neg hl]
    exact pendNum_max x.pend l
  · simp [pend, hl, x]

theorem recordRaise_told (s : State) (r : Raise) : ToldKept (storeRaise s r (raisedLevel s r)) (recordRaise s r) := by
  unfold recordRaise
  extract_lets l x lifts a b c d e f
  have hb : ToldKept a b := deliverEvent_told a r l (x.raises == 0)
  have hc : ToldKept b c := .of_srcs (by simp [c])
  have hd : ToldKept c d := .of_view (by simp [d])
  have he : ToldKept d e := react_told d r l
  have hf : ToldKept e f := .of_srcs (by simp [f])
  exact hb.trans (hc.trans (hd.trans (he.trans (hf.trans ((ToldKept.of_srcs (by simp)).trans (aliveUpdate_told _))))))

/-- A raise that the fabric records is counted at its source, with its detail and its level (R505). -/
theorem recordRaise_recorded (s : State) (r : Raise) :
    Recorded s.flt.src[r.src] (recordRaise s r).flt.src[r.src] r (raisedLevel s r) :=
  (storeRaise_recorded s r _).of_told ((recordRaise_told s r).same r.src)

/-! ### The rows -/

section
variable {s : State}

theorem faultRaise_recorded (hm : s.sys.mode ≠ .reset) {r : Raise} {rest : List Raise} (hin : s.flt.inbox = r :: rest) :
    ∃ t, exec (.faultRaise none) s = .next t ∧ Recorded s.flt.src[r.src] t.flt.src[r.src] r (raisedLevel s r) := by
  have hrec : recordOldest s = recordRaise (s.modFlt fun f => { f with inbox := rest }) r := by
    unfold recordOldest
    rw [hin]
  have hkept := recordRaise_recorded (s.modFlt fun f => { f with inbox := rest }) r
  exact ⟨_, congrArg Host.Outcome.next ((whenUp_eq recordOldest hm).trans hrec), hkept⟩

/-! ### A detection of its own (R505) -/

theorem ownDetection_srcs (src detail : Nat) : srcs (view .flt (ownDetection s src detail)) = srcs (view .flt s) := by
  unfold ownDetection
  (repeat' split) <;> simp

theorem zipIdx_map_concat {β : Type} (f : Raise × Nat → β) (l : List Raise) (r : Raise) :
    (l ++ [r]).zipIdx.map f = l.zipIdx.map f ++ [f (r, l.length)] := by
  simp [List.zipIdx_append]

/-- Marking what an injection covers leaves the sources, and the last entry of the inbox its source, detail and count. -/
theorem injected_last (before : State) (n : Nat) {l : List Raise} {r : Raise} (hin : s.flt.inbox = l ++ [r]) :
    (injected before n s).flt.src = s.flt.src ∧
      ∃ l' q, (injected before n s).flt.inbox = l' ++ [q] ∧ q.src = r.src ∧ q.detail = r.detail ∧ q.count = r.count := by
  have hsame : ∃ l' q, s.flt.inbox = l' ++ [q] ∧ q.src = r.src ∧ q.detail = r.detail ∧ q.count = r.count :=
    ⟨l, r, hin, rfl, rfl, rfl⟩
  unfold injected
  split
  · exact ⟨rfl, hsame⟩
  split
  · dsimp only [State.modFlt]
    rw [hin, zipIdx_map_concat]
    refine ⟨rfl, _, _, rfl, ?_⟩
    dsimp only
    split <;> exact ⟨rfl, rfl, rfl⟩
  · exact ⟨rfl, hsame⟩

theorem detected_recorded (k : Fin 256) (d : Word) (hres : reservedSource k.1 = false)
    (hdis : sourceDisabled (stationOn s) (headOn s) k.1 = false) :
    (detected s k d).flt.src[k].raises = satAdd 32 s.flt.src[k].raises 1 ∧ (detected s k d).flt.src[k].latest = d := by
  unfold detected
  rw [if_neg (by simp [hres, hdis])]
  extract_lets own r u
  have hown : own.flt.src = s.flt.src := ownDetection_srcs ..
  have hlast : u.flt.src = s.flt.src ∧
      ∃ l q, u.flt.inbox = l ++ [q] ∧ q.src = k ∧ q.detail = d ∧ q.count = 1 := by
    unfold u
    split
    · rw [← hown]
      exact injected_last s 0xE7 (l := own.flt.inbox) (r := r) rfl
    · exact ⟨hown, own.flt.inbox, r, rfl, rfl, rfl, rfl⟩
  obtain ⟨hsrc, l, q, hin, hk, hd, hcount⟩ := hlast
  have hget : u.flt.inbox.getLast? = some q := by rw [hin, List.getLast?_concat]
  rw [hget]
  have hrec := recordRaise_recorded (u.modFlt fun f => { f with inbox := f.inbox.dropLast }) q
  subst hk hd
  rw [← hsrc, ← hcount]
  exact ⟨hrec.raises, hrec.latest⟩

theorem faultRaise_detected (hm : s.sys.mode ≠ .reset) (k : Fin 256) (d : Word) (hres : reservedSource k.1 = false)
    (hdis : sourceDisabled (stationOn s) (headOn s) k.1 = false) :
    ∃ t, exec (.faultRaise (some (k, d))) s = .next t ∧
      t.flt.src[k].raises = satAdd 32 s.flt.src[k].raises 1 ∧ t.flt.src[k].latest = d :=
  ⟨_, congrArg Host.Outcome.next (whenUp_eq (fun u => detected u k d) hm), detected_recorded k d hres hdis⟩

/-! ### Coalescing intervals, injections and ALIVE (R513, R515, R519, R520) -/

theorem eventCoalesceExpiry_ends (hm : s.sys.mode ≠ .reset) (k : Fin 256) :
    ∃ t, exec (.eventCoalesceExpiry k) s = .next t ∧ t.flt.src[k] = { s.flt.src[k] with coalesce := none } ∧
      ∀ j, j ≠ k → t.flt.src[j] = s.flt.src[j] := by
  obtain ⟨t, ht, hsrc⟩ : ∃ t, exec (.eventCoalesceExpiry k) s = .next t ∧
      t.flt.src = updF s.flt.src k fun x => { x with coalesce := none } := by
    refine ⟨_, congrArg Host.Outcome.next (whenUp_eq _ hm), ?_⟩
    dsimp only
    split
    · rw [same_flt (postCoalesced_view _ k _ false (by simp) (by simp))]
      rfl
    · rfl
  refine ⟨t, ht, ?_, fun j hj => ?_⟩
  · rw [hsrc, updF_get_same]
  · rw [hsrc, updF_get_other _ _ _ _ hj]

theorem injectRaiseTick_raises (hm : s.sys.mode ≠ .reset) {i : Injection} (hi : s.flt.inject = some i) (hkind : i.kind = 1)
    (hleft : i.left ≠ 0) : ∃ t, exec .injectRaiseTick s = .next t ∧
      t.flt.inject = some { i with left := i.left - 1 } ∧
      (reservedSource i.src.1 = false → sourceDisabled (stationOn s) (headOn s) i.src.1 = false →
        ∃ r, t.flt.inbox = s.flt.inbox ++ [r] ∧ r.src = i.src ∧ r.detail = 0 ∧ r.injected = true) := by
  have harmed : ¬(i.kind != 1 || decide (i.left = 0)) = true := by simp [hkind, hleft]
  refine ⟨injectTick s, congrArg Host.Outcome.next (whenUp_eq injectTick hm), ?_⟩
  unfold injectTick
  simp only [hi]
  rw [if_neg harmed]
  split
  · next hoff =>
    have hoff : (reservedSource i.src.1 || sourceDisabled (stationOn s) (headOn s) i.src.1) = true := hoff
    exact ⟨rfl, fun hres hdis => by simp [hres, hdis] at hoff⟩
  · exact ⟨rfl, fun _ _ => ⟨_, rfl, rfl, rfl, rfl⟩⟩

theorem raise_inject (src detail : Nat) : (raise s src detail).flt.inject = s.flt.inject := by
  unfold raise raiseAt
  split <;> rfl

theorem fltInject_ends (hm : s.sys.mode ≠ .reset) {i : Injection} (hi : s.flt.inject = some i) (hleft : i.left = 0) :
    ∃ t, exec .fltInject s = .next t ∧ t.flt.inject = none := by
  refine ⟨injectionOver s, congrArg Host.Outcome.next (whenUp_eq injectionOver hm), ?_⟩
  unfold injectionOver
  simp only [hi, if_pos hleft]
  unfold endInjection
  simp only [hi]
  rw [raise_inject]
  rfl

end

/-- Settles O60: what a raise leaves of its source is what `storeRaise` put there, since the reactions to it keep what the
sources tell. -/
theorem fabricRowsComplete : Obligations.FabricRowsComplete := by
  intro s hm
  refine ⟨fun r rest hin => ?_, faultRaise_detected hm, eventCoalesceExpiry_ends hm,
    ⟨_, congrArg Host.Outcome.next (whenUp_eq _ hm), rfl⟩, fun i hi => injectRaiseTick_raises hm hi,
    fun i hi => fltInject_ends hm hi, ⟨_, congrArg Host.Outcome.next (whenUp_eq _ hm), rfl⟩⟩
  obtain ⟨t, ht, hrec⟩ := faultRaise_recorded hm hin
  exact ⟨t, ht, hrec.raises, hrec.latest, hrec.first, hrec.pend, hrec.pend_log⟩

end Sys2Proof.Machine
end

section
/-!
Proofs of the statements about the journal flash (O3, O4). Almost every function of the model leaves the flash as it is: the
laws `f_flash` say so of those whose frame names the journal, in the form of the laws `f_view`, which cover the others. What
writes the flash programs or erases it, within addresses that `StoresIn` names.
-/

namespace Sys2Proof.Machine
open Sys2Proof Sys2Proof.Safety

/-- The flash of a state, or of a view of one. -/
def storedFlash (s : State) : List (Nat × Byte) := s.jnl.flash

theorem storedFlash_view (s : State) : storedFlash (view .jnl s) = s.jnl.flash := rfl

@[simp] theorem storedFlash_ite (c : Prop) [Decidable c] (a b : State) :
    storedFlash (if c then a else b) = if c then storedFlash a else storedFlash b := apply_ite ..

@[simp] theorem modJnl_flash (s : State) (g : Journal → Journal) (h : ∀ j, (g j).flash = j.flash) :
    storedFlash (view .jnl (s.modJnl g)) = storedFlash (view .jnl s) := h s.jnl

@[simp] theorem foldl_flash {α : Type} (l : List α) (f : State → α → State) (s : State)
    (h : ∀ u x, storedFlash (view .jnl (f u x)) = storedFlash (view .jnl u)) :
    storedFlash (view .jnl (l.foldl f s)) = storedFlash (view .jnl s) := by
  induction l generalizing s with
  | nil => rfl
  | cons x l ih => rw [List.foldl_cons, ih, h]

@[simp] theorem iter_flash (f : State → State) (n : Nat) (s : State)
    (h : ∀ u, storedFlash (view .jnl (f u)) = storedFlash (view .jnl u)) :
    storedFlash (view .jnl (iter f n s)) = storedFlash (view .jnl s) := by
  induction n generalizing s with
  | zero => rfl
  | succ n ih => rw [iter, ih, h]

@[simp] theorem storedFlash_dite (c : Prop) [Decidable c] (a : c → State) (b : ¬c → State) :
    storedFlash (if h : c then a h else b h) = if h : c then storedFlash (a h) else storedFlash (b h) := apply_dite ..

@[simp] theorem journaled_flash (before s : State) (r : Res)
    (h : storedFlash (view .jnl s) = storedFlash (view .jnl before)) :
    storedFlash (view .jnl (journaled before s r).state) = storedFlash (view .jnl before) := by
  unfold journaled
  (repeat' split) <;> simp [h]

/-! ## What leaves the flash as it is -/

@[simp] theorem lowCheck_flash (s : State) :
    storedFlash (view .jnl (lowCheck s)) = storedFlash (view .jnl s) := by
  unfold lowCheck
  simp

@[simp] theorem formSeal_flash (s : State) (u : Unformed) :
    storedFlash (view .jnl (formSeal s u)) = storedFlash (view .jnl s) := by
  unfold formSeal
  (repeat' split) <;> simp

@[simp] theorem voidFormed_flash (s : State) (u : Unformed) :
    storedFlash (view .jnl (voidFormed s u)) = storedFlash (view .jnl s) := by
  unfold voidFormed
  simp

@[simp] theorem formOne_flash (s : State) (u : Unformed) :
    storedFlash (view .jnl (formOne s u)) = storedFlash (view .jnl s) := by
  unfold formOne
  simp

@[simp] theorem formReady_flash (n : Nat) (s : State) :
    storedFlash (view .jnl (formReady n s)) = storedFlash (view .jnl s) := by
  induction n generalizing s with
  | zero => rfl
  | succ n ih => unfold formReady; (repeat' split) <;> simp [ih]

@[simp] theorem formAll_flash (s : State) :
    storedFlash (view .jnl (formAll s)) = storedFlash (view .jnl s) := by
  unfold formAll
  simp

@[simp] theorem stampHeld_flash (u : Unformed) (s : State) :
    storedFlash (view .jnl (stampHeld u s).1) = storedFlash (view .jnl s) := by
  unfold stampHeld
  simp

@[simp] theorem requestRecord_flash (s : State) (u : Unformed) :
    storedFlash (view .jnl (requestRecord s u)) = storedFlash (view .jnl s) := by
  unfold requestRecord
  simp

@[simp] theorem journal_flash (s : State) (type : Nat) (aux : Nat) (payload : List Byte) :
    storedFlash (view .jnl (journal s type aux payload)) = storedFlash (view .jnl s) := by
  unfold journal
  simp

@[simp] theorem requestSeal_flash (s : State) :
    storedFlash (view .jnl (requestSeal s)) = storedFlash (view .jnl s) := by
  unfold requestSeal
  simp

@[simp] theorem reserveCheck_flash (s : State) :
    storedFlash (view .jnl (reserveCheck s)) = storedFlash (view .jnl s) := by
  unfold reserveCheck
  simp

@[simp] theorem journalEvent_flash (s : State) (aux : Nat) (src : Nat) (l : Level) (detail : Word) :
    storedFlash (view .jnl (journalEvent s aux src l detail)) = storedFlash (view .jnl s) := by
  unfold journalEvent
  simp

@[simp] theorem journalCommand_flash (s : State) (op : Nat) (st : Status) (c : Cmd) :
    storedFlash (view .jnl (journalCommand s op st c)) = storedFlash (view .jnl s) := by
  unfold journalCommand
  simp

@[simp] theorem recordSheet_flash (s : State) (i : Fin 512) :
    storedFlash (view .jnl (recordSheet s i)) = storedFlash (view .jnl s) := by
  unfold recordSheet
  (repeat' split) <;> simp

@[simp] theorem completeSheet_flash (s : State) (i : Fin 512) :
    storedFlash (view .jnl (completeSheet s i)) = storedFlash (view .jnl s) := by
  unfold completeSheet
  (repeat' split) <;> simp

@[simp] theorem completeSpoiled_flash (s : State) (i : Fin 512) (r : Spoil) :
    storedFlash (view .jnl (completeSpoiled s i r)) = storedFlash (view .jnl s) := by
  unfold completeSpoiled
  simp

@[simp] theorem spoilCommitted_flash (s : State) (r : Spoil) :
    storedFlash (view .jnl (spoilCommitted s r)) = storedFlash (view .jnl s) := by
  unfold spoilCommitted
  simp

@[simp] theorem haltWith_flash (s : State) (r : Spoil) :
    storedFlash (view .jnl (haltWith s r)) = storedFlash (view .jnl s) := by
  unfold haltWith
  simp

@[simp] theorem haltEntry_flash (s : State) (src : Nat) :
    storedFlash (view .jnl (haltEntry s src)) = storedFlash (view .jnl s) := by
  unfold haltEntry
  simp

@[simp] theorem haltForGood_flash (s : State) (src : Nat) :
    storedFlash (view .jnl (haltForGood s src)) = storedFlash (view .jnl s) := by
  unfold haltForGood
  simp

@[simp] theorem beforeStop_flash (s : State) :
    storedFlash (view .jnl (beforeStop s)) = storedFlash (view .jnl s) := by
  unfold beforeStop
  simp

@[simp] theorem pathStop_flash (s : State) (r : Spoil) (sensor : Nat) (kind : Nat) (sheet : Nat)
    (count : Nat) :
    storedFlash (view .jnl (pathStop s r sensor kind sheet count)) = storedFlash (view .jnl s) := by
  unfold pathStop
  simp

@[simp] theorem ownedStop_flash (s : State) :
    storedFlash (view .jnl (ownedStop s)) = storedFlash (view .jnl s) := by
  unfold ownedStop
  simp

@[simp] theorem fenceAxis_flash (s : State) (a : Fin 16) :
    storedFlash (view .jnl (fenceAxis s a)) = storedFlash (view .jnl s) := by
  unfold fenceAxis
  simp

@[simp] theorem fenceChannel_flash (s : State) (m : Fin 10) :
    storedFlash (view .jnl (fenceChannel s m)) = storedFlash (view .jnl s) := by
  unfold fenceChannel
  simp

@[simp] theorem fenceUnit_flash (s : State) (src : Nat) (detail : Nat) :
    storedFlash (view .jnl (fenceUnit s src detail)) = storedFlash (view .jnl s) := by
  unfold fenceUnit
  dsimp only
  (repeat' split)
  · simp
  · simp
  · simp
  · simp
  · simp
  · simp
  · exact fenceAxis_flash ..
  · exact fenceChannel_flash ..
  · simp
  · rfl
  · rfl

@[simp] theorem react_flash (s : State) (r : Raise) (l : Level) :
    storedFlash (view .jnl (react s r l)) = storedFlash (view .jnl s) := by
  unfold react
  simp

@[simp] theorem recordRaise_flash (s : State) (r : Raise) :
    storedFlash (view .jnl (recordRaise s r)) = storedFlash (view .jnl s) := by
  unfold recordRaise
  simp

@[simp] theorem recordOldest_flash (s : State) :
    storedFlash (view .jnl (recordOldest s)) = storedFlash (view .jnl s) := by
  unfold recordOldest
  (repeat' split) <;> simp

@[simp] theorem recordAll_flash (s : State) :
    storedFlash (view .jnl (recordAll s)) = storedFlash (view .jnl s) := by
  unfold recordAll
  simp

@[simp] theorem strayCheck_flash (s : State) :
    storedFlash (view .jnl (strayCheck s)) = storedFlash (view .jnl s) := by
  unfold strayCheck
  simp
  (repeat' split) <;> simp_all

@[simp] theorem enterReady_flash (s : State) :
    storedFlash (view .jnl (enterReady s)) = storedFlash (view .jnl s) := by
  unfold enterReady
  simp

@[simp] theorem settle_flash (s : State) :
    storedFlash (view .jnl (settle s)) = storedFlash (view .jnl s) := by
  unfold settle
  simp

@[simp] theorem standbyEntry_flash (s : State) :
    storedFlash (view .jnl (standbyEntry s)) = storedFlash (view .jnl s) := by
  unfold standbyEntry
  simp

@[simp] theorem activate_flash (s : State) (slots : List Nat) :
    storedFlash (view .jnl (activate s slots)) = storedFlash (view .jnl s) := by
  unfold activate
  simp

@[simp] theorem recordRecipes_flash (s : State) (slots : List Nat) :
    storedFlash (view .jnl (recordRecipes s slots)) = storedFlash (view .jnl s) := by
  unfold recordRecipes
  apply foldl_flash; intro u x; (repeat' split) <;> simp

@[simp] theorem eraseBegin_flash (s : State) (sector : Nat) :
    storedFlash (view .jnl (eraseBegin s sector)) = storedFlash (view .jnl s) := by
  unfold eraseBegin
  simp

@[simp] theorem queueErase_flash (s : State) (sector : Nat) :
    storedFlash (view .jnl (queueErase s sector)) = storedFlash (view .jnl s) := by
  unfold queueErase
  simp

@[simp] theorem eraseAhead_flash (s : State) :
    storedFlash (view .jnl (eraseAhead s)) = storedFlash (view .jnl s) := by
  unfold eraseAhead
  simp

@[simp] theorem signSeal_flash (s : State) :
    storedFlash (view .jnl (signSeal s)) = storedFlash (view .jnl s) := by
  unfold signSeal
  (repeat' split) <;> simp

@[simp] theorem completeOne_flash (w : Wait) (idx : Nat) (s : State) :
    storedFlash (view .jnl (completeOne w idx s)) = storedFlash (view .jnl s) := by
  unfold completeOne
  (repeat' split) <;> simp

@[simp] theorem completeTicket_flash (s : State) (t : Nat) (idx : Nat) :
    storedFlash (view .jnl (completeTicket s t idx)) = storedFlash (view .jnl s) := by
  unfold completeTicket
  simp

@[simp] theorem completeFormed_flash (s : State) :
    storedFlash (view .jnl (completeFormed s)) = storedFlash (view .jnl s) := by
  unfold completeFormed
  apply foldl_flash; intro u x; (repeat' split) <;> simp

@[simp] theorem durable_flash (s : State) (r : Rec) :
    storedFlash (view .jnl (durable s r)) = storedFlash (view .jnl s) := by
  unfold durable
  (repeat' split) <;> simp

@[simp] theorem afterProgram_flash (s : State) :
    storedFlash (view .jnl (afterProgram s)) = storedFlash (view .jnl s) := by
  unfold afterProgram
  simp

@[simp] theorem formAgain_flash (s : State) (r : Rec) :
    storedFlash (view .jnl (formAgain s r)) = storedFlash (view .jnl s) := by
  unfold formAgain
  simp

@[simp] theorem serveRead_flash (s : State) (c : Cmd) (done : Nat) (total : Nat) :
    storedFlash (view .jnl (serveRead s c done total).1) = storedFlash (view .jnl s) := by
  unfold serveRead
  simp

@[simp] theorem readTurn_flash (s : State) :
    storedFlash (view .jnl (readTurn s)) = storedFlash (view .jnl s) := by
  unfold readTurn
  simp
  (repeat' split) <;> simp_all

@[simp] theorem serveReads_flash (s : State) :
    storedFlash (view .jnl (serveReads s)) = storedFlash (view .jnl s) := by
  unfold serveReads
  simp

@[simp] theorem setStandby_flash (s : State) :
    storedFlash (view .jnl (setStandby s).state) = storedFlash (view .jnl s) := by
  unfold setStandby
  simp

@[simp] theorem setService_flash (c : Cmd) (s : State) :
    storedFlash (view .jnl (setService c s).state) = storedFlash (view .jnl s) := by
  unfold setService
  (repeat' split) <;> simp

@[simp] theorem setModeRun_flash (c : Cmd) (s : State) :
    storedFlash (view .jnl (setModeRun c s).state) = storedFlash (view .jnl s) := by
  unfold setModeRun
  (repeat' split) <;> simp

@[simp] theorem moveStall_flash (s : State) (a : Fin 16) :
    storedFlash (view .jnl (moveStall s a)) = storedFlash (view .jnl s) := by
  unfold moveStall
  simp

@[simp] theorem axisStall_flash (s : State) (a : Fin 16) :
    storedFlash (view .jnl (axisStall s a)) = storedFlash (view .jnl s) := by
  unfold axisStall
  simp

@[simp] theorem axisProtect_flash (s : State) (a : Fin 16) (cause : Nat) (coil : Nat) (flag : Nat) :
    storedFlash (view .jnl (axisProtect s a cause coil flag)) = storedFlash (view .jnl s) := by
  unfold axisProtect
  simp

@[simp] theorem axisMoveRun_flash (c : Cmd) (s : State) :
    storedFlash (view .jnl (axisMoveRun c s).state) = storedFlash (view .jnl s) := by
  unfold axisMoveRun
  simp

@[simp] theorem axisStopRun_flash (c : Cmd) (s : State) :
    storedFlash (view .jnl (axisStopRun c s).state) = storedFlash (view .jnl s) := by
  unfold axisStopRun
  simp

@[simp] theorem axisPwm_flash (s : State) (a : Fin 16) (bitsA : List Bool) (bitsB : List Bool) :
    storedFlash (view .jnl (axisPwm s a bitsA bitsB)) = storedFlash (view .jnl s) := by
  unfold axisPwm
  simp

@[simp] theorem refLoss_flash (s : State) :
    storedFlash (view .jnl (refLoss s)) = storedFlash (view .jnl s) := by
  unfold refLoss
  simp

@[simp] theorem rootUnlock_flash (s : State) :
    storedFlash (view .jnl (rootUnlock s)) = storedFlash (view .jnl s) := by
  unfold rootUnlock
  simp

@[simp] theorem activateRun_flash (c : Cmd) (s : State) :
    storedFlash (view .jnl (activateRun c s).state) = storedFlash (view .jnl s) := by
  have hj := journaled_flash s (recordRecipes s (activateSlots c)) { status := .ok, w0 := Cmd.p8 c 16 } (by simp)
  unfold activateRun
  simp
  (repeat' split) <;> simp_all

@[simp] theorem faultClear_flash (s : State) (k : Fin 256) :
    storedFlash (view .jnl (faultClear s k)) = storedFlash (view .jnl s) := by
  unfold faultClear
  simp

@[simp] theorem acknowledge_flash (s : State) (k : Fin 256) :
    storedFlash (view .jnl (acknowledge s k)) = storedFlash (view .jnl s) := by
  unfold acknowledge
  simp

@[simp] theorem marchDone_flash (s : State) (fails : BitVec 36) :
    storedFlash (view .jnl (marchDone s fails).1) = storedFlash (view .jnl s) := by
  unfold marchDone
  simp

@[simp] theorem faultClearRun_flash (c : Cmd) (s : State) :
    storedFlash (view .jnl (faultClearRun c s).state) = storedFlash (view .jnl s) := by
  unfold faultClearRun
  simp

@[simp] theorem faultSetSeverityRun_flash (c : Cmd) (s : State) :
    storedFlash (view .jnl (faultSetSeverityRun c s).state) = storedFlash (view .jnl s) := by
  unfold faultSetSeverityRun
  (repeat' split) <;> simp

@[simp] theorem faultInjectRun_flash (c : Cmd) (s : State) :
    storedFlash (view .jnl (faultInjectRun c s).state) = storedFlash (view .jnl s) := by
  unfold faultInjectRun
  (repeat' split) <;> simp

@[simp] theorem detected_flash (s : State) (src : Fin 256) (detail : Word) :
    storedFlash (view .jnl (detected s src detail)) = storedFlash (view .jnl s) := by
  unfold detected
  simp
  (repeat' split) <;> simp_all

@[simp] theorem jobRecord_flash (s : State) (close : Bool) (j : Job) :
    storedFlash (view .jnl (jobRecord s close j)) = storedFlash (view .jnl s) := by
  unfold jobRecord
  simp

@[simp] theorem openJobRun_flash (c : Cmd) (s : State) :
    storedFlash (view .jnl (openJobRun c s).state) = storedFlash (view .jnl s) := by
  unfold openJobRun
  (repeat' split) <;> simp

@[simp] theorem closeJobRun_flash (c : Cmd) (s : State) :
    storedFlash (view .jnl (closeJobRun c s).state) = storedFlash (view .jnl s) := by
  unfold closeJobRun
  simp
  (repeat' split) <;> simp_all

@[simp] theorem admitFull_flash (s : State) :
    storedFlash (view .jnl (admitFull s).state) = storedFlash (view .jnl s) := by
  unfold admitFull
  simp

@[simp] theorem admitSheetRun_flash (c : Cmd) (s : State) :
    storedFlash (view .jnl (admitSheetRun c s).state) = storedFlash (view .jnl s) := by
  unfold admitSheetRun
  simp
  (repeat' split) <;> simp_all

@[simp] theorem commitSheet_flash (s : State) (i : Fin 512) (e : Sheet) (j : Job) :
    storedFlash (view .jnl (commitSheet s i e j)) = storedFlash (view .jnl s) := by
  unfold commitSheet
  simp

@[simp] theorem commitSheetRun_flash (c : Cmd) (s : State) :
    storedFlash (view .jnl (commitSheetRun c s).state) = storedFlash (view .jnl s) := by
  unfold commitSheetRun
  simp
  (repeat' split) <;> simp_all

@[simp] theorem cancelOne_flash (s : State) (i : Fin 512) (e : Sheet) :
    storedFlash (view .jnl (cancelOne s i e)) = storedFlash (view .jnl s) := by
  unfold cancelOne
  simp

@[simp] theorem cancelSheetNow_flash (s : State) (i : Fin 512) (e : Sheet) :
    storedFlash (view .jnl (cancelSheetNow s i e)) = storedFlash (view .jnl s) := by
  unfold cancelSheetNow
  simp

@[simp] theorem cancelSheetRun_flash (c : Cmd) (s : State) :
    storedFlash (view .jnl (cancelSheetRun c s).state) = storedFlash (view .jnl s) := by
  unfold cancelSheetRun
  (repeat' split) <;> simp

@[simp] theorem loseChannel_flash (s : State) (c : Fin 2) :
    storedFlash (view .jnl (loseChannel s c)) = storedFlash (view .jnl s) := by
  unfold loseChannel
  dsimp only
  (repeat' split) <;> simp

@[simp] theorem stepFailed_flash (s : State) (t : Training) :
    storedFlash (view .jnl (stepFailed s t)) = storedFlash (view .jnl s) := by
  unfold stepFailed
  simp

@[simp] theorem replayFailed_flash (s : State) (c : Fin 2) (retrain : Bool) :
    storedFlash (view .jnl (replayFailed s c retrain)) = storedFlash (view .jnl s) := by
  unfold replayFailed
  simp

@[simp] theorem fuseShadowRun_flash (c : Cmd) (s : State) :
    storedFlash (view .jnl (fuseShadowRun c s).state) = storedFlash (view .jnl s) := by
  unfold fuseShadowRun
  (repeat' split) <;> simp

@[simp] theorem fuseBurnDone_flash (s : State) (c : Cmd) (back : List (BitVec 72)) :
    storedFlash (view .jnl (fuseBurnDone s c back).1) = storedFlash (view .jnl s) := by
  unfold fuseBurnDone
  simp

@[simp] theorem fuseLockDone_flash (s : State) (c : Cmd) :
    storedFlash (view .jnl (fuseLockDone s c).1) = storedFlash (view .jnl s) := by
  unfold fuseLockDone
  simp

@[simp] theorem newRing_flash (s : State) :
    storedFlash (view .jnl (newRing s)) = storedFlash (view .jnl s) := by
  unfold newRing
  simp

@[simp] theorem provisionDone_flash (s : State) (c : Cmd) (healthy : Bool) (key : BitVec 256) :
    storedFlash (view .jnl (provisionDone s c healthy key).1) = storedFlash (view .jnl s) := by
  unfold provisionDone
  simp

@[simp] theorem headMarkDeadRun_flash (c : Cmd) (s : State) :
    storedFlash (view .jnl (headMarkDeadRun c s).state) = storedFlash (view .jnl s) := by
  unfold headMarkDeadRun
  simp
  (repeat' split) <;> simp_all

@[simp] theorem journalReadRun_flash (c : Cmd) (s : State) :
    storedFlash (view .jnl (journalReadRun c s).state) = storedFlash (view .jnl s) := by
  unfold journalReadRun
  simp

@[simp] theorem sealTicket_flash (s : State) :
    storedFlash (view .jnl (sealTicket s).1) = storedFlash (view .jnl s) := by
  unfold sealTicket
  (repeat' split) <;> simp

@[simp] theorem journalSealRun_flash (c : Cmd) (s : State) :
    storedFlash (view .jnl (journalSealRun c s).state) = storedFlash (view .jnl s) := by
  unfold journalSealRun
  have h0 := sealTicket_flash s
  split
  · simp
  · split
    · rename_i heq; rw [heq] at h0; simpa using h0
    · dsimp only; split <;> simp

@[simp] theorem anchorAt_flash (s : State) (base : Nat) (packet : List Byte) :
    storedFlash (view .jnl (anchorAt s base packet)) = storedFlash (view .jnl s) := by
  unfold anchorAt
  simp

@[simp] theorem serialAnchorRun_flash (c : Cmd) (s : State) :
    storedFlash (view .jnl (serialAnchorRun c s).state) = storedFlash (view .jnl s) := by
  unfold serialAnchorRun
  simp
  (repeat' split) <;> simp_all

@[simp] theorem motorStopRun_flash (c : Cmd) (s : State) :
    storedFlash (view .jnl (motorStopRun c s).state) = storedFlash (view .jnl s) := by
  unfold motorStopRun
  simp

@[simp] theorem kettleDead_flash (s : State) (detail : Nat) :
    storedFlash (view .jnl (kettleDead s detail)) = storedFlash (view .jnl s) := by
  unfold kettleDead
  simp

@[simp] theorem kettleTrigger_flash (s : State) (detail : Nat) (selfTest : Bool) :
    storedFlash (view .jnl (kettleTrigger s detail selfTest)) = storedFlash (view .jnl s) := by
  unfold kettleTrigger
  simp

@[simp] theorem motorProtect_flash (s : State) (m : Fin 10) (cause : Nat) (value : Nat) (flag : Nat) :
    storedFlash (view .jnl (motorProtect s m cause value flag)) = storedFlash (view .jnl s) := by
  unfold motorProtect
  simp

@[simp] theorem motorPwm_flash (s : State) (m : Fin 10) (bitsU : List Bool) (bitsV : List Bool) :
    storedFlash (view .jnl (motorPwm s m bitsU bitsV)) = storedFlash (view .jnl s) := by
  unfold motorPwm
  simp
  (repeat' split) <;> simp_all

@[simp] theorem busHardLimit_flash (s : State) :
    storedFlash (view .jnl (busHardLimit s)) = storedFlash (view .jnl s) := by
  unfold busHardLimit
  simp

@[simp] theorem busSample_flash (s : State) (code : BitVec 12) (fb : Bool) :
    storedFlash (view .jnl (busSample s code fb)) = storedFlash (view .jnl s) := by
  unfold busSample
  simp

@[simp] theorem restoreLog_flash (s : State) (unreadable : List Nat) (high : Option Nat) :
    storedFlash (view .jnl (restoreLog s unreadable high)) = storedFlash (view .jnl s) := by
  unfold restoreLog
  (repeat' split) <;> simp

@[simp] theorem bootRecord_flash (s : State) (newest : Option Nat) :
    storedFlash (view .jnl (bootRecord s newest)) = storedFlash (view .jnl s) := by
  unfold bootRecord
  simp

@[simp] theorem bootGap_flash (s : State) (start : Nat) (w : Walk) :
    storedFlash (view .jnl (bootGap s start w)) = storedFlash (view .jnl s) := by
  unfold bootGap
  simp

@[simp] theorem bootVoids_flash (s : State) (w : Walk) :
    storedFlash (view .jnl (bootVoids s w)) = storedFlash (view .jnl s) := by
  unfold bootVoids
  simp

@[simp] theorem resumeRing_flash (s : State) (start : Nat) (w : Walk) :
    storedFlash (view .jnl (resumeRing s start w)) = storedFlash (view .jnl s) := by
  unfold resumeRing
  simp

@[simp] theorem freshRing_flash (s : State) :
    storedFlash (view .jnl (freshRing s)) = storedFlash (view .jnl s) := by
  unfold freshRing
  simp

@[simp] theorem scanFlash_flash (s : State) (unreadable : List Nat) :
    storedFlash (view .jnl (scanFlash s unreadable)) = storedFlash (view .jnl s) := by
  unfold scanFlash
  simp
  (repeat' split) <;> simp_all

@[simp] theorem leadingEdge_flash (s : State) (i : Fin 512) (e : Sheet) (k : Nat) :
    storedFlash (view .jnl (leadingEdge s i e k)) = storedFlash (view .jnl s) := by
  unfold leadingEdge
  (repeat' split) <;> simp

@[simp] theorem jamStop_flash (s : State) (jams : List Jam) :
    storedFlash (view .jnl (jamStop s jams)) = storedFlash (view .jnl s) := by
  unfold jamStop
  simp
  (repeat' split) <;> simp_all

@[simp] theorem trailingEdge_flash (s : State) (i : Fin 512) (e : Sheet) (k : Nat) :
    storedFlash (view .jnl (trailingEdge s i e k)) = storedFlash (view .jnl s) := by
  unfold trailingEdge
  (repeat' split) <;> simp

@[simp] theorem sensorEdge_flash (s : State) (k : Fin 32) (paper : Bool) :
    storedFlash (view .jnl (sensorEdge s k paper)) = storedFlash (view .jnl s) := by
  unfold sensorEdge
  simp
  (repeat' split) <;> simp_all

@[simp] theorem windowExpires_flash (s : State) (k : Nat) :
    storedFlash (view .jnl (windowExpires s k)) = storedFlash (view .jnl s) := by
  unfold windowExpires
  simp

@[simp] theorem mainDriveOut_flash (s : State) :
    storedFlash (view .jnl (mainDriveOut s)) = storedFlash (view .jnl s) := by
  unfold mainDriveOut
  simp

/-! ### Resets, restarts and commands that go on -/

theorem flash_of_view {s t : State} (h : view .jnl t = view .jnl s) :
    storedFlash (view .jnl t) = storedFlash (view .jnl s) := congrArg storedFlash h

theorem resumed_flash {s t : State} {op : Nat} {c : Cmd} {d : Resume} {r : Res} (h : resumed s op c d = some (t, r)) :
    storedFlash (view .jnl t) = storedFlash (view .jnl s) := by
  unfold resumed at h
  split at h
  case h_4 => exact flash_of_view (calibrateDone_view s c t r h (by decide))
  case h_8 =>
    exact flash_of_view (codecDone_view s c _ _ _ _ t r h (by decide) (by decide) (by decide) (by decide) (by decide)
      (by decide) (by decide))
  case h_10 => cases h
  all_goals obtain rfl := congrArg Prod.fst (Option.some.inj h); simp

@[simp] theorem resumeParked_flash (s : State) (k : Nat) (d : Resume) :
    storedFlash (view .jnl (resumeParked s k d)) = storedFlash (view .jnl s) := by
  unfold resumeParked
  split
  · rfl
  · split
    · rfl
    · split
      · rfl
      next t r h =>
        have ht := resumed_flash h
        split
        · have hj := journaledEnd_view (vp := .jnl) s t r
          split <;> simp_all
        · simp [ht]

@[simp] theorem whenUp_flash (s : State) (f : State → State)
    (h : ∀ u, storedFlash (view .jnl (f u)) = storedFlash (view .jnl u)) :
    storedFlash (view .jnl (whenUp s f)) = storedFlash (view .jnl s) := by
  unfold whenUp
  split
  · rfl
  · exact h s

/-! ### Commands of an opcode -/

@[simp] theorem runCommand_flash (sp : OpSpec) (c : Cmd) (f : Fate) (late : Bool) (s : State)
    (h : ∀ c u, storedFlash (view .jnl (sp.run c u).state) = storedFlash (view .jnl u)) :
    storedFlash (view .jnl (runCommand sp c f late s)) = storedFlash (view .jnl s) := by
  have hrun := h c s
  unfold runCommand
  split
  · simp
  · split <;> simp_all

@[simp] theorem startCommand_flash (sp : OpSpec) (c : Cmd) (s : State)
    (h : ∀ c u, storedFlash (view .jnl (sp.run c u).state) = storedFlash (view .jnl u)) :
    storedFlash (view .jnl (startCommand sp c s)) = storedFlash (view .jnl s) := by
  unfold startCommand
  split
  · simp
  · simp [h]

@[simp] theorem direct_flash (sp : OpSpec) (c : Cmd) (s : State)
    (h : ∀ c u, storedFlash (view .jnl (sp.run c u).state) = storedFlash (view .jnl u)) :
    storedFlash (view .jnl (direct sp c s)) = storedFlash (view .jnl s) := by
  unfold direct
  simp [h]

/-! ## What a step may store -/

theorem flashGet_program_other {l : List (Nat × Byte)} {a b : Nat} (bs : List Byte) (h : flashWf l)
    (hb : b < a ∨ a + bs.length ≤ b) : flashGet (flashProgram l a bs) b = flashGet l b := by
  induction bs generalizing l a with
  | nil => rfl
  | cons x bs ih =>
    rw [List.length_cons] at hb
    have hne : b ≠ a := by omega
    rw [flashProgram, ih (flashSet_wf _ _ h) (by omega), flashGet_set _ _ _ h.1, if_neg hne]

/-- From one state to the other the flash stays in canonical form, and every byte outside the addresses named stays as it
was. -/
structure StoresIn (p : Nat → Prop) (s t : State) : Prop where
  canonical : FlashCanonical s → FlashCanonical t
  kept : FlashCanonical s → ∀ a, ¬p a → flashGet t.jnl.flash a = flashGet s.jnl.flash a

namespace StoresIn

variable {p q : Nat → Prop} {s t u : State}

theorem of_flash (h : storedFlash (view .jnl t) = storedFlash (view .jnl s)) : StoresIn p s t := by
  have h : t.jnl.flash = s.jnl.flash := by rw [← storedFlash_view t, h, storedFlash_view]
  exact ⟨fun hs => by rwa [FlashCanonical, h], fun _ a _ => by rw [h]⟩

theorem refl (s : State) : StoresIn p s s := of_flash rfl

theorem trans (hst : StoresIn p s t) (htu : StoresIn p t u) : StoresIn p s u :=
  ⟨fun hs => htu.canonical (hst.canonical hs),
    fun hs a ha => (htu.kept (hst.canonical hs) a ha).trans (hst.kept hs a ha)⟩

theorem mono (h : StoresIn p s t) (hpq : ∀ a, p a → q a) : StoresIn q s t :=
  ⟨h.canonical, fun hs a ha => h.kept hs a fun hp => ha (hpq a hp)⟩

theorem then_flash (h : StoresIn p s t) (hu : storedFlash (view .jnl u) = storedFlash (view .jnl t)) : StoresIn p s u :=
  h.trans (of_flash hu)

theorem ite {c : Prop} [Decidable c] (ht : StoresIn p s t) (hu : StoresIn p s u) : StoresIn p s (if c then t else u) := by
  split
  · exact ht
  · exact hu

/-- Programming stores to the addresses of its bytes (R135). -/
theorem of_program {a : Nat} {bs : List Byte} (h : t.jnl.flash = flashProgram s.jnl.flash a bs)
    (hp : ∀ b, a ≤ b → b < a + bs.length → p b) : StoresIn p s t := by
  refine ⟨fun hs => ?_, fun hs b hb => ?_⟩
  · rw [FlashCanonical, h]
    exact flashProgram_wf a bs hs
  · rw [h]
    refine flashGet_program_other bs hs ?_
    by_contra hin
    exact hb (hp b (by omega) (by omega))

/-- Erasing a sector stores to its addresses (R135). -/
theorem of_erase {k : Nat} (h : t.jnl.flash = flashErase s.jnl.flash k) (hp : ∀ b, b / 4096 = k → p b) :
    StoresIn p s t := by
  refine ⟨fun hs => ?_, fun _ b hb => ?_⟩
  · rw [FlashCanonical, h]
    exact flashErase_wf k hs
  · rw [h]
    exact flashGet_erase_other k b fun hk => hb (hp b hk)

/-- Erasing sectors one after the other stores to their addresses. -/
theorem of_erases {ks : List Nat} (h : t.jnl.flash = ks.foldl flashErase s.jnl.flash) (hp : ∀ b, b / 4096 ∈ ks → p b) :
    StoresIn p s t := by
  refine ⟨fun hs => ?_, fun _ b hb => ?_⟩
  · rw [FlashCanonical, h]
    exact List.foldlRecOn ks _ hs fun l hl k _ => flashErase_wf k hl
  · have hk : ∀ k ∈ ks, b / 4096 ≠ k := fun k hk hbk => hb (hp b (hbk ▸ hk))
    rw [h]
    refine List.foldlRecOn (motive := fun l => flashGet l b = flashGet s.jnl.flash b) ks _ rfl fun l hl k hmem => ?_
    rw [flashGet_erase_other k b (hk k hmem), hl]

end StoresIn

theorem whenUp_stores {p : Nat → Prop} {s : State} {f : State → State} (h : StoresIn p s (f s)) :
    StoresIn p s (whenUp s f) := .ite (.refl s) h

/-! ### The journal writer -/

/-- The addresses of a record's slot, as far as its bytes go. -/
def inRecord (s : State) (idx n a : Nat) : Prop := recordAddr s idx ≤ a ∧ a < recordAddr s idx + n

theorem le_recordAddr (s : State) (i : Nat) : 8192 ≤ recordAddr s i := Nat.le_add_right ..

theorem programRecord_stores (s : State) (r : Rec) (bytes : List Byte) :
    StoresIn (inRecord s r.idx bytes.length) s (programRecord s r bytes) :=
  .of_program rfl fun _ hle hlt => ⟨hle, hlt⟩

theorem programHead_stores {s : State} {r : Rec} {rest : List Rec} (h : s.jnl.staged = r :: rest) (ok : Bool) :
    StoresIn (inRecord s r.idx (Nat.max 128 r.bytes.length)) s (programHead s ok) := by
  have hprogram (u : State) (hu : u.jnl = s.jnl) (bytes : List Byte) (hlen : bytes.length ≤ Nat.max 128 r.bytes.length) :
      StoresIn (inRecord s r.idx (Nat.max 128 r.bytes.length)) s (programRecord u r bytes) := by
    have haddr : recordAddr u r.idx = recordAddr s r.idx := by simp [recordAddr, ringSlots, hu]
    refine .of_program (a := recordAddr u r.idx) (bs := bytes) (by rw [← hu]; rfl) fun b hle hlt => ?_
    rw [haddr] at hle hlt
    exact ⟨hle, by omega⟩
  unfold programHead
  simp only [h]
  split
  · exact .refl s
  · cases ok with
    | true => exact (hprogram s rfl r.bytes (Nat.le_max_right ..)).then_flash (by simp)
    | false => exact (hprogram s.drawn rfl ((List.range 128).map (Config.freeFlash s.free)) (by simp)).then_flash (by simp)

theorem flushStaged_stores (n : Nat) (s : State) : StoresIn (8192 ≤ ·) s (flushStaged n s) := by
  induction n generalizing s with
  | zero => exact .refl s
  | succ n ih =>
    unfold flushStaged
    split
    · exact .refl s
    next r rest _ =>
      dsimp only
      split
      · exact (StoresIn.of_flash (signSeal_flash s)).trans (ih _)
      · have hprogram : StoresIn (8192 ≤ ·) s (programRecord s r r.bytes) :=
          (programRecord_stores s r r.bytes).mono fun a ha => (le_recordAddr s r.idx).trans ha.1
        exact (hprogram.then_flash (by simp)).trans (ih _)

theorem flushAll_stores (s : State) : StoresIn (8192 ≤ ·) s (flushAll s) := flushStaged_stores _ s

theorem powerLossFlush_stores (s : State) (spoiled : Nat) : StoresIn (8192 ≤ ·) s (powerLossFlush s spoiled) := by
  unfold powerLossFlush
  extract_lets held staged s1 s2 s3 s4 s5
  have h2 : StoresIn (8192 ≤ ·) s s2 := .of_flash (by simp only [s2, s1]; split <;> simp)
  have h3 : StoresIn (8192 ≤ ·) s2 s3 :=
    (StoresIn.of_flash (by split <;> simp)).trans (flushAll_stores _)
  have h5 : StoresIn (8192 ≤ ·) s3 s5 := .of_flash (by simp only [s5, s4]; split <;> simp)
  exact ((h2.trans h3).trans (h5.then_flash (by simp))).trans (flushAll_stores _)

theorem powerLoss_stores (s : State) : StoresIn (8192 ≤ ·) s (powerLoss s) := by
  unfold powerLoss
  extract_lets stage4 ended spoiled s1 on s2
  have h1 : StoresIn (8192 ≤ ·) s s1 := .of_flash (by simp [s1])
  have h2 : StoresIn (8192 ≤ ·) s1 s2 := by
    simp only [s2]
    split
    · exact powerLossFlush_stores s1 spoiled
    · exact .refl s1
  split
  · exact h1
  · exact (h1.trans h2).then_flash (by split <;> simp)

theorem eraseDone_stores (s : State) (k : Nat) : StoresIn (· / 4096 = k) s (eraseDone s k) := by
  unfold eraseDone
  split
  · exact .refl s
  · dsimp only
    have herase : StoresIn (· / 4096 = k) s
        (s.modJnl fun j => { j with flash := flashErase j.flash k, erasing := j.erasing.tail }) :=
      .of_erase rfl fun _ h => h
    split
    · exact herase.then_flash (eraseBegin_flash ..)
    · exact herase

/-! ### The collection log (R366) -/

/-- The addresses of the next entry of the collection log. -/
def inEntry (s : State) (a : Nat) : Prop := logAddr s ≤ a ∧ a < logAddr s + 16

theorem inEntry_of_jnl {s t : State} (h : view .jnl t = view .jnl s) : inEntry t = inEntry s := by
  funext a
  simp [inEntry, logAddr, logPlace, same_jnl h]

theorem logCollected_stores (s : State) (k : Nat) : StoresIn (inEntry s) s (logCollected s k) := by
  unfold logCollected
  extract_lets j sector used entry0 entry other ops t
  have ht : StoresIn (inEntry s) s t := by
    refine StoresIn.of_program (a := logAddr s) (bs := entry) ?_ fun b hle hlt => ⟨hle, hlt⟩
    simp [t]
  split
  · exact ht.then_flash (queueErase_flash ..)
  · exact ht

theorem journalCollectedRun_stores (c : Cmd) (s : State) : StoresIn (inEntry s) s (journalCollectedRun c s).state := by
  unfold journalCollectedRun
  extract_lets k below t
  split
  · exact .of_flash (by simp)
  · exact (logCollected_stores s k).then_flash (by simp [t])

theorem run_stores {op : Nat} {sp : OpSpec} (h : opSpecOf op = some sp) (c : Cmd) (s : State) :
    StoresIn (inEntry s) s (sp.run c s).state := by
  suffices hall : ∀ o ∈ opcodes, o = journalCollectedSpec ∨
      storedFlash (view .jnl (o.run c s).state) = storedFlash (view .jnl s) by
    rcases hall sp (List.mem_of_find?_eq_some h) with rfl | hflash
    · exact journalCollectedRun_stores c s
    · exact .of_flash hflash
  simp only [opcodes, sheetOpcodes, engineOpcodes, systemOpcodes, List.forall_mem_append, List.forall_mem_cons]
  simp [nopSpec, echoSpec, getInfoSpec, getStatusSpec, setModeSpec, setWakeBudgetSpec, setEventRouteSpec,
      axisHomeSpec, axisMoveSpec, groupMoveSpec, axisStopSpec, axisQuerySpec, stationCalibrateSpec,
      stationLockSpec, stationQuerySpec, loadRecipeSpec, queryRecipeSpec, activateSpec, faultReadSpec,
      faultClearSpec, faultSetSeveritySpec, faultInjectSpec, codecRunSpec, openJobSpec, admitSheetSpec,
      commitSheetSpec, cancelSheetSpec, closeJobSpec, querySheetSpec, evictLeavesSpec, dramTrainSpec,
      dramSetRateSpec, dramQuerySpec, fuseReadSpec, fuseBurnSpec, fuseLockSpec, provisionSpec, headScanSpec,
      headMaintainSpec, headMarkDeadSpec, journalReadSpec, journalSealSpec, fuseShadowSpec,
      serialQuerySpec, serialAnchorSpec, loopSetSpec, loopSetpointSpec, loopModeSpec, loopQuerySpec,
      motorStartSpec, motorStopSpec, motorSetSpeedSpec, motorQuerySpec]

/-- A command that runs stores what its opcode stores, from a state with the same journal. -/
theorem runCommand_stores {sp : OpSpec} (h : ∀ c u, StoresIn (inEntry u) u (sp.run c u).state) (c : Cmd) (f : Fate)
    (late : Bool) (s : State) : StoresIn (inEntry s) s (runCommand sp c f late s) := by
  have hrun := h c s
  unfold runCommand
  split
  · exact .of_flash (by simp)
  · split
    next heq => rw [heq] at hrun; exact hrun.then_flash (by simp)
    next heq => rw [heq] at hrun; exact hrun.then_flash (by simp)

theorem startCommand_stores {sp : OpSpec} (h : ∀ c u, StoresIn (inEntry u) u (sp.run c u).state) (c : Cmd) (s : State) :
    StoresIn (inEntry s) s (startCommand sp c s) := by
  unfold startCommand
  split
  · exact .of_flash (by simp)
  · exact runCommand_stores h _ _ _ _

/-- What starts behind a change of other parts stores to the same entry. -/
theorem StoresIn.behind {s t u : State} (hst : view .jnl t = view .jnl s) (h : StoresIn (inEntry t) t u) :
    StoresIn (inEntry s) s u :=
  (StoresIn.of_flash (flash_of_view hst)).trans (inEntry_of_jnl hst ▸ h)

theorem direct_stores {sp : OpSpec} (h : ∀ c u, StoresIn (inEntry u) u (sp.run c u).state) (c : Cmd) (s : State) :
    StoresIn (inEntry s) s (direct sp c s) := by
  unfold direct
  dsimp only
  split
  · exact .refl s
  · split
    · split
      · exact .behind (by simp) (startCommand_stores h c _)
      · exact .of_flash (by simp)
    · exact .of_flash (by simp)

theorem startNext_stores (s : State) (reads : List Fetch) : StoresIn (inEntry s) s (startNext s reads) := by
  unfold startNext
  split
  · exact .refl s
  next p rest _ =>
    split
    · exact .refl s
    · dsimp only
      refine StoresIn.then_flash ?_ (flash_of_view (fillIntake_view _ (by decide)))
      split
      next sp h =>
        unfold proceed
        split
        · exact .of_flash (by simp)
        · split
          · exact .of_flash (by simp)
          · exact .behind (State.modKtl_view _ _ (by decide)) (runCommand_stores (run_stores h) _ _ _ _)
      · exact .of_flash (by simp)

theorem blockFetched_stores (s : State) (r : Fetch) (reads : List Fetch) :
    StoresIn (inEntry s) s (blockFetched s r reads) := by
  unfold blockFetched
  split
  · exact .refl s
  next p rest _ =>
    dsimp only
    split
    next h => exact .behind (State.modKtl_view _ _ (by decide)) (runCommand_stores (run_stores h) _ _ _ _)
    · exact .of_flash (by simp)

theorem retryRoom_stores (s : State) : StoresIn (inEntry s) s (retryRoom s) := by
  unfold retryRoom
  split
  · exact .refl s
  · split
    · exact .refl s
    · split
      next h => exact .behind (State.modKtl_view _ _ (by decide)) (runCommand_stores (run_stores h) _ _ _ _)
      · exact .refl s

/-! ### Reset and boot -/

/-- The addresses of the page that the oldest staged record begins (R139). -/
def inPage (s : State) (a : Nat) : Prop :=
  ∃ r rest, s.jnl.staged = r :: rest ∧ inRecord s r.idx ((pageGroup s).map (·.bytes)).flatten.length a

theorem cutProgram_stores {s t : State} (h : t.jnl.flash = cutProgram s) : StoresIn (inPage s) s t := by
  unfold cutProgram at h
  split at h
  · exact .of_flash h
  next r rest hstaged =>
    split at h
    · exact .of_program h fun b hle hlt => ⟨r, rest, hstaged, hle, by simpa using hlt⟩
    · exact .of_flash h

theorem inPage_of_jnl {s t : State} (h : view .jnl t = view .jnl s) : inPage t = inPage s := by
  funext a
  simp [inPage, inRecord, recordAddr, ringSlots, pageGroup, same_jnl h]

/-- A reset may store to the page that it cuts. -/
theorem storesFlash_page {i : Instr} (hi : (∃ xoLow, i = .powerOnReset xoLow) ∨ i = .rstNAssert) {s : State} {a : Nat}
    (ha : inPage s a) : storesFlash i s a = true := by
  obtain ⟨r, rest, hstaged, hin⟩ := ha
  rcases hi with ⟨xoLow, rfl⟩ | rfl <;> simpa [storesFlash, hstaged, inRecord] using hin

theorem enterReset_stores (s : State) : StoresIn (inPage s) s (enterReset s) := by
  by_cases h : s.sys.mode = .reset
  · rw [enterReset, if_pos (by simpa using h)]
    exact .refl s
  · have hcut : view .jnl (cutBurns s) = view .jnl s := by
      unfold cutBurns
      exact view_foldl _ _ _ fun u p => by split <;> simp
    rw [enterReset_eq h, ← inPage_of_jnl hcut]
    exact (StoresIn.of_flash (flash_of_view hcut)).trans (cutProgram_stores rfl)

theorem journalScan_stores (s t : State) (cap : Option Nat) (bad : List Nat) (h : exec (.journalScan cap bad) s = .next t) :
    StoresIn (fun a => a / 4096 ∈ s.jnl.erasing) s t := by
  cases h
  dsimp only
  split
  · exact .refl s
  · generalize hops : flashOps s _ = s1
    have h1 : s1.jnl = s.jnl := by rw [← hops, flashOps_jnl]
    generalize hscan : s1.modJnl _ = s2
    have h2 : StoresIn (fun a => a / 4096 ∈ s.jnl.erasing) s s2 := by
      refine .of_erases (ks := s.jnl.erasing) ?_ fun _ hb => hb
      rw [← hscan, ← h1]
      rfl
    refine h2.then_flash ?_
    rw [flash_of_view (endStage4_view _ (by decide) (by decide) (by decide))]
    (repeat' split) <;> simp

/-! ### Every step -/

/-- The commands whose frame names the journal store to the addresses that `storesFlash` gives, or leave the flash. -/
theorem exec_stores_of_mem {i : Instr} (hi : Part.jnl ∈ mayChange i) {s t : State} (h : exec i s = .next t) :
    StoresIn (fun a => storesFlash i s a = true) s t := by
  cases i
  case recordProgramComplete ok =>
    cases h
    refine whenUp_stores ?_
    cases hstaged : s.jnl.staged with
    | nil => exact .of_flash (by simp [programHead, hstaged])
    | cons r rest =>
      refine ((programHead_stores hstaged ok).then_flash (settle_flash _)).mono fun a ha => ?_
      simpa [storesFlash, hstaged, inRecord] using ha
  case powerOnReset xoLow =>
    cases h
    exact ((enterReset_stores s).then_flash (by simp)).mono fun a ha => storesFlash_page (.inl ⟨_, rfl⟩) ha
  case rstNAssert =>
    cases h
    exact (enterReset_stores s).mono fun a ha => storesFlash_page (.inr rfl) ha
  case sectorEraseComplete k =>
    cases h
    refine whenUp_stores (.ite (((eraseDone_stores s k).then_flash (eraseAhead_flash _)).mono fun a ha => ?_) (.refl s))
    simpa [storesFlash] using ha
  case journalScan cap bad => exact (journalScan_stores s t cap bad h).mono fun a ha => by simpa [storesFlash] using ha
  case journalCollected c =>
    cases h
    exact (direct_stores (sp := journalCollectedSpec) journalCollectedRun_stores c s).mono fun a ha => by
      simpa [storesFlash, inEntry] using ha
  case packetStart reads =>
    cases h
    exact (startNext_stores s reads).mono fun a ha => by simpa [storesFlash, inEntry] using ha
  case indirectBlockFetched r reads =>
    cases h
    exact .ite ((blockFetched_stores s r reads).mono fun a ha => by simpa [storesFlash, inEntry] using ha) (.refl s)
  case pwrfailNAssert =>
    cases h
    refine whenUp_stores (.ite (.refl s) ((powerLoss_stores s).mono fun a ha => ?_))
    simpa [storesFlash] using ha
  case resetRelease compat sris low =>
    cases h
    have hrelease : StoresIn (fun a => storesFlash (.resetRelease compat sris low) s a = true) s (release s compat sris) :=
      .of_flash (by simp)
    refine .ite (.refl s) (.ite (hrelease.trans ((powerLoss_stores _).mono fun a ha => ?_)) hrelease)
    simpa [storesFlash] using ha
  case dramBootTraining ch0 ch1 =>
    cases h
    refine .of_flash ?_
    dsimp only
    (repeat' split) <;> simp
  case wakeComplete ms =>
    cases h
    refine .of_flash ?_
    dsimp only
    (repeat' split) <;> simp
  case dramTrainStepEnd | faultRaise =>
    cases h
    exact .of_flash (whenUp_flash _ _ fun u => by split <;> simp)
  all_goals simp [mayChange] at hi
  all_goals cases h
  all_goals refine .of_flash ?_
  all_goals simp [setModeSpec, axisMoveSpec, axisStopSpec, activateSpec, faultClearSpec, faultSetSeveritySpec,
    faultInjectSpec, openJobSpec, admitSheetSpec, commitSheetSpec, cancelSheetSpec, closeJobSpec, fuseShadowSpec,
    headMarkDeadSpec, journalReadSpec, journalSealSpec, serialAnchorSpec, motorStopSpec]

theorem exec_stores {i : Instr} {s t : State} (h : exec i s = .next t) :
    StoresIn (fun a => storesFlash i s a = true) s t := by
  by_cases hi : Part.jnl ∈ mayChange i
  · exact exec_stores_of_mem hi h
  · obtain ⟨u, hu, hkeep⟩ := exec_frame i s
    obtain rfl : u = t := by rw [hu] at h; exact Host.Outcome.next.inj h
    exact .of_flash (flash_of_view (hkeep .jnl hi))

theorem follows_canonical {s : State} (hs : FlashCanonical s) : FlashCanonical (follows s) := by
  have hbefore : StoresIn (fun _ => True) s (serveReads (completeFormed (fillIntake s))) := .of_flash (by simp)
  have hretry := hbefore.trans ((retryRoom_stores _).mono fun _ _ => trivial)
  refine (hretry.then_flash ?_).canonical hs
  unfold follows
  simp

theorem idle_canonical {s : State} (hs : FlashCanonical s) : FlashCanonical (idle s) := by
  unfold idle
  split
  · exact hs
  · split
    · have hcycle : StoresIn (fun _ => True) s (xclkCycle s) := .of_flash (by simp)
      exact follows_canonical (hcycle.canonical hs)
    · have hrecord : StoresIn (fun _ => True) s (recordOldest s) := .of_flash (recordOldest_flash s)
      exact hrecord.canonical hs

/-- Settles O4: the front command by `exec_stores`, the idle step by `idle_canonical`. -/
theorem flashStaysCanonical : Obligations.FlashStaysCanonical := by
  intro s t hs h
  unfold step at h
  split at h
  · obtain rfl := Host.Outcome.next.inj h
    exact idle_canonical hs
  · exact (exec_stores h).canonical hs

/-- Settles O3: what `exec_stores` says of the bytes outside `storesFlash`. -/
theorem flashBytesKept : Obligations.FlashBytesKept := fun _ _ _ hs h a ha =>
  (exec_stores h).kept hs a (by simp [ha])

end Sys2Proof.Machine
end

section
/-!
Facts about the records that a command asks for (R357, R361..R363): what their formation leaves of the journal, and that records
for which the staging buffer has room are formed at once.
-/

namespace Sys2Proof.Machine
open Sys2Proof Sys2Proof.Safety

/-! ## What formation leaves of the journal -/

/-- The journal without what the formation of records changes. -/
def settled (j : Journal) : Journal := { j with
  staged := [], waiting := [], tickets := 0, nextIdx := 0, unsealed := 0, chain := 0, sealing := false, voided := 0 }

@[simp] theorem raise_jnl (s : State) (src detail : Nat) : (raise s src detail).jnl = s.jnl := same_jnl (by simp)

theorem voidFormed_jnl (s : State) (u : Unformed) : ∃ v, (voidFormed s u).jnl = { s.jnl with voided := v } := by
  unfold voidFormed
  split
  · exact ⟨_, by rw [raise_jnl, State.modJnl_jnl]⟩
  · exact ⟨s.jnl.voided, rfl⟩

theorem settled_voidFormed (s : State) (u : Unformed) : settled (voidFormed s u).jnl = settled s.jnl := by
  obtain ⟨v, hv⟩ := voidFormed_jnl s u
  rw [hv]
  rfl

theorem settled_formSeal (s : State) (u : Unformed) : settled (formSeal s u).jnl = settled s.jnl := by
  unfold formSeal
  (repeat' split) <;> rfl

/-- A record that is formed writes its index for the first RECIPE record of a group (R360), and no other field of the ledger. -/
theorem formOne_led (s : State) (u : Unformed) : ∃ r, (formOne s u).led = { s.led with recipeRecord := r } := by
  have hvoid (t : State) : (voidFormed t u).led = t.led := same_led (by simp)
  unfold formOne
  split
  · exact ⟨s.led.recipeRecord, same_led (formSeal_view s u (by decide))⟩
  · dsimp only
    split
    · exact ⟨_, by rw [State.modLed_led, hvoid, State.modJnl_led]⟩
    · exact ⟨s.led.recipeRecord, by rw [hvoid, State.modJnl_led]⟩

theorem settled_formOne (s : State) (u : Unformed) : settled (formOne s u).jnl = settled s.jnl := by
  unfold formOne
  split
  · exact settled_formSeal s u
  · dsimp only
    split
    · rw [State.modLed_jnl, settled_voidFormed]
      rfl
    · rw [settled_voidFormed]
      rfl

theorem formReady_led (n : Nat) (s : State) : ∃ r, (formReady n s).led = { s.led with recipeRecord := r } := by
  induction n generalizing s with
  | zero => exact ⟨s.led.recipeRecord, rfl⟩
  | succ n ih =>
    unfold formReady
    split
    · exact ⟨s.led.recipeRecord, rfl⟩
    next u rest _ =>
      split
      · exact ⟨s.led.recipeRecord, rfl⟩
      · obtain ⟨q, hq⟩ := formOne_led (s.modJnl fun j => { j with waiting := rest }) u
        obtain ⟨r, hr⟩ := ih (formOne (s.modJnl fun j => { j with waiting := rest }) u)
        exact ⟨r, by rw [hr, hq, State.modJnl_led]⟩

theorem settled_formReady (n : Nat) (s : State) : settled (formReady n s).jnl = settled s.jnl := by
  induction n generalizing s with
  | zero => rfl
  | succ n ih =>
    unfold formReady
    split
    · rfl
    · split
      · rfl
      · rw [ih, settled_formOne]
        rfl

theorem settled_formAll (s : State) : settled (formAll s).jnl = settled s.jnl := settled_formReady _ s

theorem stampHeld_led (u : Unformed) (s : State) : (stampHeld u s).1.led = s.led := same_led (by simp)

theorem settled_stampHeld (u : Unformed) (s : State) : settled (stampHeld u s).1.jnl = settled s.jnl := by
  unfold stampHeld
  split
  · exact settled_voidFormed s u
  · rfl

theorem requestRecord_led (s : State) (u : Unformed) :
    ∃ r, (requestRecord s u).led = { s.led with recipeRecord := r } := by
  unfold requestRecord
  split
  · dsimp only
    split
    · exact ⟨s.led.recipeRecord, by rw [State.modJnl_led, stampHeld_led]⟩
    · obtain ⟨r, hr⟩ := formReady_led _ ((stampHeld u s).1.modJnl fun j => { j with
        waiting := j.waiting ++ [{ (stampHeld u s).2 with ticket := j.tickets + 1 }], tickets := j.tickets + 1 })
      exact ⟨r, by rw [formAll, hr, State.modJnl_led, stampHeld_led]⟩
  · exact ⟨s.led.recipeRecord, rfl⟩

theorem settled_requestRecord (s : State) (u : Unformed) : settled (requestRecord s u).jnl = settled s.jnl := by
  unfold requestRecord
  split
  · dsimp only
    split
    · exact settled_stampHeld u s
    · exact (settled_formAll _).trans (settled_stampHeld u s)
  · rfl

theorem requestRecord_jobs (s : State) (u : Unformed) : (requestRecord s u).led.jobs = s.led.jobs := by
  obtain ⟨r, hr⟩ := requestRecord_led s u
  rw [hr]

theorem requestRecord_audit (s : State) (u : Unformed) : (requestRecord s u).led.audit = s.led.audit := by
  obtain ⟨r, hr⟩ := requestRecord_led s u
  rw [hr]

theorem jnlOn_of_settled {s t : State} (h : settled t.jnl = settled s.jnl) : jnlOn t = jnlOn s := by
  have hp : t.jnl.provisioned = s.jnl.provisioned := (congrArg Journal.provisioned h :)
  have hf : t.jnl.flashOk = s.jnl.flashOk := (congrArg Journal.flashOk h :)
  simp [jnlOn, hp, hf]

theorem jnlOn_requestRecord (s : State) (u : Unformed) : jnlOn (requestRecord s u) = jnlOn s :=
  jnlOn_of_settled (settled_requestRecord s u)

theorem requestRecord_off {s : State} (h : jnlOn s = false) (u : Unformed) : requestRecord s u = s := by
  simp [requestRecord, h]

/-! ## Formation with room (R362, R363) -/

/-- The record whose ticket was given last stands formed, or there is no journal. -/
def lastFormed (s : State) : Prop := jnlOn s = false ∨ ticketFormed s s.jnl.tickets = true

/-- A record that is no seal, with nothing waiting behind it, stands at the end of the staging buffer; the 256th asks for a
seal. -/
theorem formOne_jnl {s : State} {u : Unformed} (hu : u.type ≠ 0x04) (hw : s.jnl.waiting = []) : ∃ r v h,
    (formOne s u).jnl = { s.jnl with
      staged := s.jnl.staged ++ [r], nextIdx := s.jnl.nextIdx + 1, chain := h, unsealed := s.jnl.unsealed + 1, voided := v
      waiting := if s.jnl.unsealed + 1 = 256 then [sealRequest 0] else [] } := by
  unfold formOne
  rw [if_neg hu]
  dsimp only
  generalize hs1 : s.modJnl _ = s1
  obtain ⟨v, hv⟩ := voidFormed_jnl s1 u
  rw [apply_ite State.jnl, State.modLed_jnl, ite_self, hv, ← hs1, State.modJnl_jnl, hw]
  exact ⟨_, v, _, rfl⟩

theorem formReady_idle {s : State} (h : s.jnl.waiting = []) (n : Nat) : formReady n s = s := by
  cases n with
  | zero => rfl
  | succ n => simp [formReady, h]

/-- One seal that waits is formed, or waits further. -/
theorem formReady_seal {s : State} (h : s.jnl.waiting = [sealRequest 0]) (n : Nat) :
    (formReady n s).jnl.tickets = s.jnl.tickets ∧
      ((formReady n s).jnl.waiting = [] ∨ (formReady n s).jnl.waiting = [sealRequest 0]) := by
  cases n with
  | zero => exact ⟨rfl, .inr h⟩
  | succ n =>
    unfold formReady
    simp only [h]
    split
    · exact ⟨rfl, .inr h⟩
    · have hseal : (formOne (s.modJnl fun j => { j with waiting := [] }) (sealRequest 0)).jnl.tickets = s.jnl.tickets ∧
          (formOne (s.modJnl fun j => { j with waiting := [] }) (sealRequest 0)).jnl.waiting = [] := by
        unfold formOne formSeal sealRequest
        simp only [if_true]
        split <;> exact ⟨rfl, rfl⟩
      rw [formReady_idle hseal.2]
      exact ⟨hseal.1, .inl hseal.2⟩

/-- What a journal has room for: a record that is not held behind a seal is formed at once. -/
theorem formReady_one {s : State} {u : Unformed} (hw : s.jnl.waiting = [u])
    (hseal : s.jnl.sealing = false) (hroom : s.jnl.staged.length < 32) (n : Nat) :
    formReady (n + 1) s = formReady n (formOne (s.modJnl fun j => { j with waiting := [] }) u) := by
  rw [formReady]
  simp only [hw]
  rw [if_neg (by simp [hseal, hroom])]

/-- The request for a record as it stands in the waiting list. -/
def withRequest (s : State) (u : Unformed) : State := (stampHeld u s).1.modJnl fun j => { j with
  waiting := j.waiting ++ [{ (stampHeld u s).2 with ticket := j.tickets + 1 }], tickets := j.tickets + 1 }

theorem requestRecord_on {s : State} (hj : jnlOn s = true) (hp : s.sys.pwrFail = false) (u : Unformed) :
    requestRecord s u = formAll (withRequest s u) := by
  unfold requestRecord
  rw [if_pos hj]
  dsimp only
  rw [if_neg (by simp [hp])]
  rfl

theorem ticketFormed_of_waiting {s : State} (h : ∀ u ∈ s.jnl.waiting, u.ticket ≠ s.jnl.tickets) : lastFormed s := by
  refine .inr ?_
  simp only [ticketFormed, Bool.or_eq_true, Bool.not_eq_true', List.any_eq_false]
  exact .inl fun u hu => by simpa using h u hu

/-- Behind a seal that is being signed a record stands formed as long as the buffer has a place for it (R361). -/
theorem requestRecord_held {s : State} (hj : jnlOn s = true) (hp : s.sys.pwrFail = false) (hseal : s.jnl.sealing = true)
    (hroom : s.jnl.staged.length + s.jnl.waiting.length < 32) (u : Unformed) : ∃ (w : Unformed) (v : Nat),
    (requestRecord s u).jnl = { s.jnl with
      waiting := s.jnl.waiting ++ [{ w with ticket := s.jnl.tickets + 1 }], tickets := s.jnl.tickets + 1, voided := v } := by
  obtain ⟨v, hv⟩ := voidFormed_jnl s u
  have hstamp : (stampHeld u s).1 = voidFormed s u := by simp [stampHeld, hseal, hroom]
  refine ⟨(stampHeld u s).2, v, ?_⟩
  have hjnl : (withRequest s u).jnl = { s.jnl with
      waiting := s.jnl.waiting ++ [{ (stampHeld u s).2 with ticket := s.jnl.tickets + 1 }]
      tickets := s.jnl.tickets + 1, voided := v } := by
    rw [withRequest, State.modJnl_jnl, hstamp, hv]
  have hstay (n : Nat) : formReady n (withRequest s u) = withRequest s u := by
    cases n with
    | zero => rfl
    | succ n =>
      unfold formReady
      split
      · rfl
      · rw [if_pos (by simp [hjnl, hseal])]
  rw [requestRecord_on hj hp, formAll, hstay, hjnl]

/-- Without a seal being signed and with nothing waiting, a record is formed as soon as it is asked for. -/
theorem requestRecord_formed {s : State} (hj : jnlOn s = true) (hp : s.sys.pwrFail = false) (hseal : s.jnl.sealing = false)
    (hw : s.jnl.waiting = []) (hroom : s.jnl.staged.length < 32) {u : Unformed} (hu : u.type ≠ 0x04) : ∃ n t r v h,
    requestRecord s u = formReady n t ∧ t.jnl = { s.jnl with
      staged := s.jnl.staged ++ [r], nextIdx := s.jnl.nextIdx + 1, chain := h, unsealed := s.jnl.unsealed + 1, voided := v
      tickets := s.jnl.tickets + 1, waiting := if s.jnl.unsealed + 1 = 256 then [sealRequest 0] else [] } := by
  have hstamp : stampHeld u s = (s, u) := by simp [stampHeld, hseal]
  have hjnl : (withRequest s u).jnl = { s.jnl with
      waiting := [{ u with ticket := s.jnl.tickets + 1 }], tickets := s.jnl.tickets + 1 } := by
    rw [withRequest, State.modJnl_jnl, hstamp, hw, List.nil_append]
  have hone := formReady_one (s := withRequest s u) (u := { u with ticket := s.jnl.tickets + 1 }) (by rw [hjnl])
    (by rw [hjnl]; exact hseal) (by rw [hjnl]; exact hroom) (2 * (withRequest s u).jnl.waiting.length + 1)
  obtain ⟨r, v, h, ht⟩ := formOne_jnl (s := (withRequest s u).modJnl fun j => { j with waiting := [] })
    (u := { u with ticket := s.jnl.tickets + 1 }) hu rfl
  refine ⟨_, _, r, v, h, (requestRecord_on hj hp u).trans hone, ?_⟩
  rw [ht, State.modJnl_jnl, hjnl]

/-- The last of the records for which there is room stands formed. -/
theorem requestRecord_lastFormed {s : State} (h : RecordRoom 1 s) {u : Unformed} (hu : u.type ≠ 0x04) :
    lastFormed (requestRecord s u) := by
  cases hj : jnlOn s with
  | false => exact .inl (by rw [requestRecord_off hj, hj])
  | true =>
    obtain hoff | ⟨hp, hroom, hseal⟩ := h
    · rw [hj] at hoff
      cases hoff
    · cases hs : s.jnl.sealing with
      | true =>
        obtain ⟨w, v, ht⟩ := requestRecord_held hj hp hs (by omega) u
        refine .inr ?_
        have hmem : { w with ticket := s.jnl.tickets + 1 } ∈ formedHeld (requestRecord s u) := by
          rw [formedHeld, ht, if_pos hs, List.take_of_length_le (by simp; omega)]
          simp
        simp only [ticketFormed, Bool.or_eq_true, List.any_eq_true]
        exact .inr ⟨_, hmem, by rw [ht]; simp⟩
      | false =>
        obtain ⟨hw, -⟩ := hseal.resolve_left (by simp [hs])
        obtain ⟨n, t, r, v, c, hreq, ht⟩ := requestRecord_formed hj hp hs hw (by omega) hu
        rw [hreq]
        have hwait : t.jnl.waiting = [] ∨ t.jnl.waiting = [sealRequest 0] := by
          rw [ht]
          dsimp only
          split
          · exact .inr rfl
          · exact .inl rfl
        have htickets : t.jnl.tickets = s.jnl.tickets + 1 := by rw [ht]
        rcases hwait with hnone | hone
        · rw [formReady_idle hnone]
          exact ticketFormed_of_waiting (by simp [hnone])
        · obtain ⟨hkeep, hleft⟩ := formReady_seal hone n
          refine ticketFormed_of_waiting fun w hmem => ?_
          have hw0 : w = sealRequest 0 := by rcases hleft with hl | hl <;> simp_all
          rw [hw0, hkeep, htickets]
          exact (Nat.succ_ne_zero _).symm

/-- With room for several records, the first leaves room for the others (R362, R363). -/
theorem requestRecord_room {s : State} {n : Nat} (h : RecordRoom (n + 2) s) {u : Unformed} (hu : u.type ≠ 0x04) :
    RecordRoom (n + 1) (requestRecord s u) := by
  have hpwr : (requestRecord s u).sys = s.sys := same_sys (by simp)
  cases hj : jnlOn s with
  | false => exact .inl (by rw [requestRecord_off hj, hj])
  | true =>
    obtain hoff | ⟨hp, hroom, hseal⟩ := h
    · rw [hj] at hoff
      cases hoff
    · refine .inr ⟨by rw [hpwr, hp], ?_⟩
      cases hs : s.jnl.sealing with
      | true =>
        obtain ⟨w, v, ht⟩ := requestRecord_held hj hp hs (by omega) u
        rw [ht]
        exact ⟨by simp; omega, .inl hs⟩
      | false =>
        obtain ⟨hw, hfull⟩ := hseal.resolve_left (by simp [hs])
        obtain ⟨k, t, r, v, c, hreq, ht⟩ := requestRecord_formed hj hp hs hw (by omega) hu
        have hwait : t.jnl.waiting = [] := by
          rw [ht]
          exact if_neg (by omega)
        rw [hreq, formReady_idle hwait, hwait, ht]
        simp only [hw, List.length_nil, Nat.add_zero] at hroom
        exact ⟨by simp; omega, .inr ⟨rfl, by simp only; omega⟩⟩

theorem journal_lastFormed {s : State} (h : RecordRoom 1 s) {type : Nat} (ht : type ≠ 0x04) (aux : Nat)
    (payload : List Byte) : lastFormed (journal s type aux payload) := requestRecord_lastFormed h ht

theorem journalCommand_lastFormed {s : State} (h : RecordRoom 1 s) (op : Nat) (st : Status) (c : Cmd) :
    lastFormed (journalCommand s op st c) := journal_lastFormed h (by decide) ..

/-- The room depends on the journal and on PWRFAIL_N. -/
theorem recordRoom_of_parts {n : Nat} {s t : State} (h : RecordRoom n s) (hsys : t.sys.pwrFail = s.sys.pwrFail)
    (hjnl : t.jnl = s.jnl) : RecordRoom n t := by
  simpa only [RecordRoom, jnlOn, hsys, hjnl] using h

/-- A command whose record stands formed keeps its effect, whether it completes or parks until the record is durable (R176). -/
theorem journaled_lastFormed {s : State} (h : lastFormed s) (before : State) (r : Res) :
    (journaled before s r).state = s := by
  unfold journaled
  split
  · rfl
  next hon =>
    have hj : jnlOn s = true := by
      cases hj : jnlOn s <;> simp [hj] at hon ⊢
    have hformed : ticketFormed s s.jnl.tickets = true := h.resolve_left (by simp [hj])
    rw [if_neg (by simp [hformed])]
    split <;> rfl

end Sys2Proof.Machine
end

section
/-!
Proofs of the statements about the state after reset (O5) and about the device opcodes (O11): what a depth and an entry to a mode
leave of the mode registers comes first.
-/

namespace Sys2Proof
open Sys2Proof.Machine Sys2Proof.Safety

/-- Settles O5: every register of `State.reset` has its reset value by definition. -/
theorem resetState : Obligations.ResetState := by
  refine ⟨rfl, rfl, rfl, rfl, rfl, rfl, rfl, rfl, fun i => ?_, fun k => ?_, fun k => ?_, fun a => ?_, fun m => ?_, fun k => ?_,
    rfl, rfl, rfl, ?_⟩
  · simp [State.reset]
  · simp [State.reset, storeSlot, getN]
  · simp [State.reset, resetSources]
  · simp [State.reset]
  · simp [State.reset]
  · simp [State.reset]
  · exact ⟨.nil, fun x hx => absurd hx List.not_mem_nil⟩

end Sys2Proof

namespace Sys2Proof.Machine
open Sys2Proof Sys2Proof.Safety

/-! ## What the arrival of a packet leaves as it is -/

/-- A packet that has arrived has changed the ports and the Kettle alone: what does not look at them sees the same. -/
theorem begun_same {α : Type} (f : State → α) (s : State) (c : Cmd)
    (hf : ∀ hif mgt sup ktl, f { s with hif := hif, mgt := mgt, sup := sup, ktl := ktl } = f s) : f (begun s c) = f s := by
  obtain ⟨hif, mgt, sup, ktl, h⟩ := begun_parts s c
  rw [h, hf]

@[simp] theorem ledgerEmpty_begun (s : State) (c : Cmd) : ledgerEmpty (begun s c) = ledgerEmpty s :=
  begun_same _ s c fun _ _ _ _ => rfl

@[simp] theorem servicePermitted_begun (s : State) (c : Cmd) : servicePermitted (begun s c) = servicePermitted s :=
  begun_same _ s c fun _ _ _ _ => rfl

@[simp] theorem pendingAtLeast_begun (s : State) (c : Cmd) (l : Level) :
    pendingAtLeast (begun s c) l = pendingAtLeast s l := begun_same (pendingAtLeast · l) s c fun _ _ _ _ => rfl

@[simp] theorem coming_begun (s : State) (c : Cmd) (p : Instr → Bool) : coming (begun s c) p = coming s p :=
  begun_same (coming · p) s c fun _ _ _ _ => rfl

theorem recordRoom_begun {n : Nat} {s : State} (h : RecordRoom n s) (c : Cmd) : RecordRoom n (begun s c) :=
  recordRoom_of_parts h (by simp) (by simp)

/-! ## Depths of STANDBY (R48..R50) -/

/-- A measure of a depth that is undone lets the polygons turn again, and changes nothing else of the modes. -/
theorem leaveOne_sys (s : State) (d : Nat) : ∃ p, (leaveOne s d).sys = { s.sys with polygonsStopped := p } := by
  unfold leaveOne
  split
  case h_3 =>
    dsimp only
    generalize ht : List.foldl _ s _ = t
    have hsys : t.sys = s.sys := ht ▸ same_sys (by simp)
    refine ⟨0, (same_sys (s := t.modSys fun x => { x with polygonsStopped := 0 }) (by simp)).trans ?_⟩
    rw [State.modSys_sys, hsys]
  all_goals exact ⟨s.sys.polygonsStopped, same_sys (by simp)⟩

theorem leaveDepth_sys (s : State) (old new : Nat) :
    ∃ p, (leaveDepth s old new).sys = { s.sys with polygonsStopped := p } := by
  unfold leaveDepth
  refine List.foldlRecOn (motive := fun (t : State) => ∃ p, t.sys = { s.sys with polygonsStopped := p }) _ _
    ⟨s.sys.polygonsStopped, rfl⟩ fun t ⟨p, hp⟩ d _ => ?_
  obtain ⟨q, hq⟩ := leaveOne_sys t d
  exact ⟨q, by rw [hq, hp]⟩

/-- The measures of a depth write DEPTH, and note the polygons that they stop. -/
theorem enterDepth_sys (s : State) (d : Nat) : ∃ p, (enterDepth s d).sys = { s.sys with depth := d, polygonsStopped := p } := by
  have hdepth {t : State} (h : view .sys t = view .sys (s.modSys fun x => { x with depth := d })) :
      ∃ p, t.sys = { s.sys with depth := d, polygonsStopped := p } := ⟨s.sys.polygonsStopped, same_sys h⟩
  unfold enterDepth
  dsimp only
  split
  case h_1 | h_2 | h_4 | h_5 => exact hdepth (by simp)
  case h_3 =>
    generalize BitVec.ofNat 6 _ = p
    exact ⟨p, same_sys (s := s.modSys fun x => { x with depth := 3, polygonsStopped := p }) (by simp; rfl)⟩

theorem enterMode_loops (s : State) (m : Mode) : (enterMode s m).ctl.loops = s.ctl.loops := by
  have hset : (setMode s m).ctl = s.ctl := same_ctl (by simp)
  have hend (t : State) : (endInjection t).ctl = t.ctl := same_ctl (by simp)
  unfold enterMode
  dsimp only
  split
  · rw [hend, hvUpdate, State.modCtl_ctl, hset]
  · rw [hvUpdate, State.modCtl_ctl, hset]

theorem enterDepths_sys (s : State) (l : List Nat) :
    ∃ p, (l.foldl enterDepth s).sys = { s.sys with depth := l.getLastD s.sys.depth, polygonsStopped := p } := by
  induction l generalizing s with
  | nil => exact ⟨s.sys.polygonsStopped, rfl⟩
  | cons d l ih =>
    obtain ⟨p, hp⟩ := enterDepth_sys s d
    obtain ⟨q, hq⟩ := ih (enterDepth s d)
    refine ⟨q, ?_⟩
    rw [List.foldl_cons, hq, hp, List.getLastD_cons]

/-- The depth selected depends on the wakes measured, on the fuser slots and on the recipes (R49, R51, R52). -/
theorem selectDepth_congr {s t : State} (hbudget : t.sys.wakeBudget = s.sys.wakeBudget)
    (h2 : t.sys.wakes2 = s.sys.wakes2) (h3 : t.sys.wakes3 = s.sys.wakes3) (hbins : t.sys.bins = s.sys.bins)
    (hloops : t.ctl.loops = s.ctl.loops) (hstore : t.led.store = s.led.store) : selectDepth t = selectDepth s := by
  have hbody (kind : Nat) : body t kind = body s kind := by simp [body, activeRecipe, hstore]
  simp [selectDepth, wakeEstimate, heatUp, zoneBin, zoneZero, slotEntry, loopsBody, deviceBody, hbody, hbudget, h2, h3,
    hbins, hloops]

theorem selectDepth_range (s : State) : 1 ≤ selectDepth s ∧ selectDepth s ≤ 4 := by
  unfold selectDepth
  (repeat' split) <;> omega

/-- The depths up to one of 1 to 4 end with it. -/
theorem depths_last {d : Nat} (h1 : 1 ≤ d) (h4 : d ≤ 4) (old : Nat) :
    ([1, 2, 3, 4].filter fun k => decide (k ≤ d)).getLastD old = d := by
  obtain rfl | rfl | rfl | rfl : d = 1 ∨ d = 2 ∨ d = 3 ∨ d = 4 := by omega
  all_goals rfl

/-- The records formed for a seal leave the rest of the ledger. -/
theorem requestSeal_led (s : State) : ∃ r, (requestSeal s).led = { s.led with recipeRecord := r } := by
  unfold requestSeal
  split
  · exact ⟨s.led.recipeRecord, rfl⟩
  · exact formReady_led _ _

/-- STANDBY is entered at the depth that the wake budget chooses (R43, R49). -/
theorem standbyEntry_sys (s : State) : ∃ p, (standbyEntry s).sys = { s.sys with
    mode := .standby, bootStage := 7, depth := selectDepth s, depthTarget := 0, wake := none, polygonsStopped := p } := by
  unfold standbyEntry
  extract_lets s1 s2 s3 d s4
  have h3 : s3.sys = { s.sys with mode := .standby, depth := s.sys.depth } := by
    rw [same_sys (s := s1) (by simp [s3, s2]), enterMode_sys]
    rfl
  have hctl : s3.ctl.loops = s.ctl.loops := by
    rw [same_ctl (s := s1) (by simp [s3, s2])]
    exact enterMode_loops s .standby
  obtain ⟨r, hr⟩ := requestSeal_led s2
  have h2 : s2.led = s.led := same_led (by simp [s2, s1])
  have hled : s3.led.store = s.led.store := by
    rw [show s3.led = _ from hr, h2]
  have hd : d = selectDepth s :=
    selectDepth_congr (by rw [h3]) (by rw [h3]) (by rw [h3]) (by rw [h3]) hctl hled
  obtain ⟨h1, h4⟩ := selectDepth_range s
  obtain ⟨p, hp⟩ := enterDepths_sys s4 ([1, 2, 3, 4].filter fun k => decide (k ≤ d))
  refine ⟨p, ?_⟩
  rw [same_sys (hvUpdate_view _ (by decide)), hp, hd, depths_last h1 h4, State.modSys_sys, h3]

/-- A wake begins with the depth that stays until it is complete (R43, R53). -/
theorem wakeStart_sys (s : State) : ∃ p w, (wakeStart s).sys = { s.sys with
    polygonsStopped := p, wake := some w, depthTarget := 0 } := by
  obtain ⟨p, hp⟩ := leaveDepth_sys s s.sys.depth 0
  unfold wakeStart
  exact ⟨p, _, by rw [State.modSys_sys, hp]⟩

/-- Selecting the depth anew leaves the mode and its settings. -/
theorem reselect_sys (s : State) : ∃ d t p, (reselect s).sys = { s.sys with
    depth := d, depthTarget := t, polygonsStopped := p } := by
  unfold reselect
  split
  · exact ⟨_, _, _, rfl⟩
  · dsimp only
    split
    · obtain ⟨p, hp⟩ := leaveDepth_sys s s.sys.depth (selectDepth s)
      exact ⟨selectDepth s, 0, p, by rw [same_sys (hvUpdate_view _ (by decide)), State.modSys_sys, hp]⟩
    · exact ⟨s.sys.depth, _, s.sys.polygonsStopped, rfl⟩

/-! ## SET_MODE (R43..R45, R178) -/

theorem recordAll_idle {s : State} (h : s.flt.inbox = []) : recordAll s = s := by simp [recordAll, h, iter]

/-- With no detection on its way, and no power loss, SET_MODE is the change to the mode that it names. -/
theorem setModeRun_eq {c : Cmd} {s : State} (hin : s.flt.inbox = []) (hpwr : coming s (· == .pwrfailNAssert) = false) :
    (Cmd.p8 c 16 = 0x2 → setModeRun c s = setStandby s) ∧ (Cmd.p8 c 16 = 0x3 → setModeRun c s = setReady s) ∧
    (Cmd.p8 c 16 = 0x5 → setModeRun c s = setRunout s) ∧ (Cmd.p8 c 16 = 0x7 → setModeRun c s = setService c s) := by
  refine ⟨fun h => ?_, fun h => ?_, fun h => ?_, fun h => ?_⟩ <;> simp [setModeRun, recordAll_idle hin, h, hpwr]

theorem setReady_standby {s : State} (hm : s.sys.mode = .standby) (hp : pendingAtLeast s .runout = false) :
    ∃ t, setReady s = .reply t { status := .accepted, w0 := t.sys.mode.code } ∧ t.sys.mode = .standby ∧
      t.sys.wake.isSome = true := by
  unfold setReady
  rw [if_neg (by simp [hm, hp])]
  refine ⟨_, rfl, ?_⟩
  split
  · next hw => exact ⟨hm, hw⟩
  · obtain ⟨p, w, hs⟩ := wakeStart_sys s
    rw [same_sys (hvUpdate_view _ (by decide)), hs]
    exact ⟨hm, rfl⟩

theorem setStandby_ready {s : State} (hm : s.sys.mode = .ready) (hl : ledgerEmpty s = true) :
    ∃ t, setStandby s = .reply t (okWords 0x2) ∧ t.sys.mode = .standby := by
  obtain ⟨p, hs⟩ := standbyEntry_sys s
  have hmode : (standbyEntry s).sys.mode = .standby := by rw [hs]
  unfold setStandby
  rw [if_pos (by simp [mayStandby, hm, hl])]
  exact ⟨_, by simp [modeReply, hmode, okWords, Mode.code], hmode⟩

theorem setRunout_running {s : State} (hm : s.sys.mode = .ready ∨ s.sys.mode = .print) :
    ∃ t, setRunout s = .reply t (okWords 0x5) ∧ t.sys.mode = .runout ∧ t.sys.held = true ∧ t.sys.lastCause = 0 ∧
      t.sys.lcSrc = false := by
  have hs := runoutWith_sys (causeByCommand s)
  have hmode : (runoutWith (causeByCommand s)).sys.mode = .runout := by rw [hs]
  unfold setRunout
  rw [if_pos (by rcases hm with h | h <;> simp [h])]
  exact ⟨_, by simp [modeReply, hmode, okWords, Mode.code], hmode, by rw [hs], by rw [hs]; rfl, by rw [hs]; rfl⟩

/-- SERVICE is entered with its record formed (R44, R176). -/
theorem setService_state {c : Cmd} {s : State} (hp : servicePermitted s = true)
    (hm : s.sys.mode = .standby ∨ s.sys.mode = .ready) (hl : ledgerEmpty s = true) (hj : journalRefusal s false = none)
    (hroom : RecordRoom 1 s) : (setService c s).state.sys.mode = .service ∧ (setService c s).state.sys.depth = 0 := by
  unfold setService
  rw [if_neg (by simp [hp]), if_neg (by rcases hm with h | h <;> simp [h, hl])]
  simp only [hj]
  generalize ht : State.modSys _ _ = t
  have hleave : t.sys.pwrFail = s.sys.pwrFail ∧ t.jnl = s.jnl := by
    obtain ⟨p, hdepth⟩ := leaveDepth_sys s s.sys.depth 0
    rw [← ht, State.modSys_sys, State.modSys_jnl, hdepth]
    exact ⟨rfl, same_jnl (by simp)⟩
  have hmode := enterMode_sys t .service
  have hroom' : RecordRoom 1 (enterMode t .service) :=
    recordRoom_of_parts hroom (by rw [hmode, ← hleave.1]) (by rw [← hleave.2]; exact same_jnl (by simp))
  rw [journaled_lastFormed (journalCommand_lastFormed hroom' ..),
    same_sys (s := enterMode t .service) (by simp), hmode]
  exact ⟨rfl, rfl⟩

/-- Settles O11: the equation of each opcode's run, and of SET_MODE the change of the mode registers. -/
theorem deviceOpcodesComplete : Obligations.DeviceOpcodesComplete := by
  intro c s
  refine ⟨fun h => ?_, fun h => ?_, fun h hpage => ?_, fun h => ?_, fun h hroute hvec => ?_, fun h => ?_, fun h hin hpwr => ?_⟩
  · exact congrArg Host.Outcome.next (direct_reply h rfl)
  · exact congrArg Host.Outcome.next (direct_reply h rfl)
  · exact congrArg Host.Outcome.next (direct_reply h (if_neg (Nat.not_lt.mpr hpage)))
  · refine congrArg Host.Outcome.next (direct_reply h ?_)
    show getStatusRun c (begun s c) = _
    rw [getStatusRun, begun_tmp]
    rfl
  · have hrun : setEventRouteRun c (begun s c) = _ :=
      (if_neg (Nat.not_le.mpr hroute)).trans (if_neg (Nat.not_le.mpr hvec))
    exact congrArg Host.Outcome.next (direct_reply h hrun)
  · obtain ⟨d, t, p, ht⟩ := reselect_sys
      ((begun s c).modSys fun x => { x with wakeBudget := Cmd.p32 c 16, idleTimeout := Cmd.p16 c 20 })
    exact ⟨_, _, congrArg Host.Outcome.next (direct_reply h rfl), rfl, by rw [ht]; rfl, by rw [ht]; rfl⟩
  · obtain ⟨hstandby, hready, hrunout, hservice⟩ := setModeRun_eq (c := c) (s := begun s c) (by simpa using hin)
      (by simpa using hpwr)
    refine ⟨fun hto hm hpend => ?_, fun hto hm hled => ?_, fun hto hm => ?_, fun hto hperm hm hled hjnl hroom => ?_⟩
    · obtain ⟨t, hrun, hleft⟩ := setReady_standby (s := begun s c) (by simpa using hm) (by simpa using hpend)
      exact ⟨t, congrArg Host.Outcome.next (direct_reply h ((hready hto).trans hrun)), hleft⟩
    · obtain ⟨t, hrun, hleft⟩ := setStandby_ready (s := begun s c) (by simpa using hm) (by simpa using hled)
      exact ⟨t, congrArg Host.Outcome.next (direct_reply h ((hstandby hto).trans hrun)), hleft⟩
    · obtain ⟨t, hrun, hleft⟩ := setRunout_running (s := begun s c) (by simpa using hm)
      exact ⟨t, congrArg Host.Outcome.next (direct_reply h ((hrunout hto).trans hrun)), hleft⟩
    · refine ⟨_, congrArg Host.Outcome.next (direct_finished h), ?_⟩
      have hrun : setModeSpec.run c (begun s c) = setService c (begun s c) := hservice hto
      rw [finished_sys, hrun]
      exact setService_state (by simpa using hperm) (by simpa using hm) (by simpa using hled) hjnl (recordRoom_begun hroom c)

end Sys2Proof.Machine
end

section
/-!
Proofs of the statements about STANDBY (O35) and about the losses that end in HALT (O36).
-/

namespace Sys2Proof.Machine
open Sys2Proof Sys2Proof.Safety

/-! ## Wakes and depths (R43, R48..R53) -/

/-- A path stop holds the sheets back, and changes nothing else of the modes. -/
theorem pathStop_sys (s : State) (r : Spoil) (sensor kind sheet count : Nat) :
    ∃ h, (pathStop s r sensor kind sheet count).sys = { s.sys with held := h } := by
  unfold pathStop
  split
  · exact ⟨s.sys.held, rfl⟩
  · extract_lets jam s1 s2 s3 s4 s5
    have h3 : s3.sys = { s.sys with held := true } := by
      rw [State.modSys_sys, same_sys (s := s) (by simp [s2, s1])]
    have h5 : s5.sys = s3.sys := same_sys (by simp [s5, s4])
    refine ⟨true, ?_⟩
    rw [← h3, ← h5]
    split
    · rfl
    · exact raise_sys ..

/-- READY is entered at depth 0; a sheet found in the path holds the others back. -/
theorem enterReady_sys (s : State) : ∃ h, (enterReady s).sys = { s.sys with mode := .ready, depth := 0, held := h } := by
  have hmode : (enterMode s .ready).sys = { s.sys with mode := .ready, depth := 0 } := enterMode_sys s .ready
  unfold enterReady strayCheck
  dsimp only
  split
  · exact ⟨s.sys.held, hmode⟩
  · obtain ⟨h, hstop⟩ := pathStop_sys (enterMode s .ready) .jam _ 5 0 _
    exact ⟨h, by rw [hstop, hmode]⟩

/-- A wake that completes from W2 enters its time among the wakes measured from there (R51). -/
theorem recordWake_second (s : State) (w : Wake) (ms : Nat) (h : w.fromDepth = 2) :
    (recordWake s w ms).sys.wakes2 = addWake s.sys.wakes2 ms := by
  simp [recordWake, h]

/-- The depths between one that is in force and a deeper one end with the deeper one. -/
theorem deeper_last {d goal : Nat} (h : d < goal) (h4 : goal ≤ 4) (old : Nat) :
    ([1, 2, 3, 4].filter fun k => decide (d < k) && decide (k ≤ goal)).getLastD old = goal := by
  have h1 : 1 ≤ goal := Nat.zero_lt_of_lt h
  interval_cases goal <;> interval_cases d <;> rfl

/-- Every depth keeps a channel in service, and in self-refresh. -/
theorem enterDepth_channel (s : State) (d : Nat) (n : Fin 2) :
    (enterDepth s d).drc.ch[n].up = s.drc.ch[n].up ∧
      (s.drc.ch[n].up = true → d = 2 ∨ s.drc.ch[n].sr = true → (enterDepth s d).drc.ch[n].sr = true) := by
  by_cases h : d = 2
  · subst h
    have hdrc : (enterDepth s 2).drc.ch[n] = selfRefresh s.drc.ch[n] := by
      show (hvUpdate _).drc.ch[n] = _
      rw [same_drc (hvUpdate_view _ (by decide))]
      simp
    rw [hdrc]
    unfold selfRefresh
    split
    · exact ⟨rfl, fun _ _ => rfl⟩
    · next hs => exact ⟨rfl, fun hup _ => by simpa [show s.drc.ch[n.1].up = true from hup] using hs⟩
  · have hdrc : (enterDepth s d).drc = s.drc := by
      unfold enterDepth
      dsimp only
      split
      case h_2 => exact absurd rfl h
      all_goals exact same_drc (by simp)
    rw [hdrc]
    exact ⟨rfl, fun _ hs => hs.resolve_left h⟩

theorem enterDepths_refresh (l : List Nat) (s : State) (n : Fin 2) (hup : s.drc.ch[n].up = true)
    (h : 2 ∈ l ∨ s.drc.ch[n].sr = true) : (l.foldl enterDepth s).drc.ch[n].sr = true := by
  induction l generalizing s with
  | nil => exact h.resolve_left List.not_mem_nil
  | cons d l ih =>
    obtain ⟨hkept, hsr⟩ := enterDepth_channel s d n
    refine ih (enterDepth s d) (hkept.trans hup) ?_
    rcases h with h | h
    · rcases List.mem_cons.mp h with h | h
      · exact .inr (hsr hup (.inl h.symm))
      · exact .inl h
    · exact .inr (hsr hup (.inr h))

/-- Settles O35: each row's run writes the mode registers that its lemma names. -/
theorem standbyCompletes : Obligations.StandbyCompletes := by
  intro s
  refine ⟨fun ms w hm hw hp => ?_, fun hm hl hi => ?_, fun hm hw ht hd h4 => ?_⟩
  · refine ⟨_, by
      simp only [exec, execWakeComplete, hw]
      rw [if_neg (by simp [hm, hp])], ?_⟩
    generalize hu : List.foldl _ (recordWake s w ms) _ = u
    have hsys : u.sys = (recordWake s w ms).sys := hu ▸ same_sys (by simp)
    obtain ⟨h, hready⟩ := enterReady_sys (u.modSys fun x => { x with wake := none, depth := 0 })
    rw [hready]
    exact ⟨rfl, rfl, rfl, fun hdepth => (congrArg Sys.wakes2 hsys).trans (recordWake_second s w ms hdepth)⟩
  · obtain ⟨p, hs⟩ := standbyEntry_sys s
    exact ⟨standbyEntry s, congrArg Host.Outcome.next (if_pos (by simp [hm, hl, hi])), by rw [hs], by rw [hs], by rw [hs]⟩
  · refine ⟨_, congrArg Host.Outcome.next (if_pos (by simp [hm, hw, ht, hd])), ?_⟩
    obtain ⟨p, hs⟩ := enterDepths_sys (s.modSys fun x => { x with depthTarget := 0 })
      ([1, 2, 3, 4].filter fun d => decide (s.sys.depth < d) && decide (d ≤ s.sys.depthTarget))
    dsimp only
    rw [same_sys (hvUpdate_view _ (by decide)), same_drc (hvUpdate_view _ (by decide)), hs]
    refine ⟨hm, deeper_last hd h4 _, rfl, fun hl hg n hup => enterDepths_refresh _ _ n hup (.inl ?_)⟩
    simp [hl, hg]

/-! ## What a power loss leaves of the mode registers (R47, R62, R65) -/

/-- Outside BOOT and STANDBY an activation changes no mode. -/
theorem activate_halt {s : State} (h : s.sys.mode = .halt) (slots : List Nat) : (activate s slots).sys = s.sys := by
  unfold activate
  extract_lets named s1 first s2 s3
  have h3 : s3.sys = s.sys := same_sys (by simp [s3, s2, s1])
  rw [if_neg (by simp [h3, h]), if_neg (by simp [h3, h]), h3]

theorem completeOne_halt {s : State} (h : s.sys.mode = .halt) (w : Wait) (idx : Nat) : (completeOne w idx s).sys = s.sys := by
  unfold completeOne
  split
  · rfl
  · split
    · rfl
    · dsimp only
      rw [same_sys (finishParked_view _ _ _ (by decide) (by decide) (by decide) (by decide) (by decide) (by decide))]
      split
      · exact activate_halt h _
      · rfl

theorem completeTicket_halt {s : State} (h : s.sys.mode = .halt) (t idx : Nat) : (completeTicket s t idx).sys = s.sys := by
  have hiter (n : Nat) (u : State) (hu : u.sys = s.sys) : (iter (completeOne (.record t) idx) n u).sys = s.sys := by
    induction n generalizing u with
    | zero => exact hu
    | succ n ih => exact ih _ ((completeOne_halt (by rw [hu, h]) _ _).trans hu)
  unfold completeTicket
  split
  · rfl
  · exact hiter _ s rfl

theorem durable_halt {s : State} (h : s.sys.mode = .halt) (r : Rec) : (durable s r).sys = s.sys := by
  unfold durable
  extract_lets type s1 s2 s3
  have h3 : s3.sys = s.sys := same_sys (by simp only [s3, s2, s1]; (repeat' split) <;> simp)
  rw [completeTicket_halt (by rw [h3, h]), h3]

theorem flushStaged_halt (n : Nat) {s : State} (h : s.sys.mode = .halt) : (flushStaged n s).sys = s.sys := by
  induction n generalizing s with
  | zero => rfl
  | succ n ih =>
    unfold flushStaged
    split
    · rfl
    · next r rest _ =>
      split
      · have hsys : (signSeal s).sys = s.sys := same_sys (by simp)
        rw [ih (by rw [hsys, h]), hsys]
      · have hsys : (flashOps (programRecord s r r.bytes) (recordOps s r)).sys = s.sys := same_sys (by simp)
        have hdur := durable_halt (s := flashOps (programRecord s r r.bytes) (recordOps s r)) (by rw [hsys, h]) r
        dsimp only
        rw [ih (by rw [hdur, hsys, h]), hdur, hsys]

theorem powerLossFlush_halt {s : State} (h : s.sys.mode = .halt) (spoiled : Nat) : (powerLossFlush s spoiled).sys = s.sys := by
  unfold powerLossFlush
  extract_lets held staged s1 s2 s3 s4 s5
  have h2 : s2.sys = s.sys := same_sys (by simp only [s2, s1]; split <;> simp)
  have hseal : (if s2.jnl.sealing then signSeal s2 else s2).sys = s.sys := by
    rw [← h2]
    split
    · exact same_sys (by simp)
    · rfl
  have h3 : s3.sys = s.sys := (flushStaged_halt _ (by rw [hseal, h])).trans hseal
  have h5 : (formSeal s5 (sealRequest 0)).sys = s.sys := by
    rw [← h3]
    exact same_sys (by simp only [s5, s4]; split <;> simp)
  exact (flushStaged_halt _ (by rw [h5, h])).trans h5

theorem haltFromStandby_sys (s : State) : ∃ p, (haltFromStandby s).sys = { s.sys with polygonsStopped := p } := by
  unfold haltFromStandby
  split
  · exact ⟨s.sys.polygonsStopped, rfl⟩
  · extract_lets d fourth left
    refine ⟨0, ?_⟩
    rw [State.modSys_sys, same_sys (s := s) (by simp only [left, fourth]; (repeat' split) <;> simp)]

/-- Steps 1 to 3 of a power loss end in HALT until reset, by their cause unless the device was in HALT (R47, R62). -/
theorem powerStops_sys (s : State) : (powerStops s).sys.mode = .halt ∧ (powerStops s).sys.haltUntilReset = true ∧
    (powerStops s).sys.pwrFail = s.sys.pwrFail ∧
    (s.sys.mode ≠ .halt → (powerStops s).sys.wake = none ∧ (powerStops s).sys.lastCause = 0xFC ∧ (powerStops s).sys.lcSrc = true) := by
  obtain ⟨p, hp⟩ := haltFromStandby_sys s
  unfold powerStops
  extract_lets s1 s2 s3 s4
  have h2 : s2.sys = { s.sys with polygonsStopped := p } := by
    rw [same_sys (s := s1) (by simp [s2]), same_sys (s := haltFromStandby s) (by simp [s1]), hp]
  have hend : (stopEncodes (stopIngest (abandonAll (overAxes s4 disableAxis)))).sys = s4.sys := same_sys (by simp)
  rw [hend, State.modSys_sys]
  simp only [s3]
  split
  · next hm =>
    have hhalt : s.sys.mode = .halt := by simpa [h2] using hm
    rw [h2]
    exact ⟨hhalt, trivial, rfl, fun h => absurd hhalt h⟩
  · rw [enterMode_sys, causeBy, State.modSys_sys, State.modSys_sys, h2]
    exact ⟨rfl, trivial, rfl, fun _ => ⟨rfl, rfl, rfl⟩⟩

/-- A power loss ends so; in a journal in force it sets its latch once stage 4 of the boot has completed (R355, R570). -/
theorem powerLoss_sys (s : State) : (powerLoss s).sys.mode = .halt ∧ (powerLoss s).sys.haltUntilReset = true ∧
    (powerLoss s).sys.pwrFail = true ∧ (5 ≤ s.sys.bootStage → jnlOn s = true → (powerLoss s).sys.pwrLossLatch = true) ∧
    (s.sys.mode ≠ .halt → (powerLoss s).sys.wake = none ∧ (powerLoss s).sys.lastCause = 0xFC ∧ (powerLoss s).sys.lcSrc = true) := by
  have hbegun : ((raise s 0xFC 0).modSys fun x => { x with pwrFail := true }).sys = { s.sys with pwrFail := true } := by
    rw [State.modSys_sys, raise_sys]
  obtain ⟨hmode, hreset, hfail, hcause⟩ := powerStops_sys ((raise s 0xFC 0).modSys fun x => { x with pwrFail := true })
  have hjnl : (powerStops ((raise s 0xFC 0).modSys fun x => { x with pwrFail := true })).jnl = s.jnl := same_jnl (by simp)
  rw [hbegun] at hfail hcause
  unfold powerLoss
  extract_lets stage4 ended spoiled s1 on s2
  rw [show powerStops _ = s1 from rfl] at hmode hreset hfail hcause hjnl
  have hon : on = jnlOn s := by simp [on, jnlOn, hjnl]
  have h2 : s2.sys = s1.sys := by
    simp only [s2]
    split
    · exact powerLossFlush_halt hmode _
    · rfl
  split
  · next hstage => exact ⟨hmode, hreset, hfail, fun h => absurd hstage (by simp [stage4, h]), hcause⟩
  · split
    · rw [State.modSys_sys, h2]
      dsimp only
      exact ⟨hmode, hreset, hfail, fun _ _ => rfl, hcause⟩
    · next hlatch =>
      rw [h2]
      exact ⟨hmode, hreset, hfail, fun _ h => absurd (hon.trans h) (by simp at hlatch; simp [hlatch.1]), hcause⟩

/-! ## Losses of the root clock (R75) -/

/-- The reference, the root lock and the source of the monitor clock, which no entry to HALT touches. -/
def rootClock (c : Clk) : Bool × Bool × Bool := (c.rootLock, c.refOk, c.sclkMonitor)

theorem restartSynths_root (s : State) : rootClock (restartSynths s).clk = rootClock s.clk := by
  unfold restartSynths
  refine List.foldlRecOn (motive := fun (t : State) => rootClock t.clk = rootClock s.clk) _ _ rfl fun t ht k _ => ?_
  split
  · exact ht
  · exact ht

theorem haltFromStandby_root (s : State) : rootClock (haltFromStandby s).clk = rootClock s.clk := by
  unfold haltFromStandby
  split
  · rfl
  · extract_lets d fourth left
    have hfourth : rootClock fourth.clk = rootClock s.clk := by
      simp only [fourth]
      split <;> rfl
    have hleft : left.clk = fourth.clk := by
      simp only [left]
      split <;> rfl
    rw [State.modSys_clk, restartSynths_root, hleft, hfourth]

theorem haltForGood_root (s : State) (src : Nat) : rootClock (haltForGood s src).clk = rootClock s.clk := by
  unfold haltForGood haltEntry haltWith
  split
  · rfl
  · split
    · rfl
    · refine Eq.trans ?_ (haltFromStandby_root (causeBy s src))
      exact congrArg rootClock (same_clk (by simp))

theorem haltForGood_alive (s : State) (src : Nat) : (haltForGood s src).pins.aliveStopped = s.pins.aliveStopped := by
  have hout (u : State) : (haltOutputs u).pins.aliveStopped = u.pins.aliveStopped := by
    unfold haltOutputs
    extract_lets s1 s2 s3 s4 s5
    have h5 : s5.pins = u.pins := same_pins (by simp [s5, s4, s3, s2, s1])
    rw [State.modPins_pins, h5]
  unfold haltForGood haltEntry haltWith
  split
  · rfl
  · split
    · rfl
    · refine Eq.trans ?_ (congrArg Pins.aliveStopped (same_pins (haltFromStandby_view (causeBy s src) (by decide) (by decide)
        (by decide) (by decide))))
      refine Eq.trans ?_ (hout _)
      exact congrArg Pins.aliveStopped (same_pins (by simp))

/-- A loss of the root clock ends in HALT until reset, with ALIVE stopped and the clock as the loss left it. -/
theorem clockLoss_halts {s : State} (hm : s.sys.mode ≠ .reset) (g : Clk → Clk) (src : Nat) :
    let t := haltForGood (raise ((monitorStops s).modClk g) src 0) src
    t.sys.mode = .halt ∧ t.sys.haltUntilReset = true ∧ rootClock t.clk = rootClock (g s.clk) ∧ t.pins.aliveStopped = true := by
  have hsys : (monitorStops s).sys = s.sys := same_sys (by simp)
  have hclk : (monitorStops s).clk = s.clk := same_clk (by simp)
  obtain ⟨hmode, hreset⟩ := haltForGood_sys (s := raise ((monitorStops s).modClk g) src 0) (by simpa [hsys] using hm) src
  refine ⟨hmode, hreset, ?_, ?_⟩
  · rw [haltForGood_root, raise_clk, State.modClk_clk, hclk]
  · rw [haltForGood_alive, same_pins (s := monitorStops s) (by simp)]
    rfl

/-- Settles O36: the cases of `powerLoss_sys` and of `clockLoss_halts`. -/
theorem lossCompletes : Obligations.LossCompletes := by
  intro s hm
  refine ⟨fun h => ⟨powerLoss s, ?_, powerLoss_sys s⟩, fun h => ?_, fun he hr => ?_, fun hl => ?_⟩
  · exact congrArg Host.Outcome.next ((whenUp_eq _ hm).trans (if_neg (by simp [h])))
  · exact congrArg Host.Outcome.next ((whenUp_eq _ hm).trans (if_pos h))
  · obtain ⟨hmode, hreset, hroot, halive⟩ := clockLoss_halts hm
      (fun c => { c with rootLock := false, refOk := false, sclkRoot := false, sclkMonitor := true }) 0xF8
    simp only [rootClock, Prod.mk.injEq] at hroot
    obtain ⟨hlock, href, hmon⟩ := hroot
    have hrun : refLoss s = _ := (if_neg (by simp [hr])).trans (if_neg (by simp [he]))
    exact ⟨_, congrArg Host.Outcome.next ((whenUp_eq _ hm).trans hrun), hmode, hreset, hlock, href, hmon, halive⟩
  · obtain ⟨hmode, hreset, hroot, halive⟩ := clockLoss_halts hm (fun c => { c with rootLock := false, sclkRoot := false }) 0xF9
    simp only [rootClock, Prod.mk.injEq] at hroot
    obtain ⟨hlock, href, -⟩ := hroot
    have hrun : rootUnlock s = _ := if_neg (by simp [hl])
    exact ⟨_, congrArg Host.Outcome.next ((whenUp_eq _ hm).trans hrun), hmode, hreset, hlock, href, halive⟩

end Sys2Proof.Machine
end

section
/-!
Proofs of the statements about the recipe opcodes (O12) and about the job opcodes (O13).
-/

namespace Sys2Proof.Machine
open Sys2Proof Sys2Proof.Safety

/-! ## What the arrival of a packet leaves of recipes and sheets -/

@[simp] theorem storeSlot_begun (s : State) (c : Cmd) (k : Nat) : storeSlot (begun s c) k = storeSlot s k :=
  begun_same (storeSlot · k) s c fun _ _ _ _ => rfl

@[simp] theorem jobOf_begun (s : State) (c : Cmd) (id : Word) : jobOf (begun s c) id = jobOf s id :=
  begun_same (jobOf · id) s c fun _ _ _ _ => rfl

@[simp] theorem journalMandatory_begun (s : State) (c : Cmd) : journalMandatory (begun s c) = journalMandatory s :=
  begun_same _ s c fun _ _ _ _ => rfl

@[simp] theorem keyComplete_begun (s : State) (c : Cmd) : keyComplete (begun s c) = keyComplete s :=
  begun_same _ s c fun _ _ _ _ => rfl

@[simp] theorem sheets_begun (s : State) (c : Cmd) : sheets (begun s c) = sheets s :=
  begun_same _ s c fun _ _ _ _ => rfl

@[simp] theorem findSheet_begun (s : State) (c : Cmd) (job : Word) (handle : BitVec 16) :
    findSheet (begun s c) job handle = findSheet s job handle :=
  begun_same (findSheet · job handle) s c fun _ _ _ _ => rfl

/-! ## Recipes in the store (R184) -/

/-- Whether a slot holds the recipe that QUERY_RECIPE asks for. -/
def slotAsked (c : Cmd) (s : State) (k : Nat) : Bool :=
  match storeSlot s k with
  | some r => r.kind == Cmd.p16 c 16 && r.inst == Cmd.p16 c 18 && r.active == (Cmd.p8 c 20 == 0)
  | none => false

theorem storeSlot_lt {s : State} {k : Nat} {r : Recipe} (h : storeSlot s k = some r) : k < 32 := by
  by_contra hk
  simp [storeSlot, getN, hk] at h

theorem queryRecipeRun_eq {c : Cmd} {s : State} (hp : Cmd.p8 c 20 ≤ 1) : queryRecipeRun c s =
    match (List.range 32).find? (slotAsked c s) with
    | some k => match storeSlot s k with
      | some r => .reply s
          (okWords k r.version (u32 (hashBytes r.hash) 0) (u32 (hashBytes r.hash) 4) (u32 (hashBytes r.hash) 8))
      | none => .reply s (okWords 0xFFFFFFFF)
    | none => .reply s (okWords 0xFFFFFFFF) := if_neg (Nat.not_lt.mpr hp)

theorem queryRecipeRun_found {c : Cmd} {s : State} {k : Nat} {r : Recipe} (hp : Cmd.p8 c 20 ≤ 1)
    (hk : storeSlot s k = some r) (hasked : slotAsked c s k = true) (hlow : ∀ j < k, slotAsked c s j = false) :
    queryRecipeRun c s = .reply s
      (okWords k r.version (u32 (hashBytes r.hash) 0) (u32 (hashBytes r.hash) 4) (u32 (hashBytes r.hash) 8)) := by
  have hfind : (List.range 32).find? (slotAsked c s) = some k :=
    List.find?_range_eq_some.mpr ⟨hasked, List.mem_range.mpr (storeSlot_lt hk), fun j hj => by simp [hlow j hj]⟩
  rw [queryRecipeRun_eq hp, hfind]
  simp only [hk]

theorem queryRecipeRun_none {c : Cmd} {s : State} (hp : Cmd.p8 c 20 ≤ 1) (hno : ∀ j, slotAsked c s j = false) :
    queryRecipeRun c s = .reply s (okWords 0xFFFFFFFF) := by
  have hfind : (List.range 32).find? (slotAsked c s) = none :=
    List.find?_range_eq_none.mpr fun j _ => by simp [hno j]
  rw [queryRecipeRun_eq hp, hfind]

/-! ## ACTIVATE_RECIPES (R185) -/

/-- A record that is formed at once takes the next ticket. -/
theorem requestRecord_tickets {s : State} (h : RecordRoom 1 s) (hj : jnlOn s = true) {u : Unformed} (hu : u.type ≠ 0x04) :
    (requestRecord s u).jnl.tickets = s.jnl.tickets + 1 := by
  obtain hoff | ⟨hp, hroom, hseal⟩ := h
  · rw [hj] at hoff
    cases hoff
  · cases hs : s.jnl.sealing with
    | true =>
      obtain ⟨w, v, ht⟩ := requestRecord_held hj hp hs (by omega) u
      rw [ht]
    | false =>
      obtain ⟨hw, -⟩ := hseal.resolve_left (by simp [hs])
      obtain ⟨n, t, r, v, c, hreq, ht⟩ := requestRecord_formed hj hp hs hw (by omega) hu
      have htickets : t.jnl.tickets = s.jnl.tickets + 1 := by rw [ht]
      rw [hreq, ← htickets]
      by_cases hlast : s.jnl.unsealed + 1 = 256
      · exact (formReady_seal (by rw [ht]; exact if_pos hlast) n).1
      · rw [formReady_idle (by rw [ht]; exact if_neg hlast)]

/-- What a group of records leaves: the last one stands formed, under a ticket of its own. -/
structure RecordsFormed (s t : State) : Prop where
  formed : lastFormed t
  tickets : jnlOn s = true → s.jnl.tickets < t.jnl.tickets
  on : jnlOn t = jnlOn s
  audit : t.led.audit = s.led.audit

theorem requestRecord_recorded {s : State} (h : RecordRoom 1 s) {u : Unformed} (hu : u.type ≠ 0x04) :
    RecordsFormed s (requestRecord s u) :=
  ⟨requestRecord_lastFormed h hu, fun hj => by rw [requestRecord_tickets h hj hu]; exact Nat.lt_succ_self _,
    jnlOn_requestRecord s u, requestRecord_audit s u⟩

/-- Records asked for one after the other, with room for them all, stand formed. -/
theorem foldl_recorded {α : Type} {f : State → α → State} {ok : State → α → Prop}
    (hok : ∀ s x y, ok s x → ok (f s y) x)
    (hf : ∀ s x, ok s x → ∃ u : Unformed, u.type ≠ 0x04 ∧ f s x = requestRecord s u) (x : α) (l : List α) (s : State)
    (h : RecordRoom (l.length + 1) s) (hl : ∀ y ∈ x :: l, ok s y) : RecordsFormed s ((x :: l).foldl f s) := by
  induction l generalizing x s with
  | nil =>
    obtain ⟨u, hu, hx⟩ := hf s x (hl x List.mem_cons_self)
    rw [List.foldl_cons, List.foldl_nil, hx]
    exact requestRecord_recorded h hu
  | cons y l ih =>
    obtain ⟨u, hu, hx⟩ := hf s x (hl x List.mem_cons_self)
    have hroom : RecordRoom (l.length + 1) (f s x) := hx ▸ requestRecord_room h hu
    have hrest := ih y (f s x) hroom fun z hz => hok s z x (hl z (List.mem_cons_of_mem _ hz))
    have hone : jnlOn s = true → (f s x).jnl.tickets = s.jnl.tickets + 1 := fun hj => by
      rw [hx, requestRecord_tickets _ hj hu]
      rcases h with h | ⟨hp, hr, hs⟩
      · exact .inl h
      · exact .inr ⟨hp, by simp only [List.length_cons] at hr; omega, hs.imp id fun hs => ⟨hs.1, by omega⟩⟩
    have hon : jnlOn (f s x) = jnlOn s := by rw [hx, jnlOn_requestRecord]
    rw [List.foldl_cons]
    refine ⟨hrest.formed, fun hj => ?_, hrest.on.trans hon, hrest.audit.trans (by rw [hx, requestRecord_audit])⟩
    have := hrest.tickets (hon.trans hj)
    have := hone hj
    omega

theorem recordRecipes_recorded {s : State} {slots : List Nat} (hne : slots ≠ []) (h : RecordRoom slots.length s)
    (hslots : ∀ k ∈ slots, (storeSlot s k).isSome = true) : RecordsFormed s (recordRecipes s slots) := by
  unfold recordRecipes
  generalize hrec : (fun (t : State) (x : Nat × Nat) => _) = f
  have hstore (t : State) (x : Nat × Nat) (k : Nat) : storeSlot (f t x) k = storeSlot t k := by
    rw [← hrec]
    dsimp only
    split
    · obtain ⟨i, hi⟩ := requestRecord_led t _
      rw [journal, storeSlot, hi, storeSlot]
    · rfl
  obtain ⟨k, rest, rfl⟩ := List.exists_cons_of_ne_nil hne
  rw [List.zipIdx_cons]
  refine foldl_recorded (ok := fun t x => (storeSlot t x.1).isSome = true) (fun t x y hx => by rwa [hstore])
    (fun t x hx => ?_) _ _ s (by simpa using h) fun y hy => hslots _ ?_
  · obtain ⟨r, hr⟩ := Option.isSome_iff_exists.mp hx
    rw [← hrec]
    simp only [hr]
    exact ⟨_, (by decide : 0x08 ≠ 0x04), rfl⟩
  · rw [← List.zipIdx_cons] at hy
    exact (List.mem_zipIdx' hy).2 ▸ List.getElem_mem _

/-- The slots of a good activation hold recipes. -/
theorem badSlot_none {s : State} {slots : List Nat} (h : badSlot s slots = none) {k : Nat} (hk : k ∈ slots) :
    (storeSlot s k).isSome = true := by
  obtain ⟨i, hi, rfl⟩ := List.getElem_of_mem hk
  have hgood := List.find?_range_eq_none.mp h i hi
  rw [List.getD_eq_getElem _ _ hi] at hgood
  cases hslot : storeSlot s slots[i] with
  | none => simp [hslot] at hgood
  | some r => rfl

theorem journaled_recorded {s t : State} (h : RecordsFormed s t) (r : Res) : journaled s t r =
    if jnlOn s && s.led.audit then .park t (.record t.jnl.tickets) (some r) else .reply t r := by
  unfold journaled
  cases hj : jnlOn s with
  | false => rw [if_pos (by simp [h.on, hj])]; rfl
  | true =>
    have hformed : ticketFormed t t.jnl.tickets = true := h.formed.resolve_left (by simp [h.on, hj])
    rw [if_neg (by simp [h.on, hj, h.tickets hj]), if_neg (by simp [hformed])]
    simp [audited, h.audit]

theorem activateRun_good {c : Cmd} {s : State} (h1 : 1 ≤ Cmd.p8 c 16) (h16 : Cmd.p8 c 16 ≤ 16)
    (hff : ∀ k, k < 16 → Cmd.p8 c 16 ≤ k → Cmd.p8 c (17 + k) = 0xFF) (hbad : badSlot s (activateSlots c) = none)
    (hfail : failedRecipe s ((activateSlots c).filterMap (storeSlot s)) = none)
    (hidle : (((activateSlots c).filterMap (storeSlot s)).any (fun r => r.kind != 0x0060) && !idleOk s) = false)
    (hjnl : journalRefusal s false = none) : activateRun c s =
      match journaled s (recordRecipes s (activateSlots c)) (okWords (Cmd.p8 c 16)) with
      | .park t w r => .park t w r
      | .reply t r => .reply (activate t (activateSlots c)) { r with w1 := bit (requiredSet (activate t (activateSlots c))) } := by
  have hfind : ((List.range 16).find? fun k => decide (Cmd.p8 c 16 ≤ k) && Cmd.p8 c (17 + k) != 0xFF) = none :=
    List.find?_range_eq_none.mpr fun k hk => by
      by_cases hn : Cmd.p8 c 16 ≤ k
      · simp [hff k hk hn]
      · simp [hn]
  unfold activateRun
  simp only
  rw [if_neg (by simp; omega)]
  simp only [hfind, hbad, hfail, hidle, hjnl]
  rfl

/-- Settles O12: each opcode's run on what its hypotheses let pass; the records of an activation stand formed. -/
theorem recipeOpcodesComplete : Obligations.RecipeOpcodesComplete := by
  intro c s
  refine ⟨fun h himg => ?_, fun h k r hp hk hkind hinst hact hlow => ?_, fun h hp hno => ?_,
    fun h h1 h16 hff hbad hfail hidle hjnl hroom => ⟨_, rfl, ?_⟩⟩
  · have hrun : loadRecipeRun c (begun s c) = .park (begun s c) .hardware none := by simp [loadRecipeRun, himg]
    exact congrArg Host.Outcome.next (direct_park h hrun)
  · refine congrArg Host.Outcome.next (direct_reply h (queryRecipeRun_found hp (by simpa using hk) ?_ fun j hj => ?_))
    · simp [slotAsked, hk, hkind, hinst, hact]
    · cases hq : storeSlot s j with
      | none => simp [slotAsked, hq]
      | some q => simpa [slotAsked, hq] using hlow j q hj hq
  · refine congrArg Host.Outcome.next (direct_reply h (queryRecipeRun_none hp fun j => ?_))
    cases hq : storeSlot s j with
    | none => simp [slotAsked, hq]
    | some q => simpa [slotAsked, hq] using hno j q hq
  · have hlen : (activateSlots c).length = Cmd.p8 c 16 := by simp [activateSlots, h16]
    have hrec : RecordsFormed (begun s c) (recordRecipes (begun s c) (activateSlots c)) :=
      recordRecipes_recorded (fun hnil => by simp [hnil] at hlen; omega) (hlen ▸ recordRoom_begun hroom c)
        fun k hk => badSlot_none hbad hk
    have hrun := activateRun_good h1 h16 hff hbad hfail hidle hjnl
    rw [journaled_recorded hrec] at hrun
    have hon : (jnlOn (begun s c) && (begun s c).led.audit) = (jnlOn s && s.led.audit) := by simp [jnlOn]
    rw [hon] at hrun
    refine congrArg Host.Outcome.next ?_
    split
    · next hw =>
      rw [if_pos hw] at hrun
      exact direct_park h hrun
    · next hw =>
      rw [if_neg hw] at hrun
      exact direct_reply h hrun

/-! ## Jobs (R189, R191) -/

/-- A job record that is formed keeps the list of jobs. -/
theorem jobRecord_journaled {s : State} (h : RecordRoom 1 s) (before : State) (close : Bool) (j : Job) (r : Res) :
    (journaled before (jobRecord s close j) r).state.led.jobs = s.led.jobs ∧
      (journaled before (jobRecord s close j) r).state.led.audit = s.led.audit := by
  rw [journaled_lastFormed (s := jobRecord s close j) (journal_lastFormed h (by decide) ..)]
  exact ⟨requestRecord_jobs .., requestRecord_audit ..⟩

theorem openJobRun_good {c : Cmd} {s : State} (hid : Cmd.p32 c 16 ≠ 0)
    (hjob : jobOf s (BitVec.ofNat 32 (Cmd.p32 c 16)) = none) (hkind : Cmd.p8 c 20 ≤ 1)
    (hmand : Cmd.p8 c 20 = 0 → journalMandatory s = false) (hkey : Cmd.p8 c 20 = 1 → keyComplete s = true)
    (hsame : ∀ j ∈ s.led.jobs, j.audit = (Cmd.p8 c 20 == 1)) (hlen : s.led.jobs.length < 4)
    (hjnl : journalRefusal s false = none) (hroom : RecordRoom 1 s) :
    (openJobRun c s).state.led.jobs =
        s.led.jobs ++ [⟨BitVec.ofNat 32 (Cmd.p32 c 16), Cmd.p8 c 20 == 1, 0, 0, 0, 0, false⟩] ∧
      (openJobRun c s).state.led.audit = (Cmd.p8 c 20 == 1) := by
  have hid' : BitVec.ofNat 32 (Cmd.p32 c 16) ≠ 0#32 := fun h => hid (by
    have hlt : Cmd.p32 c 16 < 2 ^ 32 := leAt_lt _ _ 4
    have := congrArg BitVec.toNat h
    rwa [BitVec.toNat_ofNat, Nat.mod_eq_of_lt hlt] at this)
  have haudit : (s.led.jobs.any fun j => j.audit != (Cmd.p8 c 20 == 1)) = false := by
    simpa using fun j hj => hsame j hj
  have hmand' : (!(Cmd.p8 c 20 == 1) && journalMandatory s) = false := by
    obtain h | h : Cmd.p8 c 20 = 0 ∨ Cmd.p8 c 20 = 1 := by omega
    · simp [hmand h]
    · simp [h]
  have hkey' : ((Cmd.p8 c 20 == 1) && !keyComplete s) = false := by
    by_cases h : Cmd.p8 c 20 = 1
    · simp [hkey h]
    · simp [h]
  unfold openJobRun
  simp only
  rw [if_neg (by simp [hid', hjob]), if_neg (Nat.not_lt.mpr hkind), if_neg (by simp [hmand']), if_neg (by simp [hkey']),
    if_neg (by simp [haudit]), if_neg (Nat.not_le.mpr hlen)]
  simp only [hjnl]
  exact jobRecord_journaled (s := s.modLed _) hroom s _ _ _

theorem closeJobRun_good {c : Cmd} {s : State} (hjob : (jobOf s (BitVec.ofNat 32 (Cmd.p32 c 16))).isSome = true)
    (hsheets : (sheets s).any (fun x => x.2.job == BitVec.ofNat 32 (Cmd.p32 c 16)) = false)
    (hjnl : journalRefusal s true = none) (hroom : RecordRoom 1 s) :
    (closeJobRun c s).state.led.jobs = s.led.jobs.filter (fun j => j.id != BitVec.ofNat 32 (Cmd.p32 c 16)) ∧
      (closeJobRun c s).state.led.audit =
        (s.led.jobs.filter fun j => j.id != BitVec.ofNat 32 (Cmd.p32 c 16)).any (·.audit) := by
  obtain ⟨j, hj⟩ := Option.isSome_iff_exists.mp hjob
  unfold closeJobRun
  simp only [hj]
  rw [if_neg (by simp [hsheets])]
  simp only [hjnl]
  exact jobRecord_journaled (s := s.modLed _) hroom s _ _ _

/-! ## EVICT_LEAVES (R231) -/

theorem takeEncodeLane_leaves (s : State) (d : Ingest) : (takeEncodeLane s d).cad.leaves = s.cad.leaves := by
  unfold takeEncodeLane
  split
  · rw [completeIngest_cad]
  · split
    · rfl
    · have hreq : ((dramRequest s).modEnc ‹_› fun l => l.taken .ingest).cad = s.cad := same_cad (by simp)
      dsimp only
      split
      · split
        · rw [State.modFlt_cad, State.modCad_cad, hreq]
        · rw [State.modCad_cad, hreq]
      · rw [State.modCad_cad, hreq]

theorem encodeWaiting_leaves (s : State) : (encodeWaiting s).cad.leaves = s.cad.leaves := by
  unfold encodeWaiting
  refine List.foldlRecOn (motive := fun (t : State) => t.cad.leaves = s.cad.leaves) _ _ rfl fun t ht d _ => ?_
  split
  · split
    · exact (takeEncodeLane_leaves t d).trans ht
    · exact ht
  · exact ht

/-- Of the Leaves a free takes those that no attempt reads; the others are doomed. -/
theorem freeLeaves_doomed {s : State} {p : Leaf → Bool} {l : Leaf}
    (hl : l ∈ (freeLeaves s p).cad.leaves) (hnamed : p l = true) : l.doomed = true := by
  simp only [freeLeaves, State.modCad_cad, List.mem_map, List.mem_filter] at hl
  obtain ⟨k, -, rfl⟩ := hl
  split at hnamed
  · next h => rw [if_pos h]
  · next h => exact absurd hnamed h

theorem evictLeavesRun_good {c : Cmd} {s : State} {i : Fin 512} {e : Sheet}
    (hfind : findSheet s (BitVec.ofNat 32 (Cmd.p32 c 16)) (BitVec.ofNat 16 (Cmd.p16 c 20)) = some (i, e))
    (hopen : e.open = false) (hfirst : Cmd.p16 c 24 ≤ 2047) (hcount : Cmd.p16 c 24 + Cmd.p16 c 26 ≤ 2048) :
    ∃ t r, evictLeavesRun c s = .reply t r ∧ r.status = .ok ∧
      r.w0 = (s.cad.leaves.filter fun l => l.job == BitVec.ofNat 32 (Cmd.p32 c 16) && evictKey c l.key).length ∧
      ∀ l ∈ t.cad.leaves, l.job = BitVec.ofNat 32 (Cmd.p32 c 16) → evictKey c l.key = true → l.doomed = true := by
  unfold evictLeavesRun
  simp only [hfind]
  rw [if_neg (by simp; omega), if_neg (by simp [hopen])]
  refine ⟨_, _, rfl, rfl, rfl, fun l hl hjob hkey => ?_⟩
  rw [encodeWaiting_leaves] at hl
  refine freeLeaves_doomed (s := s) (p := fun l => l.job == BitVec.ofNat 32 (Cmd.p32 c 16) && evictKey c l.key)
    ?_ (by simp [hjob, hkey])
  refine (congrArg (l ∈ ·) ?_).mp hl
  refine List.foldlRecOn (motive := fun (t : State) => t.cad.leaves = _) _ _ rfl fun t ht d _ => ?_
  rw [completeIngest_cad]
  exact ht

/-- Settles O13: each opcode's run on what its hypotheses let pass. -/
theorem jobOpcodesComplete : Obligations.JobOpcodesComplete := by
  intro c s
  refine ⟨fun h hid hjob hkind hmand hkey hsame hlen hjnl hroom => ⟨_, congrArg Host.Outcome.next (direct_finished h), ?_⟩,
    fun h hjob hsheets hjnl hroom => ⟨_, congrArg Host.Outcome.next (direct_finished h), ?_⟩,
    fun h i e hfind hopen hfirst hcount => ?_, fun h => ⟨fun i e hfind => ?_, fun hfind hhist => ?_⟩⟩
  · rw [finished_led]
    have hrun : openJobSpec.run c (begun s c) = openJobRun c (begun s c) := rfl
    rw [hrun]
    simpa using openJobRun_good (s := begun s c) hid (by simpa using hjob) hkind (by simpa using hmand) (by simpa using hkey)
      (by simpa using hsame) (by simpa using hlen) hjnl (recordRoom_begun hroom c)
  · obtain ⟨hjobs, haudit⟩ := closeJobRun_good (s := begun s c) (by simpa using hjob) (by simpa using hsheets) hjnl
      (recordRoom_begun hroom c)
    have hrun : closeJobSpec.run c (begun s c) = closeJobRun c (begun s c) := rfl
    rw [finished_led, hrun, haudit, hjobs, begun_led]
    exact ⟨rfl, rfl⟩
  · have hrun := evictLeavesRun_good (s := begun s c) (by simpa using hfind) hopen hfirst hcount
    obtain ⟨t, r, hrun, hok, hw0, hdoom⟩ := hrun
    have hspec : evictLeavesSpec.run c (begun s c) = .reply t r := by
      simp only [evictLeavesSpec]
      exact hrun
    exact ⟨t, r, congrArg Host.Outcome.next (direct_reply h hspec), hok, by rw [hw0, begun_cad], hdoom⟩
  · refine congrArg Host.Outcome.next (direct_reply h ?_)
    show querySheetRun c (begun s c) = _
    simp [querySheetRun, hfind]
  · refine congrArg Host.Outcome.next (direct_reply h ?_)
    have hnone : (s.led.history.find? fun p => p.job == BitVec.ofNat 32 (Cmd.p32 c 16) &&
        p.handle == BitVec.ofNat 16 (Cmd.p16 c 20)) = none :=
      List.find?_eq_none.mpr fun p hp => by simpa using hhist p hp
    show querySheetRun c (begun s c) = _
    simp [querySheetRun, hfind, hnone, okWords]

end Sys2Proof.Machine
end

section
/-!
Proofs of the statements about the axis opcodes (O15) and about the motor opcodes (O16).
-/

namespace Sys2Proof.Machine
open Sys2Proof Sys2Proof.Safety

/-! ## What the arrival of a packet leaves of axes and motors -/

@[simp] theorem axisOf_begun (s : State) (c : Cmd) (a : Fin 16) : axisOf (begun s c) a = axisOf s a :=
  begun_same (axisOf · a) s c fun _ _ _ _ => rfl

@[simp] theorem stallComes_begun (s : State) (c : Cmd) (a : Fin 16) : stallComes (begun s c) a = stallComes s a :=
  begun_same (stallComes · a) s c fun _ _ _ _ => rfl

@[simp] theorem motorOf_begun (s : State) (c : Cmd) (m : Fin 10) : motorOf (begun s c) m = motorOf s m :=
  begun_same (motorOf · m) s c fun _ _ _ _ => rfl

@[simp] theorem underSpdcmd_begun (s : State) (c : Cmd) (m : Fin 10) : underSpdcmd (begun s c) m = underSpdcmd s m :=
  begun_same (underSpdcmd · m) s c fun _ _ _ _ => rfl

@[simp] theorem noRegen_begun (s : State) (c : Cmd) : noRegen (begun s c) = noRegen s :=
  begun_same _ s c fun _ _ _ _ => rfl

@[simp] theorem softComes_begun (s : State) (c : Cmd) : softComes (begun s c) = softComes s :=
  begun_same _ s c fun _ _ _ _ => rfl

/-! ## Axes (R417..R420) -/

@[simp] theorem raise_axs (s : State) (src detail : Nat) : (raise s src detail).axs = s.axs := same_axs (by simp)

/-- An end event writes the identifier of the move that ended. -/
theorem axisEnded_axs (s : State) (a : Fin 16) (cause : Nat) :
    (axisEnded s a cause).axs = updF s.axs a fun x => { x with endedId := s.axs[a].moveId } := by
  rw [axisEnded, raise_axs]
  rfl

/-- Method 3 sets the position and homes at once. -/
theorem startHome_three {s : State} {a : Fin 16} {k : Nat} (h : homeMethod (axHomeSeq (axisOf s a) k) = 3) :
    (startHome s a k).axs = updF (updF (updF s.axs a fun x =>
        { x with moveId := x.moveId + 1, stalled := false, stallRun := 0, thenDisable := false }) a fun x =>
      { x with pos := homePos (axHomeSeq (axisOf s a) k), frac := 0, target := homePos (axHomeSeq (axisOf s a) k), homed := true
               idleI := false, state := .idle, move := none }) a fun x => { x with endedId := s.axs[a].moveId + 1 } := by
  unfold startHome
  rw [if_pos h, axisEnded_axs, State.modAxis_axs, updF_get_same, State.modAxis_axs, updF_get_same]

/-- Every other method starts to move, and clears HOMED. -/
theorem startHome_moves {s : State} {a : Fin 16} {k : Nat} (h : homeMethod (axHomeSeq (axisOf s a) k) ≠ 3) :
    ∃ p, (startHome s a k).axs = updF (updF s.axs a fun x =>
        { x with moveId := x.moveId + 1, stalled := false, stallRun := 0, thenDisable := false }) a fun x =>
      { x with state := .homing, move := none, homed := false, idleI := false, homing := some p } := by
  unfold startHome
  rw [if_neg h]
  exact ⟨_, rfl⟩

/-- A homing takes the next identifier, and leaves the other axes. -/
theorem startHome_axis (s : State) (a : Fin 16) (k : Nat) :
    (startHome s a k).axs[a].moveId = s.axs[a].moveId + 1 ∧
    (homeMethod (axHomeSeq (axisOf s a) k) = 3 → (startHome s a k).axs[a].state = .idle ∧ (startHome s a k).axs[a].homed = true ∧
      (startHome s a k).axs[a].pos = homePos (axHomeSeq (axisOf s a) k)) ∧
    (homeMethod (axHomeSeq (axisOf s a) k) ≠ 3 →
      (startHome s a k).axs[a].state = .homing ∧ (startHome s a k).axs[a].homed = false) ∧
    ∀ b, b ≠ a → (startHome s a k).axs[b] = s.axs[b] := by
  by_cases h : homeMethod (axHomeSeq (axisOf s a) k) = 3
  · rw [startHome_three h]
    simp only [updF_get_same]
    exact ⟨trivial, fun _ => ⟨trivial, trivial, trivial⟩, fun hne => absurd h hne, fun b hb => by
      rw [updF_get_other _ _ _ _ hb, updF_get_other _ _ _ _ hb, updF_get_other _ _ _ _ hb]⟩
  · obtain ⟨p, hp⟩ := startHome_moves h
    rw [hp]
    simp only [updF_get_same]
    exact ⟨trivial, fun heq => absurd heq h, fun _ => ⟨trivial, trivial⟩, fun b hb => by
      rw [updF_get_other _ _ _ _ hb, updF_get_other _ _ _ _ hb]⟩

/-- With no motion of its own an axis has no target to reach. -/
theorem reachedFirst_idle {s : State} {a : Fin 16} (h : s.axs[a].state = .idle) : reachedFirst s a = s := by
  unfold reachedFirst
  split
  · have h' : s.axs[a.1].state = .idle := h
    simp [targetReached, h']
  · rfl

theorem reachedFirst_moving {s : State} {a : Fin 16} (h : s.axs[a].state = .moving)
    (hno : coming s (· == .axisTargetReached a) = false) : reachedFirst s a = s := by
  have h' : s.axs[a.1].state = .moving := h
  unfold reachedFirst
  refine if_neg ?_
  simp only [coming, List.any_eq_true, List.any_eq_false] at hno ⊢
  rintro ⟨i, hi, hb⟩
  split at hb
  · next b => exact hno _ hi (by simpa [h'] using hb)
  · cases hb

/-- A moving axis whose target is reached is idle, or moves on. -/
theorem reachedFirst_state {s : State} {a : Fin 16} (h : s.axs[a].state = .moving) :
    (reachedFirst s a).axs[a].state = .idle ∨ (reachedFirst s a).axs[a].state = .moving := by
  have harrived (t : State) (g : Axis → Axis) (hg : ∀ x, (g x).state = .idle) (cause : Nat) :
      (axisEnded (t.modAxis a g) a cause).axs[a].state = .idle := by
    rw [axisEnded_axs, updF_get_same, State.modAxis_axs, updF_get_same]
    exact hg _
  unfold reachedFirst
  split
  · unfold targetReached
    dsimp only
    split
    · split
      · exact .inr h
      · split
        · split
          · exact .inl (harrived _ _ (fun _ => rfl) _)
          · exact .inr h
        · exact .inl (harrived _ _ (fun _ => rfl) _)
    · next hg =>
      rw [h] at hg
      cases hg
    · exact .inr h
  · exact .inr h

/-- A stop at once leaves an axis that is neither disabled nor fenced at rest. -/
theorem stopGroup_rests {s : State} {a : Fin 16} (h : s.axs[a].state = .idle ∨ s.axs[a].state = .moving) :
    (stopGroup s a).axs[a].state = .idle ∧ (stopGroup s a).axs[a].vel = 0 := by
  unfold stopGroup
  rw [if_neg (by rcases h with h | h <;> rw [h] <;> decide), stopAxisAtOnce,
    if_neg (by rcases h with h | h <;> rw [h] <;> decide), State.modAxis_axs, updF_get_same]
  exact ⟨rfl, rfl⟩

/-! ## Groups (R420) -/

/-- Axes that are written one after the other: one that is named once has what its own write gives it, and one that is not
named stays. -/
theorem foldl_modAxis (g : Nat × Nat → Axis → Axis) (l : List (Nat × Nat)) (s : State) (a : Fin 16) :
    ((∀ x ∈ l, Fin.ofNat 16 x.1 ≠ a) → (l.foldl (fun t x => t.modAxis (Fin.ofNat 16 x.1) (g x)) s).axs[a] = s.axs[a]) ∧
    ((l.map fun x => Fin.ofNat 16 x.1).Nodup → ∀ x ∈ l, Fin.ofNat 16 x.1 = a →
      (l.foldl (fun t x => t.modAxis (Fin.ofNat 16 x.1) (g x)) s).axs[a] = g x s.axs[a]) := by
  induction l generalizing s with
  | nil => exact ⟨fun _ => rfl, fun _ x hx => absurd hx List.not_mem_nil⟩
  | cons y l ih =>
    obtain ⟨hout, hin⟩ := ih (s.modAxis (Fin.ofNat 16 y.1) (g y))
    simp only [List.foldl_cons]
    refine ⟨fun h => ?_, fun hnd x hx hxa => ?_⟩
    · rw [hout fun x hx => h x (List.mem_cons_of_mem _ hx), State.modAxis_axs,
        updF_get_other _ _ _ _ (h y List.mem_cons_self).symm]
    · obtain ⟨hy, hnd⟩ := List.nodup_cons.mp hnd
      rcases List.mem_cons.mp hx with rfl | hx
      · rw [hout fun z hz hza => hy (List.mem_map.mpr ⟨z, hz, hza.trans hxa.symm⟩), State.modAxis_axs, ← hxa, updF_get_same]
      · have hne : a ≠ Fin.ofNat 16 y.1 := fun he => hy (List.mem_map.mpr ⟨x, hx, hxa.trans he⟩)
        rw [hin hnd x hx hxa, State.modAxis_axs, updF_get_other _ _ _ _ hne]

/-- The members of a group that R420 admits, each with its place: they are distinct axes. -/
theorem groupAxes_distinct {c : Cmd} (hnd : (groupAxes c).Nodup) (hlt : ∀ k ∈ groupAxes c, k < 16) :
    ((groupAxes c).zipIdx.map fun x => Fin.ofNat 16 x.1).Nodup := by
  have hmap : ((groupAxes c).zipIdx.map fun x => Fin.ofNat 16 x.1) = (groupAxes c).map (Fin.ofNat 16) := by
    rw [← List.zipIdx_map_fst 0 (groupAxes c), List.map_map]
    simp
  rw [hmap]
  refine List.Nodup.map_on (fun x hx y hy hxy => ?_) hnd
  have := congrArg Fin.val hxy
  simpa [Nat.mod_eq_of_lt (hlt x hx), Nat.mod_eq_of_lt (hlt y hy)] using this

theorem groupAxes_place {c : Cmd} {x : Nat × Nat} (hx : x ∈ (groupAxes c).zipIdx) :
    x.2 < Cmd.p8 c 17 ∧ x.1 = Cmd.p8 c (18 + x.2) := by
  obtain ⟨hlt, heq⟩ := List.mem_zipIdx' hx
  simp only [groupAxes, List.length_map, List.length_range] at hlt
  exact ⟨hlt, by simpa [groupAxes] using heq⟩

theorem groupAxes_mem {c : Cmd} {k : Nat} (hk : k < Cmd.p8 c 17) : (Cmd.p8 c (18 + k), k) ∈ (groupAxes c).zipIdx := by
  rw [List.mem_zipIdx_iff_getElem?]
  simp [groupAxes, hk]

/-- No member of the group has a property that every member lacks. -/
theorem groupFind_none {s : State} {c : Cmd} {p : Axis → List Byte → Nat → Bool}
    (h : ∀ k, k < Cmd.p8 c 17 → ∃ a : Fin 16, a.1 = Cmd.p8 c (18 + k) ∧ p s.axs[a] (axisOf s a) k = false) :
    groupFind s c p = none := by
  refine List.findIdx?_eq_none_iff.mpr fun x hx => ?_
  obtain ⟨hlt, hx1⟩ := groupAxes_place hx
  obtain ⟨a, ha, hp⟩ := h x.2 hlt
  obtain rfl : Fin.ofNat 16 x.1 = a := Fin.ext (by simp [hx1, ← ha])
  exact hp

theorem startGroup_axis {s : State} {c : Cmd} (hnd : (groupAxes c).Nodup) (hlt : ∀ k ∈ groupAxes c, k < 16) :
    (∀ k (a : Fin 16), k < Cmd.p8 c 17 → a.1 = Cmd.p8 c (18 + k) → (startGroup s c).axs[a].state = .group ∧
      (startGroup s c).axs[a].group = Cmd.p8 c 16 ∧ (startGroup s c).axs[a].target = groupTarget c k ∧
      (startGroup s c).axs[a].moveId = s.axs[a].moveId + 1) ∧
    ∀ a : Fin 16, a.1 ∉ groupAxes c → (startGroup s c).axs[a] = s.axs[a] := by
  unfold startGroup
  extract_lets members data len v acc stop
  refine ⟨fun k a hk ha => ?_, fun a ha => (foldl_modAxis _ members s a).1 fun x hx hxa => ha ?_⟩
  · rw [(foldl_modAxis _ members s a).2 (groupAxes_distinct hnd hlt) _ (groupAxes_mem hk)
      (Fin.ext (by simp [← ha]))]
    exact ⟨rfl, rfl, rfl, rfl⟩
  · have hmem : x.1 ∈ groupAxes c := by
      have := (List.mem_zipIdx' hx).2
      rw [this]
      exact List.getElem_mem _
    rw [← hxa, Fin.val_ofNat, Nat.mod_eq_of_lt (hlt _ hmem)]
    exact hmem

/-! ## The axis opcodes -/

theorem axisHomeRun_idle {c : Cmd} {s : State} (hen : axEnabled (axisOf s (axisNumber c)) = true) (hk : Cmd.p8 c 17 ≤ 3)
    (hq : homeMethod (axHomeSeq (axisOf s (axisNumber c)) (Cmd.p8 c 17)) ≠ 0) (hown : s.axs[axisNumber c].owned = false)
    (hidle : s.axs[axisNumber c].state = .idle) : axisHomeRun c s = .reply (startHome s (axisNumber c) (Cmd.p8 c 17))
      { status := .accepted, w0 := (s.axs[axisNumber c].moveId + 1).toNat } := by
  unfold axisHomeRun
  dsimp only
  rw [if_neg (by simp [hen]), if_neg (by simp [hq]; omega), if_neg (by rw [hown]; decide), if_neg (by rw [axisBusy, hidle]; decide),
    if_neg (by rw [hidle]; decide), moveReply, (startHome_axis s _ _).1]

theorem axisMoveRun_free {c : Cmd} {s : State} {a : Fin 16} (ha : a = axisNumber c) (hen : axEnabled (axisOf s a) = true)
    (hk : Cmd.p8 c 17 ≤ 2) (hlim : Cmd.p8 c 17 ≤ 1 →
      isI32 (moveTarget (axisOf s a) s.axs[a] (Cmd.p8 c 17) (Cmd.i32 c 20)) = true ∧
        inSoft (axisOf s a) s.axs[a] (moveTarget (axisOf s a) s.axs[a] (Cmd.p8 c 17) (Cmd.i32 c 20)) = true)
    (hown : s.axs[a].owned = false) (hhome : Cmd.p8 c 17 = 0 → s.axs[a].homed = true) (hstall : stallComes s a = false)
    (hst : s.axs[a].state = .idle ∨ s.axs[a].state = .moving) : ∃ m, axisMoveRun c s =
      .reply (startMove s a m (moveTarget (axisOf s a) s.axs[a] (Cmd.p8 c 17) (Cmd.i32 c 20)))
        { status := .accepted, w0 := (s.axs[a].moveId + 1).toNat } := by
  subst ha
  have hsoft : (Cmd.p8 c 17 != 2 && (!isI32 (moveTarget (axisOf s (axisNumber c)) s.axs[axisNumber c] (Cmd.p8 c 17) (Cmd.i32 c 20)) ||
      !inSoft (axisOf s (axisNumber c)) s.axs[axisNumber c]
        (moveTarget (axisOf s (axisNumber c)) s.axs[axisNumber c] (Cmd.p8 c 17) (Cmd.i32 c 20)))) = false := by
    by_cases h2 : Cmd.p8 c 17 = 2
    · simp [h2]
    · obtain ⟨hi, hin⟩ := hlim (by omega)
      rw [hi, hin]
      simp
  have hzero : (Cmd.p8 c 17 == 0 && !s.axs[axisNumber c].homed) = false := by
    by_cases h0 : Cmd.p8 c 17 = 0
    · rw [hhome h0]
      simp
    · simp [h0]
  unfold axisMoveRun
  dsimp only
  rw [if_neg (by simp [hen]), if_neg (Nat.not_lt.mpr hk), if_neg (by rw [hsoft]; decide), if_neg (by rw [hown]; decide),
    if_neg (by rw [hzero]; decide), if_neg (by rcases hst with h | h <;> rw [axisBusy, h] <;> decide),
    if_neg (by rcases hst with h | h <;> rw [h] <;> decide), if_neg (by rw [hstall]; decide), moveReply, startMove,
    State.modAxis_axs, updF_get_same]
  exact ⟨_, rfl⟩

theorem axisStopRun_idle {c : Cmd} {s : State} {a : Fin 16} (ha : a = axisNumber c) (hen : axEnabled (axisOf s a) = true)
    (hk : Cmd.p8 c 17 = 2) (hst : s.axs[a].state = .idle) :
    axisStopRun c s = .reply (s.modAxis a (Axis.dead .disabled)) okRes := by
  subst ha
  unfold axisStopRun
  dsimp only
  rw [if_neg (by simp [hen]), if_neg (by omega), if_neg (by omega), reachedFirst_idle hst, if_pos (by rw [hst, hk]; decide)]

theorem axisStopRun_ramps {c : Cmd} {s : State} {a : Fin 16} (ha : a = axisNumber c) (hen : axEnabled (axisOf s a) = true)
    (hk : Cmd.p8 c 17 = 0) (hst : s.axs[a].state = .moving) (hno : coming s (· == .axisTargetReached a) = false) :
    axisStopRun c s = .reply (rampAxis s a false) okRes := by
  subst ha
  unfold axisStopRun
  dsimp only
  rw [if_neg (by simp [hen]), if_neg (by omega), if_neg (by omega), reachedFirst_moving hst hno, if_neg (by simp [hk]),
    rampGroup, if_neg (by rw [hst]; decide), hk]
  rfl

theorem axisStopRun_atOnce {c : Cmd} {s : State} {a : Fin 16} (ha : a = axisNumber c) (hen : axEnabled (axisOf s a) = true)
    (hk : Cmd.p8 c 17 = 1) (hown : s.axs[a].owned = false) :
    axisStopRun c s = .reply (stopGroup (reachedFirst s a) a) okRes := by
  subst ha
  unfold axisStopRun
  dsimp only
  rw [if_neg (by simp [hen]), if_neg (by omega), if_pos hk, if_neg (by rw [hown]; decide)]

theorem rampAxis_moving {s : State} {a : Fin 16} (h : s.axs[a].state = .moving) (d : Bool) :
    (rampAxis s a d).axs[a].state = .stopping ∧ (rampAxis s a d).axs[a].pos = s.axs[a].pos := by
  unfold rampAxis
  split
  case h_5 hne _ _ => exact absurd h hne
  all_goals
    dsimp only
    rw [State.modAxis_axs, updF_get_same]
    exact ⟨rfl, rfl⟩

theorem groupMoveRun_good {c : Cmd} {s : State} (hg : Cmd.p8 c 16 ≤ 3) (h2 : 2 ≤ Cmd.p8 c 17) (h4 : Cmd.p8 c 17 ≤ 4)
    (hff : ∀ k, k < 4 → Cmd.p8 c 17 ≤ k → Cmd.p8 c (18 + k) = 0xFF) (hnd : (groupAxes c).Nodup)
    (hm : ∀ k, k < Cmd.p8 c 17 → ∃ a : Fin 16, a.1 = Cmd.p8 c (18 + k) ∧ axEnabled (axisOf s a) = true ∧
      inSoft (axisOf s a) s.axs[a] (groupTarget c k) = true ∧ s.axs[a].owned = false ∧ s.axs[a].homed = true ∧
      s.axs[a].state = .idle)
    (hbusy : (s.axs.any fun x => (x.state == .group || (x.state == .stopping && x.line.isSome)) && x.group == Cmd.p8 c 16) = false) :
    groupMoveRun c s = .reply (startGroup s c) (moveReply (startGroup s c) (Fin.ofNat 16 ((groupAxes c).foldl min 15))) := by
  have hfind (p : Axis → List Byte → Nat → Bool) (hp : ∀ (x : Axis) e k, axEnabled e = true → inSoft e x (groupTarget c k) = true →
      x.owned = false → x.homed = true → x.state = .idle → p x e k = false) : groupFind s c p = none :=
    groupFind_none fun k hk => by
      obtain ⟨a, ha, hen, hsoft, hown, hhomed, hidle⟩ := hm k hk
      exact ⟨a, ha, hp _ _ _ hen hsoft hown hhomed hidle⟩
  have hpad : ((List.range 4).find? fun k => decide (Cmd.p8 c 17 ≤ k) && Cmd.p8 c (18 + k) != 0xFF) = none :=
    List.find?_range_eq_none.mpr fun k hk => by
      by_cases hn : Cmd.p8 c 17 ≤ k
      · simp [hff k hk hn]
      · simp [hn]
  have htwice : ((List.range (Cmd.p8 c 17)).find? fun k => ((groupAxes c).take k).contains (Cmd.p8 c (18 + k))) = none :=
    List.find?_range_eq_none.mpr fun k hk => by
      simp only [Bool.not_eq_true', List.contains_eq_mem, decide_eq_false_iff_not]
      intro hmem
      obtain ⟨j, hj, hjk⟩ := List.mem_take_iff_getElem.mp hmem
      have hlen : (groupAxes c).length = Cmd.p8 c 17 := by simp [groupAxes]
      have hk' : k < (groupAxes c).length := by omega
      have heq : (groupAxes c)[k] = Cmd.p8 c (18 + k) := by simp [groupAxes]
      have := (List.Nodup.getElem_inj_iff hnd).mp (hjk.trans heq.symm)
      omega
  unfold groupMoveRun
  dsimp only
  rw [if_neg (by omega), if_neg (by simp; omega)]
  simp only [hpad]
  rw [hfind (fun _ e _ => !axEnabled e) fun x e k h _ _ _ _ => by simp [h],
    hfind (fun x e k => !inSoft e x (groupTarget c k)) fun x e k _ h _ _ _ => by simp [h]]
  simp only [htwice]
  rw [hfind (fun x _ _ => x.owned) fun x e k _ _ h _ _ => h, hfind (fun x _ _ => !x.homed) fun x e k _ _ _ h _ => by simp [h],
    hfind (fun x _ _ => axisBusy x false) fun x e k _ _ _ _ h => by simp [axisBusy, h],
    hfind (fun x _ _ => x.state == .fenced) fun x e k _ _ _ _ h => by simp [h], hbusy]
  rfl

/-- The two lowest flags of AXIS_QUERY (R193). -/
theorem queryFlags (m h t f : Bool) (n : Nat) : (bit m + 2 * bit h + 4 * bit t + 8 * bit f + 16 * n) % 2 = bit m ∧
    (bit m + 2 * bit h + 4 * bit t + 8 * bit f + 16 * n) / 2 % 2 = bit h := by
  have hbit (b : Bool) : bit b ≤ 1 := by cases b <;> decide
  have := hbit m
  have := hbit h
  omega

/-- Settles O15: each opcode's run on what its hypotheses let pass. -/
theorem axisOpcodesComplete : Obligations.AxisOpcodesComplete := by
  intro c s a ha
  refine ⟨fun h hen hk hq hown hidle => ?_, fun h hen hk hlim hown hhome hstall hst => ?_,
    fun h hen => ⟨fun hk hst => ?_, fun hk hst hno => ?_, fun hk hst hown => ?_⟩, fun h hen => ?_,
    fun h hg h2 h4 hff hnd hm hbusy => ?_⟩
  · subst ha
    have hrun := axisHomeRun_idle (c := c) (s := begun s c) (by simpa using hen) hk (by simpa using hq) (by simpa using hown)
      (by simpa using hidle)
    have hleft := startHome_axis (begun s c) (axisNumber c) (Cmd.p8 c 17)
    simp only [begun_axs, axisOf_begun] at hrun hleft
    exact ⟨_, congrArg Host.Outcome.next (direct_reply h hrun), hleft⟩
  · obtain ⟨m, hrun⟩ := axisMoveRun_free (s := begun s c) ha (by simpa using hen) hk (by simpa using hlim) (by simpa using hown)
      (by simpa using hhome) (by simpa using hstall) (by simpa using hst)
    simp only [begun_axs, axisOf_begun] at hrun
    refine ⟨_, congrArg Host.Outcome.next (direct_reply h hrun), ?_⟩
    simp only [startMove, State.modAxis_axs, updF_get_same, begun_axs]
    exact ⟨trivial, trivial, trivial, trivial, fun b hb => updF_get_other _ _ _ _ hb⟩
  · have hrun := axisStopRun_idle (s := begun s c) ha (by simpa using hen) hk (by simpa using hst)
    refine ⟨_, congrArg Host.Outcome.next (direct_reply h hrun), ?_⟩
    rw [State.modAxis_axs, updF_get_same]
    exact ⟨rfl, rfl⟩
  · have hrun := axisStopRun_ramps (s := begun s c) ha (by simpa using hen) hk (by simpa using hst) (by simpa using hno)
    have hleft := rampAxis_moving (s := begun s c) (a := a) (by simpa using hst) false
    rw [begun_axs] at hleft
    exact ⟨_, congrArg Host.Outcome.next (direct_reply h hrun), hleft⟩
  · have hrun := axisStopRun_atOnce (s := begun s c) ha (by simpa using hen) hk (by simpa using hown)
    exact ⟨_, congrArg Host.Outcome.next (direct_reply h hrun), stopGroup_rests (reachedFirst_state (by simpa using hst))⟩
  · subst ha
    have hrun : axisQueryRun c (begun s c) = _ := if_neg (by simpa using hen)
    simp only [begun_axs] at hrun
    refine ⟨_, congrArg Host.Outcome.next (direct_reply h hrun), fun hst => ?_, (queryFlags ..).2⟩
    rw [hst]
    exact (queryFlags ..).1
  · have hlt : ∀ k ∈ groupAxes c, k < 16 := fun k hk => by
      obtain ⟨j, hj, rfl⟩ := List.mem_map.mp hk
      obtain ⟨a, ha, -⟩ := hm j (List.mem_range.mp hj)
      omega
    have hrun := groupMoveRun_good (s := begun s c) hg h2 h4 hff hnd (by simpa using hm) (by simpa using hbusy)
    obtain ⟨hin, hout⟩ := startGroup_axis (s := begun s c) hnd hlt
    simp only [begun_axs] at hin hout
    exact ⟨_, congrArg Host.Outcome.next (direct_reply h hrun), hin, hout⟩

/-! ## The motor opcodes (R192, R193, R437, R449) -/

/-- A start writes its own channel: a catch toward the speed. -/
theorem startMotor_channels (s : State) (m : Fin 10) (speed : Nat) : (startMotor s m speed).mot.ch =
    updF s.mot.ch m fun x => { x.idle with
      state := .catching, setpoint := speed, drven := !s.mot.hard, starts := inc32 x.starts, suspended := false
      restarts := 0, lost := false, periods := [] } := by
  unfold startMotor
  rw [same_mot (motorSlotTarget_view _ _ _ (by decide))]
  rfl

theorem coast_channels {s : State} {m : Fin 10} (h1 : s.mot.ch[m].state ≠ .stopped) (h2 : s.mot.ch[m].state ≠ .fenced) :
    (coast s m).mot.ch = updF s.mot.ch m fun x => { x.idle with state := .coasting, lost := false, crossings := 0 } := by
  unfold coast
  split
  case h_1 h => exact absurd h h1
  case h_2 h => exact absurd h h2
  case h_3 =>
    rw [same_mot (motorSlotOff_view _ _ (by decide))]
    rfl

/-- A controlled stop coasts the channel, brakes it, or finds it stopped already. -/
theorem controlledStop_cases (s : State) (m : Fin 10) : controlledStop s m = coast s m ∨ controlledStop s m = s ∨
    controlledStop s m =
      motorSlotKeep (s.modMotor m fun x => { x with state := .braking, reverse := false, lowSides := false }) m := by
  unfold controlledStop
  split
  case h_1 | h_2 =>
    split
    · exact .inl rfl
    · exact .inr (.inr rfl)
  case h_3 | h_4 => exact .inl rfl
  case h_5 => exact .inr (.inl rfl)

theorem controlledStop_other (s : State) {m k : Fin 10} (hk : k ≠ m) : (controlledStop s m).mot.ch[k] = s.mot.ch[k] := by
  rcases controlledStop_cases s m with h | h | h
  · rw [h, (coast_get s m).2 k hk]
  · rw [h]
  · rw [h, same_mot (motorSlotKeep_view _ _ (by decide)), modMotor_get_other s hk]

/-- Suspending the speed input keeps the state of the channel and the other channels. -/
theorem suspendInput_channels (s : State) (m : Fin 10) : (suspendInput s m).mot.ch[m].state = s.mot.ch[m].state ∧
    ∀ k, k ≠ m → (suspendInput s m).mot.ch[k] = s.mot.ch[k] := by
  unfold suspendInput
  split
  · exact ⟨by rw [modMotor_get_same], fun k hk => modMotor_get_other s hk _⟩
  · exact ⟨rfl, fun _ _ => rfl⟩

/-- A new setpoint of a running channel ramps it when its speed is outside the band (R437). -/
theorem setSpeed_running {s : State} {m : Fin 10} (h : s.mot.ch[m].state = .running) (speed : Nat) :
    (setSpeed s m speed).mot.ch[m].setpoint = speed ∧
      (setSpeed s m speed).mot.ch[m].state =
        (if inBand (motorOf s m) s.mot.ch[m].speed speed then .running else .ramping) ∧
      ∀ k, k ≠ m → (setSpeed s m speed).mot.ch[k] = s.mot.ch[k] := by
  have hch : (setSpeed s m speed).mot.ch = updF s.mot.ch m fun x => { x with
      setpoint := speed
      state := if s.mot.ch[m].state == .running && !inBand (motorOf s m) s.mot.ch[m].speed speed then .ramping else x.state } := by
    unfold setSpeed
    dsimp only
    rw [same_mot (motorSlotTarget_view _ _ _ (by decide))]
    split
    · rw [same_mot (motorSlotKeep_view _ _ (by decide))]
      rfl
    · rfl
  rw [hch, updF_get_same]
  refine ⟨rfl, ?_, fun k hk => updF_get_other _ _ _ _ hk⟩
  dsimp only
  rw [h]
  cases inBand (motorOf s m) s.mot.ch[m].speed speed <;> rfl

theorem motorStartRun_stopped {c : Cmd} {s : State} {m : Fin 10} (hm : m = motorNumber c) (hen : moEnabled (motorOf s m) = true)
    (hmax : Cmd.p32 c 20 ≤ moMaxSpeed (motorOf s m)) (hst : s.mot.ch[m].state = .stopped) (hown : s.mot.ch[m].owned = false)
    (hspd : underSpdcmd s m = false) : motorStartRun c s = .reply (startMotor s m (Cmd.p32 c 20)) { status := .accepted } := by
  subst hm
  unfold motorStartRun
  dsimp only
  rw [if_neg (by simp [hen]), if_neg (Nat.not_lt.mpr hmax), if_neg (by rw [hst]; decide), if_neg (by rw [hown]; decide),
    if_neg (by rw [hspd]; decide), if_neg (by rw [hst]; decide)]

theorem motorStopRun_free {c : Cmd} {s : State} {m : Fin 10} (hm : m = motorNumber c) (hen : moEnabled (motorOf s m) = true)
    (hown : s.mot.ch[m].owned = false) :
    (Cmd.p8 c 17 = 1 → motorStopRun c s = .reply (suspendInput (coast s m) m) okRes) ∧
    (Cmd.p8 c 17 = 0 → motorStopRun c s = .reply (suspendInput (controlledStop s m) m) okRes) := by
  subst hm
  refine ⟨fun hk => ?_, fun hk => ?_⟩
  all_goals
    unfold motorStopRun
    dsimp only
    rw [if_neg (by simp [hen]), if_neg (by omega), if_neg (by rw [hown]; simp)]
  · rw [if_neg (by simp [hk]), if_neg (by rw [hown]; decide)]
  · rw [if_pos (by simp [hk])]

theorem speedReached_running {s : State} {m : Fin 10} (h : s.mot.ch[m].state = .running) : speedReached s m = s := by
  unfold speedReached
  split
  · exact if_neg (by rw [h]; exact Bool.false_ne_true)
  · rfl

theorem motorSetSpeedRun_running {c : Cmd} {s : State} {m : Fin 10} (hm : m = motorNumber c)
    (hen : moEnabled (motorOf s m) = true) (hmax : Cmd.p32 c 20 ≤ moMaxSpeed (motorOf s m)) (hst : s.mot.ch[m].state = .running)
    (hown : s.mot.ch[m].owned = false) (hspd : underSpdcmd s m = false) :
    motorSetSpeedRun c s = .reply (setSpeed s m (Cmd.p32 c 20)) okRes := by
  subst hm
  unfold motorSetSpeedRun
  dsimp only
  rw [if_neg (by simp [hen]), if_neg (Nat.not_lt.mpr hmax), if_neg (by rw [hst]; decide), if_neg (by rw [hown]; decide),
    if_neg (by rw [hspd]; decide), if_neg (by rw [hst]; decide), speedReached_running hst]

/-- Settles O16: each opcode's run on what its hypotheses let pass. -/
theorem motorOpcodesComplete : Obligations.MotorOpcodesComplete := by
  intro c s m hm
  refine ⟨fun h hen hmax hst hown hspd => ?_, fun h hen hown => ⟨fun hk h1 h2 => ?_, fun hk hst => ?_⟩,
    fun h hen hmax hst hown hspd => ?_, fun h hen => ?_⟩
  · have hrun := motorStartRun_stopped (s := begun s c) hm (by simpa using hen) (by simpa using hmax) (by simpa using hst)
      (by simpa using hown) (by simpa using hspd)
    refine ⟨_, congrArg Host.Outcome.next (direct_reply h hrun), ?_⟩
    rw [startMotor_channels, updF_get_same, begun_mot]
    exact ⟨rfl, rfl, rfl, rfl, fun k hk => updF_get_other _ _ _ _ hk⟩
  · have hrun := (motorStopRun_free (s := begun s c) hm (by simpa using hen) (by simpa using hown)).1 hk
    obtain ⟨hstate, hother⟩ := suspendInput_channels (coast (begun s c) m) m
    refine ⟨_, congrArg Host.Outcome.next (direct_reply h hrun), hstate.trans ?_, fun k hkm => (hother k hkm).trans ?_⟩
    all_goals rw [coast_channels (by simpa using h1) (by simpa using h2), begun_mot]
    · rw [updF_get_same]
    · exact updF_get_other _ _ _ _ hkm
  · have hrun := (motorStopRun_free (s := begun s c) hm (by simpa using hen) (by simpa using hown)).2 hk
    obtain ⟨hstate, hother⟩ := suspendInput_channels (controlledStop (begun s c) m) m
    have hstop := controlledStop_running (s := begun s c) (m := m) (by simpa using hst)
    rw [noRegen_begun, softComes_begun] at hstop
    refine ⟨_, congrArg Host.Outcome.next (direct_reply h hrun), hstate.trans hstop, fun k hkm => (hother k hkm).trans ?_⟩
    rw [controlledStop_other _ hkm, begun_mot]
  · have hrun := motorSetSpeedRun_running (s := begun s c) hm (by simpa using hen) (by simpa using hmax) (by simpa using hst)
      (by simpa using hown) (by simpa using hspd)
    have hleft := setSpeed_running (s := begun s c) (m := m) (by simpa using hst) (Cmd.p32 c 20)
    simp only [begun_mot, motorOf_begun] at hleft
    exact ⟨_, congrArg Host.Outcome.next (direct_reply h hrun), hleft⟩
  · subst hm
    have hrun : motorQueryRun c (begun s c) = _ := if_neg (by simpa using hen)
    simp only [begun_mot] at hrun
    exact congrArg Host.Outcome.next (direct_reply h hrun)

end Sys2Proof.Machine
end

section
/-!
Proofs of the statements about the head opcodes (O18) and about the DRAM opcodes (O20).
-/

namespace Sys2Proof.Machine
open Sys2Proof Sys2Proof.Safety

/-! ## What the arrival of a packet leaves of heads and channels -/

@[simp] theorem headBody_begun (s : State) (c : Cmd) (h : Nat) : headBody (begun s c) h = headBody s h := bodyOf_begun ..

@[simp] theorem headInUse_begun (s : State) (c : Cmd) (h : Nat) : headInUse (begun s c) h = headInUse s h :=
  begun_same (headInUse · h) s c fun _ _ _ _ => rfl

@[simp] theorem insideSheetAt_begun (s : State) (c : Cmd) (h : Nat) : insideSheetAt (begun s c) h = insideSheetAt s h :=
  begun_same (insideSheetAt · h) s c fun _ _ _ _ => rfl

/-- A packet that arrives may overtake a parked command (R161); the heads that it works on stay. -/
@[simp] theorem headServed_begun (s : State) (c : Cmd) (h : Nat) : headServed (begun s c) h = headServed s h := by
  unfold headServed begun remember
  split
  · rw [arrive_parked]
  · simp [List.any_map, Function.comp_def]

@[simp] theorem recipeOn_begun (s : State) (c : Cmd) (kind : Nat) : recipeOn (begun s c) kind = recipeOn s kind :=
  begun_same (recipeOn · kind) s c fun _ _ _ _ => rfl

@[simp] theorem dramBody_begun (s : State) (c : Cmd) : dramBody (begun s c) = dramBody s :=
  begun_same _ s c fun _ _ _ _ => rfl

@[simp] theorem rateStored_begun (s : State) (c : Cmd) (k : Nat) : rateStored (begun s c) k = rateStored s k :=
  begun_same (rateStored · k) s c fun _ _ _ _ => rfl

/-! ## The head opcodes (R197, R333, R345) -/

theorem headScanRun_free {c : Cmd} {s : State} (h : ∀ k : Fin 8, bitOf (Cmd.p8 c 16) k.1 = true →
      headInUse s k.1 = false ∧ headServed s k.1 = false ∧ s.hdp[k].state ≠ .fenced) :
    headScanRun c s = .park (((List.finRange 8).filter fun k => bitOf (Cmd.p8 c 16) k.1).foldl readMemory s) .hardware none := by
  have hany (p : Fin 8 → Bool) (hp : ∀ k : Fin 8, bitOf (Cmd.p8 c 16) k.1 = true → p k = false) :
      ((List.finRange 8).filter fun k => bitOf (Cmd.p8 c 16) k.1).any p = false :=
    List.any_eq_false.mpr fun k hk => by simp [hp k (List.mem_filter.mp hk).2]
  unfold headScanRun
  dsimp only
  rw [hany (fun k => headInUse s k.1) fun k hk => (h k hk).1, hany (fun k => headServed s k.1) fun k hk => (h k hk).2.1,
    hany (fun k => s.hdp[k].state == .fenced) fun k hk => beq_eq_false_iff_ne.mpr (h k hk).2.2]
  rfl

/-- Past its checks HEAD_MAINTAIN spits, has nothing to do, or moves the cap. -/
theorem headMaintainRun_free {c : Cmd} {s : State} {h : Fin 8} (hn : h = headNumber c) (huse : headInUse s h.1 = false)
    (hserved : headServed s h.1 = false) (hmove : s.hdp[h].capMove = none)
    (hst : s.hdp[h].state = .idle ∨ s.hdp[h].state = .capped) :
    (Cmd.p8 c 17 = 2 → Cmd.p16 c 18 ≠ 0 → s.hdp[h].state = .idle → headMaintainRun c s = .park s .hardware none) ∧
    (Cmd.p8 c 17 ≤ 1 → Cmd.p16 c 18 = 0 → headMaintainRun c s =
      if s.hdp[h].state != (if Cmd.p8 c 17 == 0 then .idle else .capped) then .reply s okRes
      else if (startCap s h (Cmd.p8 c 17 == 0)).hdp[h].capMove.isSome then .park (startCap s h (Cmd.p8 c 17 == 0)) .hardware none
      else .reply (startCap s h (Cmd.p8 c 17 == 0)) okRes) := by
  subst hn
  have hheld : (s.hdp[headNumber c].state == .held) = false := by rcases hst with h | h <;> rw [h] <;> rfl
  have hfenced : (s.hdp[headNumber c].state == .fenced) = false := by rcases hst with h | h <;> rw [h] <;> rfl
  refine ⟨fun hk hc hidle => ?_, fun hk hc => ?_⟩
  · unfold headMaintainRun
    dsimp only
    rw [if_neg (by omega), if_neg (by simp [hk, hc]), huse, hheld, hidle, hmove, hserved, hk]
    rfl
  · have h2 : (Cmd.p8 c 17 == 2) = false := beq_eq_false_iff_ne.mpr (by omega)
    unfold headMaintainRun
    dsimp only
    rw [if_neg (by omega), if_neg (by simp [h2, hc]), huse, hheld, hfenced, h2, hmove, hserved]
    rfl

/-- Without a cap axis a head is capped and uncapped at once. -/
theorem startCap_atOnce {s : State} {h : Fin 8} (haxis : (headBody s h.1).isEmpty = true ∨ hdCapAxis (headBody s h.1) = 0xFF)
    (cap : Bool) : startCap s h cap = capHead s h cap := by
  unfold startCap
  exact if_pos (by rcases haxis with h | h <;> simp [h])

/-- With a cap axis the move is noted at its head, and the axis moves. -/
theorem startCap_moves {s : State} {h : Fin 8} (hbody : (headBody s h.1).isEmpty = false)
    (haxis : hdCapAxis (headBody s h.1) ≠ 0xFF) (cap : Bool) :
    (startCap s h cap).hdp = updF s.hdp h fun x => { x with capMove := some cap } := by
  have hown (t : State) (a : Nat) (target : Int) : (ownMove t a target).hdp = t.hdp := same_hdp (by simp)
  unfold startCap
  dsimp only
  rw [if_neg (by simp [hbody, haxis]), hown]
  rfl

theorem settleHead_now {s : State} {h : Fin 8} (hdead : s.hdp[h].deadNext ≠ []) (hout : insideSheetAt s h.1 = false) :
    settleHead s h = s.modHead h Head.settleDead := by
  unfold settleHead
  rw [if_neg (by rw [hout, Bool.or_false, List.isEmpty_iff]; exact hdead)]

/-- Outside a sheet HEAD_MARK_DEAD changes the map of its head at once, and no other head (R333). -/
theorem headMarkDeadRun_now {c : Cmd} {s : State} {h : Fin 8} (hn : h = headNumber c) (hkind : Cmd.p8 c 17 ≤ 1)
    (hnozzle : Cmd.p16 c 18 < nozzleCount s.hdp[h]) (hserved : headServed s h.1 = false) (hjnl : journalRefusal s false = none)
    (hroom : RecordRoom 1 s) (hout : insideSheetAt s h.1 = false) (hnext : s.hdp[h].deadNext = []) :
    (headMarkDeadRun c s).state.hdp = updF (updF s.hdp h fun x =>
      { x with deadNext := x.deadNext ++ [(Cmd.p16 c 18, Cmd.p8 c 17 == 0)] }) h Head.settleDead := by
  subst hn
  have hadded : ((s.modHead (headNumber c) fun x =>
      { x with deadNext := x.deadNext ++ [(Cmd.p16 c 18, Cmd.p8 c 17 == 0)] }).hdp[headNumber c]).deadNext ≠ [] := by
    rw [modHead_head]
    exact List.append_ne_nil_of_right_ne_nil _ (List.cons_ne_nil _ _)
  have hsettle := settleHead_now (h := headNumber c) hadded hout
  unfold headMarkDeadRun
  dsimp only
  rw [if_neg (by omega), if_neg (by omega), if_neg (by rw [hserved]; decide)]
  simp only [hjnl]
  have hcmd (t : State) : (journalCommand t 0x4A .ok c).hdp = t.hdp := same_hdp (by simp)
  rw [hsettle, journaled_lastFormed]
  · rw [hcmd]
    rfl
  · exact journalCommand_lastFormed (recordRoom_of_parts hroom (by rw [State.modHead_sys, State.modHead_sys])
      (by rw [State.modHead_jnl, State.modHead_jnl])) ..

/-- Settles O18: each opcode's run on what its hypotheses let pass. -/
theorem headOpcodesComplete : Obligations.HeadOpcodesComplete := by
  intro c s h hn
  refine ⟨fun hacc hheads => ?_, fun hacc huse hserved hmove => ?_,
    fun hacc hkind hnozzle hserved hjnl hroom hout hnext => ⟨_, congrArg Host.Outcome.next (direct_finished hacc), ?_⟩⟩
  · exact congrArg Host.Outcome.next (direct_park hacc (headScanRun_free (s := begun s c) (by simpa using hheads)))
  · have hrun (hst : s.hdp[h].state = .idle ∨ s.hdp[h].state = .capped) := headMaintainRun_free (c := c) (s := begun s c) hn
      (by simpa using huse) (by simpa using hserved) (by simpa using hmove) (by simpa using hst)
    refine ⟨fun hk hc hidle => ?_, fun hk hc hcap => ?_, fun hk hc hcap haxis => ?_, fun hk hc hidle hbody haxis => ?_⟩
    · exact congrArg Host.Outcome.next (direct_park hacc ((hrun (.inl hidle)).1 hk hc (by simpa using hidle)))
    · have hnone := (hrun (.inr hcap)).2 (by omega) hc
      rw [begun_hdp, hcap, hk] at hnone
      exact congrArg Host.Outcome.next (direct_reply hacc hnone)
    · have hone := (hrun (.inr hcap)).2 (by omega) hc
      have hch : (capHead (begun s c) h false).hdp = updF s.hdp h fun x => if x.state == .capped then { x with state := .idle } else x := by
        simp [capHead]
      have hthis : (capHead (begun s c) h false).hdp[h] = { s.hdp[h] with state := .idle } := by
        rw [hch, updF_get_same, if_pos (by rw [hcap]; decide)]
      rw [begun_hdp, hcap, hk, startCap_atOnce (by simpa using haxis), show ((1 == 0) = false) from rfl, hthis, hmove] at hone
      refine ⟨_, congrArg Host.Outcome.next (direct_reply hacc hone), by rw [hthis], fun k hkh => ?_⟩
      rw [hch, updF_get_other _ _ _ _ hkh]
    · have hone := (hrun (.inl hidle)).2 (by omega) hc
      have hch := startCap_moves (s := begun s c) (h := h) (by simpa using hbody) (by simpa using haxis) true
      rw [begun_hdp] at hch
      have hthis : (startCap (begun s c) h true).hdp[h] = { s.hdp[h] with capMove := some true } := by
        rw [hch, updF_get_same]
      rw [begun_hdp, hidle, hk, show ((0 == 0) = true) from rfl, hthis] at hone
      refine ⟨_, congrArg Host.Outcome.next (direct_park hacc hone), by rw [hthis], by rw [hthis]; exact hidle, fun k hkh => ?_⟩
      rw [hch, updF_get_other _ _ _ _ hkh]
  · have hrun := headMarkDeadRun_now (s := begun s c) hn hkind (by simpa using hnozzle) (by simpa using hserved) hjnl
      (recordRoom_begun hroom c) (by simpa using hout) (by simpa using hnext)
    have hspec : headMarkDeadSpec.run c (begun s c) = headMarkDeadRun c (begun s c) := rfl
    rw [begun_hdp] at hrun
    rw [finished_hdp, hspec, hrun, updF_get_same, updF_get_same]
    refine ⟨?_, rfl, fun k hkh => by rw [updF_get_other _ _ _ _ hkh, updF_get_other _ _ _ _ hkh]⟩
    simp only [Head.settleDead, hnext, List.nil_append, List.foldl_cons, List.foldl_nil]

/-! ## The DRAM opcodes (R199, R200, R484, R498) -/

@[simp] theorem dramRequest_sys (s : State) : (dramRequest s).sys = s.sys := same_sys (by simp)

/-- A training begins at the first channel of its mask. -/
theorem nextChannel_first {s : State} {t : Training} {mask : Nat} (h1 : mask ≠ 0) (h3 : mask ≤ 3)
    (ht : t.mask = BitVec.ofNat 2 mask) : nextChannel s t 0 = some { t with
      channel := if mask = 2 then 1 else 0, rate := (trainRates s t.kind).headD 0, step := 0, retried := false } := by
  have hfind : ((List.finRange 2).find? fun c => decide (0 ≤ c.1) && t.mask.getLsbD c.1) = some (if mask = 2 then 1 else 0) := by
    rw [ht]
    interval_cases mask
    · exact absurd rfl h1
    all_goals decide
  unfold nextChannel
  rw [hfind]
  rfl

theorem dramTrainRun_starts {c : Cmd} {s : State} (h1 : Cmd.p8 c 16 ≠ 0) (h3 : Cmd.p8 c 16 ≤ 3) (hkind : Cmd.p8 c 17 ≤ 1)
    (hnone : s.drc.training = none) : ∃ t x, dramTrainRun c s = .park t .hardware none ∧ t.drc.training = some x ∧
      x.mask = BitVec.ofNat 2 (Cmd.p8 c 16) ∧ x.kind = Cmd.p8 c 17 ∧ x.step = 0 ∧ x.retried = false ∧
      x.channel = (if Cmd.p8 c 16 = 2 then 1 else 0) ∧ (s.sys.mode = .standby → t.sys.depth = min 1 s.sys.depth) := by
  unfold dramTrainRun
  dsimp only
  rw [if_neg (by simp; omega), if_neg (by omega), if_neg (by rw [hnone]; decide)]
  refine ⟨_, _, rfl, nextChannel_first h1 h3 rfl, rfl, rfl, rfl, rfl, rfl, fun hm => ?_⟩
  rw [State.modDrc_sys, dramRequest_sys]
  split
  · next hdeep =>
    have h : 1 < s.sys.depth := by simpa [hm] using hdeep
    rw [same_sys (hvUpdate_view _ (by decide)), State.modSys_sys]
    exact (Nat.min_eq_left h.le).symm
  · next hdeep =>
    have h : s.sys.depth ≤ 1 := by simpa [hm] using hdeep
    exact (Nat.min_eq_right h).symm

theorem rateList_find {k r : Nat} (hk : k < 7) (hr : rateOf k = r) : (rateList.findIdx? fun x => x == r) = some k := by
  subst hr
  interval_cases k <;> rfl

theorem dramSetRateRun_known {c : Cmd} {s : State} {k : Nat} (hk : k < 7) (hr : rateOf k = Cmd.p16 c 16)
    (hbin : recipeOn s 0x0003 = true → k ≤ drBin (dramBody s)) : dramSetRateRun c s =
      if s.drc.training.isSome && s.drc.stepAt != some s.now then .park (s.modDrc fun d => { d with ratePend := some k }) .hardware none
      else .reply (applyRate s k false).1 (applyRate s k false).2 := by
  have hok : (recipeOn s 0x0003 && decide (drBin (dramBody s) < k)) = false := by
    cases hon : recipeOn s 0x0003 with
    | false => rfl
    | true => simpa using hbin hon
  unfold dramSetRateRun
  simp only [rateList_find hk hr]
  rw [if_neg (by rw [hok]; decide)]

/-- A rate that both channels have results for is applied, with the owed refreshes first (R484). -/
theorem applyRate_stored {s : State} {k : Nat} (h : rateStored s k = true) (deferred : Bool) :
    (applyRate s k deferred).2 = okWords (rateOf k) ∧ (applyRate s k deferred).1.drc =
      { s.drc with rate := k, ch := s.drc.ch.map Channel.rateChange } := by
  unfold applyRate
  rw [if_neg (by rw [h]; decide)]
  exact ⟨rfl, by rw [raise_drc]; rfl⟩

theorem rateStored_up {s : State} {k : Nat} (h : rateStored s k = true) (n : Fin 2) : s.drc.ch[n].up = true := by
  have := List.all_eq_true.mp h n (List.mem_finRange n)
  simp only [Bool.and_eq_true] at this
  exact this.1.1

theorem Channel.rateChange_up {x : Channel} (h : x.up = true) :
    x.rateChange.owed = 0 ∧ x.rateChange.up = true ∧ x.rateChange.stored = x.stored := by
  unfold Channel.rateChange
  rw [if_neg (by rw [h]; decide)]
  split <;> exact ⟨rfl, h, rfl⟩

theorem dramQueryRun_page {c : Cmd} {s : State} {n : Fin 2} (hn : Cmd.p8 c 16 = n.1) :
    (Cmd.p8 c 17 = 0 → dramQueryRun c s = .reply s (okWords (rateOf s.drc.rate) (if s.drc.ch[n].up then s.drc.mapped else 0)
      (1024 * s.drc.ch[n].gib - s.drc.mapped) (fieldInt 32 s.drc.ch[n].temp)
      (s.drc.ch[n].owed % 8 + 8 * bit s.drc.ch[n].doubled))) ∧
    (Cmd.p8 c 17 = 1 → dramQueryRun c s = .reply s (okWords s.drc.ch[n].guardFails s.drc.ch[n].parityReplays
      s.drc.ch[n].crcReplays s.drc.ch[n].throttles s.drc.ch[n].srEntries)) := by
  have hlt : Cmd.p8 c 16 < 2 := hn ▸ n.2
  obtain rfl : Fin.ofNat 2 (Cmd.p8 c 16) = n := Fin.ext (by simp [hn])
  refine ⟨fun hk => ?_, fun hk => ?_⟩
  · unfold dramQueryRun
    rw [if_neg (by omega), if_neg (by omega)]
    dsimp only
    rw [if_pos hk]
    rfl
  · unfold dramQueryRun
    rw [if_neg (by omega), if_neg (by omega)]
    dsimp only
    rw [if_neg (by omega)]
    rfl

/-- Settles O20: each opcode's run on what its hypotheses let pass. -/
theorem dramOpcodesComplete : Obligations.DramOpcodesComplete := by
  intro c s
  refine ⟨fun h h1 h3 hkind hnone => ?_, fun h k hk hr hbin => ⟨fun hnone hst => ?_, fun hsome hstep => ?_⟩, fun h n hn => ?_⟩
  · obtain ⟨t, x, hrun, hleft⟩ := dramTrainRun_starts (s := begun s c) h1 h3 hkind (by simpa using hnone)
    rw [begun_sys] at hleft
    exact ⟨t, x, congrArg Host.Outcome.next (direct_park h hrun), hleft⟩
  · have hrun := dramSetRateRun_known (s := begun s c) hk hr (by simpa using hbin)
    obtain ⟨hres, hdrc⟩ := applyRate_stored (s := begun s c) (by simpa using hst) false
    rw [if_neg (by simp [hnone]), hres, hr] at hrun
    rw [begun_drc] at hdrc
    refine ⟨_, congrArg Host.Outcome.next (direct_reply h hrun), by rw [hdrc], fun n => ?_⟩
    have hch : (applyRate (begun s c) k false).1.drc.ch[n] = s.drc.ch[n].rateChange := by
      rw [hdrc]
      simp
    rw [hch]
    exact Channel.rateChange_up (rateStored_up hst n)
  · have hrun := dramSetRateRun_known (s := begun s c) hk hr (by simpa using hbin)
    rw [if_pos (by simp [hsome, hstep])] at hrun
    exact ⟨_, congrArg Host.Outcome.next (direct_park h hrun), rfl, by rw [State.modDrc_drc, begun_drc]⟩
  · obtain ⟨hzero, hone⟩ := dramQueryRun_page (s := begun s c) hn
    rw [begun_drc] at hzero hone
    exact ⟨fun hk => congrArg Host.Outcome.next (direct_reply h (hzero hk)),
      fun hk => congrArg Host.Outcome.next (direct_reply h (hone hk))⟩

end Sys2Proof.Machine
end

section
/-!
Proof of the statement about the fuse opcodes and PROVISION (O24).
-/

namespace Sys2Proof.Machine
open Sys2Proof Sys2Proof.Safety

@[simp] theorem fuseWordsBefore_begun (s : State) (c : Cmd) (w : Fin 256) :
    fuseWordsBefore (begun s c) w = fuseWordsBefore s w := begun_same (fuseWordsBefore · w) s c fun _ _ _ _ => rfl

@[simp] theorem regionLocked_begun (s : State) (c : Cmd) (w : Nat) : regionLocked (begun s c) w = regionLocked s w :=
  begun_same (regionLocked · w) s c fun _ _ _ _ => rfl

@[simp] theorem wordFrozen_begun (s : State) (c : Cmd) (w : Nat) : wordFrozen (begun s c) w = wordFrozen s w :=
  begun_same (wordFrozen · w) s c fun _ _ _ _ => rfl

@[simp] theorem lockInForce_begun (s : State) (c : Cmd) : lockInForce (begun s c) = lockInForce s :=
  begun_same _ s c fun _ _ _ _ => rfl

/-- A packet that arrives may overtake a parked command (R161); whether one burns fuses stays. -/
@[simp] theorem fuseBusy_begun (s : State) (c : Cmd) : fuseBusy (begun s c) = fuseBusy s := by
  unfold fuseBusy begun remember
  split
  · simp [arrive_parked]
  · simp [List.any_map, Function.comp_def]

/-! ## FUSE_SHADOW (R535) -/

/-- What FUSE_SHADOW makes of the shadows. -/
def shadowsAfter (c : Cmd) (l : List (Fin 256 × BitVec 64)) : List (Fin 256 × BitVec 64) :=
  if Cmd.p8 c 16 == 0 then
    l.filter (·.1 != Fin.ofNat 256 (Cmd.p8 c 17)) ++ [(Fin.ofNat 256 (Cmd.p8 c 17), BitVec.ofNat 64 (Cmd.p64 c 20))]
  else []

/-- The shadows change with their record; fuses and latched words stay. -/
theorem fuseShadowRun_state {c : Cmd} {s : State} (hkind : Cmd.p8 c 16 ≤ 1)
    (hword : Cmd.p8 c 16 = 0 → Cmd.p8 c 17 ≠ 16 ∧ fuseRegion (Cmd.p8 c 17) ≠ some 4 ∧ regionLocked s (Cmd.p8 c 17) = false)
    (hjnl : journalRefusal s false = none) (hroom : RecordRoom 1 s) :
    (fuseShadowRun c s).state.fus.shadows = shadowsAfter c s.fus.shadows ∧
      (fuseShadowRun c s).state.fus.rows = s.fus.rows ∧ (fuseShadowRun c s).state.fus.latched = s.fus.latched := by
  have hdenied : (Cmd.p8 c 16 == 0 && (Cmd.p8 c 17 == 16 || fuseRegion (Cmd.p8 c 17) == some 4)) = false := by
    by_cases h : Cmd.p8 c 16 = 0
    · obtain ⟨h1, h2, -⟩ := hword h
      simp [h1, h2]
    · simp [h]
  have hlocked : (Cmd.p8 c 16 == 0 && regionLocked s (Cmd.p8 c 17)) = false := by
    by_cases h : Cmd.p8 c 16 = 0
    · simp [(hword h).2.2]
    · simp [h]
  have hcmd (t : State) : (journalCommand t 0x69 .ok c).fus = t.fus := same_fus (by simp)
  unfold fuseShadowRun
  dsimp only
  rw [if_neg (by omega), if_neg (by rw [hdenied]; decide), if_neg (by rw [hlocked]; decide)]
  simp only [hjnl]
  rw [journaled_lastFormed]
  · rw [hcmd, State.modFus_fus]
    unfold shadowsAfter
    split <;> exact ⟨rfl, rfl, rfl⟩
  · exact journalCommand_lastFormed (recordRoom_of_parts hroom (by split <;> rfl) (by split <;> rfl)) ..

/-! ## FUSE_BURN, FUSE_LOCK_REGION and PROVISION (R534, R536, R211) -/

theorem fuseBurnRun_parks {c : Cmd} {s : State} (h0 : Cmd.p64 c 20 ≠ 0) (hw : Cmd.p8 c 16 < 239)
    (hkey : fuseRegion (Cmd.p8 c 16) ≠ some 4) (hlock : regionLocked s (Cmd.p8 c 16) = false)
    (hfrozen : wordFrozen s (Cmd.p8 c 16) = false) (hbusy : fuseBusy s = false) (hjnl : journalRefusal s false = none) :
    fuseBurnSpec.run c s = .park s .hardware none := by
  simp only [fuseBurnSpec]
  unfold fuseBurnRun
  dsimp only
  rw [if_neg h0, if_neg (by omega), if_neg (by simpa using hkey), if_neg (by rw [hlock]; decide),
    if_neg (by rw [hfrozen]; decide), if_neg (by rw [hbusy]; decide)]
  simp only [hjnl]

theorem fuseLockRun_parks {c : Cmd} {s : State} (h7 : Cmd.p8 c 16 ≤ 7) (h6 : Cmd.p8 c 16 ≠ 6)
    (hlock : bitOf (lockInForce s) (Cmd.p8 c 16) = false) (hbusy : fuseBusy s = false)
    (hjnl : journalRefusal s false = none) : fuseLockSpec.run c s = .park s .hardware none := by
  simp only [fuseLockSpec]
  unfold fuseLockRun
  dsimp only
  rw [if_neg (by omega), if_neg (by rw [hlock]; decide), if_neg (by rw [hbusy]; decide)]
  simp only [hjnl]

theorem provisionRun_parks {c : Cmd} {s : State} (hlock : bitOf (lockInForce s) 4 = false)
    (hblank : ∀ k, k < 32 → getN s.fus.latched (128 + k) 0 = 0) (hsup : zeroAt c.params 0x10 32 = false)
    (hsigner : zeroAt c.params 0x30 32 = false) (ha0 : Cmd.p64 c 16 ≠ 0) (ha : Cmd.p64 c 16 % 64 = 0)
    (hbusy : fuseBusy s = false) (hflash : s.jnl.flashOk = true) : provisionSpec.run c s = .park s .hardware none := by
  simp only [provisionSpec]
  have hnone : ((List.range 32).any fun k => getN s.fus.latched (128 + k) 0 != 0) = false :=
    List.any_eq_false.mpr fun k hk => by
      rw [hblank k (List.mem_range.mp hk)]
      decide
  unfold provisionRun
  dsimp only
  rw [if_neg (by rw [hlock, hnone]; decide), if_neg (by rw [hsup]; decide), if_neg (by rw [hsigner]; decide),
    if_neg (by omega), if_neg (by rw [hbusy]; decide), if_neg (by rw [hflash]; decide)]

/-- Settles O24: each opcode's run on what its hypotheses let pass. -/
theorem fuseOpcodesComplete : Obligations.FuseOpcodesComplete := by
  intro c s
  have hspec : fuseShadowSpec.run c (begun s c) = fuseShadowRun c (begun s c) := rfl
  refine ⟨fun h hw => ?_, fun h hjnl hroom => ⟨fun hk h16 hkey hlock => ?_, fun hk => ?_⟩,
    fun h h0 hw hkey hlock hfrozen hbusy hjnl => ?_, fun h h7 h6 hlock hbusy hjnl => ?_,
    fun h hlock hblank hsup hsigner ha0 ha hbusy hflash => ?_⟩
  · have hrun : fuseReadRun c (begun s c) = _ := if_neg (by omega)
    rw [fuseWordsBefore_begun] at hrun
    exact congrArg Host.Outcome.next (direct_reply h hrun)
  · obtain ⟨hsh, hrows, hlatched⟩ := fuseShadowRun_state (c := c) (s := begun s c) (by omega)
      (fun _ => ⟨h16, hkey, by simpa using hlock⟩) hjnl (recordRoom_begun hroom c)
    rw [begun_fus] at hrows hlatched
    refine ⟨_, congrArg Host.Outcome.next (direct_finished h), ?_⟩
    rw [finished_fus, hspec, hsh, shadowsAfter, if_pos (by simp [hk])]
    exact ⟨List.mem_append_right _ List.mem_cons_self, hrows, hlatched⟩
  · obtain ⟨hsh, hrows, hlatched⟩ := fuseShadowRun_state (c := c) (s := begun s c) (by omega) (fun h0 => by omega) hjnl
      (recordRoom_begun hroom c)
    rw [begun_fus] at hrows hlatched
    refine ⟨_, congrArg Host.Outcome.next (direct_finished h), ?_⟩
    rw [finished_fus, hspec, hsh, shadowsAfter, if_neg (by simp [hk])]
    exact ⟨rfl, hrows, hlatched⟩
  · have hrun := fuseBurnRun_parks (c := c) (s := begun s c) h0 hw hkey (by simpa using hlock) (by simpa using hfrozen)
      (by simpa using hbusy) hjnl
    exact congrArg Host.Outcome.next (direct_park h hrun)
  · have hrun := fuseLockRun_parks (c := c) (s := begun s c) h7 h6 (by simpa using hlock) (by simpa using hbusy) hjnl
    exact congrArg Host.Outcome.next (direct_park h hrun)
  · have hrun := provisionRun_parks (c := c) (s := begun s c) (by simpa using hlock) (by simpa using hblank) hsup hsigner ha0 ha
      (by simpa using hbusy) (by simpa using hflash)
    exact congrArg Host.Outcome.next (direct_park h hrun)

end Sys2Proof.Machine
end

section
/-!
Proof of the statement about the journal and serial opcodes (O25).
-/

namespace Sys2Proof.Machine
open Sys2Proof Sys2Proof.Safety

@[simp] theorem recordBytes_begun (s : State) (c : Cmd) (i n : Nat) : recordBytes (begun s c) i n = recordBytes s i n :=
  begun_same (recordBytes · i n) s c fun _ _ _ _ => rfl

@[simp] theorem newestSeal_begun (s : State) (c : Cmd) : newestSeal (begun s c) = newestSeal s :=
  begun_same _ s c fun _ _ _ _ => rfl

@[simp] theorem anchorFloor_begun (s : State) (c : Cmd) : anchorFloor (begun s c) = anchorFloor s :=
  begun_same _ s c fun _ _ _ _ => rfl

/-! ## JOURNAL_READ (R139, R206, R369) -/

/-- What leaves the device for the host leaves it whatever bank has lost its supply. -/
theorem emit_write (s : State) (a : DWord) (l : List Byte) : Out.write a l ∈ (emit s (.write a l)).out := by
  simp [emit, Out.bank]

/-- What a read that is served at once delivers: its records to the supervisor's buffer, or to the host. -/
theorem serveRead_served {s : State} {c : Cmd} {n : Nat} (hn : n ≠ 0)
    (h : s.jnl.staged = [] ∨ s.jnl.readServed = false ∧ n ≤ 32) : (serveRead s c 0 n).2 = n ∧
      (serveRead s c 0 n).1.jnl = { s.jnl with readServed := true } ∧
      (c.src = .sup → (serveRead s c 0 n).1.sup.jbuf = recordBytes s (Cmd.p64 c 16) n ∧ (serveRead s c 0 n).1.sup.jbufCount = n) ∧
      (c.src ≠ .sup → Out.write (BitVec.ofNat 64 (Cmd.p64 c 28)) (recordBytes s (Cmd.p64 c 16) n) ∈ (serveRead s c 0 n).1.out) := by
  have hcount : (if s.jnl.staged.isEmpty then n - 0 else if s.jnl.readServed then 0 else min 32 (n - 0)) = n := by
    rcases h with h | ⟨hserved, h32⟩
    · simp [h]
    · simp [hserved, h32]
  unfold serveRead
  dsimp only
  rw [hcount, if_neg hn]
  refine ⟨Nat.zero_add n, ?_, fun hsup => ?_, fun hsup => ?_⟩
  · dsimp only
    split
    · rw [State.modSup_jnl, flashOps_jnl]
      rfl
    · rw [same_jnl (emit_view _ _ (by decide)), flashOps_jnl]
      rfl
  · simp [hsup]
  · have hne : (c.src == Source.sup) = false := beq_eq_false_iff_ne.mpr hsup
    simp only [hne, Nat.mul_zero, Nat.add_zero, Bool.false_eq_true, if_false]
    exact emit_write _ _ _

/-- A read beside records that wait to be programmed waits for its turn. -/
theorem serveRead_waits {s : State} {c : Cmd} {n : Nat} (h : s.jnl.staged ≠ []) (hserved : s.jnl.readServed = true) :
    serveRead s c 0 n = (s, 0) := by
  have hbusy : s.jnl.staged.isEmpty = false := by simpa using h
  simp [serveRead, hbusy, hserved]

/-- Past its checks JOURNAL_READ is served, or waits. -/
theorem journalReadRun_good {c : Cmd} {s : State} {newest n : Nat} (hnew : s.jnl.newest = some newest)
    (hold : s.jnl.oldest ≤ Cmd.p64 c 16) (hle : Cmd.p64 c 16 ≤ newest) (hcount : Cmd.p16 c 24 ≠ 0)
    (hn : n = min (Cmd.p16 c 24) (newest + 1 - Cmd.p64 c 16))
    (hdest : c.src = .sup ∧ Cmd.p16 c 24 ≤ 32 ∧ Cmd.p64 c 28 = 0 ∨
      c.src ≠ .sup ∧ Cmd.p16 c 24 ≤ 8192 ∧ Cmd.p64 c 28 ≠ 0 ∧ Cmd.p64 c 28 + 128 * n ≤ 2 ^ 64) :
    journalReadRun c s = if (serveRead s c 0 n).2 = n then .reply (serveRead s c 0 n).1 (readResult (serveRead s c 0 n).1 n)
      else .park (serveRead s c 0 n).1 (.read (serveRead s c 0 n).2 n) none := by
  have hkept : retained s (Cmd.p64 c 16) = true := by simp [retained, hnew, hold, hle]
  have hlimit : (decide (Cmd.p16 c 24 = 0) || decide ((if (c.src == .sup) = true then 32 else 8192) < Cmd.p16 c 24)) = false := by
    rcases hdest with ⟨hsup, h32, -⟩ | ⟨hsup, h8k, -⟩
    · simp [hsup, hcount, h32]
    · simp [hsup, hcount, h8k]
  have hplace : (if (c.src == .sup) = true then Cmd.p64 c 28 != 0
      else decide (Cmd.p64 c 28 = 0) || decide (2 ^ 64 < Cmd.p64 c 28 + 128 * n)) = false := by
    rcases hdest with ⟨hsup, -, h0⟩ | ⟨hsup, -, h0, hend⟩
    · simp [hsup, h0]
    · simpa [hsup, h0] using hend
  unfold journalReadRun
  dsimp only
  rw [hnew, Option.getD_some, ← hn, if_neg (by rw [hkept]; decide), if_neg (by rw [hlimit]; decide),
    if_neg (by rw [hplace]; decide)]

/-! ## JOURNAL_SEAL (R206, R363) -/

theorem formOne_tickets (s : State) (u : Unformed) : (formOne s u).jnl.tickets = s.jnl.tickets := by
  unfold formOne
  split
  · unfold formSeal
    (repeat' split) <;> rfl
  · dsimp only
    generalize hs1 : s.modJnl _ = s1
    obtain ⟨v, hv⟩ := voidFormed_jnl s1 u
    rw [apply_ite State.jnl, State.modLed_jnl, ite_self, hv, ← hs1]
    rfl

/-- The formation of records gives no tickets. -/
theorem formReady_tickets (n : Nat) (s : State) : (formReady n s).jnl.tickets = s.jnl.tickets := by
  induction n generalizing s with
  | zero => rfl
  | succ n ih =>
    unfold formReady
    split
    · rfl
    · split
      · rfl
      · rw [ih, formOne_tickets]
        rfl

theorem requestSeal_tickets {s : State} (hon : jnlOn s = true) (hpwr : s.sys.pwrFail = false)
    (hno : (s.jnl.waiting.find? fun u => u.type == 0x04) = none) (hwork : s.jnl.unsealed ≠ 0 ∨ s.jnl.waiting ≠ []) :
    (requestSeal s).jnl.tickets = s.jnl.tickets + 1 := by
  have hany : s.jnl.waiting.any (·.type == 0x04) = false :=
    List.any_eq_false.mpr fun u hu => List.find?_eq_none.mp hno u hu
  have hidle : (s.jnl.unsealed == 0 && s.jnl.waiting.isEmpty) = false := by
    rcases hwork with h | h
    · simp [h]
    · simp [h]
  unfold requestSeal
  rw [if_neg (by rw [hon, hpwr, hany, hidle]; decide)]
  exact formReady_tickets _ _

theorem sealTicket_none {s : State} (h : (s.jnl.waiting.find? fun u => u.type == 0x04) = none) : sealTicket s = (s, none) := by
  simp only [sealTicket, h]

theorem journalSealRun_seals {c : Cmd} {s : State} (hno : (s.jnl.waiting.find? fun u => u.type == 0x04) = none)
    (hprov : s.jnl.provisioned = true) (hflash : s.jnl.flashOk = true) (hpwr : s.sys.pwrFail = false)
    (hwork : s.jnl.unsealed ≠ 0 ∨ s.jnl.waiting ≠ []) :
    journalSealRun c s = .park (requestSeal s) (.record (s.jnl.tickets + 1)) (some okWords) := by
  have htickets := requestSeal_tickets (by simp [jnlOn, hprov, hflash]) hpwr hno hwork
  unfold journalSealRun
  rw [if_neg (by simp [hflash]), sealTicket_none hno]
  dsimp only
  rw [htickets, if_pos (Nat.lt_succ_self _)]
  rfl

theorem journalSealRun_off {c : Cmd} {s : State} (hno : (s.jnl.waiting.find? fun u => u.type == 0x04) = none)
    (hprov : s.jnl.provisioned = false) :
    journalSealRun c s = .reply s (okWords (loWord (newestSeal s)) (hiWord (newestSeal s))) := by
  have hreq : requestSeal s = s := by simp [requestSeal, jnlOn, hprov]
  unfold journalSealRun
  rw [if_neg (by simp [hprov]), sealTicket_none hno]
  dsimp only
  rw [hreq, if_neg (Nat.lt_irrefl _)]
  rfl

/-! ## JOURNAL_COLLECTED (R206, R366) -/

/-- The collection mark and the newest durable record. -/
def collection (j : Journal) : Option Nat × Option Nat := (j.coll, j.newest)

theorem queueErase_collection (s : State) (k : Nat) : collection (queueErase s k).jnl = collection s.jnl := by
  unfold queueErase eraseBegin
  split
  · rfl
  · dsimp only
    split
    · rw [flashOps_jnl]
      rfl
    · rfl

theorem foldl_collection {α : Type} {f : State → α → State} (hf : ∀ s k, collection (f s k).jnl = collection s.jnl) (l : List α)
    (s : State) : collection (l.foldl f s).jnl = collection s.jnl :=
  List.foldlRecOn (motive := fun t => collection t.jnl = collection s.jnl) l f rfl fun t ht k _ => (hf t k).trans ht

theorem eraseAhead_collection (s : State) : collection (eraseAhead s).jnl = collection s.jnl := by
  unfold eraseAhead
  extract_lets slots at_ want
  split
  · rfl
  · refine foldl_collection (fun t k => ?_) _ s
    split
    · rfl
    · exact queueErase_collection t k

theorem lowCheck_collection (s : State) : collection (lowCheck s).jnl = collection s.jnl := by
  unfold lowCheck
  dsimp only
  rw [State.modJnl_jnl]
  split
  · rw [raise_jnl]
    rfl
  · rfl

theorem logCollected_collection (s : State) (k : Nat) : collection (logCollected s k).jnl = (some k, s.jnl.newest) := by
  unfold logCollected
  dsimp only
  split
  · rw [queueErase_collection, flashOps_jnl]
    rfl
  · rw [flashOps_jnl]
    rfl

theorem journalCollectedRun_moves {c : Cmd} {s : State} (hsealed : s.jnl.sealed = true) (hle : Cmd.p64 c 16 ≤ s.jnl.sealIdx)
    (hcoll : ∀ k, s.jnl.coll = some k → k ≤ Cmd.p64 c 16) : ∃ t, journalCollectedRun c s = .reply t (okWords (freeWord t)) ∧
      t.jnl.coll = some (Cmd.p64 c 16) ∧ t.jnl.newest = s.jnl.newest := by
  have hleft : collection (lowCheck (eraseAhead (raise (logCollected s (Cmd.p64 c 16)) 0xA8 0))).jnl =
      (some (Cmd.p64 c 16), s.jnl.newest) := by
    rw [lowCheck_collection, eraseAhead_collection, raise_jnl, logCollected_collection]
  obtain ⟨hmark, hnewest⟩ := Prod.mk.inj hleft
  refine ⟨_, if_neg ?_, hmark, hnewest⟩
  cases hc : s.jnl.coll with
  | none => simp [hsealed, hle]
  | some k => simp [hsealed, hle, hcoll k hc]

/-! ## SERIAL_ANCHOR (R206, R356) -/

/-- The registers of the serial authority: the next serial, the end of the reservation, and whether they are set. -/
def anchorOf (j : Journal) : Nat × Nat × Bool := (j.next, j.high, j.anchored)

theorem requestRecord_anchor (s : State) (u : Unformed) : anchorOf (requestRecord s u).jnl = anchorOf s.jnl :=
  (congrArg anchorOf (settled_requestRecord s u) :)

theorem reserveCheck_anchor (s : State) : anchorOf (reserveCheck s).jnl = anchorOf s.jnl := by
  unfold reserveCheck
  split
  · exact requestRecord_anchor _ _
  · rfl

theorem anchorAt_anchor (s : State) (base : Nat) (packet : List Byte) :
    anchorOf (anchorAt s base packet).jnl = (base, base - 1, true) := requestRecord_anchor _ _

/-- With room for two records the record of the anchor stands formed. -/
theorem anchorAt_lastFormed {s : State} (h : RecordRoom 2 s) (base : Nat) (packet : List Byte) :
    lastFormed (anchorAt s base packet) := by
  unfold anchorAt
  dsimp only
  refine requestRecord_lastFormed ?_ (by decide : 0x0C ≠ 0x04)
  split
  · exact requestRecord_room (n := 0) h (by decide : 0x03 ≠ 0x04)
  · exact h.imp id fun ⟨hp, hroom, hseal⟩ => ⟨hp, Nat.le_of_succ_le hroom, hseal.imp id fun ⟨hw, hu⟩ => ⟨hw, Nat.le_of_succ_le hu⟩⟩

theorem serialAnchorRun_state {c : Cmd} {s : State} (hbase : Cmd.p64 c 16 % 64 = 0) (hfloor : anchorFloor s ≤ Cmd.p64 c 16)
    (hjobs : s.led.jobs = []) (hjnl : journalRefusal s false = none) (hroom : RecordRoom 2 s) :
    anchorOf (serialAnchorRun c s).state.jnl = (Cmd.p64 c 16, Cmd.p64 c 16 - 1, true) := by
  have hleft : anchorOf (reserveCheck (anchorAt s (Cmd.p64 c 16) (Cmd.packet c 0x74))).jnl = (Cmd.p64 c 16, Cmd.p64 c 16 - 1, true) := by
    rw [reserveCheck_anchor, anchorAt_anchor]
  have hformed := anchorAt_lastFormed hroom (Cmd.p64 c 16) (Cmd.packet c 0x74)
  have hon : jnlOn (anchorAt s (Cmd.p64 c 16) (Cmd.packet c 0x74)) = jnlOn s := by
    unfold anchorAt
    dsimp only
    rw [jnlOn_requestRecord]
    split
    · exact jnlOn_requestRecord _ _
    · rfl
  unfold serialAnchorRun
  dsimp only
  rw [if_neg (by simp [hbase, hfloor]), if_neg (by simp [hjobs])]
  simp only [hjnl]
  split
  · exact hleft
  next hj =>
    have hj' : jnlOn s = true := by simpa using hj
    rw [if_neg (by simp [hformed.resolve_left (by simp [hon, hj'])])]
    split <;> exact hleft

/-- Settles O25: each opcode's run on what its hypotheses let pass. -/
theorem journalOpcodesComplete : Obligations.JournalOpcodesComplete := by
  intro c s
  refine ⟨fun h newest n hnew hold hle hcount hn hdest => ?_, fun h hno => ⟨fun hprov hflash hpwr hwork => ?_, fun hprov => ?_⟩,
    fun h hsealed hle hcoll => ?_, fun h => ?_, fun h hbase hfloor hjobs hjnl hroom => ?_⟩
  · have hrun := journalReadRun_good (s := begun s c) (by simpa using hnew) (by simpa using hold) hle hcount hn hdest
    have hn0 : n ≠ 0 := by omega
    refine ⟨fun hfree => ?_, fun hstaged hserved => ?_⟩
    · obtain ⟨hall, hjnl, hsup, hhost⟩ := serveRead_served (s := begun s c) (c := c) hn0 (by simpa using hfree)
      rw [if_pos hall, readResult, hjnl, begun_jnl, hnew] at hrun
      simp only [recordBytes_begun] at hsup hhost
      exact ⟨_, congrArg Host.Outcome.next (direct_reply h hrun), by rw [hjnl, begun_jnl], hsup, hhost⟩
    · rw [serveRead_waits (by simpa using hstaged) (by simpa using hserved), if_neg (Ne.symm hn0)] at hrun
      exact congrArg Host.Outcome.next (direct_park h hrun)
  · have hrun := journalSealRun_seals (c := c) (s := begun s c) (by simpa using hno) (by simpa using hprov) (by simpa using hflash)
      (by simpa using hpwr) (by simpa using hwork)
    have htickets := requestSeal_tickets (s := begun s c) (by simp [jnlOn, hprov, hflash]) (by simpa using hpwr)
      (by simpa using hno) (by simpa using hwork)
    rw [begun_jnl] at hrun htickets
    exact ⟨_, congrArg Host.Outcome.next (direct_park h hrun), htickets⟩
  · have hrun := journalSealRun_off (c := c) (s := begun s c) (by simpa using hno) (by simpa using hprov)
    rw [newestSeal_begun] at hrun
    exact congrArg Host.Outcome.next (direct_reply h hrun)
  · obtain ⟨t, hrun, hleft⟩ := journalCollectedRun_moves (c := c) (s := begun s c) (by simpa using hsealed) (by simpa using hle)
      (by simpa using hcoll)
    rw [begun_jnl] at hleft
    exact ⟨t, congrArg Host.Outcome.next (direct_reply h hrun), hleft⟩
  · have hrun : serialQueryRun c (begun s c) = .reply (begun s c) (okWords (loWord s.jnl.next) (hiWord s.jnl.next)
        (loWord s.jnl.high) (hiWord s.jnl.high) s.jnl.reservations) := by
      rw [serialQueryRun, begun_jnl]
      rfl
    exact congrArg Host.Outcome.next (direct_reply h hrun)
  · have hleft := serialAnchorRun_state (s := begun s c) hbase (by simpa using hfloor) (by simpa using hjobs) hjnl
      (recordRoom_begun hroom c)
    refine ⟨_, congrArg Host.Outcome.next (direct_finished h), ?_⟩
    have hspec : serialAnchorSpec.run c (begun s c) = serialAnchorRun c (begun s c) := by simp only [serialAnchorSpec]
    rw [finished_jnl, hspec]
    simpa only [anchorOf, Prod.mk.injEq] using hleft

end Sys2Proof.Machine
end

section
/-!
Proof of the statement about what the hardware's answer makes of a parked command (O26).
-/

namespace Sys2Proof.Machine
open Sys2Proof Sys2Proof.Safety

/-! ## A recipe image that has been verified (R184) -/

theorem slotFor_lt {s : State} {kind inst k : Nat} (h : slotFor s kind inst = some k) : k < 32 := by
  unfold slotFor at h
  split at h
  · next j hj =>
    obtain rfl := Option.some.inj h
    exact List.mem_range.mp (List.find?_range_eq_some.mp hj).2.1
  · exact List.mem_range.mp (List.find?_range_eq_some.mp h).2.1

theorem storeSlot_updN (s : State) {k : Nat} (hk : k < 32) (r : Recipe) (j : Nat) :
    storeSlot (s.modLed fun x => { x with store := updN x.store k fun _ => some r }) j = if j = k then some r else storeSlot s j := by
  unfold storeSlot
  rw [State.modLed_led]
  by_cases hj : j < 32
  · rw [getN_lt _ _ _ hj, getN_lt _ _ _ hj]
    exact updN_get s.led.store k ⟨j, hj⟩ fun _ => some r
  · have hne : j ≠ k := fun h => hj (h ▸ hk)
    rw [if_neg hne]
    simp [getN, hj]

theorem loadImage_good {s : State} {l : List Byte} {k : Nat} (hsig : signatureCheck s l = none)
    (hk : slotFor s (u16 l 4) (u16 l 6) = some k) : ∃ t r x, loadImage s l = (t, r) ∧ r.status = .ok ∧ r.w0 = k ∧
      x.kind = u16 l 4 ∧ x.inst = u16 l 6 ∧ x.version = u32 l 8 ∧ x.active = false ∧
      ∀ j, storeSlot t j = if j = k then some x else storeSlot s j := by
  unfold loadImage
  simp only [hsig, hk]
  exact ⟨_, _, _, rfl, rfl, rfl, rfl, rfl, rfl, rfl, storeSlot_updN s (slotFor_lt hk) _⟩

/-! ## A scan of head memories (R323, R344) -/

@[simp] theorem raise_if_hdp (c : Prop) [Decidable c] (s : State) (src detail : Nat) :
    (if c then raise s src detail else s).hdp = s.hdp := by
  split
  · exact raise_hdp ..
  · rfl

/-- A head as a scan leaves it: it latches a good memory, and notes an answer that is missing. -/
def ScannedAs (answer : Option (List Byte)) (x y : Head) : Prop :=
  (∀ m, answer = some m → memFault m = none → y.mem = some (latchOf m) ∧ y.scan = 1) ∧
    (answer = none → y.scan = 2 ∧ y.mem = x.mem)

/-- A scan changes its own head, by what its memory answers. -/
theorem scanHead_hdp (s : State) (h : Fin 8) (answer : Option (List Byte)) : ∃ g : Head → Head,
    (scanHead s h answer).hdp = updF s.hdp h g ∧ ScannedAs answer s.hdp[h] (g s.hdp[h]) := by
  unfold scanHead
  split
  · rw [State.modHead_hdp]
    refine ⟨_, rfl, fun m hm => ?_, fun _ => ⟨rfl, rfl⟩⟩
    cases hm
  · split
    · next hfault =>
      rw [raise_hdp, State.modHead_hdp]
      refine ⟨_, rfl, fun m hm hok => ?_, fun hm => by cases hm⟩
      rw [← Option.some.inj hm, hfault] at hok
      cases hok
    · dsimp only
      rw [raise_if_hdp, State.modHead_hdp]
      refine ⟨_, rfl, fun m hm _ => ?_, fun hm => by cases hm⟩
      rw [← Option.some.inj hm]
      exact ⟨rfl, rfl⟩

/-- Heads that are scanned one after the other: each has what its own scan gives it, the others stay. -/
theorem foldl_scanHead (answer : Fin 8 → Option (List Byte)) (l : List (Fin 8)) (s : State) (h : Fin 8) :
    (h ∉ l → (l.foldl (fun t k => scanHead t k (answer k)) s).hdp[h] = s.hdp[h]) ∧
    (l.Nodup → h ∈ l → ScannedAs (answer h) s.hdp[h] (l.foldl (fun t k => scanHead t k (answer k)) s).hdp[h]) := by
  induction l generalizing s with
  | nil => exact ⟨fun _ => rfl, fun _ hmem => absurd hmem List.not_mem_nil⟩
  | cons k l ih =>
    obtain ⟨hout, hin⟩ := ih (scanHead s k (answer k))
    obtain ⟨g, hg, hscan⟩ := scanHead_hdp s k (answer k)
    simp only [List.foldl_cons]
    refine ⟨fun hno => ?_, fun hnd hmem => ?_⟩
    · obtain ⟨hk, hl⟩ := not_or.mp (fun h => hno (List.mem_cons.mpr h))
      rw [hout hl, hg, updF_get_other _ _ _ _ hk]
    · obtain ⟨hk, hnd⟩ := List.nodup_cons.mp hnd
      rcases List.mem_cons.mp hmem with rfl | hmem
      · rw [hout hk, hg, updF_get_same]
        exact hscan
      · have hne : h ≠ k := fun he => hk (he ▸ hmem)
        have hkept : (scanHead s k (answer k)).hdp[h] = s.hdp[h] := by rw [hg, updF_get_other _ _ _ _ hne]
        rw [← hkept]
        exact hin hnd hmem

/-! ## Fuses that have been burned (R534, R536) -/

theorem rowData_fuseRow (d : BitVec 64) (c : Byte) : rowData (fuseRow d c) = d := by
  refine BitVec.eq_of_toNat_eq ?_
  have hd := d.isLt
  have hc := c.isLt
  simp only [rowData, fuseRow, BitVec.toNat_setWidth, BitVec.toNat_ofNat]
  omega

theorem rowBehind_lt (s : State) (w : Fin 256) : rowBehind s w.1 < 272 := by
  unfold rowBehind
  split
  · next k hk =>
    have := List.mem_range.mp (List.mem_reverse.mp (List.mem_of_find?_eq_some hk))
    omega
  · omega

/-- A burn that reads back leaves its bits in the row behind the word, and the word latched with them. -/
theorem burnWord_reads (s : State) (w : Fin 256) (bits : BitVec 64) : (burnWord s w.1 bits []).2 = true ∧
    getN (burnWord s w.1 bits []).1.fus.rows (rowBehind s w.1) 0 = (getN s.fus.rows (rowBehind s w.1) 0 ||| intendedRow s w.1 bits) ∧
    (burnWord s w.1 bits []).1.fus.latched[w] = (s.fus.latched[w] ||| bits) := by
  have hrow := rowBehind_lt s w
  have hburn : burnWord s w.1 bits [] =
      (latchRow (burnRow s (rowBehind s w.1) (intendedRow s w.1 bits)) w.1 (intendedRow s w.1 bits), true) := by
    simp [burnWord, burnTo]
  rw [hburn]
  refine ⟨rfl, ?_, ?_⟩
  · rw [latchRow_rows, burnRow, State.modFus_fus, getN_lt _ _ _ hrow, getN_lt _ _ _ hrow]
    exact (updN_get s.fus.rows _ ⟨_, hrow⟩ _).trans (if_pos rfl)
  · rw [latchRow, State.modFus_fus, updN_get, if_pos rfl, intendedRow, rowData_fuseRow]
    simp

theorem noteWords_latched (s : State) (l : List (Fin 256)) : (noteWords s l).fus.latched = s.fus.latched := by
  rw [noteWords, State.modFus_fus]

theorem fuseBurnDone_reads (s : State) (c : Cmd) {w : Fin 256} (hw : w.1 = Cmd.p8 c 16) :
    (fuseBurnDone s c []).2.status = .ok ∧ getN (fuseBurnDone s c []).1.fus.rows (rowBehind s w.1) 0 =
      (getN s.fus.rows (rowBehind s w.1) 0 ||| intendedRow s w.1 (BitVec.ofNat 64 (Cmd.p64 c 20))) ∧
    (fuseBurnDone s c []).1.fus.latched[w] = (s.fus.latched[w] ||| BitVec.ofNat 64 (Cmd.p64 c 20)) := by
  have hcmd (t : State) (st : Status) : (journalCommand t 0x6A st c).fus = t.fus := same_fus (by simp)
  obtain ⟨hok, hrows, hlatched⟩ := burnWord_reads (noteWords s [Fin.ofNat 256 (Cmd.p8 c 16)]) w (BitVec.ofNat 64 (Cmd.p64 c 20))
  have hbehind (l : List (Fin 256)) : rowBehind (noteWords s l) w.1 = rowBehind s w.1 := by
    unfold rowBehind
    rw [noteWords_latched]
  have hintended (l : List (Fin 256)) (b : BitVec 64) : intendedRow (noteWords s l) w.1 b = intendedRow s w.1 b := by
    unfold intendedRow
    rw [noteWords_latched]
  rw [hbehind, hintended, noteWords_rows] at hrows
  rw [noteWords_latched] at hlatched
  unfold fuseBurnDone
  dsimp only
  rw [← hw] at hok hrows hlatched ⊢
  rw [if_pos hok, hcmd]
  exact ⟨rfl, hrows, hlatched⟩

theorem fuseLockDone_locks (s : State) (c : Cmd) : (fuseLockDone s c).2.status = .ok ∧
    (fuseLockDone s c).1.fus.latched[(239 : Fin 256)] = (s.fus.latched[(239 : Fin 256)] ||| (1#64 <<< Cmd.p8 c 16)) := by
  have hleft : (lockRegion (noteWords s [239]) (Cmd.p8 c 16)).fus.latched[(239 : Fin 256)] =
      (s.fus.latched[(239 : Fin 256)] ||| (1#64 <<< Cmd.p8 c 16)) := by
    rw [lockRegion, State.modFus_fus, updN_get, if_pos (by decide), burnRow, State.modFus_fus, noteWords_latched]
  have hfus : (fuseLockDone s c).1.fus = (lockRegion (noteWords s [239]) (Cmd.p8 c 16)).fus := by
    unfold fuseLockDone
    dsimp only
    split <;> exact same_fus (by simp)
  have hok : (fuseLockDone s c).2.status = .ok := by
    unfold fuseLockDone
    dsimp only
    split <;> rfl
  rw [hfus]
  exact ⟨hok, hleft⟩

/-- Settles O26, by the opcode of the parked command. -/
theorem hardwareResults : Obligations.HardwareResults := by
  intro s c
  refine ⟨fun k hsig hk => ?_, fun mems => ⟨_, _, rfl, rfl, ?_⟩, fun hkind hmove hidle => ?_, fun k hk => ⟨fun hm => ?_, fun hm => ?_⟩,
    fun w hw => ⟨_, _, rfl, fuseBurnDone_reads s c hw⟩, ⟨_, _, rfl, fuseLockDone_locks s c⟩⟩
  · obtain ⟨t, r, x, hload, hok, hw0, hkind, hinst, hver, hact, hstore⟩ := loadImage_good hsig hk
    exact ⟨t, r, congrArg some hload, hok, hw0, x, by rw [hstore, if_pos rfl], hkind, hinst, hver, hact,
      fun j hj => by rw [hstore, if_neg hj]⟩
  · have hfold := foldl_scanHead (fun h => mems.getD h.1 none) ((List.finRange 8).filter fun h => bitOf (Cmd.p8 c 16) h.1) s
    have hnd : ((List.finRange 8).filter fun h => bitOf (Cmd.p8 c 16) h.1).Nodup := (List.nodup_finRange 8).filter _
    have hmem (h : Fin 8) : h ∈ ((List.finRange 8).filter fun h => bitOf (Cmd.p8 c 16) h.1) ↔ bitOf (Cmd.p8 c 16) h.1 = true := by
      simp
    refine ⟨fun h m hbit hm hgood => ((hfold h).2 hnd ((hmem h).mpr hbit)).1 m hm hgood,
      fun h hbit hnone => ((hfold h).2 hnd ((hmem h).mpr hbit)).2 hnone, fun h hbit => (hfold h).1 fun hin => ?_⟩
    rw [hmem, hbit] at hin
    cases hin
  · have hcaps := capMoveDone_caps hmove hidle
    have hdone : headMaintainDone s c = (capMoveDone s (headNumber c), okRes) := by simp [headMaintainDone, hkind]
    refine ⟨_, _, congrArg some hdone, rfl, ?_⟩
    rw [hcaps, updF_get_same]
    exact ⟨rfl, rfl⟩
  · subst hk
    have hdone : calibrateDone s c = some _ := if_neg (by simp [hm])
    refine ⟨_, _, hdone, rfl, rfl, ?_, fun j hj => updF_get_other _ _ _ _ hj⟩
    rw [State.modBtu_btu, updF_get_same]
  · subst hk
    exact if_pos (by simp [hm])

end Sys2Proof.Machine
end

section
/-!
Proof of the statement about the SPI frames that write or submit (O28): a packet that a port takes, the one that waits for
a place of the intake, and the frame whose signature is verified.
-/

namespace Sys2Proof.Machine
open Sys2Proof Sys2Proof.Safety

/-! ## Lists whose last element is looked for -/

section
variable {α : Type} {p : α → Bool} {a : α} {before : List α}

theorem updFirst_append_last (f : α → α) (hb : before.any p = false) (ha : p a = true) :
    updFirst p f (before ++ [a]) = before ++ [f a] := by
  induction before with
  | nil => simp [updFirst, ha]
  | cons b bs ih =>
    simp only [List.any_cons, Bool.or_eq_false_iff] at hb
    simp [updFirst, hb.1, ih hb.2]

theorem eraseP_append_last (hb : before.any p = false) (ha : p a = true) :
    (before ++ [a]).eraseP p = before := by
  induction before with
  | nil => simp [ha]
  | cons b bs ih =>
    simp only [List.any_cons, Bool.or_eq_false_iff] at hb
    simp [hb.1, ih hb.2]

end

/-! ## A packet that a port takes (R123) -/

theorem portAnswers_of_up {s : State} {p : SpiPort} (hk : kettleUp s = true) : portAnswers s p = true := by
  simp only [kettleUp, Bool.and_eq_true] at hk
  cases p
  · exact hk.1.1
  · exact hk.2

/-- A port with a packet of a tag that is not queued there: the packet is queued. -/
def portQueued (s : State) (p : SpiPort) (c : Cmd) : State :=
  (s.modSpi p fun x => { x with queueFull := false }).modSpi p fun x => { x with queue := x.queue ++ [queuedOf c] }

theorem takePacket_new {s : State} {p : SpiPort} {packet : List Byte} (go : State → State)
    (hup : s.sys.up = true) (hroom : (queued (s.spi p)).length < 4)
    (htag : ((queued (s.spi p)).any fun q => q.tag == (cmdOf (SpiPort.source p) packet false).tag) = false) :
    takePacket s p packet go = go (portQueued s p (cmdOf (SpiPort.source p) packet false)) := by
  have htakes : (!s.sys.up || decide (4 ≤ (queued (s.spi p)).length)) = false := by simp [hup, hroom]
  unfold takePacket
  simp only [htakes, htag, Bool.false_eq_true, if_false, portQueued]

@[simp] theorem portQueued_ktl (s : State) (p : SpiPort) (c : Cmd) : (portQueued s p c).ktl = s.ktl := by
  cases p <;> rfl

@[simp] theorem portQueued_sys (s : State) (p : SpiPort) (c : Cmd) : (portQueued s p c).sys = s.sys := by
  cases p <;> rfl

theorem kettleUp_portQueued (s : State) (p : SpiPort) (c : Cmd) : kettleUp (portQueued s p c) = kettleUp s := by
  cases p <;> rfl

theorem portQueued_queue (s : State) (p : SpiPort) (c : Cmd) :
    ((portQueued s p c).spi p).queue = (s.spi p).queue ++ [queuedOf c] := by
  cases p <;> rfl

/-! ## A packet that waits at a port (R155) -/

theorem modKtl_congr {s : State} {f g : Kettle → Kettle} (h : f s.ktl = g s.ktl) : s.modKtl f = s.modKtl g := by
  unfold State.modKtl
  rw [h]

/-- The intake with a packet added that waits at a port. -/
def waiting (s : State) (src : Source) (raw : List Byte) (signed : Bool) (l : List Packet) : State :=
  s.modKtl fun k => { k with intake := l ++ [packetOf src raw signed .port] }

section
variable {s : State} {raw : List Byte} {signed : Bool} {l : List Packet}

theorem waitsAt_waiting (src src' : Source) (hl : l.any (atPort src') = false) :
    waitsAt (waiting s src raw signed l) src' = (src == src') := by
  simp [waitsAt, waiting, hl, atPort, packetOf, cmdOf]

theorem placesTaken_waiting (src : Source) :
    placesTaken (waiting s src raw signed l) = l.countP (·.place == .held) := by
  simp [placesTaken, waiting, packetOf]

theorem takePlace_waiting (src : Source) (turn : Nat) (hl : l.any (atPort src) = false) :
    takePlace (waiting s src raw signed l) src turn =
      s.modKtl fun k => { k with turn := turn, intake := l ++ [packetOf src raw signed .held] } := by
  have hlast : atPort src (packetOf src raw signed .port) = true := by simp [atPort, packetOf, cmdOf]
  refine modKtl_congr (s := s) (f := fun k => { k with
    turn := turn
    intake := updFirst (atPort src) (fun p => { p with place := .held }) (l ++ [packetOf src raw signed .port]) }) ?_
  rw [updFirst_append_last _ hl hlast]
  rfl

/-- The one packet that waits at the ports takes a place of the intake when one is free for it. -/
theorem placeOne_waiting (p : SpiPort) (hk : kettleUp s = true) (hroom : l.countP (·.place == .held) < 15)
    (hsup : l.any (atPort .sup) = false) (hmgmt : l.any (atPort .mgmt) = false) :
    ∃ turn, placeOne (waiting s (SpiPort.source p) raw signed l) =
      s.modKtl fun k => { k with turn := turn, intake := l ++ [packetOf (SpiPort.source p) raw signed .held] } := by
  have hplaces := placesTaken_waiting (s := s) (raw := raw) (signed := signed) (l := l) (SpiPort.source p)
  have hfree : intakeRoom (waiting s (SpiPort.source p) raw signed l) = true := by
    have hup : kettleUp (waiting s (SpiPort.source p) raw signed l) = true := hk
    simp only [intakeRoom, hup, hplaces, Bool.true_and, decide_eq_true_eq]
    omega
  have hkept : decide (15 ≤ placesTaken (waiting s (SpiPort.source p) raw signed l)) = false := by
    simp only [hplaces, decide_eq_false_iff_not]
    omega
  have hs := waitsAt_waiting (s := s) (raw := raw) (signed := signed) (SpiPort.source p) .sup hsup
  have hm := waitsAt_waiting (s := s) (raw := raw) (signed := signed) (SpiPort.source p) .mgmt hmgmt
  unfold placeOne
  simp only [hfree, hkept, hs, hm, Bool.not_true, Bool.and_false, Bool.false_eq_true, if_false]
  cases p with
  | mgmt =>
    refine ⟨2, ?_⟩
    simp [SpiPort.source, ← takePlace_waiting .mgmt 2 hmgmt]
  | sup =>
    refine ⟨1, ?_⟩
    simp [SpiPort.source, ← takePlace_waiting .sup 1 hsup]

/-- The intake takes the one packet that waits at the ports, when a place is free for it (R155). -/
theorem fillIntake_waiting (p : SpiPort) (hk : kettleUp s = true) (hroom : l.countP (·.place == .held) < 15)
    (hsup : l.any (atPort .sup) = false) (hmgmt : l.any (atPort .mgmt) = false) :
    ∃ turn, fillIntake (waiting s (SpiPort.source p) raw signed l) =
      s.modKtl fun k => { k with turn := turn, intake := l ++ [packetOf (SpiPort.source p) raw signed .held] } := by
  obtain ⟨turn, hplaced⟩ := placeOne_waiting (raw := raw) (signed := signed) p hk hroom hsup hmgmt
  refine ⟨turn, ?_⟩
  have hlen : (waiting s (SpiPort.source p) raw signed l).ktl.intake.length = l.length + 1 := by simp [waiting]
  rw [fillIntake, hlen, iter, hplaced]
  refine iter_fixed (placeOne_of_none_waiting ?_ ?_) _
  · simp [waitsAt, hsup, atPort, packetOf]
  · simp [waitsAt, hmgmt, atPort, packetOf]

/-- With no place free the intake takes nothing. -/
theorem fillIntake_full (h : 16 ≤ placesTaken s) : fillIntake s = s := by
  refine iter_fixed ?_ _
  have hroom : intakeRoom s = false := by simp [intakeRoom, h]
  simp [placeOne, hroom]

end

/-! ## A packet that is accepted keeps what waits -/

@[simp] theorem remember_sys (s : State) (c : Cmd) : (remember s c).sys = s.sys := same_sys (by simp)

@[simp] theorem remember_sup (s : State) (c : Cmd) : (remember s c).sup = s.sup := same_sup (by simp)

@[simp] theorem remember_mgt (s : State) (c : Cmd) : (remember s c).mgt = s.mgt := same_mgt (by simp)

@[simp] theorem remember_spi (s : State) (c : Cmd) (p : SpiPort) : (remember s c).spi p = s.spi p := by
  cases p <;> simp [State.spi]

@[simp] theorem remember_dead (s : State) (c : Cmd) : (remember s c).ktl.dead = s.ktl.dead := by
  obtain ⟨_, _, _, hdup⟩ := setDup_ktl s c.src (some ⟨c.seq, none⟩)
  unfold remember
  split
  · rfl
  · rw [State.modKtl_ktl, hdup]

theorem kettleUp_remember (s : State) (c : Cmd) : kettleUp (remember s c) = kettleUp s := by
  simp [kettleUp]

theorem placesTaken_remember (s : State) (c : Cmd) : placesTaken (remember s c) = placesTaken s := by
  unfold placesTaken
  rw [remember_intake]
  split
  · rfl
  · rw [List.countP_map]
    rfl

/-! ## SUBMIT (R123, R147, R155, R156) -/

/-- What SUBMIT does with a packet that the port takes and that passes checks 1 to 5. -/
theorem exec_submit {s : State} {p : SpiPort} {frame : List Byte}
    (hk : kettleUp s = true) (hf : frameIs frame 0x20 66 = true) (hcrc : crcOk frame = true)
    (hroom : (queued (s.spi p)).length < 4)
    (htag : ((queued (s.spi p)).any fun q => q.tag == (cmdOf (SpiPort.source p) (bytesAt frame 1 64) false).tag) = false)
    (h4 : entryFault (opSpecOf (u8 (bytesAt frame 1 64) 0)) (bytesAt frame 1 64) (SpiPort.source p) false = none)
    (h5 : duplicate s (cmdOf (SpiPort.source p) (bytesAt frame 1 64) false) = none) :
    let c := cmdOf (SpiPort.source p) (bytesAt frame 1 64) false
    let u := remember (portQueued s p c) c
    exec (.submit p frame) s = .next (fillIntake (waiting u (SpiPort.source p) (bytesAt frame 1 64) false u.ktl.intake)) := by
  intro c u
  have hup : s.sys.up = true := by
    simp only [kettleUp, Bool.and_eq_true] at hk
    exact hk.1.1
  have hkq : kettleUp (portQueued s p c) = true := by simpa [kettleUp] using hk
  have hktl : (portQueued s p c).ktl = { s.ktl with turn := s.ktl.turn } := portQueued_ktl s p c
  refine congrArg Host.Outcome.next ?_
  rw [submitFrame_good (portAnswers_of_up hk) hf hcrc, takePacket_new _ hup hroom htag, if_pos hkq,
    enter_passed .port h4 ((duplicate_of_turn hktl _).trans h5)]
  rfl

theorem spi_modKtl (s : State) (f : Kettle → Kettle) (p : SpiPort) : (s.modKtl f).spi p = s.spi p := by
  cases p <;> rfl

/-! ## SUBMIT_SIGNED (R131, R156) -/

@[simp] theorem startVerify_ktl (s : State) : (startVerify s).ktl = s.ktl := same_ktl (by simp)

theorem startVerify_none {s : State} (h : s.sup.signed = []) : startVerify s = s := by
  unfold startVerify
  rw [h]

/-! ## SIGNATURE_VERIFIED (R131, R133, R134) -/

section
variable {before : List Packet} (hb : (before.all fun x => x.place == .held) = true)
include hb

theorem held_of_all {x : Packet} (hx : x ∈ before) : x.place = .held := by simpa using List.all_eq_true.1 hb x hx

theorem held_not_atPort (src : Source) : before.any (atPort src) = false := by
  refine List.any_eq_false.2 fun x hx => ?_
  simp [atPort, held_of_all hb hx]

theorem held_not_verifying : before.any (fun x => x.place == .verifying) = false := by
  refine List.any_eq_false.2 fun x hx => ?_
  simp [held_of_all hb hx]

theorem held_count : before.countP (·.place == .held) = before.length :=
  List.countP_eq_length.2 fun x hx => by simp [held_of_all hb hx]

/-- With one packet in verification behind those that stand in the intake, none was accepted after it. -/
theorem laterSequence_last {s : State} {q : Packet} (hq : q.place = .verifying) (hi : s.ktl.intake = before ++ [q]) :
    laterSequence s = false := by
  have hdrop : (before ++ [q]).dropWhile (·.place != .verifying) = [q] := by
    rw [List.dropWhile_append_of_pos fun x hx => by simp [held_of_all hb hx]]
    simp [hq]
  simp [laterSequence, hi, hdrop, hq]

end

/-- The places that packets hold are no affair of a sequence that is stored. -/
theorem remember_intake_last {s : State} (c : Cmd) {before : List Packet} {q : Packet}
    (hb : (before.all fun x => x.place == .held) = true) (hq : q.place = .verifying)
    (hi : s.ktl.intake = before ++ [q]) : ∃ before' q', (remember s c).ktl.intake = before' ++ [q'] ∧
      (before'.all fun x => x.place == .held) = true ∧ before'.length = before.length ∧ q'.place = .verifying := by
  rw [remember_intake, hi]
  split
  · exact ⟨before, q, rfl, hb, rfl, hq⟩
  · rw [List.map_append]
    refine ⟨_, _, rfl, ?_, List.length_map .., hq⟩
    rw [List.all_map]
    exact hb

/-- A verified packet that passes checks 1 to 5 waits at its port for a place. -/
theorem admitVerified_passed {s : State} {f : SignedFrame} {before : List Packet} {q : Packet}
    (hb : (before.all fun x => x.place == .held) = true) (hq : q.place = .verifying) (hi : s.ktl.intake = before ++ [q])
    (h4 : entryFault (opSpecOf (u8 f.packet 0)) f.packet .sup true = none)
    (h5 : duplicate s (cmdOf .sup f.packet true) = none) :
    admitVerified s f = waiting (remember s (cmdOf .sup f.packet true)) .sup f.packet true
      (remember s (cmdOf .sup f.packet true)).ktl.intake.dropLast := by
  obtain ⟨before', q', hi', hb', -, hq'⟩ := remember_intake_last (cmdOf .sup f.packet true) hb hq hi
  have hchecked : checked s (opSpecOf (u8 f.packet 0)) f.packet (cmdOf .sup f.packet true) = none := by
    unfold checked
    rw [show entryFault (opSpecOf (u8 f.packet 0)) f.packet (cmdOf .sup f.packet true).src
      (cmdOf .sup f.packet true).signed = none from h4]
    exact h5
  unfold admitVerified
  simp only [hchecked, laterSequence_last hb hq hi, Bool.false_eq_true, if_false]
  refine modKtl_congr ?_
  simp only [hi', updFirst_append_last _ (held_not_verifying hb') (show (q'.place == .verifying) = true by simp [hq']),
    List.dropLast_concat]

/-- The one frame of the line leaves it. -/
def lineEmptied (s : State) : State := s.modSup fun x => { x with signed := [] }

theorem lineEmptied_ktl (s : State) : (lineEmptied s).ktl = { s.ktl with turn := s.ktl.turn } := rfl

/-- The end of a verification: the packet goes on, or its answer is SIGNATURE. -/
theorem exec_signatureVerified {s : State} {f : SignedFrame} (hm : s.sys.mode ≠ .reset) (hs : s.sup.signed = [f]) :
    exec .signatureVerified s = .next (fillIntake (startVerify (if frameVerified s f then admitVerified (lineEmptied s) f
      else dropVerifying (replySpi (raise (lineEmptied s) 0x06 0) .sup
        ((Res.mk .signature 0 0xFF 0 0 0 0 0 0).reply (cmdOf .sup f.packet true)) true)))) := by
  refine congrArg Host.Outcome.next ?_
  rw [whenUp_eq _ hm]
  unfold verified
  rw [hs]
  rfl

@[simp] theorem raise_sup (s : State) (src detail : Nat) : (raise s src detail).sup = s.sup := same_sup (by simp)

/-- A frame that is verified leaves its packet a place in the intake (R131, R156). -/
theorem signatureVerified_passed {s : State} {f : SignedFrame} {before : List Packet} {q : Packet}
    (hm : s.sys.mode ≠ .reset) (hs : s.sup.signed = [f]) (hi : s.ktl.intake = before ++ [q]) (hq : q.place = .verifying)
    (hb : (before.all fun x => x.place == .held) = true) (hv : frameVerified s f = true) (hk : kettleUp s = true)
    (hroom : before.length < 15) (h4 : entryFault (opSpecOf (u8 f.packet 0)) f.packet .sup true = none)
    (h5 : duplicate s (cmdOf .sup f.packet true) = none) :
    ∃ t, exec .signatureVerified s = .next t ∧ t.sup.signed = [] ∧ t.ktl.intake =
      (remember s (cmdOf .sup f.packet true)).ktl.intake.dropLast ++ [packetOf .sup f.packet true .held] := by
  have hktl := lineEmptied_ktl s
  have hstored := remember_intake_of_turn hktl (cmdOf .sup f.packet true)
  obtain ⟨before', q', hi', hb', hlen, -⟩ := remember_intake_last (cmdOf .sup f.packet true) hb hq hi
  have hdrop : (remember s (cmdOf .sup f.packet true)).ktl.intake.dropLast = before' := by
    rw [hi', List.dropLast_concat]
  have hcount : before'.countP (·.place == .held) < 15 := by
    rw [held_count hb', hlen]
    exact hroom
  have hup : kettleUp (remember (lineEmptied s) (cmdOf .sup f.packet true)) = true := by
    rw [kettleUp_remember]
    exact hk
  obtain ⟨turn, hfill⟩ := fillIntake_waiting (raw := f.packet) (signed := true) .sup hup hcount
    (held_not_atPort hb' .sup) (held_not_atPort hb' .mgmt)
  simp only [SpiPort.source] at hfill
  have hline : (remember (lineEmptied s) (cmdOf .sup f.packet true)).sup.signed = [] := by
    rw [remember_sup]
    rfl
  refine ⟨_, exec_signatureVerified hm hs, ?_⟩
  rw [if_pos hv, admitVerified_passed (s := lineEmptied s) hb hq hi h4 ((duplicate_of_turn hktl _).trans h5), hstored,
    hdrop, startVerify_none (s := waiting _ _ _ _ _) hline, hfill]
  exact ⟨hline, rfl⟩

/-- A frame that is not verified leaves no packet, and its answer is SIGNATURE (R133). -/
theorem signatureVerified_failed {s : State} {f : SignedFrame} {before : List Packet} {q : Packet}
    (hm : s.sys.mode ≠ .reset) (hs : s.sup.signed = [f]) (hi : s.ktl.intake = before ++ [q]) (hq : q.place = .verifying)
    (hb : (before.all fun x => x.place == .held) = true) (hv : frameVerified s f = false)
    (hfind : s.sup.queue.find? (·.tag == (cmdOf .sup f.packet true).tag) =
      some ⟨(cmdOf .sup f.packet true).tag, (cmdOf .sup f.packet true).seq, true, false⟩) :
    ∃ t r, exec .signatureVerified s = .next t ∧ t.sup.signed = [] ∧ t.ktl.intake = before ∧
      t.sup.replies = s.sup.replies ++ [r] ∧ r.status = .signature ∧ r.tag = (cmdOf .sup f.packet true).tag := by
  have hintake : (dropVerifying (replySpi (raise (lineEmptied s) 0x06 0) .sup
      ((Res.mk .signature 0 0xFF 0 0 0 0 0 0).reply (cmdOf .sup f.packet true)) true)).ktl.intake = before := by
    refine Eq.trans ?_ (eraseP_append_last (held_not_verifying hb) (a := q) (by simp [hq]))
    simp [dropVerifying, replySpi, lineEmptied, hi]
  have hsup : (dropVerifying (replySpi (raise (lineEmptied s) 0x06 0) .sup
      ((Res.mk .signature 0 0xFF 0 0 0 0 0 0).reply (cmdOf .sup f.packet true)) true)).sup =
      (replySpi (lineEmptied s) .sup
      ((Res.mk .signature 0 0xFF 0 0 0 0 0 0).reply (cmdOf .sup f.packet true)) true).sup := by
    simp [dropVerifying, replySpi, State.modSpi]
  refine ⟨_, (Res.mk .signature 0 0xFF 0 0 0 0 0 0).reply (cmdOf .sup f.packet true), exec_signatureVerified hm hs, ?_⟩
  rw [hv, if_neg Bool.false_ne_true, startVerify_none (by rw [hsup]; rfl), fillIntake_of_none_waiting, hintake, hsup]
  · have hq' : ((Res.mk .signature 0 0xFF 0 0 0 0 0 0).reply (cmdOf .sup f.packet true)).tag =
      (cmdOf .sup f.packet true).tag := rfl
    refine ⟨rfl, rfl, ?_, rfl, rfl⟩
    simp [replySpi, State.modSpi, lineEmptied, hq', hfind]
  · rw [waitsAt, hintake, held_not_atPort hb]
  · rw [waitsAt, hintake, held_not_atPort hb]

theorem registerFrame_good {frame : List Byte} (hf : frameIs frame 0x02 (9 + 4 * u8 frame 3) = true)
    (hhead : registerHead frame 4 = true) :
    (frameIs frame 0x02 (5 + 4 * (u8 frame 3 + 1)) && registerHead frame 4) = true := by
  rw [show 5 + 4 * (u8 frame 3 + 1) = 9 + 4 * u8 frame 3 by omega, hf, hhead]
  rfl

/-- A good WRITE_REG writes its words (R120). -/
theorem exec_writeReg {s : State} {frame : List Byte} (hup : s.sys.up = true)
    (hf : frameIs frame 0x02 (9 + 4 * u8 frame 3) = true) (hhead : registerHead frame 4 = true)
    (hcrc : crcOk frame = true) :
    exec (.writeReg frame) s = .next (writeWords .mgmt (u16 frame 1) (frame.drop 4) (u8 frame 3 + 1) s) := by
  refine congrArg Host.Outcome.next ?_
  unfold writeFrame
  rw [onFrame_good (p := .mgmt) _ hup (registerFrame_good hf hhead), if_pos hcrc]

/-- The reply timeout of the management port holds what a write of its register gives it, within its bounds (R126). -/
theorem writeReg_timeout (s : State) (v : Word) (hlo : 1 ≤ v.toNat % 16384) (hhi : v.toNat % 16384 ≤ 10000) :
    (writeReg s .mgmt 0x08 v).mgt.timeout = v.toNat % 16384 := by
  simp [writeReg, hlo, hhi]

theorem leAt_drop (l : List Byte) (j k n : Nat) : leAt (l.drop j) k n = leAt l (j + k) n := by
  induction n generalizing k with
  | zero => rfl
  | succ n ih => simp [leAt, ih, u8, Nat.add_assoc]

/-- SUBMIT_SIGNED takes the packet, and the frame stands in line for verification (R131, R156). -/
theorem exec_submitSigned {s : State} {frame : List Byte} (hm : s.sys.mode ≠ .reset) (hup : s.sys.up = true)
    (hf : frameIs frame 0x31 194 = true) (hcrc : crcOk frame = true) (hroom : (queued s.sup).length < 4)
    (htag : ((queued s.sup).any fun q => q.tag == (cmdOf .sup (bytesAt frame 1 64) false).tag) = false) :
    let f : SignedFrame := ⟨bytesAt frame 1 64, bytesAt frame 65 64, bytesAt frame 129 64, 0⟩
    let u := (portQueued s .sup (cmdOf .sup (bytesAt frame 1 64) false)).modSup fun x =>
      { x with signed := x.signed ++ [f] }
    let v := u.modKtl fun k => { k with intake := k.intake ++ [packetOf .sup (bytesAt frame 1 64) true .verifying] }
    exec (.submitSigned frame) s = .next (if s.sup.signed.isEmpty then startVerify v else v) := by
  intro f u v
  have hanswers : portAnswers s .sup = true := by simpa [portAnswers] using hm
  refine congrArg Host.Outcome.next ?_
  unfold signedFrame
  rw [onFrame_good _ hanswers hf, if_neg (by simp [hcrc])]
  exact takePacket_new (p := .sup) _ hup hroom htag

/-- Settles O28: WRITE_REG by the model's own words, SUBMIT by `exec_submit` and `fillIntake_waiting`, SUBMIT_SIGNED by
`startVerify_signed`, SIGNATURE_VERIFIED by `admitVerified_passed`. -/
theorem spiWritesComplete : Obligations.SpiWritesComplete := by
  refine ⟨fun s frame => ⟨fun hup hf hhead hcrc => ⟨⟨_, exec_writeReg hup hf hhead hcrc, rfl⟩, ?_⟩, ?_⟩,
    fun s hm => ⟨?_, ?_⟩⟩
  · intro ha hn hlo hhi
    have hword : (BitVec.ofNat 32 (u32 (frame.drop 4) 0)).toNat = u32 frame 4 := by
      rw [u32, leAt_drop, BitVec.toNat_ofNat]
      exact Nat.mod_eq_of_lt (leAt_lt frame 4 4)
    refine ⟨_, exec_writeReg hup hf hhead hcrc, ?_⟩
    rw [ha, hn]
    refine (writeReg_timeout s _ ?_ ?_).trans ?_ <;> rw [hword]
    · exact hlo
    · exact hhi
  · rintro p packet c rfl rfl hk hf hcrc hroom htag hsup hmgmt h4 h5
    have hexec := exec_submit hk hf hcrc hroom htag h4 h5
    have hktl := portQueued_ktl s p (cmdOf (SpiPort.source p) (bytesAt frame 1 64) false)
    have hturn : (portQueued s p (cmdOf (SpiPort.source p) (bytesAt frame 1 64) false)).ktl =
      { s.ktl with turn := s.ktl.turn } := hktl
    have hstored := remember_intake_of_turn hturn (cmdOf (SpiPort.source p) (bytesAt frame 1 64) false)
    have hplaces : placesTaken (remember (portQueued s p (cmdOf (SpiPort.source p) (bytesAt frame 1 64) false))
        (cmdOf (SpiPort.source p) (bytesAt frame 1 64) false)) = placesTaken s := by
      rw [placesTaken_remember, placesTaken, hktl, placesTaken]
    have hwaits (src) (h : waitsAt s src = false) : waitsAt (remember (portQueued s p
        (cmdOf (SpiPort.source p) (bytesAt frame 1 64) false))
        (cmdOf (SpiPort.source p) (bytesAt frame 1 64) false)) src = false := by
      rw [waitsAt_remember, waitsAt, hktl, ← h, waitsAt]
    have hqueue := portQueued_queue s p (cmdOf (SpiPort.source p) (bytesAt frame 1 64) false)
    refine ⟨fun hfree => ?_, fun hfull => ?_⟩
    · have hup := (kettleUp_remember (portQueued s p (cmdOf (SpiPort.source p) (bytesAt frame 1 64) false))
        (cmdOf (SpiPort.source p) (bytesAt frame 1 64) false)).trans (kettleUp_portQueued s p _ |>.trans hk)
      obtain ⟨turn, hfill⟩ := fillIntake_waiting (raw := bytesAt frame 1 64) (signed := false) p hup
        (by rw [placesTaken] at hplaces; omega) (hwaits .sup hsup) (hwaits .mgmt hmgmt)
      refine ⟨_, hexec, ?_⟩
      rw [hfill, ← hstored]
      exact ⟨by rw [spi_modKtl, remember_spi, hqueue], rfl⟩
    · refine ⟨_, hexec, ?_⟩
      rw [fillIntake_full, ← hstored]
      · exact ⟨by rw [waiting, spi_modKtl, remember_spi, hqueue], rfl⟩
      · rw [placesTaken] at hplaces
        rw [placesTaken_waiting, hplaces]
        exact hfull
  · rintro frame packet c rfl rfl hup hf hcrc hroom htag
    have hexec := exec_submitSigned hm hup hf hcrc hroom htag
    refine ⟨_, hexec, ?_⟩
    cases hline : s.sup.signed <;>
      simp [hline, startVerify, portQueued, State.modSpi]
  · rintro f c before q rfl hs hi hq hb
    exact ⟨fun hv hk hroom h4 h5 => signatureVerified_passed hm hs hi hq hb hv hk hroom h4 h5,
      fun hv hfind => signatureVerified_failed hm hs hi hq hb hv hfind⟩

end Sys2Proof.Machine
end

section
/-!
Proofs of the statements about the rings (O29, O30): what a write of a ring's register makes of it, an entry that is
fetched, and the messages of MSI-X.
-/

namespace Sys2Proof.Machine
open Sys2Proof Sys2Proof.Safety

/-! ## The ring of a name -/

theorem ringOf_of_rings {s t : State} (hcr : t.hif.cr = s.hif.cr) (hig : t.hif.ig = s.hif.ig) (r : RingId) :
    ringOf t r = ringOf s r := by
  cases r <;> simp only [ringOf, hcr, hig]

@[simp] theorem ringOf_linkWake (s : State) (r : RingId) : ringOf (linkWake s) r = ringOf s r := by
  obtain ⟨l, hwake⟩ := linkWake_eq s
  rw [hwake]
  exact ringOf_of_rings rfl rfl r

section
variable {s : State} {r : RingId} {x : Ring} (hx : ringOf s r = some x)
include hx

theorem ringOf_modRing (g : Ring → Ring) : ringOf (modRing s r g) r = some (g x) := by
  cases r with
  | cmd n =>
    simp only [ringOf, Option.some.injEq] at hx
    simp only [ringOf, modRing, State.modCr_hif, updF_get_same, hx]
  | ingest n =>
    simp only [ringOf, Option.some.injEq] at hx
    simp only [ringOf, modRing, State.modIg_hif, updF_get_same, hx]
  | event => simp [ringOf] at hx

theorem ringOf_ringStop (code : Nat) : ringOf (ringStop s r code) r = some { x with err := code } := by
  refine Eq.trans ?_ (ringOf_modRing hx fun x => { x with err := code })
  refine ringOf_of_rings ?_ ?_ r <;> simp [ringStop]

/-- A write of CFG makes of the ring what `ringConfig` says (R106, R110). -/
theorem ringOf_configRing (v : Nat) : ringOf (configRing s r v) r = some (ringConfig v x) := by
  have hmod := ringOf_modRing hx (ringConfig v)
  cases r with
  | cmd n =>
    show ringOf (if bitOf v 8 && !s.hif.cr[n].en && s.hif.cr[n].drained then
      setDup (modRing s (.cmd n) (ringConfig v)) (.ring n) none else modRing s (.cmd n) (ringConfig v)) _ = _
    split <;> exact hmod
  | ingest n => exact hmod
  | event => simp [ringOf] at hx

/-- A tail that is written stops a running ring only where more entries are pending than it holds (R107, R109). -/
theorem ringOf_writeTail (hen : x.en = true) (herr : x.err = 0) (tail : BitVec 16) :
    ∃ y, ringOf (writeTail s r tail) r = some y ∧ y.tail = tail ∧
      y.err = (if 2 ^ x.log2n < (tail - x.head).toNat then 1 else 0) := by
  have hmod := ringOf_modRing hx fun x => { x with tail := tail }
  unfold writeTail
  simp only [hmod, hen, herr, beq_self_eq_true, Bool.true_and, decide_eq_true_eq]
  split
  next => exact ⟨_, ringOf_ringStop hmod 1, rfl, rfl⟩
  next => exact ⟨_, hmod, rfl, herr⟩

/-- A consumer index that is written stops a running ring only where it lies beyond RHEAD (R107, R109). -/
theorem ringOf_writeRtail (hen : x.en = true) (herr : x.err = 0) (rtail : BitVec 16) :
    ∃ y, ringOf (writeRtail s r rtail) r = some y ∧ y.rtail = rtail ∧
      y.err = (if 2 ^ x.log2n < (x.rhead - rtail).toNat then 2 else 0) := by
  have hmod := ringOf_modRing hx fun x => { x with rtail := rtail }
  unfold writeRtail
  simp only [hmod, hen, herr, beq_self_eq_true, Bool.true_and, decide_eq_true_eq]
  split
  next => exact ⟨_, ringOf_ringStop hmod 2, rfl, rfl⟩
  next => exact ⟨_, hmod, rfl, herr⟩

end

/-! ## CFG with EN set or clear (R106, R110) -/

theorem toNat_field (w : Word) (k n : Nat) : w.toNat / 2 ^ k % 2 ^ n = (w.extractLsb' k n).toNat := by
  rw [BitVec.extractLsb'_toNat, Nat.shiftRight_eq_div_pow]

/-- EN is bit 8 alone, so that a field clear of it is the one that the host writes. -/
theorem field_setEn (cfg : Word) {k n : Nat} (h : (0x100#32).extractLsb' k n = 0) :
    (cfg ||| 0x100#32).toNat / 2 ^ k % 2 ^ n = cfg.toNat / 2 ^ k % 2 ^ n := by
  rw [toNat_field, toNat_field, BitVec.extractLsb'_or, h]
  simp

theorem bitOf_setEn (cfg : Word) : bitOf (cfg ||| 0x100#32).toNat 8 = true := by
  rw [bitOf, BitVec.testBit_toNat, BitVec.getLsbD_or]
  simp

theorem bitOf_clearEn (cfg : Word) : bitOf (cfg &&& ~~~(0x100#32)).toNat 8 = false := by
  rw [bitOf, BitVec.testBit_toNat, BitVec.getLsbD_and]
  simp

/-- A drained ring starts from zero (R110). -/
theorem ringConfig_start {x : Ring} (hen : x.en = false) (hdr : x.drained = true) (cfg : Word) :
    ringConfig (cfg ||| 0x100#32).toNat x = { x with
      vector := Fin.ofNat 64 (cfg.toNat / 1024 % 64), coal := cfg.toNat / 65536 % 256
      log2n := if 4 ≤ cfg.toNat % 16 ∧ cfg.toNat % 16 ≤ 12 then cfg.toNat % 16 else x.log2n
      en := true, head := 0, tail := 0, rhead := 0, rtail := 0, err := 0, awaiting := 0, unsignalled := false } := by
  have hlog : (cfg ||| 0x100#32).toNat % 16 = cfg.toNat % 16 := by
    simpa using field_setEn cfg (k := 0) (n := 4) (by decide)
  have hvec := field_setEn cfg (k := 10) (n := 6) (by decide)
  have hcoal := field_setEn cfg (k := 16) (n := 8) (by decide)
  have hsize (n : Nat) : (if n < 4 ∨ 12 < n then x.log2n else n) = if 4 ≤ n ∧ n ≤ 12 then n else x.log2n := by
    grind
  have hbit := bitOf_setEn cfg
  simp only [Nat.reducePow] at hvec hcoal
  generalize (cfg ||| 0x100#32).toNat = v at hlog hvec hcoal hbit ⊢
  simp [ringConfig, hbit, hen, hdr, fieldOf, hlog, hvec, hcoal, hsize]

theorem ringConfig_stop {v : Nat} (h : bitOf v 8 = false) (x : Ring) :
    (ringConfig v x).en = false ∧ (ringConfig v x).head = x.head ∧ (ringConfig v x).rhead = x.rhead ∧
      (ringConfig v x).base = x.base ∧ (ringConfig v x).rbase = x.rbase := by
  simp [ringConfig, h]

theorem eventConfig_start {v : Nat} (h : bitOf v 8 = true) {x : EventRing} (hen : x.en = false) :
    (eventConfig v x).en = true ∧ (eventConfig v x).head = 0 ∧ (eventConfig v x).ctail = 0 := by
  simp [eventConfig, h, hen]

/-- Settles O29: each command by the lemma about the ring that it leaves, over the link that it wakes. -/
theorem ringCommandsComplete : Obligations.RingCommandsComplete := by
  intro s hup
  have hpcie (f : State → State) : Host.Outcome.next (overPcie s f) = (Host.Outcome.next (f (linkWake s)) :
      Host.Outcome State Fault Refusal) := congrArg Host.Outcome.next (overPcie_eq f hup)
  obtain ⟨link, hwake⟩ := linkWake_eq s
  refine ⟨fun r x cfg hx hen hdr => ?_, fun cfg hen => ?_, fun r x cfg hx => ?_, fun r x tail hx hen herr => ?_,
    fun r x rtail hx hen herr => ?_, fun ctail => ?_, fun r x hm hx hen haw => ?_⟩
  · rw [← ringOf_linkWake] at hx
    refine ⟨_, _, hpcie _, ringOf_configRing hx _, ?_⟩
    rw [ringConfig_start hen hdr]
    exact ⟨rfl, rfl, rfl, rfl, rfl, rfl, rfl, rfl, rfl⟩
  · refine ⟨_, hpcie _, ?_⟩
    rw [hwake]
    exact eventConfig_start (x := s.hif.ev) (bitOf_setEn cfg) hen
  · rw [← ringOf_linkWake] at hx
    exact ⟨_, _, hpcie _, ringOf_configRing hx _, ringConfig_stop (bitOf_clearEn cfg) x⟩
  · rw [← ringOf_linkWake] at hx
    obtain ⟨y, hy, hset⟩ := ringOf_writeTail hx hen herr tail
    exact ⟨_, y, hpcie _, hy, hset⟩
  · rw [← ringOf_linkWake] at hx
    obtain ⟨y, hy, hset⟩ := ringOf_writeRtail hx hen herr rtail
    exact ⟨_, y, hpcie _, hy, hset⟩
  · refine ⟨_, hpcie _, ?_⟩
    rw [hwake]
    rfl
  · refine ⟨_, congrArg Host.Outcome.next (whenUp_eq _ hm), ?_⟩
    rw [ringOf_modRing hx]
    simp [hen, haw]

/-! ## An entry that is fetched (R109, R112) -/

@[simp] theorem placeOne_hif (s : State) : (placeOne s).hif = s.hif := same_hif (by simp)
@[simp] theorem fillIntake_hif (s : State) : (fillIntake s).hif = s.hif := same_hif (by simp)
@[simp] theorem remember_hif (s : State) (c : Cmd) : (remember s c).hif = s.hif := same_hif (by simp)

/-- The ring whose entry is taken goes on to the next, owes a reply, and gives the turn on. -/
theorem entryFetched_hif {s : State} {n : Fin 4} {l : List Byte} (hroom : intakeRoom s = true)
    (hring : ringFetches s.hif.cr[n] = true)
    (h4 : entryFault (opSpecOf (u8 (padTo 64 l) 0)) (padTo 64 l) (.ring n) false = none)
    (h5 : duplicate s (cmdOf (.ring n) (padTo 64 l) false) = none) :
    (entryFetched s n (.ok l)).hif = (handedOver s n).hif := by
  have h5' := (duplicate_of_turn (handedOver_ktl s n) _).trans h5
  rw [entryFetched_ok l hring hroom, enter_passed .held h4 h5']
  simp

/-- A fetch that fails stops its ring (R109). -/
theorem entryFetched_failed {s : State} {n : Fin 4} {r : Fetch} (hroom : intakeRoom s = true)
    (hring : ringFetches s.hif.cr[n] = true) (hr : ∀ l, r ≠ .ok l) : entryFetched s n r = ringStop s (.cmd n) 3 := by
  unfold entryFetched
  rw [hring, hroom]
  cases r with
  | ok l => exact absurd rfl (hr l)
  | _ => rfl

@[simp] theorem ringStop_ringErr (s : State) (r : RingId) (code : Nat) : (ringStop s r code).hif.ringErr = true := by
  simp [ringStop]

/-! ## Messages (R111, R114) -/

theorem sendMsix_unmasked {s : State} {v : Fin 64} (hm : s.hif.msix[v].masked = false) (hf : s.hif.funcMask = false) :
    sendMsix s v = emit s (.msix v) := by
  unfold sendMsix
  rw [hm, hf]
  rfl

/-- A vector whose message has left. -/
def messageSent (s : State) (v : Fin 64) : State :=
  emit (s.modHif fun h => { h with pba := h.pba &&& ~~~(1#64 <<< v.1) }) (.msix v)

theorem sendPending_sent {s : State} {v : Fin 64} (hp : s.hif.pba.getLsbD v.1 = true)
    (hm : s.hif.msix[v].masked = false) (hf : s.hif.funcMask = false) : sendPending s v = messageSent s v := by
  unfold sendPending
  rw [hp, hm, hf]
  rfl

theorem sendPending_none {s : State} {v : Fin 64} (hp : s.hif.pba.getLsbD v.1 = false) : sendPending s v = s := by
  unfold sendPending
  rw [hp]
  rfl

theorem messageSent_pba (s : State) (v : Fin 64) : (messageSent s v).hif.pba.getLsbD v.1 = false := by
  simp [messageSent]

theorem emit_msix_out (s : State) (v : Fin 64) : (emit s (.msix v)).out = s.out ++ [.msix v] := rfl

theorem messageSent_out (s : State) (v : Fin 64) : (messageSent s v).out = s.out ++ [.msix v] := rfl

/-- With no message pending none is sent. -/
theorem foldl_sendPending_none {s : State} (hp : s.hif.pba = 0) (l : List (Fin 64)) : l.foldl sendPending s = s := by
  induction l with
  | nil => rfl
  | cons w l ih => rw [List.foldl_cons, sendPending_none (by simp [hp]), ih]

/-- Of several vectors the one that has a message pending sends it. -/
theorem foldl_sendPending_one {s : State} {v : Fin 64} (hp : s.hif.pba = 1#64 <<< v.1)
    (hm : s.hif.msix[v].masked = false) (hf : s.hif.funcMask = false) {l : List (Fin 64)} (hv : v ∈ l) :
    l.foldl sendPending s = messageSent s v := by
  have hbit (w : Fin 64) : s.hif.pba.getLsbD w.1 = decide (v = w) := by
    rw [hp, ← BitVec.twoPow_eq, BitVec.getLsbD_twoPow]
    simp [Fin.ext_iff]
  induction l with
  | nil => simp at hv
  | cons w l ih =>
    rw [List.foldl_cons]
    by_cases hw : v = w
    · subst hw
      rw [sendPending_sent (by simp [hbit]) hm hf, foldl_sendPending_none]
      simp [messageSent, hp]
    · rw [sendPending_none (by rw [hbit, decide_eq_false hw]), ih]
      simpa [hw] using hv

@[simp] theorem modRing_msix (s : State) (r : RingId) (g : Ring → Ring) : (modRing s r g).hif.msix = s.hif.msix := by
  cases r <;> rfl

@[simp] theorem modRing_funcMask (s : State) (r : RingId) (g : Ring → Ring) :
    (modRing s r g).hif.funcMask = s.hif.funcMask := by
  cases r <;> rfl

@[simp] theorem modRing_out (s : State) (r : RingId) (g : Ring → Ring) : (modRing s r g).out = s.out := by
  cases r <;> rfl

/-- The one message of a ring whose replies wait for it (R111). -/
theorem exec_replyCoalesceExpiry {s : State} {r : RingId} {x : Ring} (hm : s.sys.mode ≠ .reset)
    (hx : ringOf s r = some x) (huns : x.unsignalled = true) (hmask : s.hif.msix[x.vector].masked = false)
    (hf : s.hif.funcMask = false) : exec (.replyCoalesceExpiry r) s =
      .next (emit (modRing s r fun y => { y with unsignalled := false }) (.msix x.vector)) := by
  refine congrArg Host.Outcome.next ?_
  rw [whenUp_eq _ hm]
  simp only [hx, huns, if_true]
  refine sendMsix_unmasked ?_ ?_
  · rw [modRing_msix, hmask]
  · rw [modRing_funcMask, hf]

/-- Settles O30: the entry by `entryFetched_hif` and `entryFetched_intake`, a failed fetch by `entryFetched_failed`, the
messages by `sendMsix_unmasked`, `sendPending_sent` and `foldl_sendPending_one`. -/
theorem ringEventsComplete : Obligations.RingEventsComplete := by
  intro s
  obtain ⟨link, hwake⟩ := linkWake_eq s
  have hktl : (linkWake s).ktl = { s.ktl with turn := s.ktl.turn } := by rw [hwake]; rfl
  have hup (hroom : intakeRoom s = true) : s.sys.up = true := by
    simp only [intakeRoom, kettleUp, Bool.and_eq_true] at hroom
    exact hroom.1.1.1
  have hroomWake (hroom : intakeRoom s = true) : intakeRoom (linkWake s) = true := by rw [hwake]; exact hroom
  have hringWake (n : Fin 4) (hring : ringFetches s.hif.cr[n] = true) :
      ringFetches (linkWake s).hif.cr[n] = true := by rw [hwake]; exact hring
  refine ⟨?_, fun n r hroom hturn hring hr => ?_, fun r x hm hx huns hmask hf => ?_, fun v hup hf hp => ?_,
    fun v hup hp hmask => ?_⟩
  · rintro n l c rfl hroom hturn hring h4 h5 hsup hmgmt
    have h5' := (duplicate_of_turn hktl _).trans h5
    refine ⟨_, ringEntryFetched_turn (.ok l) (hup hroom) hturn hring, ?_⟩
    rw [entryFetched_hif (hroomWake hroom) (hringWake n hring) h4 h5',
      entryFetched_intake (hroomWake hroom) (hringWake n hring) (by rw [hwake]; exact hsup)
        (by rw [hwake]; exact hmgmt) h4 h5', remember_intake_of_turn hktl, hwake]
    simp [handedOver, updF]
  · refine ⟨_, ringEntryFetched_turn r (hup hroom) hturn hring, ?_⟩
    have hstop := ringOf_ringStop (s := linkWake s) (r := .cmd n) rfl 3
    simp only [ringOf, Option.some.injEq] at hstop
    rw [entryFetched_failed (hroomWake hroom) (hringWake n hring) hr, hstop, hwake]
    exact ⟨rfl, ringStop_ringErr _ _ _, rfl⟩
  · refine ⟨_, exec_replyCoalesceExpiry hm hx huns hmask hf, ?_, ?_⟩
    · rw [ringOf_of_rings (congrArg Hif.cr (emit_hif _ _)) (congrArg Hif.ig (emit_hif _ _)) r]
      exact ringOf_modRing hx _
    · rw [emit_msix_out, modRing_out]
  · refine ⟨_, congrArg Host.Outcome.next ((overPcie_eq _ hup).trans (sendPending_sent ?_ ?_ ?_)), ?_⟩
    · rw [hwake]
      exact hp
    · simp only [State.modHif_hif, updF_get_same]
    · rw [hwake]
      exact hf
    · rw [messageSent_out]
      refine ⟨?_, messageSent_pba _ v, by rw [hwake]; rfl⟩
      simp [messageSent, updF]
  · refine ⟨_, congrArg Host.Outcome.next ((overPcie_eq _ hup).trans
      (foldl_sendPending_one (v := v) ?_ ?_ ?_ (List.mem_finRange v))), ?_⟩
    · rw [hwake]
      exact hp
    · rw [hwake]
      exact hmask
    · rfl
    · rw [messageSent_out, hwake]
      exact ⟨rfl, by simp [messageSent, hp], rfl⟩

end Sys2Proof.Machine
end

section
/-!
Proof of the statement about resets and states of the PCIe endpoint (O32): what a reset of the endpoint leaves of the rings
and of what the Kettle has in progress, and the states of the link.
-/

namespace Sys2Proof.Machine
open Sys2Proof Sys2Proof.Safety

/-! ## A reset of the endpoint (R61, R102, R103) -/

theorem foldl_same_ktl {α : Type} {f : State → α → State} (h : ∀ s a, (f s a).ktl = s.ktl) (l : List α) (s : State) :
    (l.foldl f s).ktl = s.ktl :=
  List.foldlRecOn (motive := fun t => t.ktl = s.ktl) l f rfl fun t ht a _ => (h t a).trans ht

/-- The encode lane of a descriptor that a reset drops ends its attempt. -/
def laneReleased (s : State) (d : Ingest) : State :=
  match d.worker with
  | some n => s.modEnc n Lane.ended
  | none => s

theorem laneReleased_ktl (s : State) (d : Ingest) : (laneReleased s d).ktl = s.ktl := by
  unfold laneReleased
  split <;> rfl

/-- What the Kettle has in progress stays in its place; the duplicate stores of the rings alone go. -/
theorem endpointReset_ktl (s : State) :
    (endpointReset s).ktl.dupRing = Vector.replicate 4 none ∧ (endpointReset s).ktl.dupMgmt = s.ktl.dupMgmt ∧
      (endpointReset s).ktl.dupSup = s.ktl.dupSup ∧ (endpointReset s).ktl.parked.length = s.ktl.parked.length ∧
      (endpointReset s).ktl.intake.length = s.ktl.intake.length := by
  have hktl : (s.cad.ingest.foldl laneReleased s).ktl = s.ktl := foldl_same_ktl laneReleased_ktl _ _
  exact ⟨rfl, (congrArg Kettle.dupMgmt hktl :), (congrArg Kettle.dupSup hktl :),
    (List.length_map ..).trans (congrArg (fun k => k.parked.length) hktl),
    (List.length_map ..).trans (congrArg (fun k => k.intake.length) hktl)⟩

/-- The commands that reset the endpoint, and the state of the link that each leaves. -/
theorem exec_endpointDown {s : State} (hm : s.sys.mode ≠ .reset) {i : Instr} {l : Link}
    (hi : i = .perstNAssert ∧ l = .held ∨ i = .hotReset ∧ linked s = true ∧ l = .training ∨
      i = .functionLevelReset ∧ linked s = true ∧ l = .up) :
    ∃ u detail, exec i s = .next (endpointDown u l detail) ∧ u.ktl = s.ktl := by
  obtain ⟨rfl, rfl⟩ | ⟨rfl, hlink, rfl⟩ | ⟨rfl, hlink, rfl⟩ := hi
  · exact ⟨s.modHif fun h => { h with perstLow := true }, 1, congrArg Host.Outcome.next
      (whenUp_eq (s := s.modHif fun h => { h with perstLow := true }) (fun u => endpointDown u .held 1) hm), rfl⟩
  · exact ⟨s, 2, congrArg Host.Outcome.next ((whenUp_eq _ hm).trans (if_pos hlink)), rfl⟩
  · exact ⟨s, 3, congrArg Host.Outcome.next ((whenUp_eq _ hm).trans (if_pos hlink)), rfl⟩

theorem linkUp_cases {s : State} (hm : s.sys.mode ≠ .reset) (h : s.hif.link ≠ .held) :
    exec .linkUp s = .next (s.modHif fun h => { h with link := .up }) := by
  refine congrArg Host.Outcome.next ((whenUp_eq _ hm).trans ?_)
  split
  next hheld => exact absurd hheld h
  next => rfl

/-- Settles O32: a reset by `exec_endpointDown` and `endpointReset_ktl`, the link's other commands by their one branch. -/
theorem linkCommandsComplete : Obligations.LinkCommandsComplete := by
  intro s hm
  refine ⟨fun i l hi => ?_, fun hlow => ?_, fun hheld => ⟨_, linkUp_cases hm hheld, rfl, rfl⟩, fun hlink => ?_, ?_,
    fun hstandby hup => ?_⟩
  · obtain ⟨u, detail, hexec, hktl⟩ := exec_endpointDown hm hi
    have hkept := endpointReset_ktl u
    rw [hktl] at hkept
    obtain ⟨hring, hmgmt, hsup, hparked, hintake⟩ := hkept
    refine ⟨_, hexec, ?_⟩
    simp only [endpointDown, raise_hif, raise_ktl, raise_cad]
    exact ⟨rfl, rfl, rfl, rfl, rfl, rfl, rfl, hring, hmgmt, hsup, hparked, hintake, rfl⟩
  · exact ⟨_, congrArg Host.Outcome.next ((whenUp_eq (s := s.modHif fun h => { h with perstLow := false }) _ hm).trans
      (if_pos hlow)), rfl, rfl⟩
  · exact ⟨_, congrArg Host.Outcome.next ((whenUp_eq _ hm).trans (if_pos hlink)), rfl⟩
  · exact ⟨_, congrArg Host.Outcome.next (whenUp_eq _ hm), rfl⟩
  · have hl1 : (s.sys.mode == .standby && s.hif.link == .up) = true := by rw [hstandby, hup]; rfl
    exact ⟨_, congrArg Host.Outcome.next ((whenUp_eq _ hm).trans (if_pos hl1)), rfl⟩

end Sys2Proof.Machine
end

section
/-!
Proof of the statement about the rows of ingest descriptors (O40): a descriptor that is fetched, started, read or ended.
-/

namespace Sys2Proof.Machine
open Sys2Proof Sys2Proof.Safety

/-! ## A descriptor that ends (R218, R220) -/

/-- With no descriptor in progress none waits for a lane. -/
theorem encodeWaiting_none {s : State} (h : s.cad.ingest = []) : encodeWaiting s = s := by
  rw [encodeWaiting, h, List.foldl_nil]

/-- The only descriptor ends, and nothing is stored of it. -/
theorem completeIngest_only {s : State} {d : Ingest} (hs : s.cad.ingest = [d]) (r : IgRes) :
    (encodeWaiting (completeIngest s d r)).cad.ingest = [] ∧
      (encodeWaiting (completeIngest s d r)).cad.leaves = s.cad.leaves := by
  have hcad := completeIngest_cad s d r
  have hnone : (completeIngest s d r).cad.ingest = [] := by simp [hcad, hs]
  rw [encodeWaiting_none hnone]
  exact ⟨hnone, by rw [hcad]⟩

/-! ## A descriptor that is fetched (R108, R219) -/

theorem descriptorFetched_served {s : State} {ring : Fin 8} (l : List Byte) (hring : ringFetches s.hif.ig[ring] = true)
    (hserved : ingestServed s.sys.mode = true) : descriptorFetched s ring (.ok l) =
      (s.modIg ring fun x => { x with head := x.head + 1, awaiting := x.awaiting + 1, drained := false }).modCad fun c =>
        { c with ingest := c.ingest ++ [⟨ring, padTo 64 l, .queued, none, []⟩] } := by
  unfold descriptorFetched
  rw [hring]
  exact if_pos hserved

/-! ## A descriptor that starts (R219) -/

theorem findSheet_of_led {s t : State} (h : t.led = s.led) (job : Word) (handle : BitVec 16) :
    findSheet t job handle = findSheet s job handle := by
  unfold findSheet sheets
  rw [h]

theorem igSheet_of_led {s t : State} (h : t.led = s.led) (b : List Byte) : igSheet t b = igSheet s b := by
  unfold igSheet
  rw [findSheet_of_led h, h]

/-- The turn of the rings has no part in the checks at the start of a ready-made Leaf. -/
theorem igStartFault_turn (s : State) (n : Nat) {d : Ingest} (hkind : igKind d.bytes = 0) :
    igStartFault (s.modCad fun c => { c with turn := n }) d = igStartFault s d := by
  unfold igStartFault
  dsimp only
  rw [hkind, igSheet_of_led (State.modCad_led s _)]
  rfl

/-- A ready-made Leaf that passes the checks of its start has its source read. -/
theorem startIngest_leaf {s : State} {d : Ingest} (hfault : igStartFault s d = none) (hkind : igKind d.bytes = 0) :
    startIngest s d = toPhase (s.modCad fun c => { c with turn := (d.ring.1 + 1) % 8 }) d (.reading none) := by
  rw [← igStartFault_turn s ((d.ring.1 + 1) % 8) hkind] at hfault
  unfold startIngest
  dsimp only
  split
  next r h =>
    rw [hfault] at h
    contradiction
  next =>
    rw [hkind]
    rfl

theorem exec_ingestStart {s : State} {d : Ingest} (hm : s.sys.mode ≠ .reset) (hnext : nextIngest s = some d)
    (hfault : igStartFault s d = none) (hkind : igKind d.bytes = 0) : exec .ingestStart s =
      .next (toPhase (s.modCad fun c => { c with turn := (d.ring.1 + 1) % 8 }) d (.reading none)) := by
  refine congrArg Host.Outcome.next ((whenUp_eq _ hm).trans ?_)
  simp only [hnext, startIngest_leaf hfault hkind]

/-! ## A source that has been read (R213, R220) -/

/-- The only descriptor, when its source can be read, is found by its ring and tag. -/
theorem find_readable {s : State} {d : Ingest} (hs : s.cad.ingest = [d]) (hd : readable d = true) :
    (s.cad.ingest.find? fun x => x.ring == d.ring && igTag x.bytes == (BitVec.ofNat 16 (igTag d.bytes)).toNat &&
      readable x) = some d := by
  rw [hs, igTag_toNat]
  simp [hd]

theorem exec_ingestSourceReadDone {s : State} {d : Ingest} (hup : s.sys.up = true) (hs : s.cad.ingest = [d])
    (hd : readable d = true) (r : Fetch) :
    exec (.ingestSourceReadDone d.ring (BitVec.ofNat 16 (igTag d.bytes)) r) s = .next (sourceRead (linkWake s) d r) := by
  obtain ⟨link, hwake⟩ := linkWake_eq s
  refine congrArg Host.Outcome.next ?_
  rw [overPcie_eq _ hup, hwake]
  simp only [State.modHif_cad, find_readable hs hd]

theorem headerFault_modHif (s : State) (g : Hif → Hif) (e : Sheet) (d l : List Byte) :
    headerFault (s.modHif g) e d l = headerFault s e d l := by
  have hkey : keyFault (s.modHif g) e (igKey d) = keyFault s e (igKey d) := rfl
  unfold headerFault
  dsimp only
  rw [hkey]

/-- A ready-made Leaf whose header passes its checks is written. -/
theorem sourceRead_leaf {s : State} {d : Ingest} {l : List Byte} {i : Fin 512} {e : Sheet} (hw : d.worker = none)
    (hsheet : findSheet s (igJob d.bytes) (keyHandle (igKey d.bytes)) = some (i, e))
    (hhead : headerFault s e d.bytes l = none) : sourceRead s d (.ok l) =
      toPhase s d (.writing (leafOf (igJob d.bytes) l (bytesAt l 64 (u32 l 0x10))) false) := by
  unfold sourceRead leafRead
  dsimp only
  rw [hw, hsheet]
  dsimp only
  rw [hhead]

theorem sourceRead_failed {s : State} {d : Ingest} {r : Fetch} (hr : ∀ l, r ≠ .ok l) :
    sourceRead s d r = encodeWaiting (completeIngest s d (igFail .badParam 0x08 8)) := by
  cases r with
  | ok l => exact absurd rfl (hr l)
  | _ => rfl

/-! ## The deadline of a descriptor (R218) -/

theorem exec_ingestDeadlineExpiry {s : State} {d : Ingest} (hm : s.sys.mode ≠ .reset) (hs : s.cad.ingest = [d])
    (hd : igDeadline d.bytes ≠ 0) (hcoming : coming s (ingestEnds s d) = false) :
    exec (.ingestDeadlineExpiry d.ring (BitVec.ofNat 16 (igTag d.bytes))) s =
      .next (encodeWaiting (completeIngest s d (igFail .timeout (if d.running then 0x0C else 0x0B)))) := by
  have hfind : (s.cad.ingest.find? fun x => x.ring == d.ring && igTag x.bytes == (BitVec.ofNat 16 (igTag d.bytes)).toNat &&
      igDeadline x.bytes != 0) = some d := by
    rw [hs, igTag_toNat]
    simp [hd]
  refine congrArg Host.Outcome.next ((whenUp_eq _ hm).trans ?_)
  simp only [hfind]
  exact giveWay_eq hcoming

/-- Settles O40: a descriptor accepted by `descriptorFetched_served`, started by `startIngest_leaf`, written by
`sourceRead_leaf`, and ended by `completeIngest_only`. -/
theorem ingestRowsComplete : Obligations.IngestRowsComplete := by
  intro s
  obtain ⟨link, hwake⟩ := linkWake_eq s
  refine ⟨fun ring l hup hring hserved => ?_, fun d hm hnext hfault hkind => ?_,
    fun d l i e hup hs hphase hkind hsheet hhead => ?_, fun d r hup hs hd hr => ?_, fun d hm hs hd hcoming => ?_⟩
  · refine ⟨_, congrArg Host.Outcome.next ((overPcie_eq _ hup).trans (descriptorFetched_served l ?_ ?_)), ?_⟩
    · rw [hwake]
      exact hring
    · rw [hwake]
      exact hserved
    · rw [hwake]
      simp [updF]
  · exact ⟨_, exec_ingestStart hm hnext hfault hkind, rfl, rfl⟩
  · have hd : readable d = true := by simp [readable, hphase, hkind]
    have hw : d.worker = none := by rw [Ingest.worker, hphase]
    refine ⟨_, exec_ingestSourceReadDone hup hs hd (.ok l), ?_⟩
    rw [hwake, sourceRead_leaf hw ((findSheet_of_led (State.modHif_led s _) _ _).trans hsheet)
      ((headerFault_modHif s _ e _ _).trans hhead)]
    exact toPhase_only hs _
  · refine ⟨_, exec_ingestSourceReadDone hup hs hd r, ?_⟩
    have hcad : (linkWake s).cad = s.cad := by rw [hwake, State.modHif_cad]
    have hended := completeIngest_only (s := linkWake s) (by rw [hcad, hs]) (igFail .badParam 0x08 8)
    rw [sourceRead_failed hr, ← hcad]
    exact hended
  · exact ⟨_, exec_ingestDeadlineExpiry hm hs hd hcoming, completeIngest_only hs _⟩

end Sys2Proof.Machine
end

section
/-!
Proof of the statement about lanes (O42): the end of a test, a periodic test that falls due, a lane fault, and CODEC_RUN.
-/

namespace Sys2Proof.Machine
open Sys2Proof Sys2Proof.Safety

/-! ## The lane of a name -/

theorem laneAt_of_cdc {s t : State} (h : t.cdc = s.cdc) (id : LaneId) : laneAt t id = laneAt s id := by
  cases id <;> simp only [laneAt, h]

@[simp] theorem laneAt_modLane_same (s : State) (id : LaneId) (g : Lane → Lane) :
    laneAt (modLane s id g) id = g (laneAt s id) := by
  cases id with
  | dec n => exact updF_get_same s.cdc.dec n g
  | enc n => exact updF_get_same s.cdc.enc n g

theorem laneAt_modLane_other (s : State) {id j : LaneId} (h : j ≠ id) (g : Lane → Lane) :
    laneAt (modLane s id g) j = laneAt s j := by
  cases id with
  | dec n => cases j with
    | dec m => exact updF_get_other s.cdc.dec n m g fun e => h (congrArg LaneId.dec e)
    | enc m => rfl
  | enc n => cases j with
    | dec m => rfl
    | enc m => exact updF_get_other s.cdc.enc n m g fun e => h (congrArg LaneId.enc e)

theorem modLane_katRuns (s : State) (id : LaneId) (g : Lane → Lane) : (modLane s id g).cdc.katRuns = s.cdc.katRuns := by
  cases id <;> rfl

/-- A raise on a lane leaves its cause with it, and changes nothing else of the lanes (R269). -/
theorem laneRaise_cdc (s : State) (id : LaneId) (cause : Nat) :
    (laneRaise s id cause).cdc = (modLane s id fun l => { l with lastCause := cause }).cdc := by
  simp [laneRaise]

theorem laneRaise_dec (s : State) (n : Fin 16) (cause : Nat) :
    (laneRaise s (.dec n) cause).cdc.dec[n] = { s.cdc.dec[n] with lastCause := cause } := by
  rw [laneRaise_cdc]
  exact updF_get_same ..

theorem laneRaise_enc (s : State) (n : Fin 12) (cause : Nat) :
    (laneRaise s (.enc n) cause).cdc.enc[n] = { s.cdc.enc[n] with lastCause := cause } := by
  rw [laneRaise_cdc]
  exact updF_get_same ..

/-! ## Tests (R264, R265) -/

@[simp] theorem modLane_cad (s : State) (id : LaneId) (g : Lane → Lane) : (modLane s id g).cad = s.cad := by
  cases id <;> rfl

/-- A test that has run, and the raise where the lane has failed it. -/
def tested (s : State) (id : LaneId) (pass : Bool) : State :=
  let s := s.modCdc fun c => { c with katRuns := inc32 c.katRuns }
  if pass then s else laneRaise s id 0x01

section
variable (s : State) (id : LaneId) (pass : Bool)

theorem tested_cad : (tested s id pass).cad = s.cad := by
  unfold tested
  split
  · rfl
  · rw [laneRaise, raise_cad, modLane_cad, State.modCdc_cad]

theorem tested_katRuns : (tested s id pass).cdc.katRuns = inc32 s.cdc.katRuns := by
  unfold tested
  split
  · rfl
  · rw [laneRaise_cdc, modLane_katRuns, State.modCdc_cdc]

theorem tested_other {j : LaneId} (hj : j ≠ id) : laneAt (tested s id pass) j = laneAt s j := by
  unfold tested
  split
  · cases j <;> rfl
  · rw [laneAt_of_cdc (laneRaise_cdc _ _ _), laneAt_modLane_other _ hj]
    cases j <;> rfl

theorem tested_testDue : (laneAt (tested s id pass) id).testDue = (laneAt s id).testDue := by
  unfold tested
  split
  · cases id <;> rfl
  · rw [laneAt_of_cdc (laneRaise_cdc _ _ _), laneAt_modLane_same]
    cases id <;> rfl

end

/-- A test that ends leaves its lane idle, whatever its verdict: a lane that fails is fenced by the fabric. -/
theorem testEnded_idle {s : State} {id : LaneId} (hst : (laneAt s id).state = .test)
    (hdue : (laneAt s id).testDue = false) (hs : s.cad.ingest = []) (pass : Bool) :
    (laneAt (testEnded s id pass) id).state = .idle ∧ (laneAt (testEnded s id pass) id).periodic = false ∧
      (testEnded s id pass).cdc.katRuns = inc32 s.cdc.katRuns ∧
      ∀ j, j ≠ id → laneAt (testEnded s id pass) j = laneAt s j := by
  have hended : testEnded s id pass = encodeWaiting (modLane (tested s id pass) id fun l => { l with
      state := if l.testDue then .test else .idle, periodic := false, testDue := false, periodicDue := false }) := by
    unfold testEnded
    rw [if_neg (by simp [hst])]
    rfl
  rw [hended, encodeWaiting_none (by rw [modLane_cad, tested_cad, hs]), laneAt_modLane_same, tested_testDue, hdue,
    modLane_katRuns, tested_katRuns]
  exact ⟨rfl, rfl, rfl, fun j hj => (laneAt_modLane_other _ hj _).trans (tested_other s id pass hj)⟩

/-! ## Lane faults (R246, R263, R267, R284) -/

theorem Lane.ended_assign (l : Lane) : l.ended.assign = none := by
  unfold Lane.ended
  split
  · rfl
  · split
    · rfl
    · split
      · rfl
      · split <;> rfl

theorem Lane.ended_lastCause (l : Lane) : l.ended.lastCause = l.lastCause := by
  unfold Lane.ended
  split
  · rfl
  · split
    · rfl
    · split
      · rfl
      · split <;> rfl

theorem Lane.ended_leaves_steep (l : Lane) : l.ended.state ≠ .steep := by
  unfold Lane.ended
  split
  next h =>
    intro hsteep
    rw [show l.state = .steep from hsteep] at h
    exact absurd h (by decide)
  · split
    · exact LaneState.noConfusion
    · split
      · exact LaneState.noConfusion
      · split <;> exact LaneState.noConfusion

/-- The lane of a migrated attempt keeps all but the attempt. -/
theorem migrateFrom_lane (s : State) (n : Fin 16) : (migrateFrom s n).cdc.dec[n] = { s.cdc.dec[n] with assign := none } := by
  unfold migrateFrom
  split
  next h => rw [← h]
  next a h =>
    have hband (t : State) (k : Fin 6) (b : Nat) (g : Band → Band) : (modBand t k b g).cdc = t.cdc := rfl
    have hover (t : State) (job key : Word) : (attemptOver t job key).cdc = t.cdc := same_cdc (by simp)
    dsimp only
    rw [hover, State.modDec_cdc, updF_get_same]
    split
    · rw [hband]
    · rfl

/-- The bytes that a lane wrote for an assignment that is no longer the band's count as stale (R283). -/
def attemptCounted (s : State) (n : Fin 16) : State :=
  match s.cdc.dec[n].assign with
  | some a => if (currentBand s n a).isNone then staleReport s 4800 else s
  | none => s

theorem attemptCounted_cdc (s : State) (n : Fin 16) : (attemptCounted s n).cdc = s.cdc := by
  unfold attemptCounted
  split
  · split <;> rfl
  · rfl

/-- An attempt whose lane fails ends with outcome 0x10 (R246, R267). -/
theorem laneFault_steep {s : State} {n : Fin 16} (hst : s.cdc.dec[n].state = .steep) (cause : Nat) :
    ∃ l : Lane, l.fails = s.cdc.dec[n].fails ∧ l.lastCause = cause ∧ (laneFault s (.dec n) cause).cdc.dec[n] =
      { l.ended with lastOutcome := 0x10, fails := inc32 l.fails } := by
  refine ⟨(migrateFrom (attemptCounted (laneRaise s (.dec n) cause) n) n).cdc.dec[n], ?_, ?_, ?_⟩
  · rw [migrateFrom_lane, attemptCounted_cdc, laneRaise_dec]
  · rw [migrateFrom_lane, attemptCounted_cdc, laneRaise_dec]
  · unfold laneFault
    dsimp only [laneAt]
    rw [hst]
    exact updF_get_same ..

/-- An encode lane whose run has ended with a fault: nothing is saved, and the cause stands. -/
def Lane.Cut (cause : Nat) (l : Lane) : Prop := l.saved = none ∧ l.lastCause = cause

theorem Lane.Cut.ended {cause : Nat} {l : Lane} (h : l.Cut cause) : l.ended.Cut cause := by
  obtain ⟨hsaved, hcause⟩ := h
  refine ⟨?_, l.ended_lastCause.trans hcause⟩
  unfold Lane.ended
  split
  · exact hsaved
  · split
    · rfl
    · split
      · exact hsaved
      · split <;> exact hsaved

/-- What every encode lane keeps under an update, lane n keeps. -/
theorem modEnc_keeps {P : Lane → Prop} {s : State} {n : Fin 12} (h : P s.cdc.enc[n]) (m : Fin 12) {g : Lane → Lane}
    (hg : ∀ l, P l → P (g l)) : P (s.modEnc m g).cdc.enc[n] := by
  rw [State.modEnc_cdc]
  by_cases hm : n = m
  · subst hm
    rw [updF_get_same]
    exact hg _ h
  · rw [updF_get_other _ _ _ _ hm]
    exact h

theorem completeIngest_cut {s : State} {n : Fin 12} {cause : Nat} (h : Lane.Cut cause s.cdc.enc[n]) (d : Ingest)
    (r : IgRes) : Lane.Cut cause (completeIngest s d r).cdc.enc[n] := by
  have hdone : (completeIngest s d r).cdc = (laneDone s d r.status).cdc := by
    unfold completeIngest
    dsimp only
    rw [same_cdc (replyIg_view _ _ _ _ (by decide) (by decide))]
    split
    · rw [raise_cdc, State.modCad_cdc]
    · rfl
  rw [hdone]
  unfold laneDone
  split
  · exact modEnc_keeps h _ fun l hl => hl.ended
  · exact h

theorem takeEncodeLane_cut {s : State} {n : Fin 12} {cause : Nat} (h : Lane.Cut cause s.cdc.enc[n]) (d : Ingest) :
    Lane.Cut cause (takeEncodeLane s d).cdc.enc[n] := by
  unfold takeEncodeLane
  split
  · exact completeIngest_cut h d _
  · split
    · exact h
    · have htaken : Lane.Cut cause ((dramRequest s).modEnc ‹_› fun l => l.taken .ingest).cdc.enc[n] :=
        modEnc_keeps (s := dramRequest s) (by rw [dramRequest_cdc]; exact h) _ fun l hl => ⟨rfl, hl.2⟩
      dsimp only
      split
      · split <;> exact htaken
      · exact htaken

theorem encodeWaiting_cut {s : State} {n : Fin 12} {cause : Nat} (h : Lane.Cut cause s.cdc.enc[n]) :
    Lane.Cut cause (encodeWaiting s).cdc.enc[n] := by
  unfold encodeWaiting
  refine List.foldlRecOn (motive := fun (t : State) => Lane.Cut cause t.cdc.enc[n]) _ _ h fun t ht d _ => ?_
  split
  · split
    · exact takeEncodeLane_cut ht d
    · exact ht
  · exact ht

/-- A run that is cut has nothing saved; the end of its command touches no lane. -/
theorem cutRun_enc (s : State) (n : Fin 12) : (cutRun s (.enc n) { status := .fenced }).cdc.enc[n] =
    { s.cdc.enc[n] with saved := none, fails := inc32 s.cdc.enc[n].fails, lastOutcome := Status.code .fenced } := by
  have hfinish (t : State) (k : Nat) (r : Reply) : (finishParked t k r).cdc = t.cdc := same_cdc (by simp)
  unfold cutRun
  dsimp only
  split
  · exact updF_get_same ..
  · split
    · rw [hfinish]
      exact updF_get_same ..
    · exact updF_get_same ..

theorem laneFault_run {s : State} {n : Fin 12} (hst : s.cdc.enc[n].state = .run) (cause : Nat) :
    Lane.Cut cause (laneFault s (.enc n) cause).cdc.enc[n] := by
  have hcut : Lane.Cut cause (cutRun (laneRaise s (.enc n) cause) (.enc n) { status := .fenced }).cdc.enc[n] := by
    rw [cutRun_enc, laneRaise_enc]
    exact ⟨rfl, rfl⟩
  unfold laneFault
  dsimp only [laneAt]
  rw [hst]
  exact encodeWaiting_cut (modEnc_keeps hcut n fun l hl => hl.ended)

theorem injected_cdc (before : State) (src : Nat) (s : State) : (injected before src s).cdc = s.cdc := same_cdc (by simp)

/-- A parity error that a working lane finds (R267). -/
theorem exec_laneParityError {s : State} (hm : s.sys.mode ≠ .reset) {id : LaneId}
    (hwork : (laneAt s id).state.working = true) :
    exec (.laneParityError id) s = .next (injected s (laneSource id) (laneFault s id 0x05)) := by
  have hidle : ¬((laneAt s id).state == .gated || (laneAt s id).state == .fenced) = true := by
    cases h : (laneAt s id).state <;> simp_all [LaneState.working]
  exact congrArg Host.Outcome.next ((whenUp_eq _ hm).trans (if_neg hidle))

/-- The report of a decode lane that is still to come in this cycle: it precedes the lane's lock-up (R14). -/
def reports (id : LaneId) (i : Instr) : Bool :=
  match i, id with
  | .decodeAttemptReport k _, .dec n => k == n
  | _, _ => false

theorem coming_reports_enc (s : State) (n : Fin 12) : coming s (reports (.enc n)) = false := by
  refine List.any_eq_false.2 fun i _ => ?_
  unfold reports
  split
  · contradiction
  · exact Bool.false_ne_true

/-- A lane at work that makes no progress (R267). -/
theorem exec_laneLockup {s : State} (hm : s.sys.mode ≠ .reset) {id : LaneId}
    (hwork : (laneAt s id).state.working = true) (hcoming : coming s (reports id) = false) :
    exec (.laneLockup id) s = .next (laneFault s id 0x04) := by
  refine congrArg Host.Outcome.next ((whenUp_eq _ hm).trans ((giveWay_eq (p := reports id) hcoming).trans ?_))
  rw [if_pos hwork]

/-- The two faults of a lane at work, with the cause of each (R269). -/
theorem exec_laneFault {s : State} (hm : s.sys.mode ≠ .reset) {id : LaneId} {i : Instr}
    (hi : i = .laneLockup id ∨ i = .laneParityError id) (hwork : (laneAt s id).state.working = true)
    (hcoming : coming s (reports id) = false) :
    ∃ t, exec i s = .next t ∧ t.cdc = (laneFault s id (if i = .laneLockup id then 0x04 else 0x05)).cdc := by
  obtain rfl | rfl := hi
  · exact ⟨_, exec_laneLockup hm hwork hcoming, by rw [if_pos rfl]⟩
  · exact ⟨_, exec_laneParityError hm hwork, by rw [injected_cdc, if_neg nofun]⟩

/-! ## CODEC_RUN (R208, R209) -/

@[simp] theorem laneAt_begun (s : State) (c : Cmd) (id : LaneId) : laneAt (begun s c) id = laneAt s id :=
  laneAt_of_cdc (begun_cdc s c) id

@[simp] theorem laneBusy_begun (s : State) (c : Cmd) (id : LaneId) : laneBusy (begun s c) id = laneBusy s id :=
  begun_same (laneBusy · id) s c fun _ _ _ _ => rfl

theorem codecRunRun_start {c : Cmd} {s : State} (hop : runOp c = 0) (hstart : startParams c = none)
    (hdest : destParams c = none) (hbusy : laneBusy s (runLaneId c) = none) : codecRunSpec.run c s =
      .park (modLane s (runLaneId c) fun l => { l.taken .run with saved := some ⟨c.params, [], [], 0, 0⟩ })
        .hardware none := by
  simp only [codecRunSpec]
  unfold codecRunRun
  simp [hop, hstart, hdest, hbusy]

theorem codecRunRun_resume {c : Cmd} {s : State} (hop : runOp c = 1) (hres : resumeReserved c = none)
    (hdest : destParams c = none) (hbusy : laneBusy s (runLaneId c) = none)
    (hsaved : (laneAt s (runLaneId c)).saved.isSome = true) : codecRunSpec.run c s =
      .park (modLane s (runLaneId c) fun l => { l with state := .run, periodic := false }) .hardware none := by
  have hkept : (laneAt s (runLaneId c)).saved.isNone = false := by rw [← Option.not_isSome, hsaved]; rfl
  simp only [codecRunSpec]
  unfold codecRunRun
  simp [hop, hres, hdest, hbusy, hkept]

/-- A periodic test that falls due on a lane at work waits for its end (R265). -/
theorem Lane.testPeriod_working {l : Lane} (h : l.state.working = true) :
    l.testPeriod.state = l.state ∧ l.testPeriod.periodicDue = true := by
  unfold Lane.testPeriod
  cases hst : l.state <;> simp_all [LaneState.working]

theorem Lane.testPeriod_idle {l : Lane} (h : l.state = .idle) (hf : l.fence = false) :
    l.testPeriod = { l with state := .test, periodic := true } := by
  unfold Lane.testPeriod
  rw [h, hf]
  rfl

theorem exec_lanePeriodicTestDue {s : State} (hm : s.sys.mode ≠ .reset) (h : s.cdc.katPeriod ≠ 0) (id : LaneId) :
    exec (.lanePeriodicTestDue id) s = .next (modLane s id Lane.testPeriod) :=
  congrArg Host.Outcome.next ((whenUp_eq _ hm).trans (if_neg h))

/-- Settles O42: the tests by `testEnded_idle` and the lemmas on `Lane.testPeriod`, the faults by `laneFault_steep` and
`laneFault_run`, CODEC_RUN by the lane that its two forms take. -/
theorem laneRowsComplete : Obligations.LaneRowsComplete := by
  refine ⟨fun s id hm => ⟨fun crc verified hst hdue hs => ?_, fun hper hst hf => ?_, fun hper hwork => ?_,
    fun n i hid hi hst hcoming => ?_, fun n i hid hi hst => ?_, fun hwork => ?_, fun hst => ?_⟩,
    fun c s h hdest hbusy => ⟨fun hop hstart => ?_, fun hop hres hsaved => ?_⟩⟩
  · exact ⟨_, congrArg Host.Outcome.next (whenUp_eq _ hm), testEnded_idle hst hdue hs _⟩
  · refine ⟨_, exec_lanePeriodicTestDue hm hper id, ?_⟩
    rw [laneAt_modLane_same, Lane.testPeriod_idle hst hf]
    exact ⟨rfl, rfl, fun j hj => laneAt_modLane_other s hj _⟩
  · refine ⟨_, exec_lanePeriodicTestDue hm hper id, ?_⟩
    rw [laneAt_modLane_same]
    exact Lane.testPeriod_working hwork
  · subst hid
    have hwork : (laneAt s (.dec n)).state.working = true := by rw [laneAt, hst]; rfl
    have hreport : coming s (reports (.dec n)) = false := by
      rw [← hcoming]
      exact congrArg (coming s) (funext fun i => by cases i <;> rfl)
    obtain ⟨t, hexec, hcdc⟩ := exec_laneFault hm hi hwork hreport
    obtain ⟨l, hfails, hcause, hlane⟩ := laneFault_steep hst (if i = .laneLockup (.dec n) then 0x04 else 0x05)
    refine ⟨t, hexec, ?_⟩
    rw [hcdc, hlane, ← hfails, ← hcause]
    exact ⟨l.ended_leaves_steep, l.ended_assign, rfl, rfl, l.ended_lastCause⟩
  · subst hid
    have hwork : (laneAt s (.enc n)).state.working = true := by rw [laneAt, hst]; rfl
    obtain ⟨t, hexec, hcdc⟩ := exec_laneFault hm hi hwork (coming_reports_enc s n)
    refine ⟨t, hexec, ?_⟩
    rw [hcdc]
    exact laneFault_run hst _
  · refine congrArg Host.Outcome.next ((whenUp_eq _ hm).trans ?_)
    rw [if_neg (by simp [hwork]), giveWay, ite_self]
  · refine congrArg Host.Outcome.next ((whenUp_eq _ hm).trans (if_pos ?_))
    obtain hst | hst := hst <;> rw [hst] <;> rfl
  · refine ⟨_, congrArg Host.Outcome.next (direct_park h (codecRunRun_start hop hstart hdest (by simpa using hbusy))), ?_⟩
    rw [laneAt_modLane_same]
    exact ⟨rfl, rfl, fun id hid => (laneAt_modLane_other _ hid _).trans (laneAt_begun s c id)⟩
  · refine ⟨_, congrArg Host.Outcome.next (direct_park h
      (codecRunRun_resume hop hres hdest (by simpa using hbusy) (by simpa using hsaved))), ?_⟩
    rw [laneAt_modLane_same]
    exact ⟨rfl, by rw [laneAt_begun], fun id hid => (laneAt_modLane_other _ hid _).trans (laneAt_begun s c id)⟩

end Sys2Proof.Machine
end

section
/-!
Proof of the statement about fire instants and mark lines (O48): what an instant leaves of its head and of its field, whether
the head strobes, drops the instant, or does not fire the field.
-/

namespace Sys2Proof.Machine
open Sys2Proof Sys2Proof.Safety

/-! ## Marks -/

theorem markAt_of_led {s t : State} (h : t.led = s.led) (i : Fin 512) (k : Nat) : markAt t i k = markAt s i k := by
  simp only [markAt, h]

theorem markAt_entry {s : State} {i : Fin 512} {e : Sheet} (h : s.led.entries[i] = some e) (k : Nat) :
    markAt s i k = e.marks[k]? := by
  simp only [markAt, h]

theorem markAt_modMark {s : State} {i : Fin 512} {k : Nat} {m : Mark} (h : markAt s i k = some m) (g : Mark → Mark) :
    markAt (modMark s i k g) i k = some (g m) := by
  cases hentry : s.led.entries[i] with
  | none => simp [markAt, hentry] at h
  | some e =>
    rw [markAt_entry hentry] at h
    refine (markAt_entry (e := { e with marks := updAt g k e.marks }) ?_ k).trans (updAt_getElem? g h)
    rw [modMark, State.modSheet_led]
    simp only [updF_get_same, hentry, Option.map_some]

/-- A change of a sheet that leaves its marks leaves every mark. -/
theorem markAt_modSheet {g : Sheet → Sheet} (hg : ∀ e, (g e).marks = e.marks) (s : State) (j i : Fin 512) (k : Nat) :
    markAt (s.modSheet j g) i k = markAt s i k := by
  unfold markAt
  rw [State.modSheet_led]
  by_cases hij : i = j
  · subst hij
    dsimp only
    rw [updF_get_same]
    cases s.led.entries[i] <;> simp [hg]
  · dsimp only
    rw [updF_get_other _ _ _ _ hij]

theorem Sheet.spoiled_marks (e : Sheet) (now : Nat) (r : Spoil) : (e.spoiled now r).marks = e.marks := by
  unfold Sheet.spoiled
  split <;> rfl

/-- A change of every sheet that leaves its marks leaves every mark. -/
theorem markAt_map {g : Sheet → Sheet} (hg : ∀ e, (g e).marks = e.marks) (s : State) (i : Fin 512) (k : Nat) :
    markAt (s.modLed fun l => { l with entries := l.entries.map (Option.map g) }) i k = markAt s i k := by
  unfold markAt
  rw [State.modLed_led]
  dsimp only
  rw [Fin.getElem_fin, Vector.getElem_map]
  cases s.led.entries[i.1] <;> simp [hg]

/-- A sheet that is spoiled keeps its marks, and so does its partner. -/
theorem markAt_spoil (s : State) (j : Fin 512) (r : Spoil) (i : Fin 512) (k : Nat) :
    markAt (spoil s j r) i k = markAt s i k := by
  have hself (e : Sheet) : (e.spoiled s.now r).marks = e.marks := e.spoiled_marks s.now r
  unfold spoil
  split
  · rfl
  next e _ =>
    split
    · rfl
    · dsimp only
      split
      · exact markAt_modSheet hself s j i k
      · exact (markAt_map (fun b => by split <;> simp [Sheet.spoiled_marks]) _ i k).trans (markAt_modSheet hself s j i k)

/-! ## What an instant keeps of its head and of its field -/

/-- Between two states the head keeps its place in the field and its counts, the field's mark its run; a mark that misses an
instant goes on missing it. -/
structure FieldKept (h : Fin 8) (i : Fin 512) (k : Nat) (s t : State) : Prop where
  now : t.now = s.now
  sys : t.sys = s.sys
  other : ∀ j, j ≠ h → t.hdp[j] = s.hdp[j]
  state : t.hdp[h].state = s.hdp[h].state
  field : t.hdp[h].field = s.hdp[h].field
  fires : t.hdp[h].fires = s.hdp[h].fires
  dropped : t.hdp[h].dropped = s.hdp[h].dropped
  mark : ∀ m, markAt s i k = some m →
    ∃ y, markAt t i k = some y ∧ y.fired = m.fired ∧ (m.missed = true → y.missed = true)

section
variable {h : Fin 8} {i : Fin 512} {k : Nat}

theorem FieldKept.trans {s t u : State} (a : FieldKept h i k s t) (b : FieldKept h i k t u) : FieldKept h i k s u where
  now := b.now.trans a.now
  sys := b.sys.trans a.sys
  other j hj := (b.other j hj).trans (a.other j hj)
  state := b.state.trans a.state
  field := b.field.trans a.field
  fires := b.fires.trans a.fires
  dropped := b.dropped.trans a.dropped
  mark m hm := by
    obtain ⟨y, hy, hyf, hym⟩ := a.mark m hm
    obtain ⟨z, hz, hzf, hzm⟩ := b.mark y hy
    exact ⟨z, hz, hzf.trans hyf, hzm ∘ hym⟩

/-- What touches neither the heads nor the marks keeps the field. -/
theorem FieldKept.of_heads {s t : State} (hnow : t.now = s.now) (hsys : t.sys = s.sys) (hhdp : t.hdp = s.hdp)
    (hmark : markAt t i k = markAt s i k) : FieldKept h i k s t where
  now := hnow
  sys := hsys
  other j _ := by rw [hhdp]
  state := by rw [hhdp]
  field := by rw [hhdp]
  fires := by rw [hhdp]
  dropped := by rw [hhdp]
  mark m hm := ⟨m, hmark.trans hm, rfl, id⟩

theorem FieldKept.refl (s : State) : FieldKept h i k s s := .of_heads rfl rfl rfl rfl

theorem FieldKept.raise (s : State) (src detail : Nat) : FieldKept h i k s (raise s src detail) :=
  .of_heads (same_now (by simp)) (raise_sys ..) (raise_hdp ..) (markAt_of_led (same_led (by simp)) i k)

theorem FieldKept.stick (s : State) (offset mask : Nat) : FieldKept h i k s (s.stick offset mask) :=
  .of_heads rfl rfl (stick_hdp ..) rfl

theorem FieldKept.spoil (s : State) (j : Fin 512) (r : Spoil) : FieldKept h i k s (spoil s j r) :=
  .of_heads (same_now (by simp)) (same_sys (by simp)) (same_hdp (by simp)) (markAt_spoil s j r i k)

/-- A change of the head that leaves its place in the field and its counts. -/
theorem FieldKept.modHead (s : State) {g : Head → Head} (hstate : (g s.hdp[h]).state = s.hdp[h].state)
    (hfield : (g s.hdp[h]).field = s.hdp[h].field) (hfires : (g s.hdp[h]).fires = s.hdp[h].fires)
    (hdropped : (g s.hdp[h]).dropped = s.hdp[h].dropped) : FieldKept h i k s (s.modHead h g) where
  now := rfl
  sys := rfl
  other j hj := updF_get_other _ _ _ _ hj
  state := by rw [modHead_head, hstate]
  field := by rw [modHead_head, hfield]
  fires := by rw [modHead_head, hfires]
  dropped := by rw [modHead_head, hdropped]
  mark m hm := ⟨m, hm, rfl, id⟩

/-- A change of the field's mark that keeps its fires and what it misses. -/
theorem FieldKept.modMark (s : State) {g : Mark → Mark} (hfired : ∀ m, (g m).fired = m.fired)
    (hmissed : ∀ m, m.missed = true → (g m).missed = true) : FieldKept h i k s (modMark s i k g) where
  now := rfl
  sys := rfl
  other j _ := by rw [modMark_hdp]
  state := by rw [modMark_hdp]
  field := by rw [modMark_hdp]
  fires := by rw [modMark_hdp]
  dropped := by rw [modMark_hdp]
  mark m hm := ⟨g m, markAt_modMark hm g, hfired m, hmissed m⟩

theorem FieldKept.settleHead (s : State) : FieldKept h i k s (settleHead s h) := by
  unfold Sys2Proof.Machine.settleHead
  split
  · exact .refl s
  · exact .modHead s rfl rfl rfl rfl

theorem FieldKept.lineUnavailable (s : State) (line : Nat) : FieldKept h i k s (lineUnavailable s h i k line) := by
  have hflag : FieldKept h i k s (s.modHead h fun x => { x with flags := x.flags ||| 0x10 }) :=
    .modHead s rfl rfl rfl rfl
  have hmark (t : State) : FieldKept h i k t (Sys2Proof.Machine.modMark t i k fun m => { m with missed := true }) :=
    .modMark t (fun _ => rfl) fun _ _ => rfl
  exact (((hflag.trans (.stick _ _ _)).trans (hmark _)).trans (.spoil _ _ _)).trans (.raise _ _ _)

end

/-! ## A cycle that strobes (R328, R330) -/

section
variable {s : State} {h : Fin 8} {i : Fin 512} {k n : Nat} {m : Mark}

theorem dutyCount_place (b : List Byte) (x : Head) (drops : List Nat) :
    (dutyCount b x drops).state = x.state ∧ (dutyCount b x drops).field = x.field ∧
      (dutyCount b x drops).fires = x.fires ∧ (dutyCount b x drops).dropped = x.dropped := by
  unfold dutyCount
  refine List.foldlRecOn (motive := fun (y : Head) => y.state = x.state ∧ y.field = x.field ∧ y.fires = x.fires ∧
    y.dropped = x.dropped) _ _ ⟨rfl, rfl, rfl, rfl⟩ fun y hy d _ => ?_
  split <;> exact hy

/-- The line of an instant has left the FIFO into the delay buffer, or it is unavailable. -/
def lineTaken (s : State) (h : Fin 8) (mem : HeadMem) (i : Fin 512) (k : Nat) (m : Mark) (instant : Nat) : State :=
  let x := s.hdp[h]
  let got := if x.fifoFor == some (i, k) then x.fifo.find? fun l => l.1 == instant else none
  let s := if instant < m.lines && got.isNone then lineUnavailable s h i k instant else s
  let line := match got with | some (_, some d) => d | _ => []
  s.modHead h fun y => { y with
    fifo := y.fifo.filter fun l => decide (instant < l.1)
    delay := if instant < m.lines then ((instant, takenOver y.dead mem.nozzles instant line) :: y.delay).take 65 else y.delay }

theorem lineTaken_keeps (s : State) (h : Fin 8) (mem : HeadMem) (i : Fin 512) (k : Nat) (m : Mark) (instant : Nat) :
    FieldKept h i k s (lineTaken s h mem i k m instant) := by
  unfold lineTaken
  extract_lets x got t line
  have ht : FieldKept h i k s t := by
    unfold t
    split
    · exact .lineUnavailable s instant
    · exact .refl s
  exact ht.trans (.modHead t rfl rfl rfl rfl)

/-- Outside the compatibility mode every cycle strobes what its line leaves. -/
theorem fireCycle_strobes (mem : HeadMem) (hcompat : s.sys.compat = false) : ∃ drops,
    fireCycle s h mem i k m n = strobe (lineTaken s h mem i k m n) h i k m.wave n drops := by
  have hplain : (!(lineTaken s h mem i k m n).sys.compat) = true := by
    rw [(lineTaken_keeps s h mem i k m n).sys, hcompat]
    rfl
  refine ⟨rowDrops (headBody s h.1) mem (lineTaken s h mem i k m n).hdp[h].delay n, ?_⟩
  exact if_pos hplain

theorem strobe_hdp (drops : List Nat) (wave : Nat) : (strobe s h i k wave n drops).hdp =
    updF s.hdp h fun x => { (dutyCount (headBody s h.1) x drops) with fires := inc32 x.fires, lastStrobe := some s.now } := by
  rw [strobe, same_hdp (emit_view _ _ (by decide)), modMark_hdp]
  rfl

theorem strobe_mark (hm : markAt s i k = some m) (drops : List Nat) (wave : Nat) :
    markAt (strobe s h i k wave n drops) i k = some { m with fired := m.fired + 1 } := by
  rw [strobe, markAt_of_led (same_led (emit_view _ _ (by decide)))]
  exact markAt_modMark hm _

/-! ## The first instant of a field, a dropped one, and a field that is not fired -/

theorem settleHead_lastStrobe (s : State) (h : Fin 8) : (settleHead s h).hdp[h].lastStrobe = s.hdp[h].lastStrobe := by
  unfold settleHead
  split
  · rfl
  · rw [modHead_head]
    rfl

/-- The head begins the field (R344). -/
def fieldBegun (s : State) (h : Fin 8) (i : Fin 512) (k : Nat) : State :=
  (settleHead s h).modHead h fun x => { x with state := .marking, field := some (i, k), delay := [] }

/-- The first instant of a field that has more, at a head that has not strobed yet: the field begins, and the cycle is
strobed (R328, R330, R344). -/
theorem fireOrDrop_first {mem : HeadMem} (hlast : s.hdp[h].lastStrobe = none) (hcompat : s.sys.compat = false)
    (hmore : 1 < m.lines + mem.rowGap) : ∃ drops, fireOrDrop s h mem i k m 0 =
      modMark (strobe (lineTaken (fieldBegun s h i k) h mem i k m 0) h i k m.wave 0 drops) i k
        fun m => { m with run := .running 1 } := by
  have hbegun : (fieldBegun s h i k).hdp[h].lastStrobe = none := by
    rw [fieldBegun, modHead_head]
    exact (settleHead_lastStrobe s h).trans hlast
  have hcompat' : (fieldBegun s h i k).sys.compat = false := by
    rw [fieldBegun, State.modHead_sys, same_sys (settleHead_view s h (by decide)), hcompat]
  have hearly : ((fieldBegun s h i k).hdp[h].lastStrobe.any fun t =>
      shorterThan (headBody (fieldBegun s h i k) h.1) mem 1 1 (((fieldBegun s h i k).now - t) * 5)) = false := by
    rw [hbegun]
    rfl
  obtain ⟨drops, hcycle⟩ := fireCycle_strobes (s := fieldBegun s h i k) (h := h) (i := i) (k := k) (n := 0) (m := m)
    mem hcompat'
  refine ⟨drops, ?_⟩
  rw [← hcycle]
  unfold fireOrDrop
  rw [if_neg (by omega)]
  rw [if_pos rfl]
  change modMark (if ((fieldBegun s h i k).hdp[h].lastStrobe.any fun t =>
      shorterThan (headBody (fieldBegun s h i k) h.1) mem 1 1 (((fieldBegun s h i k).now - t) * 5)) = true then _ else
      fireCycle (fieldBegun s h i k) h mem i k m 0) i k _ = _
  rw [hearly, if_neg Bool.false_ne_true]

/-- An instant too soon after the last strobe is dropped (R338). -/
theorem fireOrDrop_early {mem : HeadMem} {u : Nat} (hn : 1 ≤ n) (hlast : s.hdp[h].lastStrobe = some u)
    (hshort : shorterThan (headBody s h.1) mem 1 1 ((s.now - u) * 5) = true) (hmore : n + 1 < m.lines + mem.rowGap) :
    fireOrDrop s h mem i k m n = modMark (dropInstant s h i k n) i k fun m => { m with run := .running (n + 1) } := by
  have hearly : (s.hdp[h].lastStrobe.any fun t => shorterThan (headBody s h.1) mem 1 1 ((s.now - t) * 5)) = true := by
    rw [hlast]
    exact hshort
  unfold fireOrDrop
  rw [if_neg (by omega)]
  rw [if_neg (by omega : ¬n = 0), if_pos hearly]

theorem dropInstant_counts (hm : markAt s i k = some m) :
    (dropInstant s h i k n).hdp[h].dropped = inc32 s.hdp[h].dropped ∧
      (dropInstant s h i k n).hdp[h].fires = s.hdp[h].fires ∧
      ∃ y, markAt (dropInstant s h i k n) i k = some y ∧ y.missed = true := by
  unfold dropInstant
  extract_lets again b1 b2 b3 b4
  have hkept : FieldKept h i k (modMark b3 i k fun m => { m with dropped := true, missed := true })
      (if again then b4 else raise b4 (0x91 + 2 * h.1) (0x04 + 65536 * n)) := by
    refine FieldKept.trans (t := b4) (.spoil _ i .headOverspeed) ?_
    split
    · exact .refl b4
    · exact .raise b4 _ _
  have hhead : b3.hdp[h] = { s.hdp[h] with
      dropped := inc32 s.hdp[h].dropped, lastDrop := (n, i.1), flags := s.hdp[h].flags ||| 0x02 } := modHead_head b1 h _
  have hmark : markAt b3 i k = some m := (markAt_modSheet
    (g := fun e => { e with overHead := some (e.overHead.getD h) }) (fun _ => rfl) s i i k).trans hm
  obtain ⟨y, hy, -, hmissed⟩ := hkept.mark _ (markAt_modMark hmark _)
  refine ⟨?_, ?_, y, hy, hmissed rfl⟩
  · rw [hkept.dropped, modMark_hdp, hhead]
  · rw [hkept.fires, modMark_hdp, hhead]

theorem skipField_ends (hm : markAt s i k = some m) (hstate : s.hdp[h].state ≠ .marking) (r : Spoil) :
    (skipField s h i k r).hdp[h].state = s.hdp[h].state ∧ (skipField s h i k r).hdp[h].field = none ∧
      (skipField s h i k r).hdp[h].fires = s.hdp[h].fires ∧
      ∃ y, markAt (skipField s h i k r) i k = some y ∧ y.run = .done ∧ y.missed = true := by
  have hhead : (endField (modMark s i k fun m => { m with run := .done, missed := true }) h).hdp[h].state = s.hdp[h].state ∧
      (endField (modMark s i k fun m => { m with run := .done, missed := true }) h).hdp[h].field = none ∧
      (endField (modMark s i k fun m => { m with run := .done, missed := true }) h).hdp[h].fires = s.hdp[h].fires := by
    rw [endField, (FieldKept.settleHead (i := i) (k := k) _).state, (FieldKept.settleHead (i := i) (k := k) _).field,
      (FieldKept.settleHead (i := i) (k := k) _).fires, modHead_head, modMark_hdp]
    exact ⟨if_neg (by simpa using hstate), rfl, rfl⟩
  have hspoil : (skipField s h i k r).hdp =
      (endField (modMark s i k fun m => { m with run := .done, missed := true }) h).hdp := same_hdp (spoil_view _ _ _ (by decide))
  rw [hspoil]
  refine ⟨hhead.1, hhead.2.1, hhead.2.2, { m with run := .done, missed := true }, ?_, rfl, rfl⟩
  rw [skipField, markAt_spoil, markAt_of_led (same_led (endField_view _ _ (by decide))), markAt_modMark hm]

/-! ## What FIRE_INSTANT does -/

variable {e : Sheet}

section
variable (hoff : strobesOff s = false) (hcur : currentField s h = some (i, k)) (hentry : s.led.entries[i] = some e)
  (hm : markAt s i k = some m)
include hcur hentry hm

theorem fireInstant_early (hearly : trackReached s.clk (instantCount s h e m) = false) : fireInstant s h = s := by
  unfold fireInstant
  split
  · rfl
  · simp only [hcur, hentry, hm, hearly, Bool.not_false, if_true]

include hoff

theorem fireInstant_fires (hreach : trackReached s.clk (instantCount s h e m) = true)
    (hstate : s.hdp[h].state = .idle ∨ s.hdp[h].state = .marking) {mem : HeadMem} (hmem : s.hdp[h].mem = some mem) :
    fireInstant s h = fireOrDrop s h mem i k m m.run.instant := by
  unfold fireInstant
  obtain hstate | hstate := hstate <;>
    simp only [hoff, hcur, hentry, hm, hreach, hstate, hmem, Bool.not_true, Bool.false_eq_true, if_false]

theorem fireInstant_skips (hreach : trackReached s.clk (instantCount s h e m) = true)
    (hstate : s.hdp[h].state = .held ∨ s.hdp[h].state = .fenced ∨ s.hdp[h].state = .capped ∨ s.hdp[h].state = .absent) :
    ∃ r, fireInstant s h = skipField s h i k r := by
  unfold fireInstant
  obtain hstate | hstate | hstate | hstate := hstate <;>
    simp only [hoff, hcur, hentry, hm, hreach, hstate, Bool.not_true, Bool.false_eq_true, if_false] <;>
    exact ⟨_, rfl⟩

end

end

/-- The first instant of a field, as the head and the field's mark show it (R328, R330, R344). -/
theorem fireOrDrop_first_head {s : State} {h : Fin 8} {i : Fin 512} {k : Nat} {m : Mark} {mem : HeadMem}
    (hm : markAt s i k = some m) (hlast : s.hdp[h].lastStrobe = none) (hcompat : s.sys.compat = false)
    (hmore : 1 < m.lines + mem.rowGap) :
    let t := fireOrDrop s h mem i k m 0
    t.hdp[h].state = .marking ∧ t.hdp[h].field = some (i, k) ∧ t.hdp[h].fires = inc32 s.hdp[h].fires ∧
      t.hdp[h].lastStrobe = some s.now ∧
      (∃ y, markAt t i k = some y ∧ y.run = .running 1 ∧ y.fired = m.fired + 1) ∧
      ∀ j, j ≠ h → t.hdp[j] = s.hdp[j] := by
  obtain ⟨drops, hfirst⟩ := fireOrDrop_first (s := s) (h := h) (i := i) (k := k) (m := m) hlast hcompat hmore
  have hsettle : FieldKept h i k s (settleHead s h) := .settleHead s
  have hline := lineTaken_keeps (fieldBegun s h i k) h mem i k m 0
  have hbegun : (fieldBegun s h i k).hdp[h] =
      { (settleHead s h).hdp[h] with state := .marking, field := some (i, k), delay := [] } := modHead_head _ h _
  obtain ⟨m', hm', hfired', -⟩ := hsettle.mark m hm
  obtain ⟨y, hy, hfired, -⟩ := hline.mark m' hm'
  obtain ⟨hstate, hfield, -, -⟩ := dutyCount_place
    (headBody (lineTaken (fieldBegun s h i k) h mem i k m 0) h.1) (lineTaken (fieldBegun s h i k) h mem i k m 0).hdp[h] drops
  have hnow : (lineTaken (fieldBegun s h i k) h mem i k m 0).now = s.now := hline.now.trans hsettle.now
  rw [hfirst]
  dsimp only
  rw [modMark_hdp, strobe_hdp, updF_get_same, markAt_modMark (strobe_mark hy drops m.wave), hnow]
  refine ⟨?_, ?_, ?_, rfl, ⟨_, rfl, rfl, ?_⟩, fun j hj => ?_⟩
  · exact hstate.trans (hline.state.trans (congrArg Head.state hbegun))
  · exact hfield.trans (hline.field.trans (congrArg Head.field hbegun))
  · exact congrArg inc32 (hline.fires.trans ((congrArg Head.fires hbegun).trans hsettle.fires))
  · exact congrArg (· + 1) (hfired.trans hfired')
  · rw [updF_get_other _ _ _ _ hj, hline.other j hj, fieldBegun, State.modHead_hdp, updF_get_other _ _ _ _ hj,
      hsettle.other j hj]

theorem modHead_of_same {s : State} {h : Fin 8} {g : Head → Head} (hg : g s.hdp[h] = s.hdp[h]) : s.modHead h g = s := by
  have hset : updF s.hdp h g = s.hdp := by
    unfold updF
    rw [← Fin.getElem_fin, hg]
    exact Vector.set_getElem_self h.2
  unfold State.modHead
  rw [hset]

/-- A line that is available goes to the end of the FIFO that its field fills (R329). -/
theorem fetchLine_pushes {s : State} {h : Fin 8} {i : Fin 512} {k : Nat} {m : Mark} {img : List (List Byte)}
    (hcur : currentField s h = some (i, k)) (hm : markAt s i k = some m) (himg : m.image = some img)
    (hfor : s.hdp[h].fifoFor = some (i, k)) (hnext : nextLine s.hdp[h] m < m.lines) (hroom : s.hdp[h].fifo.length < 32) :
    (fetchLine s h true false).hdp = updF s.hdp h fun x =>
      { x with fifo := x.fifo ++ [(nextLine s.hdp[h] m, some (img.getD (nextLine s.hdp[h] m) []))] } := by
  have hsame : s.modHead h (fun x => if x.fifoFor == some (i, k) then x else { x with fifo := [], fifoFor := some (i, k) }) = s :=
    modHead_of_same (if_pos (by rw [hfor, beq_self_eq_true]))
  unfold fetchLine
  simp only [hcur, hm, hsame]
  rw [if_neg (by rw [Bool.or_eq_true, decide_eq_true_eq, decide_eq_true_eq]; omega)]
  simp only [himg]
  rfl

/-- Settles O48: an instant that strobes by `fireOrDrop_first_head`, one that is dropped by `fireOrDrop_early`, one that the
head does not fire by `skipField_ends`, and a line by `fetchLine_pushes`. -/
theorem fireRowsComplete : Obligations.FireRowsComplete := by
  intro s h i k e m hmode hcur hentry hmark
  have hm : markAt s i k = some m := (markAt_entry hentry k).trans hmark
  have hexec : exec (.fireInstant h) s = .next (fireInstant s h) := congrArg Host.Outcome.next (whenUp_eq _ hmode)
  refine ⟨fun mem hrun hoff hreach hstate hmem hlast hcompat hmore => ?_, fun hearly => ?_,
    fun mem n u hrun hoff hreach hn hstate hmem hlast hshort hmore => ?_, fun hoff hreach hstate => ?_,
    fun img himg hfor hnext hroom => ?_⟩
  · obtain ⟨h1, h2, h3, h4, ⟨y, hy, hyrun, hyfired⟩, h6⟩ := fireOrDrop_first_head hm hlast hcompat hmore
    refine ⟨_, y, hexec, ?_⟩
    rw [fireInstant_fires hoff hcur hentry hm hreach (.inl hstate) hmem, hrun]
    exact ⟨h1, h2, h3, h4, hy, hyrun, hyfired, h6⟩
  · rw [hexec, fireInstant_early hcur hentry hm hearly]
  · obtain ⟨hdropped, hfires, y, hy, hmissed⟩ := dropInstant_counts (n := n) (h := h) hm
    refine ⟨_, { y with run := .running (n + 1) }, hexec, ?_⟩
    rw [fireInstant_fires hoff hcur hentry hm hreach (.inr hstate) hmem, hrun, MarkRun.instant,
      fireOrDrop_early hn hlast hshort hmore, modMark_hdp]
    exact ⟨hdropped, hfires, markAt_modMark hy _, rfl, hmissed⟩
  · obtain ⟨r, hskip⟩ := fireInstant_skips hoff hcur hentry hm hreach hstate
    have hidle : s.hdp[h].state ≠ .marking := by
      obtain hstate | hstate | hstate | hstate := hstate <;> rw [hstate] <;> exact HeadState.noConfusion
    obtain ⟨hkept, hfield, hfires, y, hy, hdone, hmissed⟩ := skipField_ends (h := h) hm hidle r
    refine ⟨_, y, hexec, ?_⟩
    rw [hskip]
    exact ⟨hkept, hfield, hy, hdone, hmissed, hfires⟩
  · refine ⟨_, congrArg Host.Outcome.next (whenUp_eq _ hmode), ?_⟩
    rw [fetchLine_pushes hcur hm himg hfor hnext hroom, updF_get_same]
    exact ⟨rfl, fun j hj => updF_get_other _ _ _ _ hj⟩

end Sys2Proof.Machine
end

section
/-!
Proof of the statement about record programs, seals and erasures (O50): the newest durable record is the one that has just
been programmed, whatever its durability brings.
-/

namespace Sys2Proof.Machine
open Sys2Proof Sys2Proof.Safety

/-! ## The newest durable record (R362)

What follows the program of a record changes the newest durable record no more: it is written where a record becomes
durable. The observation is stated on the journal's view, so that the frames of what leaves the journal alone apply. -/

/-- The newest durable record of a state, or of a view of one. -/
def newestOf (s : State) : Option Nat := s.jnl.newest

theorem newestOf_view (s : State) : newestOf (view .jnl s) = s.jnl.newest := rfl

@[simp] theorem newestOf_ite (c : Prop) [Decidable c] (a b : State) :
    newestOf (if c then a else b) = if c then newestOf a else newestOf b := apply_ite ..

@[simp] theorem modJnl_newest (s : State) (g : Journal → Journal) (h : ∀ j, (g j).newest = j.newest) :
    newestOf (view .jnl (s.modJnl g)) = newestOf (view .jnl s) := h s.jnl

theorem foldl_newest {α : Type} (l : List α) (f : State → α → State) (s : State)
    (h : ∀ u x, newestOf (view .jnl (f u x)) = newestOf (view .jnl u)) :
    newestOf (view .jnl (l.foldl f s)) = newestOf (view .jnl s) :=
  List.foldlRecOn (motive := fun t => newestOf (view .jnl t) = newestOf (view .jnl s)) l f rfl
    fun t ht x _ => (h t x).trans ht

theorem iter_newest (f : State → State) (n : Nat) (s : State)
    (h : ∀ u, newestOf (view .jnl (f u)) = newestOf (view .jnl u)) :
    newestOf (view .jnl (iter f n s)) = newestOf (view .jnl s) := by
  induction n generalizing s with
  | zero => rfl
  | succ n ih => rw [iter, ih, h]

/-! ### Formation -/

theorem newestOf_of_settled {s t : State} (h : settled t.jnl = settled s.jnl) :
    newestOf (view .jnl t) = newestOf (view .jnl s) := (congrArg Journal.newest h :)

@[simp] theorem formAll_newest (s : State) : newestOf (view .jnl (formAll s)) = newestOf (view .jnl s) :=
  newestOf_of_settled (settled_formAll s)

@[simp] theorem requestRecord_newest (s : State) (u : Unformed) :
    newestOf (view .jnl (requestRecord s u)) = newestOf (view .jnl s) := newestOf_of_settled (settled_requestRecord s u)

@[simp] theorem requestSeal_newest (s : State) : newestOf (view .jnl (requestSeal s)) = newestOf (view .jnl s) := by
  unfold requestSeal
  simp

@[simp] theorem reserveCheck_newest (s : State) : newestOf (view .jnl (reserveCheck s)) = newestOf (view .jnl s) := by
  unfold reserveCheck
  simp

/-! ### The end of sheets and the stop of the paper path -/

@[simp] theorem recordSheet_newest (s : State) (i : Fin 512) :
    newestOf (view .jnl (recordSheet s i)) = newestOf (view .jnl s) := by
  unfold recordSheet
  (repeat' split) <;> simp

@[simp] theorem completeSheet_newest (s : State) (i : Fin 512) :
    newestOf (view .jnl (completeSheet s i)) = newestOf (view .jnl s) := by
  unfold completeSheet
  (repeat' split) <;> simp

@[simp] theorem completeSpoiled_newest (s : State) (i : Fin 512) (r : Spoil) :
    newestOf (view .jnl (completeSpoiled s i r)) = newestOf (view .jnl s) := by
  unfold completeSpoiled
  simp

@[simp] theorem beforeStop_newest (s : State) : newestOf (view .jnl (beforeStop s)) = newestOf (view .jnl s) := by
  unfold beforeStop
  dsimp only
  rw [foldl_newest _ _ _ fun u x => by simp, foldl_newest _ _ _ fun u x => by simp]

@[simp] theorem pathStop_newest (s : State) (r : Spoil) (sensor kind sheet count : Nat) :
    newestOf (view .jnl (pathStop s r sensor kind sheet count)) = newestOf (view .jnl s) := by
  have hsheets (t : State) : newestOf (view .jnl ((sheets t).foldl
      (fun s x => if x.2.picked then completeSpoiled s x.1 r else s) t)) = newestOf (view .jnl t) :=
    foldl_newest _ _ _ fun u x => by split <;> simp
  unfold pathStop
  simp [hsheets]

@[simp] theorem strayCheck_newest (s : State) : newestOf (view .jnl (strayCheck s)) = newestOf (view .jnl s) := by
  unfold strayCheck
  dsimp only
  split
  · rfl
  · exact pathStop_newest ..

/-! ### Modes, and commands that waited for the record -/

@[simp] theorem enterReady_newest (s : State) : newestOf (view .jnl (enterReady s)) = newestOf (view .jnl s) := by
  unfold enterReady
  simp

@[simp] theorem settle_newest (s : State) : newestOf (view .jnl (settle s)) = newestOf (view .jnl s) := by
  unfold settle
  simp

@[simp] theorem standbyEntry_newest (s : State) : newestOf (view .jnl (standbyEntry s)) = newestOf (view .jnl s) := by
  unfold standbyEntry
  simp

@[simp] theorem activate_newest (s : State) (slots : List Nat) :
    newestOf (view .jnl (activate s slots)) = newestOf (view .jnl s) := by
  unfold activate
  simp

@[simp] theorem completeOne_newest (w : Wait) (idx : Nat) (s : State) :
    newestOf (view .jnl (completeOne w idx s)) = newestOf (view .jnl s) := by
  unfold completeOne
  (repeat' split) <;> simp

@[simp] theorem completeTicket_newest (s : State) (t idx : Nat) :
    newestOf (view .jnl (completeTicket s t idx)) = newestOf (view .jnl s) := by
  unfold completeTicket
  split
  · rfl
  · exact iter_newest _ _ _ (completeOne_newest _ idx)

/-! ### What follows a program -/

theorem newestOf_of_collection {s t : State} (h : collection t.jnl = collection s.jnl) :
    newestOf (view .jnl t) = newestOf (view .jnl s) := (congrArg Prod.snd h :)

@[simp] theorem afterProgram_newest (s : State) : newestOf (view .jnl (afterProgram s)) = newestOf (view .jnl s) := by
  unfold afterProgram
  rw [newestOf_of_collection (eraseAhead_collection _), newestOf_of_collection (lowCheck_collection _),
    reserveCheck_newest, formAll_newest]

@[simp] theorem formAgain_newest (s : State) (r : Rec) : newestOf (view .jnl (formAgain s r)) = newestOf (view .jnl s) := by
  unfold formAgain
  simp

@[simp] theorem serveReads_newest (s : State) : newestOf (view .jnl (serveReads s)) = newestOf (view .jnl s) := by
  have hserve (t : State) (c : Cmd) (done total : Nat) :
      newestOf (view .jnl (serveRead t c done total).1) = newestOf (view .jnl t) := by
    unfold serveRead
    simp
  refine iter_newest _ _ _ fun u => ?_
  unfold readTurn
  dsimp only
  (repeat' split) <;> simp [hserve]

/-- The record that becomes durable is the newest (R362). -/
theorem durable_newest (s : State) (r : Rec) : newestOf (view .jnl (durable s r)) = some r.idx := by
  have hset : newestOf (view .jnl (s.modJnl fun j => { j with newest := some r.idx })) = some r.idx := rfl
  unfold durable
  dsimp only
  rw [completeTicket_newest]
  split
  · simp [hset]
  · simp [hset]

/-! ## RECORD_PROGRAM_COMPLETE (R135, R362, R368) -/

/-- The oldest staged record has been programmed with these bytes, beside an erase that may run. -/
def headProgrammed (s t : State) (r : Rec) (bytes : List Byte) : State :=
  flashOps (programRecord t r bytes) (besideErase s (recordOps s r))

theorem headProgrammed_newest (s t : State) (r : Rec) (bytes : List Byte) :
    newestOf (view .jnl (headProgrammed s t r bytes)) = t.jnl.newest := by
  rw [newestOf_view, headProgrammed, flashOps_jnl]
  rfl

theorem headProgrammed_flash (s t : State) (r : Rec) (bytes : List Byte) :
    storedFlash (view .jnl (headProgrammed s t r bytes)) = flashProgram t.jnl.flash (recordAddr t r.idx) bytes := by
  rw [storedFlash_view, headProgrammed, flashOps_jnl]
  rfl

theorem recordAddr_drawn (s : State) (i : Nat) : recordAddr s.drawn i = recordAddr s i := rfl

/-- The bytes that stand in a slot whose read-back differs (R368). -/
def strayBytes (s : State) : List Byte := (List.range 128).map (Config.freeFlash s.free)

section
variable {s : State} {r : Rec} {rest : List Rec} (hs : s.jnl.staged = r :: rest) (hp : programmable s r rest = true)
include hs hp

theorem programHead_ok :
    programHead s true = serveReads (afterProgram (durable (headProgrammed s s r r.bytes) r)) := by
  unfold programHead
  split
  next h => exact absurd (h.symm.trans hs) nofun
  next q more h =>
    obtain ⟨rfl, rfl⟩ := List.cons.inj (h.symm.trans hs)
    rw [hp, if_neg (by decide)]
    extract_lets bytes ops t u
    rfl

theorem programHead_differs : programHead s false =
    serveReads (afterProgram (formAgain (headProgrammed s s.drawn r (strayBytes s)) r)) := by
  unfold programHead
  split
  next h => exact absurd (h.symm.trans hs) nofun
  next q more h =>
    obtain ⟨rfl, rfl⟩ := List.cons.inj (h.symm.trans hs)
    rw [hp, if_neg (by decide)]
    extract_lets bytes ops t u
    have hbytes : bytes = strayBytes s := if_neg Bool.false_ne_true
    have ht : t = s.drawn := if_neg Bool.false_ne_true
    have hu : u = headProgrammed s t q bytes := rfl
    rw [if_neg Bool.false_ne_true, hu, ht, hbytes]

end

/-- What stands in the flash and in the newest durable record once the program has ended, and what follows has too. -/
theorem recordProgrammed (u : State) :
    (settle (serveReads (afterProgram u))).jnl.newest = newestOf (view .jnl u) ∧
      (settle (serveReads (afterProgram u))).jnl.flash = storedFlash (view .jnl u) := by
  rw [← newestOf_view, ← storedFlash_view]
  exact ⟨by simp, by simp⟩

/-- A record that reads back is the newest durable one (R362). -/
theorem recordProgramComplete_ok {s : State} {r : Rec} {rest : List Rec} (hm : s.sys.mode ≠ .reset)
    (hs : s.jnl.staged = r :: rest) (hp : programmable s r rest = true) :
    ∃ t, exec (.recordProgramComplete true) s = .next t ∧ t.jnl.newest = some r.idx ∧
      t.jnl.flash = flashProgram s.jnl.flash (recordAddr s r.idx) r.bytes := by
  obtain ⟨hnewest, hflash⟩ := recordProgrammed (durable (headProgrammed s s r r.bytes) r)
  refine ⟨settle _, congrArg Host.Outcome.next ((whenUp_eq _ hm).trans (congrArg settle (programHead_ok hs hp))),
    hnewest.trans (durable_newest _ r), hflash.trans ?_⟩
  rw [durable_flash, headProgrammed_flash]

/-- A record that reads back otherwise leaves the newest durable one as it was (R368). -/
theorem recordProgramComplete_differs {s : State} {r : Rec} {rest : List Rec} (hm : s.sys.mode ≠ .reset)
    (hs : s.jnl.staged = r :: rest) (hp : programmable s r rest = true) :
    ∃ t, exec (.recordProgramComplete false) s = .next t ∧ t.jnl.newest = s.jnl.newest ∧
      t.jnl.flash = flashProgram s.jnl.flash (recordAddr s r.idx) (strayBytes s) := by
  obtain ⟨hnewest, hflash⟩ := recordProgrammed (formAgain (headProgrammed s s.drawn r (strayBytes s)) r)
  refine ⟨settle _, congrArg Host.Outcome.next ((whenUp_eq _ hm).trans (congrArg settle (programHead_differs hs hp))),
    hnewest.trans ?_, hflash.trans ?_⟩
  · rw [formAgain_newest, headProgrammed_newest, State.drawn_jnl]
  · rw [formAgain_flash, headProgrammed_flash, State.drawn_jnl, recordAddr_drawn]

/-! ## SEAL_AGE_EXPIRY (R363) -/

/-- A seal over all that is unsealed, as it stands in the staging buffer before it is signed. -/
def newSeal (s : State) (ticket : Nat) : Rec :=
  ⟨s.jnl.nextIdx, recordHeader s 0x04 (s.jnl.unsealed - 1) s.jnl.nextIdx s.jnl.high ++ zeros 96, s.jnl.chain, none, ticket⟩

theorem newSeal_type (s : State) (ticket : Nat) : u8 (newSeal s ticket).bytes 0 = 0x04 := rfl

theorem formOne_newSeal {s : State} (hun : s.jnl.unsealed ≠ 0) (ticket : Nat) :
    formOne s (sealRequest ticket) = s.modJnl fun j => { j with
      staged := j.staged ++ [newSeal s ticket], nextIdx := s.jnl.nextIdx + 1, unsealed := 0, sealing := true } := by
  have hseal : formOne s (sealRequest ticket) = formSeal s (sealRequest ticket) := if_pos rfl
  rw [hseal]
  exact if_neg hun

/-- A seal over what is unsealed is formed at once where nothing waits and the staging buffer has room. -/
theorem requestSeal_formed {s : State} (hon : jnlOn s = true) (hpwr : s.sys.pwrFail = false) (hw : s.jnl.waiting = [])
    (hun : s.jnl.unsealed ≠ 0) (hseal : s.jnl.sealing = false) (hroom : s.jnl.staged.length < 32) :
    ∃ r, (requestSeal s).jnl = { s.jnl with
        staged := s.jnl.staged ++ [r], nextIdx := s.jnl.nextIdx + 1, unsealed := 0, sealing := true
        tickets := s.jnl.tickets + 1 } ∧ u8 r.bytes 0 = 0x04 ∧ r.idx = s.jnl.nextIdx := by
  have hask : ¬(!jnlOn s || s.sys.pwrFail || s.jnl.waiting.any (·.type == 0x04) ||
      (s.jnl.unsealed == 0 && s.jnl.waiting.isEmpty)) = true := by simp [hon, hpwr, hw, hun]
  have hasked : (s.modJnl fun j => { j with
      waiting := j.waiting ++ [sealRequest (j.tickets + 1)], tickets := j.tickets + 1 }).jnl.waiting =
      [sealRequest (s.jnl.tickets + 1)] := by rw [State.modJnl_jnl, hw, List.nil_append]
  unfold requestSeal
  rw [if_neg hask, formAll, formReady_one hasked hseal hroom, formOne_newSeal (by exact hun), formReady_idle rfl]
  refine ⟨newSeal s (s.jnl.tickets + 1), ?_, newSeal_type _ _, rfl⟩
  simp only [State.modJnl_jnl, hw]
  rfl

/-! ## SEAL_SIGNED (R364) -/

/-- The seal at the end of the staging buffer, signed, with its chain hash. -/
def signedSeal (s : State) (r : Rec) (h : BitVec 256) : Rec :=
  let sig := ecdsaSign (journalPrivate s) (sha256 (bytesAt r.bytes 0 32 ++ hashBytes r.prev))
  { r with bytes := bytesAt r.bytes 0 32 ++ padTo 64 sig ++ hashBytes h }

theorem signSeal_last {s : State} {pre : List Rec} {r : Rec} (hseal : s.jnl.sealing = true)
    (hs : s.jnl.staged = pre ++ [r]) (hw : s.jnl.waiting = []) : ∃ h, (signSeal s).jnl = { s.jnl with
      sealing := false, chain := h, staged := pre ++ [signedSeal s r h] } := by
  have hlast : s.jnl.staged.getLast? = some r := by rw [hs, List.getLast?_concat]
  unfold signSeal
  rw [if_neg (by simp [hseal]), hlast]
  dsimp only
  rw [formAll, formReady_idle (by exact hw), State.modJnl_jnl, hs, List.dropLast_concat]
  exact ⟨_, rfl⟩

theorem bytesAt_length (l : List Byte) (k n : Nat) : (bytesAt l k n).length = n := by
  induction n generalizing k with
  | zero => rfl
  | succ n ih => rw [bytesAt, List.length_cons, ih]

/-- The bytes of a middle part of a list. -/
theorem bytesAt_append (a b c : List Byte) : bytesAt (a ++ b ++ c) a.length b.length = b := by
  induction b generalizing a with
  | nil => rfl
  | cons x b ih =>
    have hnext := ih (a ++ [x])
    rw [List.length_append, List.length_singleton, List.append_assoc a [x] b, List.singleton_append] at hnext
    rw [List.length_cons, bytesAt, hnext]
    simp

/-! ## SECTOR_ERASE_COMPLETE (R138) -/

theorem eraseDone_flash (s : State) {k : Nat} (h : s.jnl.erasing.head? = some k) :
    storedFlash (view .jnl (eraseAhead (eraseDone s k))) = flashErase s.jnl.flash k := by
  unfold eraseDone
  rw [eraseAhead_flash, if_neg (by simp [h])]
  dsimp only
  split
  · exact eraseBegin_flash _ _
  · rfl

theorem flashGet_erased (l : List (Nat × Byte)) (k a : Nat) :
    flashGet (flashErase l k) a = if a / 4096 = k then 0xFF else flashGet l a := by
  split
  next h => exact flashGet_erase k a h
  next h => exact flashGet_erase_other k a h

/-- Settles O50: a program by `recordProgrammed`, a seal by `requestSeal_formed` and `signSeal_last`, an erase by
`eraseDone_flash`. -/
theorem journalRowsComplete : Obligations.JournalRowsComplete := by
  intro s hm
  refine ⟨fun r rest hs hp => ⟨?_, ?_⟩, fun hon hpwr hw hun hseal hroom => ?_, fun pre r hseal hs hw => ?_, fun k hk hpwr => ?_⟩
  · exact recordProgramComplete_ok hm hs hp
  · exact recordProgramComplete_differs hm hs hp
  · obtain ⟨r, hjnl, htype, hidx⟩ := requestSeal_formed hon hpwr hw hun hseal hroom
    refine ⟨_, r, congrArg Host.Outcome.next ((whenUp_eq _ hm).trans (if_neg hun)), ?_⟩
    rw [hjnl]
    exact ⟨rfl, rfl, rfl, htype, hidx⟩
  · obtain ⟨h, hjnl⟩ := signSeal_last hseal hs hw
    refine ⟨_, signedSeal s r h, congrArg Host.Outcome.next (whenUp_eq _ hm), ?_⟩
    rw [hjnl]
    refine ⟨rfl, rfl, rfl, ?_, ?_⟩
    · rw [signedSeal]
      dsimp only
      rw [List.append_assoc]
      exact List.take_left' (bytesAt_length _ _ _)
    · have hpart := bytesAt_append (bytesAt r.bytes 0 32)
        (padTo 64 (ecdsaSign (journalPrivate s) (sha256 (bytesAt r.bytes 0 32 ++ hashBytes r.prev)))) (hashBytes h)
      rwa [bytesAt_length, padTo, bytesAt_length] at hpart
  · have hdue : (s.jnl.erasing.head? == some k && !s.sys.pwrFail) = true := by rw [hk, hpwr]; simp
    have hflash : (eraseAhead (eraseDone s k)).jnl.flash = flashErase s.jnl.flash k := by
      rw [← storedFlash_view, eraseDone_flash s hk]
    refine ⟨_, congrArg Host.Outcome.next ((whenUp_eq _ hm).trans (if_pos hdue)), hflash, fun a => ?_⟩
    rw [hflash, flashGet_erased]

end Sys2Proof.Machine
end

section
/-!
Proof of the statement about sheet picks and their waits (O51): the pick takes the sheet where it stands in the ledger, and
what it does around it (bands, units, phase, the panic of the Steeps) leaves the ledger's entry and the sequencer's times
alone.
-/

namespace Sys2Proof.Machine
open Sys2Proof Sys2Proof.Safety

/-! ## The next sheet stands in the ledger (R388) -/

theorem nextPick_mem_sheets {s : State} {x : Fin 512 × Sheet} (h : nextPick s = some x) : x ∈ sheets s := by
  unfold nextPick at h
  refine List.foldlRecOn (motive := fun m => ∀ y, m = some y → y ∈ sheets s) (sheets s) _ (by simp) ?_ x h
  intro m hm y hy z hz
  split at hz
  · split at hz
    · split at hz
      · exact Option.some.inj hz ▸ hy
      · exact hm z hz
    · exact Option.some.inj hz ▸ hy
  · exact hm z hz

theorem nextPick_entry {s : State} {i : Fin 512} {e : Sheet} (h : nextPick s = some (i, e)) : s.led.entries[i] = some e :=
  entries_of_mem_sheets (nextPick_mem_sheets h)

/-! ## The pick (R194, R388, R389) -/

theorem takeUnits_seq (s : State) : (takeUnits s).seq = { s.seq with own := true } := by
  have hgear (u : State) : (gearPath u).seq = u.seq := same_seq (by simp)
  have hmotor (u : State) (g : Motor → Motor) : (u.modMotor 6 g).seq = u.seq := same_seq (by simp)
  have hown (u : State) : (ownPolygons u).seq = u.seq := same_seq (by simp)
  rw [takeUnits, hgear, hmotor, hown, State.modSeq_seq]

/-- The state at a pick when its units are taken, before PRINT is entered. -/
def pickedState (s : State) (i : Fin 512) (e : Sheet) : State :=
  let t := pickT s e
  let u := scheduleBands (s.modSheet i fun x => { x with t := some t, windows := pickWindows s e t, hold := false }) i t
  let u := u.modSeq fun q => { q with
    lastEnd := some (t + 16 * e.length), ends := ((e.order, t + 16 * e.length) :: q.ends).take 513, waitRaised := none,
    pauseRaised := 0, headWaited := none }
  takeUnits (if e.hold then phasePair u t else u)

theorem pickedState_sys (s : State) (i : Fin 512) (e : Sheet) : (pickedState s i e).sys = s.sys := by
  unfold pickedState
  exact same_sys (by simp)

theorem pickedState_led (s : State) (i : Fin 512) (e : Sheet) :
    (pickedState s i e).led = (s.modSheet i fun x => { x with
      t := some (pickT s e), windows := pickWindows s e (pickT s e), hold := false }).led := by
  unfold pickedState
  exact same_led (by simp)

theorem pickedState_seq (s : State) (i : Fin 512) (e : Sheet) :
    (pickedState s i e).seq.own = true ∧
      (pickedState s i e).seq.lastEnd = some (pickT s e + 16 * e.length) := by
  have hphase (u : State) : (if e.hold then phasePair u (pickT s e) else u).seq = u.seq := by
    split
    · exact same_seq (phasePair_view _ _ (by decide))
    · rfl
  unfold pickedState
  simp only [takeUnits_seq, hphase, State.modSeq_seq, and_self]

theorem pickSheet_eq {s : State} (i : Fin 512) (e : Sheet) (h : s.sys.mode = .ready) :
    pickSheet s i e = panicUpdate (enterMode (pickedState s i e) .print) := by
  have hmode : (pickedState s i e).sys.mode = .ready := by rw [pickedState_sys, h]
  have hif : (if (pickedState s i e).sys.mode == .ready then enterMode (pickedState s i e) .print else pickedState s i e) =
      enterMode (pickedState s i e) .print := if_pos (by rw [hmode]; decide)
  exact congrArg panicUpdate hif

/-- What begins PRINT after a pick leaves the ledger and the sequencer as the pick made them. -/
theorem printBegun_parts (u : State) :
    (panicUpdate (enterMode u .print)).led = u.led ∧ (panicUpdate (enterMode u .print)).seq = u.seq ∧
      (panicUpdate (enterMode u .print)).sys.mode = .print := by
  refine ⟨same_led (by simp), same_seq (by simp), ?_⟩
  rw [same_sys (panicUpdate_view _ (by decide) (by decide)), enterMode_sys]

theorem sheetPick_eq {s : State} {i : Fin 512} {e : Sheet} (hn : nextPick s = some (i, e)) (hw : waitCode s = 0)
    (hr : runoutStands s = false) : sheetPick s = pickSheet s i e := by
  unfold sheetPick
  rw [hn]
  exact if_pos (by rw [hw, hr]; decide)

theorem pickSheet_takesSheet {s : State} {i : Fin 512} {e : Sheet} (hn : nextPick s = some (i, e))
    (hm : s.sys.mode = .ready) :
    ∃ x, (pickSheet s i e).led.entries[i] = some x ∧ x.t = some (pickT s e) ∧ x.hold = false ∧
      (pickSheet s i e).sys.mode = .print ∧ (pickSheet s i e).seq.own = true ∧
      (pickSheet s i e).seq.lastEnd = some (pickT s e + 16 * e.length) ∧
      ∀ j, j ≠ i → (pickSheet s i e).led.entries[j] = s.led.entries[j] := by
  obtain ⟨hled, hseq, hmode⟩ := printBegun_parts (pickedState s i e)
  obtain ⟨hown, hlast⟩ := pickedState_seq s i e
  rw [pickSheet_eq i e hm, hled, hseq, pickedState_led, State.modSheet_led]
  refine ⟨{ e with t := some (pickT s e), windows := pickWindows s e (pickT s e), hold := false }, ?_, rfl, rfl, hmode,
    hown, hlast, fun j hj => updF_get_other _ _ _ _ hj⟩
  rw [updF_get_same, nextPick_entry hn, Option.map_some]

/-! ## The waits (R388, R390) -/

theorem pickWait_seq {s : State} (hw : waitCode s ≠ 0) (hn : s.seq.waitRaised ≠ nextOrder s) :
    (pickWait s).seq = { s.seq with waitRaised := nextOrder s } := by
  rw [pickWait, if_neg (by simp [hw, hn]), same_seq (raise_view _ _ _ (by decide)), State.modSeq_seq]

theorem pickPause_seq {s : State} (h2 : 2 ≤ waitCode s) (h5 : waitCode s ≤ 5) (hp : s.seq.pauseRaised ≠ waitCode s) :
    (pickPause s).seq = { s.seq with pauseRaised := waitCode s, flags := s.seq.flags ||| 0x4 } := by
  have hstick (u : State) : (u.stick 0x1A24 4).seq = u.seq := same_seq (State.stick_view _ _ _ (by decide))
  have hwithin : within 2 5 (waitCode s) = true := by simp [within, h2, h5]
  rw [pickPause, if_neg (by simp [hwithin, hp]), same_seq (raise_view _ _ _ (by decide)), hstick, State.modSeq_seq]

theorem headWait_seq {s : State} (hw : waitCode s = 5) : (headWait s).seq = { s.seq with headWaited := nextOrder s } := by
  rw [headWait, if_pos hw, State.modSeq_seq]

/-- Settles O51: the pick sets T in the entry of the sheet that nextPick names and enters PRINT after its units are taken; each
wait writes its own note of the sequencer, and its raise leaves the sequencer alone. -/
theorem pickRowsComplete : Obligations.PickRowsComplete := by
  intro s hm
  have hup (f : State → State) : Host.Outcome.next (whenUp s f) = (.next (f s) : Host.Outcome State Fault Refusal) :=
    congrArg Host.Outcome.next (whenUp_eq f hm)
  refine ⟨fun i e hn hw hr hready => ?_, fun hw hn => ⟨_, hup pickWait, pickWait_seq hw hn⟩,
    fun h2 h5 hp => ⟨_, hup pickPause, pickPause_seq h2 h5 hp⟩, fun hw => ⟨_, hup headWait, headWait_seq hw⟩⟩
  obtain ⟨x, hx⟩ := pickSheet_takesSheet hn hready
  exact ⟨_, x, (hup sheetPick).trans (congrArg Host.Outcome.next (sheetPick_eq hn hw hr)), hx⟩

end Sys2Proof.Machine
end
